-- ==== Sys2Proof/Word.lean ====
section
/-! DEFINITION. Word types of the package's registers, packets and memory (spec 00 R9, R11). -/

namespace Sys2Proof

/-- One byte of device memory or of a packet. -/
abbrev Byte := BitVec 8
/-- A 32-bit register, field or FP32 code. -/
abbrev Word := BitVec 32
/-- A 64-bit register or field. -/
abbrev DWord := BitVec 64
/-- A 256-bit register, mask or completion record. -/
abbrev W256 := BitVec 256
/-- A 512-bit register, descriptor or error record. -/
abbrev W512 := BitVec 512

end Sys2Proof
end

