-- ==== Sys2Proof/Syntax.lean ====
section
/-! DEFINITION. The commands of spec/opcode_table.json, one constructor a row, with their operands.
The table gives no row any bits, so a command is its constructor and what it brings from outside the
package (notes/assumptions/7.md): packets, host-read data, measurements, samples of pins. -/

namespace Sys2Proof

/-- The twelve tensor formats, in the order of their codes (R58). -/
inductive Format where
  | fp32 | bf16 | fp16 | e4m3 | e5m2 | mx8e4m3 | mx8e5m2 | mx6e3m2 | mx6e2m3 | mx4 | ib4 | ib3
  deriving DecidableEq, Repr

/-- Domain states, in the order of their codes (R357, R418). -/
inductive DomState where
  | bringup | test | service | recovery
  deriving DecidableEq, Repr

/-- A tile: compute die, physical core position, tile of the core (R107, R443). -/
structure TileAt where
  die : Nat
  core : Nat
  tile : Nat
  deriving DecidableEq, Repr

/-- One work item of a feeder: a contraction over lines 512 × group to 512 × group + 511 of an operation and output
columns 128 × block to 128 × block + 127, run as one pass for each chunk of 128 contraction indices (R94, R99, R100,
R113, R449). -/
structure WorkItem where
  draft : Bool
  index : Nat
  /-- Local expert of an EXPERT operation. -/
  expert : Option Nat
  group : Nat
  block : Nat
  deriving DecidableEq, Repr

/-- What core store returns for one checked piece of a work item, by its number in the item, where a read differs from
device memory: the first read and the second (R105). -/
structure CoreRead where
  piece : Nat
  first : Option (List Byte)
  second : Option (List Byte)
  deriving DecidableEq, Repr

/-- A failure that a tile, core or core-store read shows: an uncorrectable read of one of the 64 banks of 64 KiB, or a
failed residue check (R3, R272, R451). -/
inductive CoreFault where
  | storeUncorr (bank : Nat)
  | residue
  /-- An uncorrectable line of the die store: the device address of the line. -/
  | dieLine (addr : Nat)
  deriving DecidableEq, Repr

/-- What a batch forming meets outside the package: prompt tokens of host arrays, none where the read
failed (R334), and sequence-table records one copy of which could not be read (R195). -/
structure BoundaryIn where
  prompts : List (Nat × Option (List Word))
  badCopy : List Nat
  deriving DecidableEq, Repr

/-- A routing packet: header fields of R181 and payload, with the node it came from. -/
structure RoutePkt where
  src : Nat
  steep : Word
  layer : Nat
  homeNode : Nat
  ptype : Nat
  slot : Nat
  expert : Nat
  elems : Nat
  localExpert : Nat
  tag : Word
  fmt : Nat
  rowScale : Word
  count : Nat
  payload : List Byte
  deriving DecidableEq, Repr

/-- One expert home table entry (R171), reserved bits kept. -/
structure HomeEntry where
  homeNode : Nat
  homeLocal : Nat
  shadowValid : Bool
  shadowNode : Nat
  shadowLocal : Nat
  capacity : Nat
  deriving DecidableEq, Repr

/-- A home table revision as the manager distributes it. -/
structure HomeRev where
  rev : Word
  members : List Nat
  entries : List HomeEntry
  deriving DecidableEq, Repr

/-- A chunk header of a weight image (R294). -/
structure ChunkHdr where
  winOffset : Nat
  length : Nat
  kind : Nat
  tag : BitVec 128
  copyFrom : Nat
  /-- Every reserved field is 0. -/
  rsvdOk : Bool
  deriving DecidableEq, Repr

/-- A weight image header with its key block (R294, R492). -/
structure ImageHdr where
  formatVer : Word
  generation : Word
  attnGeom : DWord
  winBytes : Nat
  chunks : Nat
  rsvdOk : Bool
  keyBlock : List Byte
  deriving DecidableEq, Repr

/-- What `BUILD_CHUNK` reads of the image: the image header before the first chunk, or one chunk. -/
inductive BuildIn where
  | header (h : ImageHdr)
  /-- `bad` are the source's sectors of 512 window bytes, by number, that a copy reads uncorrectable (R292). -/
  | chunk (h : ChunkHdr) (payload : List Byte) (bad : List Nat)
  | hostFail
  deriving DecidableEq, Repr

/-- A discovery frame (R379). -/
structure Frame where
  kind : Nat
  mgrPrio : Nat
  elected : Bool
  conflict : Bool
  node : Nat
  manager : Nat
  epoch : Nat
  link : Nat
  variant : Nat
  lanes : Nat
  swPort : Nat
  targetPort : Nat
  plane : Nat
  assignNode : Nat
  standby : Nat
  count : Nat
  dest : Nat
  lastSteep : Word
  lsValid : Bool
  /-- The frame's CRC-32 passes and its reserved fields are 0. -/
  intact : Bool
  /-- KIND: 0 package, 1 first-stage switch, 2 outer-stage switch. -/
  senderKind : Nat
  deriving DecidableEq, Repr

/-- A fabric packet: header fields of R394 and payload. -/
structure FabPkt where
  op : Nat
  src : Nat
  dst : Nat
  srcDie : Nat
  cacheable : Bool
  nocache : Bool
  raw : Bool
  retry : Bool
  rsvd : BitVec 2
  tag : Word
  dseq : Word
  status : BitVec 16
  asub : Nat
  asize : Bool
  lenM1 : Nat
  addr : DWord
  operand : DWord
  payload : List Byte
  deriving DecidableEq, Repr

/-- A flit as received: header of R371, good or touched by an uncorrectable codeword. -/
structure Flit where
  ftype : Nat
  vc : Nat
  rsvd : BitVec 2
  seq : Nat
  ack : Nat
  payload : List Byte
  clean : Bool
  deriving DecidableEq, Repr

/-- Result of the training steps of R368 to R370 as the lanes measured them. -/
structure TrainResult where
  /-- Classes that both ends' CLASS_ALLOW fields allow and that pass, by code 1 to 3. -/
  peerAllow : BitVec 3
  passes : BitVec 3
  /-- Lanes that pass. -/
  lanes : BitVec 4
  /-- The link returned its own pattern. -/
  loop : Bool
  deriving DecidableEq, Repr

/-- Readings of the temperature sensors in whole degrees Celsius, die by die: 32 on a compute die, 8 on an I/O die, 4 on a base
die, 2 on a caddy die (R478). -/
structure TempMeas where
  compute : List (List Int)
  io : List (List Int)
  base : List (List Int)
  caddy : List (List Int)
  deriving DecidableEq, Repr

/-- One window's measurements of the kettle (R467, R475), in watts, fronts and M beats/s. -/
structure WindowMeas where
  pIn : Nat
  vin_mV : Nat
  pRails : Nat
  pVlink : Nat
  pVmem : Nat
  pVcore : Nat
  pVio : Nat
  pVcaddy : Nat
  pCoreMin : Nat
  frontsIssued : Nat
  demandFronts : Nat
  /-- Allowance that holds each die's VCORE at 900 A, from its measured current per front. -/
  dieCap : List Nat
  beatRate : List Nat
  temps : TempMeas
  deriving DecidableEq, Repr

/-- Causes of `FIRST_STAGE_OPEN` (R466); rails counted from 0 in the order of the table "Rails". -/
inductive OpenCause where
  | vinRange
  | busCurrent
  | railCurrent (rail : Nat)
  deriving DecidableEq, Repr

/-- Causes of a link going down (R374). -/
inductive DownCause where
  | laneLock | resends | peerStopped
  deriving DecidableEq, Repr

/-- A fuse field that fails the check of R487. -/
inductive FuseField where
  | debugLock | trustedOk | alarmAction (copyA copyB : Nat) | startMode (copyA copyB : Nat)
  | keyValid (slot : Nat) | fwkeyHash (slot : Nat) | rollback | secret
  deriving DecidableEq, Repr

/-- Straps sampled at the end of a reset (R520). -/
structure Straps where
  mgrPrio : Nat
  seqStart : Bool
  bootHost : Bool
  i3cSa : Nat
  deriving DecidableEq, Repr

/-- Result of a burst read by patrol scrub (R273). -/
inductive BurstResult where
  | clean | corrected | uncorrectable
  deriving DecidableEq, Repr

/-- Result of a granule read from its tier (R278, R285, R292). -/
structure FillIn where
  /-- The tier returned nothing. -/
  failed : Bool
  /-- Bytes that the read returned, where they differ from the tier's. -/
  bytes : Option (List Byte)
  /-- A sector was corrected. -/
  corrected : Bool
  deriving DecidableEq, Repr

/-- Local atomic operations (R275), in the order of ASUB (R394). -/
inductive AtomicOp where
  | fetchAdd | swap | cas | min | max
  deriving DecidableEq, Repr

/-- One plane-map entry: a numbered package, its planes and its direct peers (R385). -/
structure PlaneEntry where
  node : Nat
  planes : List Nat
  peers : List Nat
  deriving DecidableEq, Repr

/-- Alarm sources, in the order of their SOURCES bits (R494). -/
inductive AlarmSource where
  | tamperMesh | enclosure | supplyGlitch | storageTemp | fuseIntegrity
  deriving DecidableEq, Repr

/-- An SPDM request as the responder's transport delivers it: its parameter bytes and body. -/
structure SpdmReq where
  /-- The request came inside the secured session of this number; none when in clear. -/
  session : Option Nat
  param1 : Nat
  param2 : Nat
  body : List Byte
  /-- The AEAD record of a secured request opened correctly. -/
  authentic : Bool
  deriving DecidableEq, Repr

/-- What a long operation meets outside the package at a safe point or at its end: host data of a copy, a failed
host read, and caddy segments (die, physical segment) with uncorrectable or corrected sectors (R310, R311). -/
structure OpIn where
  hostData : List Byte
  hostFail : Bool
  lostSegs : List (Nat × Nat)
  fixedSegs : List (Nat × Nat)
  deriving DecidableEq, Repr

/-- What a package that joins tells the manager of its weights: MEM_GEN_CURRENT, and the generation of its idle bank where that
is built (R308, notes/assumptions/53.md). -/
structure GenReport where
  current : Word
  idle : Option Word
  deriving DecidableEq, Repr

/-- Mnemonics of the command table, one constructor a row. -/
inductive Instr where
  -- the steep
  | release (inp : BoundaryIn)
  | openingRelease (inp : BoundaryIn)
  | adoptionRecord
  | draftPass
  | operationIssue (draft : Bool) (index : Nat) (expert : Option Nat) (readFails : Bool)
  | operationOutput (draft : Bool) (index : Nat) (expert : Option Nat)
  | normEscalation (index : Nat)
  | verifyAndSample
  | stageOutputs
  | routingAdmission (layer : Nat)
  | dispatch (p : RoutePkt)
  | dispEnd (p : RoutePkt)
  | pourSend (src expert slot : Nat)
  | pour (p : RoutePkt)
  | pourEnd (p : RoutePkt)
  | homeTableCheck (r : HomeRev)
  | feederWorkItem (at_ : TileAt) (item : WorkItem) (reads : List CoreRead) (fault : Option CoreFault)
  | leafRefetch (at_ : TileAt) (first second : Option (List Byte))
  | granuleRefetch (at_ : TileAt) (first second : FillIn)
  | cosyRampDown (at_ : TileAt) (gapBeats steps : Nat)
  | cosyRampUp (at_ : TileAt)
  | beatStall (at_ : TileAt)
  | delayLineCalibration (die : Nat)
  | engineFailover (primaryLost : Bool)
  | seqTableRebuild
  -- memory tiers; a requester below 2²⁰ is the sequence whose work reads
  | granuleMiss (addr : Nat) (requester : Nat)
  | granuleFillComplete (addr : Nat) (first second : FillIn)
  | swapPrefill (granule : Nat) (fill : FillIn)
  | patrolScrub (addr : Nat) (r : BurstResult)
  | clearingScrub
  | localAtomic (op : AtomicOp) (wide : Bool) (addr : Nat) (operand compare : DWord)
  | channelLoss (channel : Nat)
  -- caddy
  | caddyOpen
  | buildChunk (handle : Nat) (inp : BuildIn)
  | swapArmReceive (generation : Word) (r : HomeRev)
  | swapArmReply (node : Nat) (failed : Nat)
  | swapArmTimeout (node : Nat)
  | quickQuiesce
  -- host rings
  | sqTail (ring : Nat) (tail : BitVec 16)
  | cqHead (ring : Nat) (arm : Bool) (head : BitVec 20)
  | descriptorRead (ring : Nat) (desc : Option W512)
  | nop (ring : Nat)
  | modelLoad (ring : Nat)
  | modelUnload (ring : Nat)
  | swapArm (ring : Nat)
  | swapDisarm (ring : Nat)
  | tenantSet (ring : Nat)
  | tenantRemove (ring : Nat)
  | tenantQuery (ring : Nat)
  | steerSet (ring : Nat)
  | seqOpen (ring : Nat)
  | seqPrompt (ring : Nat)
  | seqSet (ring : Nat)
  | seqClose (ring : Nat)
  | seqCancel (ring : Nat)
  | seqQuery (ring : Nat)
  | objectSet (ring : Nat)
  | bulkCopy (ring : Nat)
  | bulkConvert (ring : Nat)
  | bulkCompress (ring : Nat)
  | weightInstall (ring : Nat)
  | swapBuild (ring : Nat)
  | caddyScrub (ring : Nat)
  | opSuspend (ring : Nat)
  | opResume (ring : Nat)
  | opCancel (ring : Nat)
  | opQuery (ring : Nat)
  | longOpSafePoint (handle : Nat) (done : Nat) (inp : OpIn)
  | longOpComplete (handle : Nat) (inp : OpIn)
  | syncAdd (ring : Nat)
  | syncWait (ring : Nat)
  | syncTimeout (index : Nat)
  | msgSend (ring : Nat)
  | moderationTimeout (ring : Nat)
  -- set-up registers
  | ringEnable (ring : Nat) (value : Word)
  | ringDisable (ring : Nat) (value : Word)
  | ringDrainComplete (ring : Nat)
  | overflowClear (ring : Nat) (value : Word)
  | registerWrite (offset size : Nat) (value : DWord)
  | lowWordRead (offset size : Nat)
  | memSliceWrite (offset : Nat) (value : Word)
  | memClassChCommit (cls : Nat) (word15 : Word)
  | exportStore (value : Word)
  | exportLoad (value : Word)
  | trustedEnWrite (value : Word)
  | pwrCapWrite (value : Word)
  | dbgInject (value : Word)
  | errLogSel (value : Word)
  | errRingHead (value : Word)
  | hifBootGo (value : Word)
  -- links and discovery
  | linkEnable (link : Nat) (value : Word)
  | linkDisable (link : Nat) (value : Word)
  | linkTrainingComplete (link : Nat) (r : TrainResult)
  | flitReceive (link : Nat) (f : Flit)
  | controlFlit (link : Nat) (f : Flit) (nak : Option Nat) (credits : List Nat)
  | linkAckTimeout (link : Nat)
  | creditReturn (link : Nat)
  | linkDown (link : Nat) (cause : DownCause)
  | linkRetrainExhausted (link : Nat)
  | helloSend
  | hello (link : Nat) (f : Frame)
  | claimSend
  | claim (link : Nat) (f : Frame)
  | electionTimeout
  | query (link : Nat) (f : Frame)
  | reply (link : Nat) (f : Frame)
  | queryTimeout
  | assign (link : Nat) (f : Frame)
  | assignAck (link : Nat) (f : Frame)
  | linkReport (link : Nat) (f : Frame) (gens : Option GenReport)
  | join (link : Nat) (f : Frame) (gens : Option GenReport) (order : Option Word)
  | memberMask (mask : W256) (planes : List PlaneEntry) (adds : Bool)
  -- fabric
  | loadIssue (die engine : Nat) (addr : DWord) (len : Nat) (nocache raw : Bool) (compl : Nat)
  | storeIssue (die engine : Nat) (addr : DWord) (data : List Byte) (raw : Bool) (compl : Nat)
  | atomicIssue (die engine : Nat) (op : AtomicOp) (wide : Bool) (addr operand compare : DWord) (raw : Bool) (compl : Nat)
  | invalidateIssue (die engine : Nat) (addr : DWord) (len : Nat) (nodes : W256) (compl : Nat)
  | invalidateWaitTimeout (index : Nat)
  | ownXferIssue (die engine : Nat) (node job owner : Nat) (compl : Nat)
  | fence (die engine : Nat) (compl : Nat)
  | fenceTimeout (index : Nat)
  | load (p : FabPkt)
  | store (p : FabPkt)
  | atomic (p : FabPkt)
  | invalidate (p : FabPkt)
  | ownXfer (p : FabPkt)
  | fabricResponse (p : FabPkt)
  | fabricRetry (tag : Word)
  | replayEntryExpiry (src : Nat) (die : Nat) (tag : Word)
  | message (p : FabPkt)
  | messageAck (p : FabPkt)
  | messageRetry (index : Nat)
  -- domain
  | enterTest (othersReady : Bool)
  | enterService (othersReady : Bool)
  | returnToBringup
  | adoptHomeTable (refused : List (Nat × Nat))
  | steepClose (refused : List (Nat × Nat))
  | releasePost
  | replicationRecord
  | standbyTakeover
  | barrierArrivalTimeout (node : Nat)
  | leaveNotice
  | mgmtWatchdogExpiry
  | tclkLost
  | tclkRestore
  -- power
  | kettleWindowEnd (m : WindowMeas)
  | vcoreStep
  | thermalLimitUpdate (temps : TempMeas)
  | droopTrip (die detector : Nat)
  | droopRelease (die detector : Nat)
  | pwrBrakeAssert (chatter : Bool)
  | pwrBrakeRelease
  | brakeHeld
  | thermalTrip (unit die position : Nat)
  | firstStageOpen (cause : OpenCause)
  -- security
  | fuseCheck (failed : List FuseField)
  | secAlarm (source : AlarmSource) (chatter : Bool)
  | ideIntegrityFailure
  | getVersion (r : SpdmReq)
  | getCapabilities (r : SpdmReq)
  | negotiateAlgorithms (r : SpdmReq) (selected : List Nat)
  | getDigests (r : SpdmReq)
  | getCertificate (r : SpdmReq) (slot offset length : Nat)
  | challenge (r : SpdmReq) (slot : Nat)
  | getMeasurements (r : SpdmReq) (index : Nat) (sign : Bool)
  | keyExchange (r : SpdmReq)
  | finish (r : SpdmReq)
  | keyUpdate (r : SpdmReq)
  | heartbeat (r : SpdmReq)
  | endSession (r : SpdmReq)
  | chunkSend (r : SpdmReq) (handle seqNo : Nat) (last : Bool) (total : Nat)
  | chunkGet (r : SpdmReq) (handle seqNo : Nat)
  | vendorDefinedRequest (r : SpdmReq) (ideKm : Bool) (keySet : List Byte)
  | spdmUnsupportedRequest (r : SpdmReq) (code : Nat)
  -- start-up, pins and sideband
  | powerOnReset
  | pkgResetN
  | packageResetRelease (straps : Straps)
  | perstN (chatter : Bool)
  | perstNDeassert
  | emergencyOffN (chatter : Bool)
  | traySenseN (chatter : Bool)
  | traySenseDeassert
  | rackPgChange (input : Nat) (high : Bool)
  | startGateMet (vinOk : Bool)
  | pkgPgHigh (failed : List FuseField)
  | bootImageVerify (image : Option (List Byte))
  | coreTileTest (cores : List (BitVec 64)) (tiles : List (BitVec 128))
  | hbmTrainTest (lost : W512)
  | setdasa (addr : Nat)
  | setaasa
  | setEndpointId (eid : Nat)
  | getEndpointId
  | getMctpVersionSupport
  | getMessageTypeSupport
  | getVendorDefinedMessageSupport
  | read (count : Nat) (rsvd : BitVec 16) (arg : Word)
  | rackCap (rsvd : BitVec 16) (arg : Word)
  | factoryTest (rsvd : BitVec 16)
  | bypass
  | idcode
  | samplePreload (sample : Bool) (cells : List Bool)
  | extest (cells : List Bool)
  | trstN
  | managementProcessorResetEnd
  | vaonLoss
  | emergencyOffDeassert
  | alarmInputDeassert (source : AlarmSource)
  | doeDiscovery (index : Nat)
  deriving DecidableEq, Repr

end Sys2Proof
end

