-- ==== Sys2Proof/Config.lean ====
section
/-! DEFINITION. What the specification leaves open, as constants with no body: nothing in Lean can
evaluate them, so no statement can rest on a value of theirs (notes/assumptions/10.md, 11.md). -/

namespace Sys2Proof.Config

/-- AES-256-XTS decryption of one data unit under the caddy key and tweak (R293). The standard is named, not given. -/
opaque xtsOpen : (key : W512) → (tweak : BitVec 128) → List Byte → List Byte
/-- AES-256-XTS encryption of one data unit (R293). -/
opaque xtsSeal : (key : W512) → (tweak : BitVec 128) → List Byte → List Byte
/-- AES-256-GCM decryption: key, nonce, additional data, ciphertext (R295). -/
opaque gcmOpen : (key : W256) → (nonce : BitVec 96) → (aad : List Byte) → List Byte → List Byte
/-- The AES-256-GCM tag over additional data and ciphertext (R295). -/
opaque gcmTag : (key : W256) → (nonce : BitVec 96) → (aad : List Byte) → List Byte → BitVec 128
/-- SHAKE256 with 256-bit output (R298, R486). -/
opaque shake256 : List Byte → W256
/-- SHAKE256 with 512-bit output (R500). -/
opaque shake512 : List Byte → W512
/-- ML-KEM-1024 decapsulation under the key pair of a seed secret (R492). -/
opaque kemDecaps : (secret : W256) → (ct : List Byte) → W256
/-- The ML-KEM-1024 encapsulation key of the part (R489). -/
opaque kemPublic : (secret : W256) → List Byte
/-- Falcon-1024 verification (R500). -/
opaque falconVerify : (pub : List Byte) → (msg : W512) → (sig : List Byte) → Bool
/-- Falcon-1024 signature by the attestation key of a device secret (R504). -/
opaque falconSign : (secret : W256) → List Byte → List Byte
/-- Bodies of SPDM responses whose bytes the cited standard fixes, not the manual (R504). -/
opaque spdmBody : (code : Nat) → (request : List Byte) → List Byte
/-- Versions that MCTP Get MCTP Version Support lists: the standard's, not the manual's (R529). -/
opaque mctpVersions : List Byte
/-- The boot ROM's bytes, measured under R505. -/
opaque bootRom : List Byte
/-- The certificate chain of a slot (R504). -/
opaque certChain : (slot : Nat) → (secret : W256) → List Byte
/-- A byte of host memory that backs a host object, unchanged while the object is valid (R285). -/
opaque hostByte : (pasid addr : Nat) → Byte
/-- Free values: draw `n` of the model's counter. -/
opaque freeNat : Nat → Nat
/-- Entropy drawn at install (R491). -/
opaque freeKey : Nat → W256

/-- Cosine and sine for a frequency that is not finite: the specification states none (R130). -/
opaque openAngle : (p : Nat) → (f : Word) → Word × Word
/-- Sequence ID and position that the stochastic-rounding generator counts for a line received from another package:
the dispatch carries neither (R78, R181). -/
opaque receivedIds : (src expert slot : Nat) → Nat × Nat
/-- Element codes of a block that a conversion makes NaN by its scale: the specification states none (R72). -/
opaque nanBlockCode : (fmt index : Nat) → Nat

/-- A weight operand at this address is a compressed tensor, not a plain one: the specification says that a
record may name either, not how the two are told apart (R35, notes/assumptions/21.md). -/
opaque compressedAt : (addr : Nat) → Bool

/-- Tensor scale of a plain block-scaled tensor that a record names by its address alone: the specification gives
the record no field for it (R35). -/
opaque plainScale : (addr : Nat) → Word

end Sys2Proof.Config
end

