-- ==== Sys2Proof/Machine/Tab.lean ====
section
/-! DEFINITION. Sparse tables: a list of (index, entry) pairs with rising indices. -/

namespace Sys2Proof.Machine

/-- A sparse table: entries by index, indices strictly rising; an absent index reads as a default. -/
abbrev Tab (α : Type) := List (Nat × α)

/-- The entry at an index. -/
def Tab.find? {α : Type} : Tab α → Nat → Option α
  | [], _ => none
  | (i, a) :: t, k => if i = k then some a else Tab.find? t k

/-- The entry at an index, `d` where there is none. -/
def Tab.get {α : Type} (t : Tab α) (d : α) (k : Nat) : α := (t.find? k).getD d

/-- Set the entry at an index, in order. -/
def Tab.set {α : Type} : Tab α → Nat → α → Tab α
  | [], k, v => [(k, v)]
  | (i, a) :: t, k, v =>
    if k < i then (k, v) :: (i, a) :: t
    else if k = i then (k, v) :: t
    else (i, a) :: Tab.set t k v

/-- Remove the entry at an index. -/
def Tab.erase {α : Type} : Tab α → Nat → Tab α
  | [], _ => []
  | (i, a) :: t, k => if i = k then t else (i, a) :: Tab.erase t k

/-- Apply a function to every entry. -/
def Tab.mapVals {α : Type} (t : Tab α) (f : Nat → α → α) : Tab α := t.map fun p => (p.1, f p.1 p.2)

/-- The indices with an entry. -/
def Tab.keys {α : Type} (t : Tab α) : List Nat := t.map Prod.fst

/-- The lowest natural number of `0 .. n-1` not in the list; `n` when all are. -/
def lowestFree (used : List Nat) (n : Nat) : Nat :=
  ((List.range (min n (used.length + 1))).find? fun i => !used.contains i).getD n

end Sys2Proof.Machine
end

