-- ==== Sys2Proof/Machine/State.lean ====
section
/-! DEFINITION. The state of the package as plain data, grouped by chapter of the specification. Every
field's default is its value at reset; notes/assumptions say where the specification states none. -/

namespace Sys2Proof.Machine

/-- No command of this model stops: a package that holds or is stopped leaves its state unchanged. -/
inductive Fault where
  /-- Raised by nobody: the specification gives the block no stop of the machine (safe). -/
  | none_
  deriving DecidableEq, Repr

/-- Reasons a command has no meaning. -/
inductive Refusal where
  /-- Raised by the dispatcher for a row without a meaning, by the row's mnemonic (safe). -/
  | notModelled (mnemonic : String)
  deriving DecidableEq, Repr

/-! ## What leaves the package -/

/-- What the package sends: entries of `State.out`, oldest first (notes/assumptions/8.md). -/
inductive Out where
  /-- A posted write to host memory (R539). -/
  | hostWrite (pasid : Option Nat) (addr : DWord) (bytes : List Byte)
  /-- An MSI-X message (R326). -/
  | msix (vector : Nat)
  /-- A fabric packet as a link takes it; its flits follow (R377, R394). -/
  | fab (link : Nat) (p : FabPkt)
  /-- A fabric packet that the agent's loopback gives back to the package itself. -/
  | fabLocal (p : FabPkt)
  /-- A routing packet as a link takes it; its flits follow (R181, R377). -/
  | route (link : Nat) (p : RoutePkt)
  /-- A routing packet that stays on the package (R181). -/
  | local_ (p : RoutePkt)
  /-- A discovery frame on a link (R379). -/
  | frame (link : Nat) (f : Frame)
  /-- A data or discovery flit sent or resent on a link (R372). -/
  | flit (link vc seq : Nat) (payload : List Byte)
  /-- A control flit: acknowledgement, NAK and credits (R371, R373). -/
  | control (link : Nat) (ack : Nat) (nak : Option Nat) (credits : List Nat)
  /-- A fabric completion handed to the unit that issued the request (R413). -/
  | completion (die engine : Nat) (addr : Nat) (bytes : List Byte)
  /-- Data of a load handed to its unit (R406). -/
  | loadData (die engine : Nat) (addr : DWord) (bytes : List Byte)
  /-- A distribution of the manager to a member: mask, plane map, revisions, arm, standby (R385, R305). -/
  | member (node : Nat) (kind : Nat) (words : List DWord)
  /-- An SPDM response: code, parameters and body (R504). -/
  | spdm (session : Option Nat) (code param1 param2 : Nat) (body : List Byte)
  /-- A DOE data object (R316). -/
  | doe (bytes : List Byte)
  /-- A sideband or MCTP response: status and words (R529, R530). -/
  | sideband (status : Nat) (words : List Word)
  /-- An MCTP control response: completion code and data (R529). -/
  | mctp (code : Nat) (data : List Byte)
  /-- What TDO shifts out (R532). -/
  | tdo (bits : List Bool)
  /-- A status pin driven to a level (R508, R533). -/
  | pin (name : String) (high : Bool)
  /-- A value read of a set-up register (R344). -/
  | readData (value : DWord)
  /-- Answer to an atomic of a unit of the package: status and the value before (R275). -/
  | atomic (status : Nat) (old : DWord)
  /-- Data served to a unit that read memory (R278). -/
  | served (requester : Nat) (addr : Nat)
  deriving DecidableEq, Repr

/-! ## The part, time and the host interface -/

/-- What is fixed for the part: variant, stepping, fuses (R2, R349, R486). -/
structure Part where
  variant : Nat := 1
  stepMajor : Nat := 1
  stepMinor : Nat := 0
  debugLock : Bool := false
  trustedOk : Bool := false
  alarmAction : Nat := 0
  startMode : Nat := 0
  keyValid : BitVec 2 := 0
  rollback : Nat := 0
  fwHash0 : W256 := 0
  fwHash1 : W256 := 0
  secret : W256 := 0
  deriving DecidableEq, Repr

/-- Timer, clock loss and beat-stall calibration (R47 to R56). -/
structure Time where
  count : DWord := 0
  tclkLost : Bool := false
  /-- Counter at the last switch of clock. -/
  switchedAt : Option DWord := none
  /-- Core-rail voltage of each die at the last calibration, in mV (R56). -/
  calMv : List Nat := [750, 750, 750, 750]
  deriving DecidableEq, Repr

/-- The first page of BAR0, the boot window and the staging of wide registers (R344 to R349). -/
structure Hif where
  mgmtRun : Bool := false
  bootWait : Bool := false
  fwVer : Word := 0
  /-- SHAKE256 over the running image (R505). -/
  fwDigest : W256 := 0
  refReason : Nat := 0
  refOffset : Nat := 0
  refCnt : Word := 0
  backlogBase : DWord := 0
  backlogSize : DWord := 0
  bootLength : Nat := 0
  /-- The boot window, by byte offset; an unlisted byte is 0. -/
  bootWin : List Host.Cell := []
  /-- Latched words of wide registers, by BAR0 offset (R344). -/
  latch : Tab Word := []
  /-- Staged words, by BAR0 offset (R344, R355). -/
  staged : Tab Word := []
  deriving DecidableEq, Repr

/-- A ring pair: its registers (R350) and what its engine keeps (R319 to R326, R337). -/
structure RingPair where
  enable : Bool := false
  draining : Bool := false
  priv : Bool := false
  pasidEn : Bool := false
  overflow : Bool := false
  cqLog2 : Nat := 0
  sqLog2 : Nat := 0
  tenant : Nat := 0
  pasid : Nat := 0
  sqBase : DWord := 0
  cqBase : DWord := 0
  shadow : DWord := 0
  vector : Nat := 0
  modCount : Nat := 1
  modTime : Nat := 0
  sqHead : Nat := 0
  sqTail : Nat := 0
  cqHead : Nat := 0
  cqTail : Nat := 0
  phase : Bool := true
  /-- Completion entries reserved for accepted descriptors (R323). -/
  reserved : Nat := 0
  /-- Times of the records written and not consumed, oldest first (R326). -/
  unread : List DWord := []
  armed : Bool := false
  /-- Reading stopped by a failed descriptor read (R322). -/
  stopped : Bool := false
  drop : DWord := 0
  /-- Records waiting for an entry, oldest first, with PHASE not yet set (R337). -/
  backlog : List W256 := []
  /-- Accepted descriptors other than long operations past ACCEPTED that have not completed (R324). -/
  open_ : Nat := 0
  deriving DecidableEq, Repr

/-- An accepted descriptor no row has acted on yet (notes/assumptions/15.md). -/
structure Accepted where
  ring : Nat
  desc : W512
  deriving DecidableEq, Repr

/-- Why an acted-on descriptor has not completed. -/
inductive WaitFor where
  /-- It takes effect at the next cut (R26). -/
  | cut
  /-- Threshold, and deadline if it has a TIMEOUT (R433). -/
  | sync (object : Nat) (threshold : DWord) (start : DWord) (timeout : Nat)
  /-- Every granule of the pinned object resident (R282). -/
  | pin (object : Nat)
  /-- Acknowledgement of a message (R415). -/
  | message (number : Nat) (port : Nat) (dest : DWord)
  /-- The switch, a refusal or an abort (R305). -/
  | arm
  /-- Records of a closed sequence that wait in the backlog; sequence and committed length (R336). -/
  | records (seq committed : Nat)
  deriving DecidableEq, Repr

/-- A descriptor that waits, holding its completion entry. -/
structure Waiting where
  ring : Nat
  desc : W512
  what : WaitFor
  deriving DecidableEq, Repr

/-- States of a long operation, coded 0 to 4 (R333, R341). -/
inductive OpState where
  | running | suspendPending | suspended | cancelPending | resumePending
  deriving DecidableEq, Repr

/-- The work of a long operation. -/
inductive OpKind where
  | copy | convert | compress | install | build | scrub | prefill (seq : Nat)
  deriving DecidableEq, Repr

/-- A control descriptor that waits for its operation (R341). -/
structure OpControl where
  ring : Nat
  tag : Word
  quiet : Bool
  deriving DecidableEq, Repr

/-- An unfinished long operation (R338 to R341). -/
structure LongOp where
  kind : OpKind
  ring : Nat
  tag : Word
  quiet : Bool
  desc : W512
  state : OpState := .running
  done : Nat := 0
  total : Nat := 0
  /-- Controls that wait for the pending change, oldest first. -/
  waiters : List OpControl := []
  /-- The parameter block of a convert or compress, as read at acceptance (R328). -/
  param : List Byte := []
  /-- Rates that pass 1 of a compress has chosen, one for each segment it finished, in order (R258). -/
  rates : List Nat := []
  deriving DecidableEq, Repr

/-! ## Model, sequences and the steep -/

/-- A loaded model: the words of MODEL_LOAD, header and records as read at load (R34, R35). -/
structure Model where
  steepProg : Nat
  attnGeom : DWord
  routing : DWord
  floor : Word
  wire : Word
  /-- The 256 bytes of the header. -/
  header : List Byte
  /-- The 128 bytes of each record of the draft list and of the main list. -/
  draftOps : List (List Byte)
  mainOps : List (List Byte)
  deriving DecidableEq, Repr

/-- Sequence states, in the order of their codes (R200). -/
inductive SeqState where
  | free | idle | prefill | decode | finished | lost
  deriving DecidableEq, Repr

/-- A sequence record (R200) with what the engine keeps beside it. -/
structure SeqRec where
  state : SeqState := .free
  paused : Bool := false
  held : Bool := false
  suspended : Bool := false
  priority : Nat := 0
  cls : Nat := 0
  tenant : Nat := 0
  goal : Nat := 0
  committed : Nat := 0
  dirBlock : Word := 0xFFFFFFFF
  maskAddr : DWord := 0
  promptAddr : DWord := 0
  promptRemain : Nat := 0
  newMax : Nat := 0
  newCount : Nat := 0
  stop0 : Word := 0xFFFFFFFF
  stop1 : Word := 0xFFFFFFFF
  ring : Nat := 0
  userTag : DWord := 0
  sampleSeed : DWord := 0
  temp : Word := 0
  topk : Nat := 0
  normF : Bool := false
  normE : Bool := false
  draftLen : Nat := 0
  zeroRun : Nat := 0
  probeCnt : Nat := 0
  draftOff : Bool := false
  pauseSteep : Word := 0
  lastCommit : Word := 0
  opHandle : Word := 0
  /-- The prompt lies in device memory (TOK_DEV of R330). -/
  tokDev : Bool := false
  /-- Position at which the prompt in progress began (R209). -/
  promptStart : Nat := 0
  /-- The last committed token, the line of the next decode steep. -/
  lastToken : Word := 0
  /-- The token before it, the first line of the sequence's draft pass 1 (R231). -/
  prevToken : Word := 0
  /-- A close or cancel has been accepted and the record not yet freed (R206). -/
  closing : Bool := false
  /-- KV frames by (layer group, index) order of reservation, and list blocks held (R146). -/
  frames : List Nat := []
  blocks : List Nat := []
  /-- The held frames and blocks are released at the next release (R203, R149). -/
  freePages : Bool := false
  deriving DecidableEq, Repr

/-- A tenant entry (R219). -/
structure Tenant where
  valid : Bool := false
  openSeqs : Nat := 0
  cls : Nat := 0
  steerDir : DWord := 0
  jobs : DWord := 0
  steerVer : Word := 0
  deriving DecidableEq, Repr

/-- The serving limits (R211, R214, R230). -/
structure Limits where
  lineBudget : Nat := 32768
  chunkLen : Nat := 2048
  predBase : Nat := 0
  predLine : Nat := 0
  predKey : Nat := 0
  draftMax : Nat := 4
  deriving DecidableEq, Repr

/-- Serving limits as written and as in force since the last cut, and the counters (R352). -/
structure Serve where
  written : Limits := {}
  inForce : Limits := {}
  steepTime : Word := 0
  goalMiss : DWord := 0
  deferred : DWord := 0
  draftProposed : DWord := 0
  draftAccepted : DWord := 0
  draftSteeps : DWord := 0
  draftOffs : DWord := 0
  draftProbes : DWord := 0
  draftProbeWins : DWord := 0
  deriving DecidableEq, Repr

/-- KV pool of a class: registers as written, and the frames and blocks not withdrawn (R286, R353). -/
structure KvPool where
  frameBase : DWord := 0
  setFrames : Nat := 0
  frames : Nat := 0
  listBase : DWord := 0
  setBlocks : Nat := 0
  blocks : Nat := 0
  deriving DecidableEq, Repr

/-- The sequence engine: tables, cache and copies (R195 to R198). -/
structure Engine where
  seqs : Tab SeqRec := []
  tenants : Tab Tenant := []
  kv : Tab KvPool := []
  /-- Record cache, least recently used first. -/
  cache : List Nat := []
  copy0 : Bool := true
  copy1 : Bool := true
  primary : Bool := true
  mirror : Bool := true
  deriving DecidableEq, Repr

/-- One entry of the batch list with its share of the steep (R34, R208, R230). -/
structure BatchItem where
  seq : Nat
  lines : Nat
  firstPos : Nat
  firstRow : Nat
  prefill : Bool
  /-- The chunk that leaves PROMPT_REMAIN at 0 (R208). -/
  final : Bool
  /-- Effective draft length E and whether the steep is a probe (R230, R238). -/
  draft : Nat
  probe : Bool
  /-- Tokens of the lines: the chunk, or the last committed token. -/
  tokens : List Word
  /-- Token at the position before the committed length (R231). -/
  prev : Word := 0
  /-- Compute die of its attention work (R163). -/
  die : Nat
  deriving DecidableEq, Repr

/-- What a sequence staged for the steep (R19, R201). -/
structure Staged where
  seq : Nat
  /-- Tokens that a GO commits, in position order, each with its accepted-draft mark. -/
  tokens : List (Word × Bool)
  /-- Draft tokens proposed and accepted by the acceptance rule, before R204 cuts. -/
  proposed : Nat
  accepted : Nat
  normF : Bool
  normE : Bool
  deriving DecidableEq, Repr

/-- Norm check results of one operation within a steep (R87, R88, R93). -/
structure NormAcc where
  op : Nat
  /-- FP32 norms of the lines that raised no event, with their sequences, and counts of the steep. -/
  norms : List (Nat × Word) := []
  escalations : Nat := 0
  nonfinite : Nat := 0
  escLines : Nat := 0
  flagLines : Nat := 0
  deriving DecidableEq, Repr

/-- An operation issued in the steep (R82, R90, R113, R126). -/
structure OpRun where
  draft : Bool
  index : Nat
  /-- Local expert of an EXPERT operation; 0 of any other. -/
  expert : Nat
  /-- Line count M, read at issue (R113, R186). -/
  lines : Nat
  /-- Results that the vector unit has read of finished work items: line, output block, values (R99, R118). -/
  sums : List (Nat × Nat × List Word) := []
  /-- Lines after step 4 that wait for the check of every line (R126), and those of them that jumped (R89). -/
  kept : List (Nat × List Word) := []
  jumped : List Nat := []
  /-- Every line has taken the output path (R90). -/
  done : Bool := false
  deriving DecidableEq, Repr

/-- Routing counts of one routed layer within a steep (R193). -/
structure RouteAcc where
  layer : Nat
  admitted : Nat := 0
  spilled : Nat := 0
  dropped : Nat := 0
  passthrough : Nat := 0
  deriving DecidableEq, Repr

/-- The steep in progress on this package (R17 to R29). -/
structure Steep where
  /-- A steep runs. -/
  running : Bool := false
  /-- Number of the steep in progress, or the last number held; whether one was held since reset. -/
  number : Word := 0
  held : Bool := false
  batch : List BatchItem := []
  staged : List Staged := []
  /-- Sequences that fail the steep with a contained error (R20). -/
  failed : List Nat := []
  /-- Sequences closed or cancelled in the steep (R27). -/
  ended : List Nat := []
  /-- The steep program stopped for the steep (R82): list (draft) and index of the record. -/
  stopped : Option (Bool × Nat) := none
  /-- Sequences with lines flagged, and with lines escalated, in the steep (R92). -/
  flagged : List Nat := []
  escalated : List Nat := []
  /-- Draft tokens proposed so far, per sequence, each with the draft's logits at its position; none once a
  position proposed no token (R232). -/
  drafts : Tab (List (Option Word × List Word)) := []
  /-- Lines of the current draft pass, and passes run (R231). -/
  draftPasses : Nat := 0
  /-- Operations issued, oldest first; those of the draft list of the current pass only. -/
  issued : List OpRun := []
  /-- KV slots written in the steep: layer region, sequence, position (R152). -/
  kvStaged : List (Nat × Nat × Nat) := []
  norms : List NormAcc := []
  routes : List RouteAcc := []
  /-- Stage 8 is complete; the barrier is signalled (R423). -/
  staged8 : Bool := false
  signalled : Bool := false
  /-- Latency goal G in force, µs; none is +∞ (R213). -/
  goal : Option Nat := none
  /-- Counter at the release that started the steep. -/
  releasedAt : Option DWord := none
  deriving DecidableEq, Repr

/-! ## Expert routing -/

/-- A home table revision with its entries (R171). -/
structure HomeTable where
  rev : Word := 0
  members : List Nat := []
  entries : List HomeEntry := []
  deriving DecidableEq, Repr

/-- A received dispatch held in the receive area (R183). -/
structure HeldLine where
  src : Nat
  expert : Nat
  slot : Nat
  layer : Nat
  homeNode : Nat
  tag : Word
  /-- Steep of the dispatch. -/
  steep : Word
  /-- ROW_SCALE of the dispatch (R181). -/
  rowScale : Word := 0
  /-- Its line of the last expert operation, in FP32 (R187). -/
  out : Option (List Word) := none
  /-- Its line was sent with the pour of R187 (R449). -/
  pourSent : Bool := false
  deriving DecidableEq, Repr

/-- One admitted choice of a row, as the gate array and dispatch record keep it (R179, R180). -/
structure Choice where
  layer : Nat
  row : Nat
  seq : Nat
  pos : Nat
  /-- Choice position of the row, from 0. -/
  k : Nat
  expert : Nat
  node : Nat
  slot : Nat
  tag : Word
  gate : Word
  /-- The pour, once held: FP32 elements. -/
  pour : Option (List Word) := none
  /-- A pour for it has arrived, held or discarded (R190). -/
  arrived : Bool := false
  deriving DecidableEq, Repr

/-- DISP_END or POUR_END of a member for a layer: the count it names (R182, R184). -/
structure EndMark where
  layer : Nat
  node : Nat
  count : Nat
  steep : Word
  deriving DecidableEq, Repr

/-- A combined line of a row (R189). -/
structure Combined where
  layer : Nat
  row : Nat
  line : List Word
  deriving DecidableEq, Repr

/-- The routing units of the package. -/
structure Route where
  table : HomeTable := {}
  /-- A revision distributed and accepted but not in force (R173). -/
  next : Option HomeTable := none
  quotaRev : Word := 0
  quotaMembers : List Nat := []
  recvBase : DWord := 0
  recvSize : DWord := 0
  lines : List HeldLine := []
  dispEnds : List EndMark := []
  /-- Dispatches and DISP_ENDs of the next steep, oldest first (R185). -/
  held : List RoutePkt := []
  /-- Layers whose DISP_END or POUR_END this package has sent. -/
  dispSent : List Nat := []
  pourSent : List Nat := []
  shaped : List Nat := []
  choices : List Choice := []
  pourEnds : List EndMark := []
  combined : List Combined := []
  /-- Layers whose combined lines have taken the output path (R189). -/
  layersDone : List Nat := []
  discOld : DWord := 0
  discClosed : DWord := 0
  discFailed : DWord := 0
  discInvalid : DWord := 0
  discDup : DWord := 0
  deriving DecidableEq, Repr

/-! ## Memory tiers -/

/-- An object table entry (R281). -/
structure ObjEntry where
  base : DWord := 0
  length : DWord := 0
  hostAddr : DWord := 0
  place : Nat := 0
  pasid : Nat := 0
  valid : Bool := false
  deriving DecidableEq, Repr

/-- A granule entry of the migration engine (R278 to R284). -/
structure Granule where
  /-- Device address divided by 64 KiB. -/
  num : Nat
  /-- Generation of a caddy granule; none for a host granule. -/
  gen : Option Word
  /-- Pool granule that holds the copy. -/
  pool : Nat
  /-- 0 first touch, 1 pin, 2 stream (R281). -/
  place : Nat
  filling : Bool := false
  waiters : List Nat := []
  readSince : Bool := false
  /-- Filled from the idle bank under the generation being armed (R280). -/
  prefill : Bool := false
  /-- To be freed when its fill completes (R279, R284). -/
  drop : Bool := false
  /-- The leaf whose HBM copy failed, for which the granule is filled again: tensor header, leaf index (R252, R254). -/
  failed : Option (Nat × Nat) := none
  deriving DecidableEq, Repr

/-- A redirect of a lost channel's shared and local slices (R286). -/
structure Redirect where
  channel : Nat
  sharedTo : List Nat
  localTo : List Nat
  deriving DecidableEq, Repr

/-- The memory tiers. -/
structure Mem where
  sliceShared : Nat := 256
  sliceLocal : Nat := 4
  sliceSpare : Nat := 8
  streamGranules : Nat := 256
  poolBase : DWord := 0
  poolSize : DWord := 0
  scrubPeriod : Nat := 24
  genCurrent : Word := 0
  copy0 : Nat := 0
  copy1 : Nat := 8
  sharedWays : DWord := BitVec.allOnes 64
  classWays : Tab DWord := []
  classCh : Tab W512 := []
  /-- Channels mapped out at start, and since in service. -/
  lostAtStart : W512 := 0
  lostSince : W512 := 0
  /-- Channels lost whose class set drops them at the next release: class, channel. -/
  classDrop : List (Nat × Nat) := []
  redirects : List Redirect := []
  /-- A channel loss whose structures are not yet rebuilt (R453). -/
  rebuild : Bool := false
  /-- HBM contents by device address, canonical (R264). -/
  hbm : List Host.Cell := []
  /-- 64-byte bursts, by device address divided by 64, that read uncorrectable. -/
  badBursts : List Nat := []
  /-- Uncorrectable reads of a channel with their times (R452). -/
  badReads : List (Nat × Nat × DWord) := []
  /-- Die-store lines held, least recently used first: die, device address divided by 128 (R270). -/
  dieStore : List (Nat × Nat) := []
  objects : Tab ObjEntry := []
  granules : List Granule := []
  clockHand : Nat := 0
  deriving DecidableEq, Repr

/-! ## Caddy -/

/-- A bank's segment map on one die: data segments moved from their place in order to a spare (R291). -/
structure SegMap where
  remap : List (Nat × Nat) := []
  /-- The next spare of the 63, in order. -/
  sparesUsed : Nat := 0
  deriving DecidableEq, Repr

/-- A caddy bank (R290, R298). -/
structure Bank where
  /-- Contents by window offset; an unlisted byte is 0. -/
  data : List Host.Cell := []
  built : Bool := false
  gen : Word := 0
  geom : DWord := 0
  winBytes : Nat := 0
  digest : W256 := 0
  map0 : SegMap := {}
  map1 : SegMap := {}
  /-- Ranges that sealed chunks wrote: window offset, length, and 1 leaf run or 2 plain sealed (R296). -/
  sealedRuns : List (Nat × Nat × Nat) := []
  deriving DecidableEq, Repr

/-- A caddy journal record (R302). -/
structure JRec where
  seq : DWord
  type : Nat
  bank : Nat
  gen : Word
  geom : DWord
  digest : W256
  /-- ACTIVATE: SEQ of its BUILT; SEG_MAP: die, data segment, physical segment. -/
  ref : Word
  crcOk : Bool := true
  deriving DecidableEq, Repr

/-- A build in progress: the image header and what its chunks have covered (R296, R301). -/
structure Build where
  handle : Nat
  bank : Nat
  hdr : Option ImageHdr := none
  chunksDone : Nat := 0
  covered : Nat := 0
  weightKey : Option W256 := none
  /-- Generation of the target bank before the build; 0 where it was not built. -/
  prevGen : Word := 0
  /-- Image header bytes 0 to 31 and the chunk headers so far, for the digest (R298). -/
  heads : List Byte := []
  deriving DecidableEq, Repr

/-- The caddy. -/
structure Caddy where
  bankA : Bank := {}
  bankB : Bank := {}
  /-- 0 bank A, 1 bank B, 3 no bank (R356). -/
  active : Nat := 3
  opened : Bool := false
  /-- Generation armed on the idle bank (R305). -/
  armed : Option Word := none
  /-- Revision of the arm, adopted at the switch. -/
  armedRev : Word := 0
  /-- Granule number from which prefill goes on; past every granule once it has stopped (R280). -/
  prefillAt : Nat := 0
  journal0 : List JRec := []
  journal1 : List JRec := []
  buildRate : Nat := 4
  scrubRate : Nat := 2
  build : Option Build := none
  /-- Key cells: VALID, wrapped caddy key, SCRUB_REQUIRED, ERASED_SINCE_INSTALL (R490). -/
  keyValid : Bool := false
  wrappedKey : W512 := 0
  scrubRequired : Bool := false
  erased : Bool := false
  /-- Caddy key loaded in the engines. -/
  key : Option W512 := none
  /-- Physical segments lost since manufacture: die, segment (R311). -/
  lostSegs : List (Nat × Nat) := []
  deriving DecidableEq, Repr

/-! ## Links, discovery, domain -/

/-- Link states of training (R369). -/
inductive LinkTrain where
  | off | training | up | mappedOut
  deriving DecidableEq, Repr

/-- A packet handed to a link, to be handed back should the link go down (R375). -/
inductive SentPkt where
  | fab (p : FabPkt)
  | route (node : Nat) (p : RoutePkt)
  deriving DecidableEq, Repr

/-- A data or discovery flit to send or to resend: channel 0 to 3, 4 for discovery; the packet that ends
in it, if any (R371, R372). -/
structure FlitTx where
  seq : Nat
  vc : Nat
  payload : List Byte
  sentAt : DWord
  pkt : Option SentPkt
  deriving DecidableEq, Repr

/-- A Geloc link: registers (R359) and link layer (R371 to R374). -/
structure Link where
  enable : Bool := true
  port : Nat := 0
  classAllow : BitVec 3 := 7
  train : LinkTrain := .off
  cls : Nat := 0
  lanes : Nat := 0
  peerNode : Nat := 0xFF
  peerLink : Nat := 0xFF
  retries : DWord := 0
  downs : Word := 0
  txSeq : Nat := 0
  /-- Flits sent and not acknowledged, and flits that wait for a credit or a place, oldest first. -/
  replay : List FlitTx := []
  queue : List FlitTx := []
  resends : Nat := 0
  rxSeq : Nat := 0
  nakSent : Bool := false
  /-- Credits of each virtual channel at the sender, and owed by the receiver. -/
  credits : List Nat := [512, 512, 512, 512]
  owed : List Nat := [0, 0, 0, 0]
  /-- Failed retrainings since the loss, and time of the loss (R374). -/
  fails : Nat := 0
  lostAt : Option DWord := none
  heldOut : Bool := false
  /-- Peer kind of HELLO: 0 none yet, 1 package, 2 first-stage switch, 3 outer-stage switch (R376, R379). -/
  peerKind : Nat := 0
  plane : Nat := 0xFFFF
  swPort : Nat := 0xFFFF
  swPorts : Nat := 0
  loop : Bool := false
  deriving DecidableEq, Repr

/-- A link report as taken into the plane map (R385). -/
structure LinkRep where
  node : Nat
  link : Nat
  peer : Nat
  plane : Nat
  deriving DecidableEq, Repr

/-- Where the numbering sweep of the manager stands (R384). -/
structure Sweep where
  /-- Occupants to visit, the current one first: link, and switch port or 0xFFFF for a direct peer. -/
  todo : List (Nat × Nat)
  next : Nat
  /-- An ASSIGN, not a QUERY, is outstanding. -/
  assigning : Bool := false
  sentAt : DWord := 0
  tries : Nat := 0
  deriving DecidableEq, Repr

/-- Discovery (R379 to R388). -/
structure Disc where
  epoch : Nat := 0
  inDomain : Bool := false
  /-- Claiming, not withdrawn (R381). -/
  candidate : Bool := true
  elected : Bool := false
  conflict : Bool := false
  firstUp : Option DWord := none
  lastHigher : Option DWord := none
  lastHello : Option DWord := none
  lastClaim : Option DWord := none
  sweep : Option Sweep := none
  reports : List LinkRep := []
  planes : List PlaneEntry := []
  /-- Nodes found in the round, before admission. -/
  found : List Nat := []
  standby : Nat := 0xFF
  lastMembership : Option W256 := none
  /-- Manager: newest LAST_STEEP that a member reported with LS_VALID (R420). -/
  lastSteep : Word := 0
  lsValid : Bool := false
  portKind : Tab Nat := []
  /-- Manager: MGR_PRIO of each numbered package (R383). -/
  prio : Tab Nat := []
  /-- Manager: what packages told of their generations (R308). -/
  gens : Tab GenReport := []
  deriving DecidableEq, Repr

/-- Roles of a package in its domain, in the order of their codes (R357). -/
inductive Role where
  | worker | manager | standby
  deriving DecidableEq, Repr

/-- A pending domain request (R421). -/
structure DomReq where
  code : Nat
  replyObj : Nat
  replyNode : Nat
  deriving DecidableEq, Repr

/-- A release record (R425). -/
structure RelRec where
  closed : Word
  next : Word
  htRev : Word
  quotaRev : Word
  memberRev : Word
  state : DomState
  adopt : Bool
  open_ : Bool
  bankSwitch : Bool
  repeat_ : Bool
  deriving DecidableEq, Repr

/-- A release closed by the manager and not yet posted: record, membership for NEXT, reply owed, and whether
the standby must still acknowledge (R424, R427). -/
structure OutRel where
  rel : RelRec
  members : W256
  reply : Option DomReq
  waiting : Bool
  deriving DecidableEq, Repr

/-- A replication record as the standby keeps it (R428). -/
structure Replica where
  rel : RelRec
  members : W256
  epoch : Nat
  request : Option DomReq
  armGen : Word
  armRev : Word
  planeRev : Word
  deriving DecidableEq, Repr

/-- An arm in progress at the manager (R305): generation, revision, members that accepted, when sent, and
whether every member has accepted. -/
structure Arming where
  gen : Word
  rev : HomeTable
  accepted : List Nat
  sentAt : DWord
  armed : Bool
  deriving DecidableEq, Repr

/-- The domain as a member knows it, and the manager's and standby's own state (R357, R419 to R429). -/
structure Domain where
  state : DomState := .bringup
  role : Role := .worker
  conflictFlag : Bool := false
  membershipChanged : Bool := false
  mgrPrio : Nat := 0
  manager : Nat := 0xFF
  node : Nat := 0xFF
  members : W256 := 0
  trustedEn : Bool := false
  exportSel : Nat := 0
  exportData : W256 := 0
  exports : Tab W256 := []
  memberRev : Word := 0
  planeRev : Word := 0
  /-- Manager: the domain request that waits for a release. -/
  request : Option DomReq := none
  /-- Manager: packages admitted that wait for a release to enter the membership (R387). -/
  joining : List Nat := []
  /-- Manager: members that missed the barrier or are lost for the steep in progress (R424, R459). -/
  missed : List Nat := []
  lost : List Nat := []
  /-- Manager: counter at the first arrival for the steep in progress (R459). -/
  firstArrival : Option DWord := none
  /-- Manager: successive misses of each member (R459). -/
  missRuns : Tab Nat := []
  outRelease : Option OutRel := none
  /-- Manager: the request of an adoption record, and the members that have not taken the record (R422). -/
  adopting : Option (DomReq × List Nat) := none
  lastRelease : Option RelRec := none
  arm : Option Arming := none
  /-- Standby: the latest replication record (R428). -/
  replica : Option Replica := none
  deriving DecidableEq, Repr

/-! ## Fabric -/

/-- An outstanding fabric request (R393, R400). -/
structure FabReq where
  die : Nat
  engine : Nat
  pkt : FabPkt
  /-- Writes, atomics and fences are DSEQ numbered. -/
  numbered : Bool
  sentAt : DWord
  retries : Nat := 0
  compl : Nat
  /-- A load: the bytes its unit asked for. -/
  want : DWord := 0
  wantLen : Nat := 0
  /-- The fill must not be installed (R407). -/
  noInstall : Bool := false
  deriving DecidableEq, Repr

/-- A fence in progress (R412). -/
structure Fence where
  die : Nat
  engine : Nat
  compl : Nat
  /-- Destinations with the newest DSEQ each must acknowledge. -/
  upto : List (Nat × Word)
  issuedAt : DWord
  deriving DecidableEq, Repr

/-- An invalidation in progress (R408). -/
structure Inval where
  die : Nat
  engine : Nat
  addr : DWord
  len : Nat
  nodes : List Nat
  compl : Nat
  issuedAt : DWord
  /-- Earlier writes: die and destination, with the newest DSEQ each must acknowledge. -/
  upto : List (Nat × Word) := []
  sent : Bool := false
  /-- Nodes that have not responded, and listed nodes that are no members. -/
  waiting : List Nat := []
  gone : List Nat := []
  deriving DecidableEq, Repr

/-- An ownership transfer that waits for earlier writes to its node (R404). -/
structure Xfer where
  die : Nat
  engine : Nat
  node : Nat
  job : Nat
  owner : Nat
  compl : Nat
  /-- Earlier writes to the node: die and destination, with the newest DSEQ each must acknowledge. -/
  upto : List (Nat × Word) := []
  deriving DecidableEq, Repr

/-- A message being sent (R415). -/
structure MsgOut where
  ring : Option Nat
  port : Nat
  dest : DWord
  number : Nat
  bytes : List Byte
  sentAt : DWord
  retries : Nat := 0
  deriving DecidableEq, Repr

/-- A message being received, fragment by fragment (R415). -/
structure MsgIn where
  domain : Nat
  src : Nat
  die : Nat
  dest : DWord
  number : Word
  total : Nat
  frags : Tab (List Byte)
  deriving DecidableEq, Repr

/-- A replay entry of an executed atomic (R410). -/
structure Replay where
  src : Nat
  die : Nat
  tag : Word
  dseq : Word
  result : DWord
  status : Nat
  at_ : DWord
  deriving DecidableEq, Repr

/-- Applied or refused writes of a source, to discard duplicates (R399). -/
structure Outcome1 where
  src : Nat
  die : Nat
  dseq : Word
  status : Nat
  deriving DecidableEq, Repr

/-- The fabric agent. -/
structure Fabric where
  reqs : List FabReq := []
  /-- ISSUE count of each slot: (die × 64 + engine) × 512 + slot (R393). -/
  issues : Tab Nat := []
  /-- Next DSEQ by die × 256 + node (R398). -/
  dseq : Tab Word := []
  /-- Requests of the package's own that wait for an engine slot or the DSEQ window, oldest first: die, engine, packet
  (R393, R398, R408, R423). -/
  owed : List (Nat × Nat × FabPkt) := []
  outcomes : List Outcome1 := []
  replay : List Replay := []
  /-- Remote read caches, least recently used first: die, line address, bytes (R406). -/
  cache : List (Nat × DWord × List Byte) := []
  fences : List Fence := []
  invals : List Inval := []
  /-- Ownership transfers that wait for earlier writes: die, engine, node, job, owner, completion (R404). -/
  xfers : List Xfer := []
  msgOut : List MsgOut := []
  msgIn : List MsgIn := []
  /-- Next number of each sequence of messages sent: port × 2⁶⁴ + destination word (R415). -/
  msgNumber : Tab Nat := []
  /-- Messages posted: domain, node and die of the source, destination word, number (R415). -/
  lastMsg : List (Nat × Nat × Nat × DWord × Word) := []
  deriving DecidableEq, Repr

/-! ## Errors -/

/-- What ends the handling of an error (R444, heading "Nesting and escalation"). -/
inductive HandleEnd where
  | steep | item | channel | link | atOnce
  deriving DecidableEq, Repr

/-- An error in handling (R445). -/
structure Handling where
  index : Word
  cls : Nat
  unit : Nat
  die : Nat
  pos : Nat
  seqs : List Nat
  depth : Nat
  until_ : HandleEnd
  /-- Reissued work items of it that have not completed, and the units that carry them (R446). -/
  items : Nat := 0
  carriers : List (Nat × Nat × Nat) := []
  deriving DecidableEq, Repr

/-- A coalescing memory of corrected errors (R444). -/
structure CorrMem where
  status : Nat
  unit : Nat
  die : Nat
  pos : Nat
  at_ : DWord
  pending : Nat
  deriving DecidableEq, Repr

/-- Error log and error ring (R364, R442 to R448). -/
structure Err where
  log : Tab W512 := []
  total : Word := 0
  data : W512 := 0
  ringBase : DWord := 0
  ringEn : Bool := false
  ringPasidEn : Bool := false
  ringLog2 : Nat := 0
  ringVector : Nat := 0
  ringPasid : Nat := 0
  ringHead : Nat := 0
  ringTail : Nat := 0
  ringUsed : Nat := 0
  ringPhase : Bool := true
  ringLost : Word := 0
  handling : List Handling := []
  corr : List CorrMem := []
  /-- No further record until the next reset (R448, R458). -/
  silent : Bool := false
  /-- The package is stopped by a package-fatal error (R458). -/
  fatal : Bool := false
  deriving DecidableEq, Repr

/-! ## Compute -/

/-- A tile: beat-stall firings, cosy, work and accumulation region (R57, R99, R111). -/
structure Tile where
  firings : Nat := 0
  /-- Takes no work until the next steep (R450). -/
  parked : Bool := false
  /-- Work items of the steep that it has taken, oldest first (R57, R449). -/
  items : List WorkItem := []
  /-- The item that holds for a leaf, with what core store returned for it (R105). -/
  hold : Option (WorkItem × List CoreRead) := none
  /-- Lines of the accumulation region, FP32 codes. -/
  acc : Tab (List Word) := []
  /-- Weight block in the active registers and in the shadow registers: work item and contraction chunk (R101). -/
  active : Option (WorkItem × Nat) := none
  shadow : Option (WorkItem × Nat) := none
  gap : Nat := 0
  ramp : Nat := 0
  /-- INDEX of the error that the item taken last is reissued for, until it completes (R449). -/
  forErr : Option Word := none
  deriving DecidableEq, Repr

/-- Cores and tiles (R107, R363, R451). -/
structure Compute where
  coreLost : Tab (BitVec 64) := []
  tileLost : Tab (BitVec 128) := []
  /-- Uncorrectable core-store reads: die, core, bank; residue failures: die, core. -/
  storeErrs : List (Nat × Nat × Nat) := []
  residueErrs : List (Nat × Nat) := []
  tiles : Tab Tile := []
  /-- Reissued work items queued ahead of unstarted ones: die, item, INDEX of their error (R449). -/
  reissue : List (Nat × WorkItem × Word) := []
  /-- Leaves being fetched again: granule numbers (R255). -/
  refetch : List Nat := []
  deriving DecidableEq, Repr

/-! ## Power, security, side interfaces, start-up -/

/-- A window of the kettle that has passed: input power, enforced limit and allowances during it (R470, R479). -/
structure KettleWindow where
  input : Nat
  enforced : Nat
  allowance : List Nat
  deriving DecidableEq, Repr

/-- Kettle and power registers (R360, R464 to R482). Watts unless said otherwise. -/
structure Power where
  cap : Nat := 4000
  rackCap : Nat := 0xFFFF
  clamped : Bool := false
  capLag : Bool := false
  brake : Bool := false
  brakeHeld : Bool := false
  brakeStart : Option DWord := none
  thermal : Bool := false
  input : Nat := 0
  /-- Last readings of the temperature sensors (R360, R478). -/
  temps : TempMeas := ⟨[], [], [], []⟩
  chatter : List Nat := [0, 0, 0, 0]
  beatRate : List Nat := [0, 0, 0, 0]
  enforced : Nat := 4000
  thermalLimit : Nat := 4000
  allowance : List Nat := [256, 256, 256, 256]
  pace : Bool := false
  halvings : Nat := 0
  /-- Limit in force and its SOURCE, as PWR_LIMIT shows them (R361). -/
  limit : Nat := 4000
  source : Nat := 4
  pLast : Nat := 0
  /-- The lowered variant maximum while VIN is below 46 V (R464). -/
  vinCap : Option Nat := none
  /-- Common allowance A of the last window, and the brake allowance it computed (R475, R477). -/
  common : Nat := 256
  brakeAllow : Nat := 1
  /-- What the brake's hardware path holds every allowance at (R477). -/
  brakeLim : Option Nat := none
  vcore : List Nat := [750, 750, 750, 750]
  /-- Droop detectors that hold their cores: die, detector. -/
  droop : List (Nat × Nat) := []
  /-- VAON flags: thermal trip (unit, die, position), rail overcurrent. -/
  trip : Option (Nat × Nat × Nat) := none
  railFault : Option Nat := none
  /-- Windows of the last millisecond, newest first, and the counter at the end of the last. -/
  windows : List KettleWindow := []
  windowAt : Option DWord := none
  /-- Counter at the last voltage step and at the last update of the thermal limit. -/
  vcoreAt : Option DWord := none
  thermalAt : Option DWord := none
  deriving DecidableEq, Repr

/-- Security block and SPDM (R486 to R507). -/
structure Security where
  sources : BitVec 5 := 0
  locked : Bool := false
  /-- Alarm inputs whose filter output is asserted. -/
  asserted : BitVec 5 := 0
  /-- Fuse fields read restrictively until the next start (R487). -/
  restrict : List FuseField := []
  /-- Counter at the last fuse check (R487). -/
  fuseAt : Option DWord := none
  /-- An alarm raised with the first stage open owes its record (R498). -/
  owed : Bool := false
  /-- SPDM: VERSION, CAPABILITIES and ALGORITHMS done, in order (R504). -/
  spdmStep : Nat := 0
  /-- Secured session: number, handshake done, keys. -/
  session : Option (Nat × Bool) := none
  ideKeys : List Byte := []
  ideSecure : Bool := false
  /-- A large request being received, and a large response being returned. -/
  chunkIn : Option (Nat × Nat × List Byte) := none
  chunkOut : Option (Nat × Nat × List Byte) := none
  deriving DecidableEq, Repr

/-- Start-up, pins, sideband and JTAG (R508 to R532). -/
structure Start where
  vaon : Bool := true
  firstStage : Bool := false
  pkgPg : Bool := false
  /-- The package is in reset (R517). -/
  inReset : Bool := false
  /-- Next boot source: 0 copy A, 1 copy B, 2 the boot window (R526). -/
  bootSource : Nat := 0
  /-- Cores and tiles tested, HBM tested, sequence-table copies placed (R196, R525). -/
  coresTested : Bool := false
  hbmTested : Bool := false
  seqPlaced : Bool := true
  /-- Start-up has passed the tray gate (R515). -/
  gatePassed : Bool := false
  /-- A VAON fault flag, or an emergency off, holds the first stage open until a package reset (R514, R524). -/
  faultHeld : Bool := false
  /-- The first stage opened for VIN: its reclosure is a power-on reset (R524). -/
  vinOpen : Bool := false
  eoffPin : Bool := false
  eoffLatch : Bool := false
  trayPin : Bool := false
  perst : Bool := false
  brakePin : Bool := false
  /-- RACK_PG inputs high, and how far the sequenced start has come (R523). -/
  rackPg : List Bool := [false, false, false, false, false]
  straps : Straps := ⟨0, false, false, 0⟩
  quiesced : Bool := false
  mgmtReset : Bool := false
  mgmtHeld : Bool := false
  jtagEn : Bool := false
  expiries : List DWord := []
  /-- When the watchdog of the management processor was last known to be served (R53, notes/assumptions/127.md). -/
  served : DWord := 0
  clearing : Bool := false
  i3cAddr : Option Nat := none
  eid : Nat := 0
  tapReset : Bool := true
  tapInstr : Nat := 0
  tapCells : List Bool := []
  deriving DecidableEq, Repr

/-! ## The whole -/

/-- The package. -/
structure State where
  /-- Commands that wait, first in, first out. -/
  pending : List Instr := []
  part : Part := {}
  time : Time := {}
  hif : Hif := {}
  rings : Tab RingPair := []
  accepted : List Accepted := []
  waiting : List Waiting := []
  longOps : Tab LongOp := []
  nextHandle : Word := 1
  model : Option Model := none
  eng : Engine := {}
  serve : Serve := {}
  steep : Steep := {}
  rte : Route := {}
  mem : Mem := {}
  caddy : Caddy := {}
  links : Tab Link := []
  disc : Disc := {}
  dom : Domain := {}
  fab : Fabric := {}
  err : Err := {}
  comp : Compute := {}
  pwr : Power := {}
  sec : Security := {}
  start : Start := {}
  /-- What the package has sent, oldest first (the model's own field). -/
  out : List Out := []
  /-- Free values drawn so far (the model's own field). -/
  free : Nat := 0
  deriving DecidableEq, Repr

/-- The package just after its power-on reset: every field at its default. -/
def State.reset : State := {}

end Sys2Proof.Machine
end

