-- ==== Sys2Proof/Machine/Bytes.lean ====
section
/-! DEFINITION. Byte order, fields and packing: every multi-byte value is little-endian (R9). -/

namespace Sys2Proof.Machine

/-- The bytes of the low `n` bytes of `v`, lowest first (R9). -/
def leBytes : Nat → Nat → List Byte
  | 0, _ => []
  | n + 1, v => BitVec.ofNat 8 v :: leBytes n (v / 256)

/-- The number a little-endian byte list spells (R9). -/
def ofLe : List Byte → Nat
  | [] => 0
  | b :: t => b.toNat + 256 * ofLe t

/-- Bits `hi` down to `lo` of a number. -/
def bits (v hi lo : Nat) : Nat := v / 2 ^ lo % 2 ^ (hi + 1 - lo)

/-- One bit of a number. -/
def bit (v i : Nat) : Bool := v.testBit i

/-- A number of the given width as a field placed at a bit. -/
def putBits (v hi lo : Nat) : Nat := v % 2 ^ (hi + 1 - lo) * 2 ^ lo

/-- A Bool as a bit. -/
def b2n (b : Bool) : Nat := if b then 1 else 0

/-- `n` bytes of a list from an offset; a byte beyond the end reads 0. -/
def bytesAt (l : List Byte) (off n : Nat) : List Byte :=
  let t := (l.drop off).take n
  t ++ List.replicate (n - t.length) 0

/-- The little-endian number of `n` bytes at an offset. -/
def leAt (l : List Byte) (off n : Nat) : Nat := ofLe (bytesAt l off n)

/-- A field of a descriptor or record held as a number: `n` bytes at byte `off`. -/
def fieldAt (v off n : Nat) : Nat := v / 2 ^ (8 * off) % 2 ^ (8 * n)

/-- The number with `n`-byte fields at byte offsets; fields do not overlap. -/
def packAt : List (Nat × Nat × Nat) → Nat
  | [] => 0
  | (off, n, v) :: t => v % 2 ^ (8 * n) * 2 ^ (8 * off) + packAt t

/-- An unsigned 64-bit sum, wrapped. -/
def wrap64 (v : Nat) : Nat := v % 2 ^ 64

/-- Advance by one modulo 2³². -/
def succ32 (w : Word) : Word := w + 1

/-- `a` is older than `b` under the modular comparison of steep and revision numbers (R12). -/
def older (a b : Word) : Bool := a != b && (b - a).toNat ≤ 2 ^ 31

/-- Round up to a multiple. -/
def ceilDiv (a b : Nat) : Nat := if b = 0 then 0 else (a + b - 1) / b

/-- Floor of the base-2 logarithm of a positive number; 0 of 0. -/
def lg (n : Nat) : Nat := Nat.log2 n

/-- Insert or replace in a list by a test, at the end when absent. -/
def upsert {α : Type} (l : List α) (p : α → Bool) (a : α) : List α :=
  if l.any p then l.map fun x => if p x then a else x else l ++ [a]

/-- Update the entries a test picks. -/
def updateIf {α : Type} (l : List α) (p : α → Bool) (f : α → α) : List α :=
  l.map fun x => if p x then f x else x

/-- Insert a number into a list with no repeats. -/
def addNew (l : List Nat) (n : Nat) : List Nat := if l.contains n then l else l ++ [n]

/-- Insertion into a list that a Boolean order keeps sorted. -/
def insertBy {α : Type} (le : α → α → Bool) (a : α) : List α → List α
  | [] => [a]
  | b :: t => if le a b then a :: b :: t else b :: insertBy le a t

/-- Stable insertion sort by a Boolean order. -/
def sortBy {α : Type} (le : α → α → Bool) (l : List α) : List α :=
  l.foldr (insertBy le) []

/-- The member nodes of a 256-bit mask, ascending (R357). -/
def nodesOf (m : W256) : List Nat := (List.range 256).filter fun i => m.getLsbD i

/-- The mask of a list of nodes. -/
def maskOf (l : List Nat) : W256 := l.foldl (fun m n => m ||| (1 <<< n)) 0

/-- Channels of a 512-bit mask, ascending. -/
def chansOf (m : W512) : List Nat := (List.range 512).filter fun i => m.getLsbD i

end Sys2Proof.Machine
end

