-- ==== Sys2Proof/Machine/Memory.lean ====
section
/-! DEFINITION. Byte memory as a list of cells in one canonical form, and its only operations. -/

namespace Sys2Proof.Machine

/-- Sparse bytes: addresses strictly rising, no cell holding 0; an unlisted address reads 0
(notes/assumptions/4.md). -/
abbrev Memory := List Host.Cell

/-- The canonical form. -/
def Memory.wf : Memory → Bool
  | [] => true
  | [c] => c.2 != 0
  | c :: d :: t => c.2 != 0 && c.1 < d.1 && Memory.wf (d :: t)

/-- The byte at an address. -/
def Memory.byte (m : Memory) (a : Nat) : Byte := ((m.find? fun c => c.1 == a).map Prod.snd).getD 0

/-- The cells of a byte list stored from an address; zeros are not listed. -/
def Memory.cells : Nat → List Byte → Memory
  | _, [] => []
  | a, b :: t => if b = 0 then Memory.cells (a + 1) t else (a, b) :: Memory.cells (a + 1) t

/-- Store bytes from an address. -/
def Memory.write (m : Memory) (a : Nat) (bs : List Byte) : Memory :=
  m.filter (fun c => c.1 < a) ++ Memory.cells a bs ++ m.filter (fun c => a + bs.length ≤ c.1)

/-- Read `n` bytes from an address. -/
def Memory.read (m : Memory) (a n : Nat) : List Byte := (List.range n).map fun i => m.byte (a + i)

/-- Set a range of `n` bytes to 0. -/
def Memory.clear (m : Memory) (a n : Nat) : Memory := m.filter fun c => c.1 < a || a + n ≤ c.1

/-- Set to 0 every byte whose address a test picks. -/
def Memory.clearIf (m : Memory) (p : Nat → Bool) : Memory := m.filter fun c => !p c.1

/-- Read a little-endian number of `n` bytes. -/
def Memory.num (m : Memory) (a n : Nat) : Nat := ofLe (m.read a n)

end Sys2Proof.Machine
end

