-- ==== Sys2Proof/Machine/Layout.lean ====
section
/-! DEFINITION. The device address range: windows, slices, channel hashing, and reads and writes of
device memory by the package's units (spec 11, R264 to R277, R286). -/

namespace Sys2Proof.Machine

/-! ## The part (R2) -/

/-- Memory stacks of the variant (R2). -/
def Part.stacks (p : Part) : Nat := if p.variant = 1 then 16 else if p.variant = 2 then 12 else 8
/-- Geloc links of the variant (R2). -/
def Part.links (p : Part) : Nat := if p.variant = 2 then 72 else 48
/-- I/O dies of the variant (R2). -/
def Part.ioDies (p : Part) : Nat := if p.variant = 2 then 3 else 2
/-- Maximum sustained input power in watts (R2, R360). -/
def Part.maxWatts (p : Part) : Nat := if p.variant = 1 then 4000 else if p.variant = 2 then 4100 else 3300
/-- HBM channels fitted (heading "Channels and slices"). -/
def Part.channels (p : Part) : Nat := p.stacks * 32

/-! ## Channels and regions -/

/-- 2 MiB, the unit of the slice registers (R354). -/
def slUnit : Nat := 0x200000

/-- A channel was usable at package start (R264). -/
def State.usableAtStart (s : State) (ch : Nat) : Bool := ch < s.part.channels && !s.mem.lostAtStart.getLsbD ch

/-- MEM_CH_LOST: channels mapped out at start and since (R267). -/
def State.chLost (s : State) : W512 := s.mem.lostAtStart ||| s.mem.lostSince

/-- A channel may be put in a class's set: fitted and not in MEM_CH_LOST (R267). -/
def State.chUsable (s : State) (ch : Nat) : Bool := ch < s.part.channels && !s.chLost.getLsbD ch

/-- Members of the shared region's channel set, ascending (R266, R269). -/
def State.sharedChans (s : State) : List Nat := (List.range s.part.channels).filter s.usableAtStart
/-- Members of a stack-local region's set (R266). -/
def State.localChans (s : State) (st : Nat) : List Nat :=
  ((List.range 32).map (st * 32 + ·)).filter s.usableAtStart
/-- Members of a class's set in force (R266, R286). -/
def State.classChans (s : State) (c : Nat) : List Nat := chansOf (s.mem.classCh.get 0 c)

/-- The class slice of every channel, in bytes (R266). -/
def State.classSlice (s : State) : Nat :=
  0x80000000 - (s.mem.sliceShared + s.mem.sliceLocal + s.mem.sliceSpare) * slUnit

/-- MEM_SHARED_SIZE (R264). -/
def State.sharedSize (s : State) : Nat := s.sharedChans.length * (s.mem.sliceShared * slUnit)
/-- MEM_LOCAL_SIZE of a stack; a stack that is not fitted has none (R264). -/
def State.localSize (s : State) (st : Nat) : Nat :=
  if st < s.part.stacks then (s.localChans st).length * (s.mem.sliceLocal * slUnit) else 0
/-- MEM_CLASS_SIZE of a class (R264, R355). -/
def State.classSize (s : State) (c : Nat) : Nat := (s.classChans c).length * s.classSlice

/-- The windows of the device address range (R264). -/
inductive Window where
  | shared
  | local_ (stack : Nat)
  | cls (c : Nat)
  | caddy
  | host
  deriving DecidableEq, Repr

/-- Base address of a window (R264). -/
def Window.base : Window → Nat
  | .shared => 0
  | .local_ st => 0x010000000000 + st * 0x100000000
  | .cls c => 0x100000000000 + c * 0x010000000000
  | .caddy => 0x200000000000
  | .host => 0x300000000000

/-- The window that an address falls in by its base alone (R264). -/
def windowOf (a : Nat) : Option Window :=
  if a < 0x010000000000 then some .shared
  else if a < 0x011000000000 then some (.local_ ((a - 0x010000000000) / 0x100000000))
  else if a < 0x100000000000 then none
  else if a < 0x200000000000 then some (.cls ((a - 0x100000000000) / 0x010000000000))
  else if a < 0x200000000000 + 184 * 0x40000000 then some .caddy
  else if a < 0x300000000000 then none
  else if a < 0x310000000000 then some .host
  else none

/-- Current size of a window (R264). -/
def State.windowSize (s : State) : Window → Nat
  | .shared => s.sharedSize
  | .local_ st => s.localSize st
  | .cls c => s.classSize c
  | .caddy => if s.caddy.active = 3 then 0 else 184 * 0x40000000
  | .host => 0x010000000000

/-- The window and offset of a range that lies in one window within its size (R264). -/
def State.inWindow (s : State) (a n : Nat) : Option (Window × Nat) :=
  match windowOf a with
  | none => none
  | some w => if a - w.base + n ≤ s.windowSize w then some (w, a - w.base) else none

/-- Slice offset in a channel and member set of a region in HBM (R266, R269). -/
def State.regionSet (s : State) : Window → Option (Nat × List Nat)
  | .shared => some (0, s.sharedChans)
  | .local_ st => some (s.mem.sliceShared * slUnit, s.localChans st)
  | .cls c => some ((s.mem.sliceShared + s.mem.sliceLocal) * slUnit, s.classChans c)
  | _ => none

/-- Member index and channel offset of an offset in a region of `n` channels (R269). -/
def hashPlace (n sliceBase o : Nat) : Nat × Nat :=
  let unit := o / 256
  let g := unit / n
  let idx := (unit % n + (g * 0x9E3779B9) % 2 ^ 32 % n) % n
  (idx, sliceBase + g * 256 + o % 256)

/-- Channel and channel offset of an HBM address (R269). -/
def State.place (s : State) (a : Nat) : Option (Nat × Nat) :=
  match s.inWindow a 1 with
  | none => none
  | some (w, o) =>
    match s.regionSet w with
    | none => none
    | some (base, set) =>
      let p := hashPlace set.length base o
      (set[p.1]?).map fun ch => (ch, p.2)

/-- Compute die that a stack attaches to (heading "Channels and slices"). -/
def Part.stackDie (p : Part) (st : Nat) : Nat := st * 4 / p.stacks

/-! ## Access -/

/-- Two ranges meet. -/
def meets (a n b m : Nat) : Bool := a < b + m && b < a + n && 0 < n && 0 < m

/-- Base of the synchronisation area (R431). -/
def syncBase : Nat := 0x010100000000

/-- A range meets an area that no unit but its owner writes: granule and object tables (R284), the two
sequence-table copies (R196), the reserved parts of the synchronisation area (R431). -/
def State.reservedRange (s : State) (a n : Nat) : Bool :=
  meets a n 0 0x0A000000 ||
  meets a n (Window.local_ s.mem.copy0).base 0x08000000 ||
  meets a n (Window.local_ s.mem.copy1).base 0x08000000 ||
  meets a n (syncBase + 0x080400) 0xC00 ||
  meets a n (syncBase + 0x0C1000) 0x33F000

/-- Bytes of a range that valid objects cover; valid objects do not overlap (R281). -/
def State.objectCover (s : State) (a n : Nat) : Nat :=
  s.mem.objects.foldl (fun k p =>
    if p.2.valid then
      k + (min (a + n) (p.2.base.toNat + p.2.length.toNat) - max a p.2.base.toNat)
    else k) 0

/-- Check of a range to be read: ACCESS_UNMAPPED outside every window (R264), or in the host window
where no valid object covers it (R283). -/
def State.checkRead (s : State) (a n : Nat) : Option Nat :=
  match s.inWindow a n with
  | none => some 0x0241
  | some (.host, _) =>
    if s.objectCover a n = n then none else some 0x0241
  | some _ => none

/-- Check of a range to be written: mapped, and not read-only or reserved (R264, R276). -/
def State.checkWrite (s : State) (a n : Nat) : Option Nat :=
  match s.inWindow a n with
  | none => some 0x0241
  | some (.caddy, _) => some 0x0240
  | some (.host, _) => some 0x0240
  | some _ => if s.reservedRange a n then some 0x0240 else none

/-- An address lands on a class channel lost and not yet dropped from its set (R286). -/
def State.onDropped (s : State) (a : Nat) : Bool :=
  !s.mem.classDrop.isEmpty &&
  (match windowOf a, s.place a with
   | some (.cls c), some (ch, _) => s.mem.classDrop.contains (c, ch)
   | _, _ => false)

/-- A range reads with no uncorrectable burst (R272, R286). -/
def State.readable (s : State) (a n : Nat) : Bool :=
  !(s.mem.badBursts.any fun b => a < (b + 1) * 64 && b * 64 < a + n) &&
  !(!s.mem.classDrop.isEmpty && (List.range n).any fun i => s.onDropped (a + i))

/-- The object that covers an address of the caddy or host window, with its index (R281). -/
def State.objectAt (s : State) (a : Nat) : Option (Nat × ObjEntry) :=
  List.find? (fun p : Nat × ObjEntry => (p.2.valid && p.2.base.toNat ≤ a && a < p.2.base.toNat + p.2.length.toNat)) s.mem.objects

/-- The active bank (R277). -/
def State.activeBank (s : State) : Option Bank :=
  if s.caddy.active = 0 then some s.caddy.bankA else if s.caddy.active = 1 then some s.caddy.bankB else none

/-- A resident copy that serves a granule: not filling, no prefill, of the generation in force (R279). -/
def State.resident (s : State) (g : Nat) : Option Granule :=
  s.mem.granules.find? fun e => e.num = g && !e.filling && !e.prefill && !e.drop &&
    (e.gen = none || e.gen = some s.mem.genCurrent)

/-- Address of a pool granule (R278). -/
def State.poolAddr (s : State) (p : Nat) : Nat := s.mem.poolBase.toNat + p * 0x10000

/-- One byte as a unit of the package reads it: HBM; the resident copy of a caddy or host granule; else the active bank, or host
memory through its object (R277, R278, R285). -/
def State.devByte (s : State) (a : Nat) : Byte :=
  match windowOf a with
  | some .caddy =>
    match s.resident (a / 0x10000) with
    | some g => Memory.byte s.mem.hbm (s.poolAddr g.pool + a % 0x10000)
    | none =>
      match s.activeBank with
      | some b => Memory.byte b.data (a - Window.caddy.base)
      | none => 0
  | some .host =>
    match s.resident (a / 0x10000) with
    | some g => Memory.byte s.mem.hbm (s.poolAddr g.pool + a % 0x10000)
    | none =>
      match s.objectAt a with
      | some (_, o) => Config.hostByte o.pasid (o.hostAddr.toNat + (a - o.base.toNat))
      | none => 0
  | _ => Memory.byte s.mem.hbm a

/-- `n` bytes of the device range. -/
def State.devRead (s : State) (a n : Nat) : List Byte := (List.range n).map fun i => s.devByte (a + i)
/-- A little-endian number of the device range. -/
def State.devNum (s : State) (a n : Nat) : Nat := ofLe (s.devRead a n)

/-- Replace HBM. -/
def State.setHbm (s : State) (m : Memory) : State := { s with mem := { s.mem with hbm := m } }

/-- Bytes of a write that land on a dropped channel are discarded (R286): the byte kept instead. -/
def State.keepDropped (s : State) : Nat → List Byte → List Byte
  | _, [] => []
  | a, b :: t => (if s.onDropped a then Memory.byte s.mem.hbm a else b) :: State.keepDropped s (a + 1) t

/-- Die-store copies of the lines of a range are removed (R271). -/
def dropLines (l : List (Nat × Nat)) (a n : Nat) : List (Nat × Nat) :=
  l.filter fun p => !(p.2 * 128 < a + n && a < (p.2 + 1) * 128)

/-- A write of device memory by a unit that may make it: bytes in HBM, die-store copies removed, an
uncorrectable burst written whole made good (R271, R273). -/
def State.devWrite (s : State) (a : Nat) (bs : List Byte) : State :=
  let bs' := if s.mem.classDrop.isEmpty then bs else s.keepDropped a bs
  { s with mem := { s.mem with
      hbm := Memory.write s.mem.hbm a bs'
      dieStore := dropLines s.mem.dieStore a bs.length
      badBursts := s.mem.badBursts.filter fun b => !(a ≤ b * 64 && (b + 1) * 64 ≤ a + bs.length) } }

/-- Store a little-endian number of `n` bytes. -/
def State.devPut (s : State) (a n v : Nat) : State := s.devWrite a (leBytes n v)

/-- Ways of the die store a line may use on a die (R270). -/
def State.waysFor (s : State) (die a : Nat) : Nat :=
  match windowOf a with
  | some (.cls c) => bits (s.mem.classWays.get 0 c).toNat (16 * die + 15) (16 * die)
  | some .shared => bits s.mem.sharedWays.toNat (16 * die + 15) (16 * die)
  | some (.local_ _) => bits s.mem.sharedWays.toNat (16 * die + 15) (16 * die)
  | _ => 0

/-- Ones in the low 16 bits. -/
def pop16 (v : Nat) : Nat := ((List.range 16).filter fun i => v.testBit i).length

/-- Regions whose lines share ways: a class's own, or 16 for the shared and stack-local regions (R270). -/
def wayKind (a : Nat) : Option Nat :=
  match windowOf a with
  | some (.cls c) => some c
  | some .shared => some 16
  | some (.local_ _) => some 16
  | _ => none

/-- HBM address by which die store holds a device address: caddy and host data through their resident copies (R270). -/
def State.storeAddr (s : State) (a : Nat) : Option Nat :=
  match windowOf a with
  | some .caddy => (s.resident (a / 0x10000)).map fun g => s.poolAddr g.pool + a % 0x10000
  | some .host => (s.resident (a / 0x10000)).map fun g => s.poolAddr g.pool + a % 0x10000
  | _ => some a

/-- A core's read brings the 128-byte line of an HBM address into the die's store: least recent of the set leaves when the
ways allowed are taken (R270). Lines of one set are those whose numbers agree modulo 65,536. -/
def State.dieLine (s : State) (die a : Nat) : State :=
  let line := a / 128
  let same := fun p : Nat × Nat => p.1 = die && p.2 % 65536 = line % 65536 && wayKind (p.2 * 128) = wayKind a
  let ways := pop16 (s.waysFor die a)
  let rest := s.mem.dieStore.filter fun p => !(p.1 = die && p.2 = line)
  let inSet := rest.filter same
  let rest' := if inSet.length < ways then rest else
    match inSet.head? with
    | some v => rest.erase v
    | none => rest
  if ways = 0 then s else { s with mem := { s.mem with dieStore := rest' ++ [(die, line)] } }

/-- A resident caddy or host granule has been read since the clock last passed it (R283). -/
def State.granuleRead (s : State) (a : Nat) : State :=
  if windowOf a = some .caddy || windowOf a = some .host then
    match s.resident (a / 0x10000) with
    | some e => { s with mem := { s.mem with granules := s.mem.granules.map fun x => if x = e then { e with readSince := true } else x } }
    | none => s
  else s

/-- A core's read of a device address passes through its die's store (R270, R283). -/
def State.dieTouch (s : State) (die a : Nat) : State :=
  match s.storeAddr a with
  | some h => (s.dieLine die h).granuleRead a
  | none => s

/-- Lines of a kind leave the stores of the dies whose ways for it a mask changes (R270, notes/assumptions/128.md). -/
def State.dropWays (s : State) (kind : Nat) (old new : DWord) : State :=
  let moved := fun d => bits old.toNat (16 * d + 15) (16 * d) != bits new.toNat (16 * d + 15) (16 * d)
  { s with mem := { s.mem with dieStore := s.mem.dieStore.filter fun p => !(moved p.1 && wayKind (p.2 * 128) = some kind) } }

end Sys2Proof.Machine
end

