-- ==== Sys2Proof/Machine/Journal.lean ====
section
/-! DEFINITION. The caddy's banks, segment maps and journal (spec 12 R290, R291, R302 to R304). -/

namespace Sys2Proof.Machine

/-! ## Banks and segments -/

/-- Replace the caddy. -/
def State.setCaddy (s : State) (c : Caddy) : State := { s with caddy := c }
/-- Bank 0 is A, bank 1 is B. -/
def Caddy.bank (c : Caddy) (b : Nat) : Bank := if b = 0 then c.bankA else c.bankB
/-- Replace a bank. -/
def Caddy.setBank (c : Caddy) (b : Nat) (k : Bank) : Caddy := if b = 0 then { c with bankA := k } else { c with bankB := k }
/-- The idle bank; bank A where none is committed (R299). -/
def Caddy.idle (c : Caddy) : Nat := if c.active = 0 then 1 else 0
/-- Segment map of a bank on a die (R291). -/
def Bank.map_ (k : Bank) (die : Nat) : SegMap := if die = 0 then k.map0 else k.map1
/-- Replace a segment map. -/
def Bank.setMap (k : Bank) (die : Nat) (m : SegMap) : Bank := if die = 0 then { k with map0 := m } else { k with map1 := m }

/-- First physical segment of a bank (R290). -/
def bankFirst (b : Nat) : Nat := if b = 0 then 2 else 1537
/-- Bank of a physical segment; none for the journal and the maps (R290). -/
def bankOfSeg (seg : Nat) : Option Nat := if seg < 2 then none else if seg < 1537 then some 0 else some 1
/-- Physical segment of a die data segment (R291). -/
def SegMap.phys (m : SegMap) (b d : Nat) : Nat :=
  match List.find? (fun p : Nat × Nat => p.1 = d) m.remap with
  | some p => p.2
  | none => bankFirst b + d
/-- Caddy die of a window offset (R291). -/
def winDie (o : Nat) : Nat := o / 65536 % 2
/-- Die data segment of a window offset (R291). -/
def winSeg (o : Nat) : Nat := (o / 65536 / 2 * 65536 + o % 65536) / 0x4000000
/-- Die and physical segment that hold a window offset of a bank (R291). -/
def Caddy.place (c : Caddy) (b o : Nat) : Nat × Nat := (winDie o, ((c.bank b).map_ (winDie o)).phys b (winSeg o))

/-! ## The journal -/

/-- Records of a half of a journal segment (R303). -/
def halfRecords : Nat := 524288

/-- The record number of the last record; none in a factory-blank caddy (R302). -/
def Caddy.lastSeq (c : Caddy) : Option Nat :=
  match (c.journal0 ++ c.journal1).map fun r => r.seq.toNat with
  | [] => none
  | l => some (l.foldl max 0)

/-- The next record number (R302). -/
def Caddy.nextSeq (c : Caddy) : Nat := match c.lastSeq with | some n => n + 1 | none => 0

/-- The latest record of a type for a bank. -/
def latest (l : List JRec) (type bank : Nat) : Option JRec :=
  (l.filter fun r => r.type = type && r.bank = bank).foldl
    (fun o r => match o with | none => some r | some q => if q.seq.toNat < r.seq.toNat then some r else some q) none

/-- Records that a rollover copies, in their order: of each bank the latest BUILD_START, BUILT, ACTIVATE and
ERASED (R303). -/
def deciding (l : List JRec) : List JRec :=
  let picks := [0, 1].flatMap fun b => [1, 2, 3, 5].filterMap fun t => latest l t b
  sortBy (fun a b : JRec => a.seq.toNat ≤ b.seq.toNat) picks

/-- The deciding records with new numbers from `n`; REF of an ACTIVATE names the copied BUILT (R303). -/
def rollover (l : List JRec) (n : Nat) : List JRec :=
  let ds := deciding l
  let fresh := fun (r : JRec) => BitVec.ofNat 64 (n + (ds.findIdx? (· = r)).getD 0)
  ds.map fun r =>
    let ref := if r.type = 3 then
        match ds.find? fun b => b.type = 2 && b.bank = r.bank && b.seq.setWidth 32 = r.ref with
        | some b => (fresh b).setWidth 32
        | none => r.ref
      else r.ref
    { r with seq := fresh r, ref := ref }

/-- A die's journal after one more record: the full half gives way to the copies in the other (R303). -/
def jnlPut (l : List JRec) (r : JRec) : List JRec :=
  let l' := l ++ [r]
  if halfRecords ≤ l'.length then rollover l' (r.seq.toNat + 1) else l'

/-- Write a record to die 0 and then to die 1; a quiescing package starts none (R303, R309). -/
def State.jnl (s : State) (type bank : Nat) (gen : Word) (geom : DWord) (digest : W256) (ref : Word) : State :=
  if s.start.quiesced then s else
  let c := s.caddy
  let r : JRec := { seq := BitVec.ofNat 64 c.nextSeq, type := type, bank := bank, gen := gen, geom := geom
                    digest := digest, ref := ref }
  s.setCaddy { c with journal0 := jnlPut c.journal0 r, journal1 := jnlPut c.journal1 r }

/-- REF of a SEG_MAP record (R302). -/
def segRef (die dataSeg phys : Nat) : Word := BitVec.ofNat 32 (putBits die 31 31 + putBits dataSeg 26 16 + putBits phys 11 0)

/-- The bank that the journal commits, with its BUILT record (R304). -/
def committed (l : List JRec) : Option JRec :=
  let acts := sortBy (fun a b : JRec => b.seq.toNat ≤ a.seq.toNat) (l.filter fun r => r.type = 3)
  acts.findSome? fun a =>
    l.find? fun b => b.type = 2 && b.bank = a.bank && b.gen = a.gen && b.seq.toNat < a.seq.toNat &&
      b.seq.setWidth 32 = a.ref &&
      !l.any fun r => (r.type = 1 || r.type = 5) && r.bank = a.bank && b.seq.toNat < r.seq.toNat && r.seq.toNat < a.seq.toNat

/-- The BUILT record by which a bank is built (R304). -/
def builtBy (l : List JRec) (bank : Nat) : Option JRec :=
  let after := fun (b : JRec) (o : Option JRec) => match o with | some r => r.seq.toNat < b.seq.toNat | none => true
  match latest l 2 bank with
  | some b => if after b (latest l 1 bank) && after b (latest l 5 bank) then some b else none
  | none => none

/-- Write an ACTIVATE for a bank, naming its BUILT (R302, R306). -/
def State.jnlActivate (s : State) (bank : Nat) : State :=
  match latest s.caddy.journal0 2 bank with
  | some b => s.jnl 3 bank b.gen 0 0 (b.seq.setWidth 32)
  | none => s

end Sys2Proof.Machine
end

