-- ==== Sys2Proof/Machine/Records.lean ====
section
/-! DEFINITION. Error records: nesting, escalation, coalescing, the log and the error ring (spec 18 R442
to R448, R538; spec 14 R364). -/

namespace Sys2Proof.Machine

/-- Append to what the package has sent. -/
def State.emit (s : State) (o : Out) : State := { s with out := s.out ++ [o] }

/-- Timer counter now. -/
def State.now (s : State) : DWord := s.time.count

/-- TCLK periods from an earlier counter value to now (R48, R52). -/
def State.since (s : State) (t : DWord) : Nat := (s.time.count - t).toNat

/-- Replace the error block. -/
def State.setErr (s : State) (e : Err) : State := { s with err := e }

/-- An error as it is detected. -/
structure ErrIn where
  status : Nat
  /-- Class before any escalation (R442). -/
  cls : Nat
  unit : Nat := 0
  die : Nat := 0
  pos : Nat := 0
  seqs : List Nat := []
  addr : Nat := 0
  detail : Nat := 0
  alarm : Bool := false
  until_ : HandleEnd := .atOnce
  deriving DecidableEq, Repr

/-- Data errors (R445). HOST_READ is one as a contained error, not as the condition of R322. -/
def ErrIn.isData (e : ErrIn) : Bool :=
  (e.status = 0x0203 && e.cls = 1) ||
  [0x0520, 0x0521, 0x0532, 0x0540, 0x0423, 0x0522, 0x055B].contains e.status

/-- Records that report a condition (R538). -/
def ErrIn.isCondition (e : ErrIn) : Bool :=
  e.cls = 0 && [0x055A, 0x0437, 0x0541, 0x0312, 0x0311, 0x0104, 0x0303, 0x0531, 0x0203].contains e.status

/-- An error in handling shares the scope of a new one (R446). -/
def Handling.shares (h : Handling) (e : ErrIn) : Bool :=
  (h.unit != 0 && h.unit = e.unit && h.die = e.die && h.pos = e.pos) ||
  (h.seqs.any fun q => e.seqs.contains q) ||
  h.carriers.contains (e.unit, e.die, e.pos)

/-- The parent of a new error: the latest that shares its scope, else the latest (R445). -/
def State.parentOf (s : State) (e : ErrIn) : Option Handling :=
  match (s.err.handling.filter (·.shares e)).getLast? with
  | some h => some h
  | none => s.err.handling.getLast?

/-- Ones of a 64-bit mask. -/
def pop64 (v : BitVec 64) : Nat := ((List.range 64).filter fun i => v.getLsbD i).length

/-- The unit of an error can be mapped out (table "Units in error records"). -/
def State.canMapOut (s : State) (unit die : Nat) : Bool :=
  match unit with
  | 1 => true
  | 2 => pop64 (s.comp.coreLost.get 0 die) + 1 < 64
  | 3 => true
  | 4 => true
  | 5 => true
  | 6 => s.eng.primary && s.eng.mirror
  | 7 => true
  | _ => false

/-- What R445 to R447 make of a new error: parent, class, escalated, depth. -/
structure Judged where
  parent : Option Handling
  cls : Nat
  escalated : Bool
  depth : Nat
  deriving DecidableEq, Repr

/-- Class one step up (R446). -/
def State.escalate (s : State) (e : ErrIn) : Nat :=
  if e.cls = 0 then 1 else if e.cls = 1 && s.canMapOut e.unit e.die then 2 else 3

/-- Nesting, escalation and depth (R445 to R447). -/
def State.judge (s : State) (e : ErrIn) : Judged :=
  match s.parentOf e with
  | none => ⟨none, e.cls, false, 0⟩
  | some h =>
    if e.isData || e.isCondition then ⟨some h, e.cls, false, 0⟩ else
      let up := h.shares e
      let cls := if up then s.escalate e else e.cls
      let depth := if cls = 0 then h.depth else h.depth + 1
      if depth ≥ 3 && cls != 0 then ⟨some h, 3, true, 3⟩ else ⟨some h, cls, up && cls != e.cls, min depth 3⟩

/-- Sequences in batch-list order, those outside the batch after them (R443). -/
def State.batchOrder (s : State) (qs : List Nat) : List Nat :=
  let b := (s.steep.batch.map BatchItem.seq).filter qs.contains
  b ++ qs.filter fun q => !b.contains q

/-- The 64-byte record, PHASE 0 (R443). -/
def State.errRecord (s : State) (e : ErrIn) (j : Judged) (count : Nat) : W512 :=
  BitVec.ofNat 512 (packAt [
    (0, 4, putBits j.cls 30 29 + putBits (b2n j.parent.isSome) 28 28 + putBits (b2n j.escalated) 27 27
        + putBits (b2n e.alarm) 26 26 + putBits j.depth 25 24 + putBits e.status 15 0),
    (4, 4, s.err.total.toNat),
    (8, 4, match j.parent with | some h => h.index.toNat | none => 0xFFFFFFFF),
    (12, 4, s.steep.number.toNat),
    (16, 8, s.now.toNat),
    (24, 4, putBits e.unit 31 28 + putBits e.die 27 26 + putBits s.dom.node 23 16 + putBits e.pos 15 0),
    (28, 4, match s.batchOrder e.seqs with | q :: _ => 2 ^ 31 + putBits q 19 0 | [] => 0),
    (32, 4, e.seqs.length),
    (36, 4, count),
    (40, 8, e.addr),
    (48, 8, e.detail)])

/-- One record into the error ring, or counted as lost (R364). -/
def State.errRingPut (s : State) (r : W512) : State :=
  let e := s.err
  if !e.ringEn then s
  else if e.ringUsed < 2 ^ e.ringLog2 then
    let withPhase := r.toNat + putBits (b2n e.ringPhase) 31 31
    let next := (e.ringTail + 1) % 2 ^ e.ringLog2
    let s := s.setErr { e with
      ringTail := next
      ringUsed := e.ringUsed + 1
      ringPhase := if next = 0 then !e.ringPhase else e.ringPhase }
    (s.emit (.hostWrite (if e.ringPasidEn then some e.ringPasid else none)
      (e.ringBase + BitVec.ofNat 64 (e.ringTail * 64)) (leBytes 64 withPhase))).emit (.msix e.ringVector)
  else s.setErr { e with ringLost := e.ringLost + 1 }

/-- One record into the log and the ring (R364, R442). -/
def State.putRecord (s : State) (r : W512) : State :=
  let e := s.err
  (s.setErr { e with log := e.log.set (e.total.toNat % 256) r, total := e.total + 1 }).errRingPut r

/-- The coalescing memory of a corrected error (R444). -/
def CorrMem.matches_ (c : CorrMem) (e : ErrIn) : Bool :=
  c.status = e.status && c.unit = e.unit && c.die = e.die && c.pos = e.pos

/-- The error takes its place in handling (heading "Nesting and escalation"). -/
def State.enterHandling (s : State) (e : ErrIn) (j : Judged) : State :=
  if e.isData || e.isCondition || j.cls = 0 || j.cls = 3 || e.until_ = .atOnce ||
     (e.until_ = .steep && !s.steep.running) then s
  else
    let h : Handling := { index := s.err.total, cls := j.cls, unit := e.unit, die := e.die, pos := e.pos,
                          seqs := e.seqs, depth := j.depth, until_ := e.until_ }
    s.setErr { s.err with handling := s.err.handling ++ [h] }

/-- Record an error: nested, escalated, coalesced as R444 to R448 say. Answers the class it is handled as;
`none` where no record is written now. -/
def State.record (s : State) (e : ErrIn) : State × Option Nat :=
  if s.err.silent then (s, none) else
  let j := s.judge e
  if j.cls = 0 && !e.isCondition then
    match s.err.corr.find? (·.matches_ e) with
    | some c =>
      if s.since c.at_ < 25000000 then
        (s.setErr { s.err with corr := updateIf s.err.corr (·.matches_ e) fun c => { c with pending := c.pending + 1 } }, none)
      else
        let s := s.setErr { s.err with corr := updateIf s.err.corr (·.matches_ e) fun c => { c with at_ := s.now, pending := 0 } }
        (s.putRecord (s.errRecord e j (c.pending + 1)), some 0)
    | none =>
      let c : CorrMem := { status := e.status, unit := e.unit, die := e.die, pos := e.pos, at_ := s.now, pending := 0 }
      let s := s.setErr { s.err with corr := s.err.corr ++ [c] }
      (s.putRecord (s.errRecord e j 1), some 0)
  else
    let r := s.errRecord e j 1
    let s := s.enterHandling e j
    (s.putRecord r, some j.cls)

/-- Record a corrected error or a condition whose class does not change what is done. -/
def State.note (s : State) (e : ErrIn) : State := (s.record e).1

end Sys2Proof.Machine
end

