-- ==== Sys2Proof/Machine/Rings.lean ====
section
/-! DEFINITION. Completion rings: records, reservations, backlog, interrupts, final records, long-operation
records, token and event records (spec 13 R322 to R341). -/

namespace Sys2Proof.Machine

/-- A ring pair as it stands. -/
def State.ring (s : State) (n : Nat) : RingPair := s.rings.get {} n
/-- Replace a ring pair. -/
def State.setRing (s : State) (n : Nat) (r : RingPair) : State := { s with rings := s.rings.set n r }
/-- Update a ring pair. -/
def State.onRing (s : State) (n : Nat) (f : RingPair → RingPair) : State := s.setRing n (f (s.ring n))

/-- PASID that tags a pair's requests (R350). -/
def RingPair.tagPasid (r : RingPair) : Option Nat := if r.pasidEn then some r.pasid else none
/-- Completion entries neither waiting to be consumed nor reserved (R323). -/
def RingPair.free (r : RingPair) : Nat := 2 ^ r.cqLog2 - r.unread.length - r.reserved

/-- The interrupt of an armed pair whose count or time is reached (R326). -/
def State.interrupt (s : State) (n : Nat) : State :=
  let r := s.ring n
  let due := match r.unread.head? with
    | some t => r.modCount ≤ r.unread.length || r.modTime * 25 ≤ s.since t
    | none => false
  if r.armed && due then (s.setRing n { r with armed := false }).emit (.msix r.vector) else s

/-- Write a record into the next completion entry with the pair's phase (R325). -/
def State.putCompletion (s : State) (n : Nat) (rec : W256) : State :=
  let r := s.ring n
  let next := (r.cqTail + 1) % 2 ^ r.cqLog2
  let r' := { r with cqTail := next, phase := (if next = 0 then !r.phase else r.phase), unread := r.unread ++ [s.now] }
  let bytes := leBytes 32 (rec.toNat + putBits (b2n r.phase) 63 63)
  ((s.setRing n r').emit (.hostWrite r.tagPasid (r.cqBase + BitVec.ofNat 64 (r.cqTail * 32)) bytes)).interrupt n

/-- Backlogged records of every pair (R337). -/
def State.backlogged (s : State) : Nat := s.rings.foldl (fun k p => k + p.2.backlog.length) 0

/-- Room for one more 32-byte record in the backlog (R337). -/
def State.backlogRoom (s : State) : Bool := (s.backlogged + 1) * 32 ≤ s.hif.backlogSize.toNat

/-- Records move from the backlog to free entries in their order (R337). -/
def State.drainBacklog : Nat → State → Nat → State
  | 0, s, _ => s
  | k + 1, s, n =>
    let r := s.ring n
    match r.backlog with
    | [] => s
    | rec :: t =>
      if 0 < r.free then State.drainBacklog k ((s.setRing n { r with backlog := t }).putCompletion n rec) n else s

/-- Let the backlog of a pair drain as far as entries allow. -/
def State.drain (s : State) (n : Nat) : State := s.drainBacklog (s.ring n).backlog.length n

/-- How a record without a reservation is handled where it finds no entry (R319, R337). -/
inductive Loose where
  | token | control | progress
  deriving DecidableEq, Repr

/-- A discarded record of an enabled pair: counted, OVERFLOW set, one RING_OVERFLOW record (R337). -/
def State.overflowRing (s : State) (n : Nat) : State :=
  let r := s.ring n
  let s' := s.setRing n { r with drop := r.drop + 1, overflow := true }
  if r.overflow then s'
  else s'.note { status := 0x0104, cls := 0, unit := 9, pos := 1, detail := n }

/-- A token, event, progress, SUSPENDED or OP_RESUMED record (R323, R337). -/
def State.loose (s : State) (n : Nat) (k : Loose) (rec : W256) : State :=
  let r := s.ring n
  if !r.enable then (if k = .token then s.setRing n { r with drop := r.drop + 1 } else s)
  else if r.backlog.isEmpty && 0 < r.free then s.putCompletion n rec
  else if s.backlogRoom then s.setRing n { r with backlog := r.backlog ++ [rec] }
  else if k = .progress then s
  else s.overflowRing n

/-! ## Descriptors -/

/-- A field of a descriptor: `n` bytes at a byte offset. -/
def dField (d : W512) (off n : Nat) : Nat := fieldAt d.toNat off n
/-- OPCODE of the common header (R327). -/
def dOpcode (d : W512) : Nat := dField d 0 1
/-- TENANT of the common header (R327). -/
def dTenant (d : W512) : Nat := bits (dField d 0 4) 31 20
/-- CLASS of the common header (R327). -/
def dClass (d : W512) : Nat := bits (dField d 0 4) 19 16
/-- QUIET of the common header (R327). -/
def dQuiet (d : W512) : Bool := bit (dField d 0 4) 9
/-- FENCE of the common header (R327). -/
def dFence (d : W512) : Bool := bit (dField d 0 4) 8
/-- TAG of the common header (R327). -/
def dTag (d : W512) : Word := BitVec.ofNat 32 (dField d 4 4)

/-- The descriptor starts a long operation (table "Descriptor opcodes", R209). -/
def dLong (d : W512) : Bool :=
  [0x21, 0x28, 0x29, 0x2A].contains (dOpcode d) || (dOpcode d = 0x11 && 32768 < dField d 24 4)

/-- Completion entries that a descriptor reserves (R323). -/
def dEntries (d : W512) : Nat := if dLong d then 2 else 1

/-- A record: TAG, word 4 without PHASE, result fields (R332). -/
def mkRecord (tag : Word) (final event : Bool) (detail status : Nat) (res : List (Nat × Nat × Nat)) : W256 :=
  BitVec.ofNat 256 (packAt ((0, 4, tag.toNat) ::
    (4, 4, putBits (b2n final) 30 30 + putBits (b2n event) 29 29 + putBits detail 28 16 + putBits status 15 0) :: res))

/-- Give back reserved entries. -/
def State.release (s : State) (n k : Nat) : State := s.onRing n fun r => { r with reserved := r.reserved - k }

/-- A record in a reserved entry; discarded where ENABLE reads 0 (R319). -/
def State.reservedRecord (s : State) (n k : Nat) (rec : W256) : State :=
  let s := s.release n k
  if (s.ring n).enable then s.putCompletion n rec else s

/-- The final record of a descriptor that is not a long operation past its ACCEPTED (R327, R332, R333). -/
def State.finish (s : State) (n : Nat) (d : W512) (status : Nat) (res : List (Nat × Nat × Nat)) : State :=
  let s := s.onRing n fun r => { r with open_ := r.open_ - 1 }
  if dQuiet d && status = 0 then (s.release n (dEntries d)).drain n
  else (s.reservedRecord n (dEntries d) (mkRecord (dTag d) true false 0 status res)).drain n

/-- A refusal: byte 8 names the first offending field (R328). -/
def State.refuse (s : State) (n : Nat) (d : W512) (status off : Nat) : State := s.finish n d status [(8, 4, off)]

/-- The final record of a control that waited for its operation (R341). -/
def State.finishControl (s : State) (c : OpControl) (status : Nat) : State :=
  let s := s.onRing c.ring fun r => { r with open_ := r.open_ - 1 }
  if c.quiet && status = 0 then (s.release c.ring 1).drain c.ring
  else (s.reservedRecord c.ring 1 (mkRecord c.tag true false 0 status [])).drain c.ring

/-! ## Long operations -/

/-- A long-operation record (R339). -/
def State.opRecord (s : State) (h : Nat) (o : LongOp) (final : Bool) (status : Nat) : W256 :=
  mkRecord o.tag final false 0 status
    [(8, 4, h), (12, 4, s.now.toNat), (16, 8, o.done), (24, 8, o.total)]

/-- Start a long operation: handle, ACCEPTED record, one entry kept for its final record (R323, R338, R339). -/
def State.startOp (s : State) (n : Nat) (d : W512) (kind : OpKind) (total : Nat) : State × Nat :=
  let h := s.nextHandle
  let next := if h + 1 = 0 then 1 else h + 1
  let o : LongOp := { kind := kind, ring := n, tag := dTag d, quiet := dQuiet d, desc := d, total := total }
  let s := { s with nextHandle := next, longOps := s.longOps.set h.toNat o }
  let s := s.onRing n fun r => { r with open_ := r.open_ - 1 }
  (s.reservedRecord n 1 (s.opRecord h.toNat o false 0x0001), h.toNat)

/-- A long operation ends: pending controls that lose their chance complete with OP_STATE first where they
must, the final record is written, the handle stops being known (R338, R339, R341). -/
def State.endOp (s : State) (h : Nat) (status : Nat) (ctl : Nat) (ctlFirst : Bool) : State :=
  match s.longOps.find? h with
  | none => s
  | some o =>
    let s := { s with longOps := s.longOps.erase h }
    let close := fun (s : State) => o.waiters.foldl (fun s c => s.finishControl c ctl) s
    let s := if ctlFirst then close s else s
    let s := if o.quiet && status = 0 then (s.release o.ring 1).drain o.ring
             else (s.reservedRecord o.ring 1 (s.opRecord h o true status)).drain o.ring
    if ctlFirst then s else close s

/-- A progress, SUSPENDED or OP_RESUMED record of an operation. -/
def State.opNote (s : State) (h : Nat) (o : LongOp) (status : Nat) : State :=
  s.loose o.ring (if status = 0x0003 then .progress else .control) (s.opRecord h o false status)

/-! ## Token and event records -/

/-- A sequence record as it stands. -/
def State.seq (s : State) (q : Nat) : SeqRec := s.eng.seqs.get {} q
/-- Replace a sequence record. -/
def State.setSeq (s : State) (q : Nat) (r : SeqRec) : State := { s with eng := { s.eng with seqs := s.eng.seqs.set q r } }
/-- Update a sequence record. -/
def State.onSeq (s : State) (q : Nat) (f : SeqRec → SeqRec) : State := s.setSeq q (f (s.seq q))

/-- An event record of a sequence (R336). -/
def State.event (s : State) (q : Nat) (status : Nat) : State :=
  let r := s.seq q
  s.loose r.ring .token (mkRecord (r.userTag.setWidth 32) false true 0 status
    [(8, 4, r.userTag.toNat / 2 ^ 32), (12, 4, q), (16, 4, r.committed),
     (20, 4, s.steep.number.toNat), (24, 4, s.now.toNat), (28, 4, 0xFFFFFFFF)])

/-- Event records for several sequences. -/
def State.events (s : State) (qs : List Nat) (status : Nat) : State := qs.foldl (fun s q => s.event q status) s

end Sys2Proof.Machine
end

