-- ==== Sys2Proof/Machine/Sync.lean ====
section
/-! DEFINITION. Synchronisation objects, waiters, mailboxes and notices (spec 17 R431 to R440), and every
write of device memory that may reach an object. -/

namespace Sys2Proof.Machine

/-- The synchronisation area exists (R431). -/
def State.syncPresent (s : State) : Bool := 0x400000 ≤ s.localSize 1
/-- Address of object `i` (R431). -/
def objAddr (i : Nat) : Nat := syncBase + 8 * i
/-- Counter of an object (R431). -/
def State.objGet (s : State) (i : Nat) : Nat := Memory.num s.mem.hbm (objAddr i) 8

/-- The waiter that an update completes, if its threshold is met (R433). -/
def State.waiterMet (s : State) (w : Waiting) : Bool :=
  match w.what with
  | .sync o thr _ _ => thr.toNat ≤ s.objGet o
  | _ => false

/-- The object of a SYNC_WAIT that waits. -/
def WaitFor.object : WaitFor → Option Nat
  | .sync o _ _ _ => some o
  | _ => none

/-- A SYNC_WAIT ends with a status and the counter then in force (R333, R433). -/
def State.endWait (s : State) (w : Waiting) (status : Nat) : State :=
  let v := match w.what.object with | some o => s.objGet o | none => 0
  { s with waiting := s.waiting.erase w }.finish w.ring w.desc status [(16, 8, v)]

/-- Evaluate every waiter (R432). -/
def State.wake (s : State) : State :=
  (s.waiting.filter s.waiterMet).foldl (fun s w => s.endWait w 0) s

/-- A write of device memory: an update of an object evaluates its waiters (R432). -/
def State.store (s : State) (a : Nat) (bs : List Byte) : State :=
  let s := s.devWrite a bs
  if meets a bs.length syncBase 0x80000 then s.wake else s

/-- Set an object and evaluate its waiters (R432). -/
def State.objSet (s : State) (i v : Nat) : State := s.store (objAddr i) (leBytes 8 v)
/-- Add to an object modulo 2⁶⁴ (R432). -/
def State.objAdd (s : State) (i v : Nat) : State := s.objSet i ((s.objGet i + v) % 2 ^ 64)

/-- A local atomic on an HBM location of `n` bytes: the value before, and the state after (R275, R409). -/
def State.atomicOp (s : State) (op : AtomicOp) (n a operand compare : Nat) : Nat × State :=
  let old := Memory.num s.mem.hbm a n
  let w := 2 ^ (8 * n)
  let new := match op with
    | .fetchAdd => (old + operand) % w
    | .swap => operand % w
    | .cas => if old = compare % w then operand % w else old
    | .min => min old (operand % w)
    | .max => max old (operand % w)
  (old, s.store a (leBytes n new))

/-- The synchronisation and message areas as at start: every object and notice queue 0, so that no buffer
is in use (R435). -/
def State.syncClear (s : State) : State :=
  s.setHbm (Memory.clear (Memory.clear s.mem.hbm syncBase 0x80000) (syncBase + 0x081000) 0x40000)

/-! ## Mailboxes -/

/-- Post count of a mailbox (R434). -/
def State.posts (s : State) (m : Nat) : Nat := s.objGet (0xFF80 + 2 * m)
/-- Take count of a mailbox (R434). -/
def State.takes (s : State) (m : Nat) : Nat := s.objGet (0xFF81 + 2 * m)
/-- Notices waiting: posts minus takes modulo 2⁶⁴ (R437). -/
def State.notices (s : State) (m : Nat) : Nat := (s.posts m + 2 ^ 64 - s.takes m) % 2 ^ 64
/-- A mailbox holds a notice (R437). -/
def State.mailPending (s : State) (m : Nat) : Bool := s.notices m != 0
/-- Address of a notice slot (R431, R437). -/
def noticeAddr (m k : Nat) : Nat := syncBase + 0x081000 + m * 0x1000 + k % 256 * 16
/-- Message buffers of the area (R431). -/
def State.bufferCount (s : State) : Nat := (s.localSize 1 - 0x400000) / 0x100000
/-- Address of a message buffer (R431). -/
def bufferAddr (b : Nat) : Nat := syncBase + 0x400000 + b * 0x100000
/-- Buffers held by the notices of a mailbox not yet taken (R437). -/
def State.mailBuffers (s : State) (m : Nat) : List Nat :=
  if s.notices m ≤ 256 then
    (List.range (s.notices m)).map fun i =>
      (Memory.num s.mem.hbm (noticeAddr m (s.takes m + i)) 8 - bufferAddr 0) / 0x100000
  else []
/-- Buffers in use. -/
def State.usedBuffers (s : State) : List Nat := (List.range 64).flatMap s.mailBuffers

/-- A post to the mailbox is accepted here: its binding (R438, R440). -/
def State.mailOpen (s : State) (m : Nat) : Bool :=
  let e := Memory.num s.mem.hbm (syncBase + 0x080000 + m * 16) 16
  if m < 56 then e = 1 || e = 2
  else if m < 60 then false
  else if m < 62 then s.dom.role = .manager
  else if m = 62 then s.dom.role = .standby
  else m = 63

/-- Post a message: none where it is discarded without acknowledgement (R437). -/
def State.post (s : State) (m : Nat) (msg : List Byte) (srcNode srcDie srcDomain : Nat) : Option State :=
  let b := lowestFree s.usedBuffers s.bufferCount
  if !s.syncPresent || !s.mailOpen m || 256 ≤ s.notices m || s.bufferCount ≤ b then none
  else
    let k := s.posts m
    let notice := packAt [(0, 8, bufferAddr b), (8, 4, msg.length),
      (12, 4, putBits srcNode 31 24 + putBits srcDie 23 22 + putBits srcDomain 15 0)]
    some (((s.store (bufferAddr b) msg).store (noticeAddr m k) (leBytes 16 notice)).objSet (0xFF80 + 2 * m) ((k + 1) % 2 ^ 64))

/-- The oldest notice of a mailbox: its message and source node (R437). -/
def State.notice (s : State) (m : Nat) : Option (List Byte × Nat) :=
  if s.syncPresent && s.mailPending m then
    let n := Memory.num s.mem.hbm (noticeAddr m (s.takes m)) 16
    some (Memory.read s.mem.hbm (fieldAt n 0 8) (fieldAt n 8 4), bits (fieldAt n 12 4) 31 24)
  else none

/-- Take the oldest notice: the take count advances and its buffer frees (R437). -/
def State.take (s : State) (m : Nat) : State := s.objSet (0xFF81 + 2 * m) ((s.takes m + 1) % 2 ^ 64)

end Sys2Proof.Machine
end

