-- ==== Sys2Proof/Machine/LinkOps.lean ====
section
/-! DEFINITION. Sending on links: choice of link, flits, discovery frames, packets, fabric requests
(spec 15 R371 to R380, spec 16 R392 to R401). -/

namespace Sys2Proof.Machine

/-- A link as it stands. -/
def State.link (s : State) (l : Nat) : Link := s.links.get {} l
/-- Replace a link. -/
def State.setLink (s : State) (l : Nat) (k : Link) : State := { s with links := s.links.set l k }
/-- Update a link. -/
def State.onLink (s : State) (l : Nat) (f : Link → Link) : State := s.setLink l (f (s.link l))
/-- UP of LNK_STATUS (R359). -/
def Link.isUp (k : Link) : Bool := k.train = .up
/-- Links of the part. -/
def State.linkList (s : State) : List Nat := List.range s.part.links
/-- Kind of a port: 0 none, 1 domain, 2 message (R376). -/
def State.portKind (s : State) (p : Nat) : Nat := s.disc.portKind.get 0 p
/-- An up link of a domain port, not held out (R376). -/
def State.domainLink (s : State) (l : Nat) : Bool :=
  let k := s.link l
  k.isUp && !k.heldOut && s.portKind k.port = 1 && (k.peerKind = 1 || k.peerKind = 2)

/-! ## Flits -/

/-- CRC-32 over bytes: reflected polynomial 0xEDB88320, initial and final inversion (R302). -/
def crc32 (bs : List Byte) : Nat :=
  (bs.foldl (fun (c : Nat) (b : Byte) => (List.range 8).foldl
    (fun (c : Nat) _ => if c % 2 = 1 then (c / 2).xor 0xEDB88320 else c / 2) (c.xor b.toNat)) 0xFFFFFFFF).xor 0xFFFFFFFF

/-- Send the flits of a queue that a credit and the replay buffer allow, in order (R372, R373). -/
def State.pump : Nat → State → Nat → State
  | 0, s, _ => s
  | n + 1, s, l =>
    let k := s.link l
    match k.queue with
    | [] => s
    | f :: t =>
      let have_ := k.credits.getD f.vc 0
      if k.isUp && k.replay.length < 1024 && (f.vc = 4 || 0 < have_) then
        let f' := { f with seq := k.txSeq, sentAt := s.now }
        let k' := { k with
          queue := t
          replay := k.replay ++ [f']
          txSeq := (k.txSeq + 1) % 4096
          credits := if f.vc = 4 then k.credits else k.credits.set f.vc (have_ - 1) }
        State.pump n ((s.setLink l k').emit (.flit l f.vc k.txSeq f.payload)) l
      else s

/-- Cut a packet into flit payloads of 508 bytes, the last padded with 0; fuel is the packet's length. -/
def flitChunks : Nat → List Byte → List (List Byte)
  | 0, _ => []
  | n + 1, bs => if bs.isEmpty then [] else bytesAt bs 0 508 :: flitChunks n (bs.drop 508)

/-- Put a packet on a link's channel: a packet starts a flit of its own (notes/assumptions/18.md). -/
def State.linkSend (s : State) (l vc : Nat) (bs : List Byte) (p : Option SentPkt) : State :=
  let cs := flitChunks bs.length bs
  let fs := cs.mapIdx fun i c => ({ seq := 0, vc := vc, payload := c, sentAt := 0,
                                    pkt := if i + 1 = cs.length then p else none } : FlitTx)
  let s := s.onLink l fun k => { k with queue := k.queue ++ fs }
  State.pump (s.link l).queue.length s l

/-! ## Discovery frames (R379) -/

/-- The 64 bytes of a frame (R379). -/
def frameBytes (f : Frame) : List Byte :=
  let v := packAt [
    (0, 4, putBits f.kind 31 28 + putBits f.senderKind 27 26 + putBits f.mgrPrio 25 24 + putBits (b2n f.elected) 23 23
        + putBits (b2n f.conflict) 22 22 + putBits f.node 15 8 + putBits f.manager 7 0),
    (4, 4, putBits f.epoch 31 16 + putBits f.link 15 8 + putBits f.variant 7 4 + putBits f.lanes 3 0),
    (8, 4, putBits f.swPort 31 16 + putBits f.targetPort 15 0),
    (12, 4, putBits f.plane 31 16 + putBits f.assignNode 15 8 + putBits f.standby 7 0),
    (16, 4, putBits f.count 24 16 + putBits f.dest 15 8),
    (20, 4, f.lastSteep.toNat),
    (24, 4, b2n f.lsValid)]
  let body := leBytes 60 v
  body ++ leBytes 4 (crc32 body)

/-- A frame of the given type with the sender's own fields (R379). -/
def State.frame (s : State) (l kind : Nat) : Frame :=
  { kind := kind, mgrPrio := s.dom.mgrPrio, elected := false, conflict := false, node := s.dom.node
    manager := s.dom.manager, epoch := s.disc.epoch, link := l, variant := s.part.variant
    lanes := (s.link l).lanes, swPort := 0xFFFF, targetPort := 0xFFFF, plane := 0xFFFF
    assignNode := 0xFF, standby := s.disc.standby, count := 0, dest := 0xFF
    lastSteep := 0, lsValid := false, intact := true, senderKind := 0 }

/-- Send a frame on a link (R371, R379). -/
def State.sendFrame (s : State) (l : Nat) (f : Frame) : State :=
  (s.emit (.frame l f)).linkSend l 4 (frameBytes f) none

/-! ## Choice of link (R377) -/

/-- Planes of a numbered package (R385). -/
def State.planesOf (s : State) (d : Nat) : List Nat :=
  match s.disc.planes.find? fun e => e.node = d with
  | some e => e.planes
  | none => []

/-- A link reaches a node: its peer is the node, or a switch of a plane the node has a link on (R377). -/
def State.reaches (s : State) (l d : Nat) : Bool :=
  let k := s.link l
  k.isUp && !k.heldOut &&
    ((k.peerKind = 1 && k.peerNode = d) || (k.peerKind = 2 && (s.planesOf d).contains k.plane))

/-- The hash of R377. -/
def linkHash (d f : Nat) : Nat := ((d * 0x9E3779B9) % 2 ^ 32 + (f * 0x85EBCA6B) % 2 ^ 32) % 2 ^ 32

/-- The link of a port's set that a packet takes (R377). -/
def State.pickLink (s : State) (set : List Nat) (d f : Nat) : Option Nat :=
  let four := set.filter fun l => (s.link l).lanes = 4
  let set := if four.isEmpty then set else four
  if set.isEmpty then none else set[linkHash d f % set.length]?

/-- Up links of a port that reach a node. -/
def State.portSet (s : State) (p d : Nat) : List Nat :=
  s.linkList.filter fun l => (s.link l).port = p && s.reaches l d

/-- The domain port of lowest number with a link that reaches a node (R377). -/
def State.domainPort (s : State) (d : Nat) : Option Nat :=
  (List.range 16).find? fun p => s.portKind p = 1 && !(s.portSet p d).isEmpty

/-- The link for a packet to a member node (R377). -/
def State.linkFor (s : State) (d f : Nat) : Option Nat :=
  match s.domainPort d with
  | some p => s.pickLink (s.portSet p d) d f
  | none => none

/-- The link of a message port: any up link of the port not held out (R377, R414). -/
def State.messageLink (s : State) (p d : Nat) : Option Nat :=
  if s.portKind p = 1 then s.pickLink (s.portSet p d) d 0
  else s.pickLink (s.linkList.filter fun l => let k := s.link l; k.port = p && k.isUp && !k.heldOut) d 0

/-! ## Fabric packets -/

/-- Header bytes and payload of a packet, padded to a multiple of 32 (R394). -/
def fabBytes (p : FabPkt) : List Byte :=
  let h := packAt [
    (0, 4, putBits p.op 31 24 + putBits p.src 23 16 + putBits p.dst 15 8 + putBits p.srcDie 7 6
        + putBits (b2n p.cacheable) 5 5 + putBits (b2n p.nocache) 4 4 + putBits (b2n p.raw) 3 3
        + putBits (b2n p.retry) 2 2),
    (4, 4, p.tag.toNat), (8, 4, p.dseq.toNat),
    (12, 4, putBits p.status.toNat 31 16 + putBits p.asub 15 13 + putBits (b2n p.asize) 12 12 + putBits p.lenM1 11 0),
    (16, 8, p.addr.toNat), (24, 8, p.operand.toNat)]
  let bs := leBytes 32 h ++ p.payload
  bs ++ List.replicate ((32 - bs.length % 32) % 32) 0

/-- Virtual channel of a packet (R394). -/
def fabVc (p : FabPkt) : Nat := if p.op % 0x80 = 0x18 then 3 else if 0x80 ≤ p.op then 1 else 0

/-- Flow number F of a packet (R377). -/
def fabFlow (p : FabPkt) : Nat :=
  if p.op % 0x80 = 0x10 || p.op % 0x80 = 0x11 || p.op % 0x80 = 0x12 then p.addr.toNat % 2 ^ 44 / 4096 else 0

/-- Put a packet on a link. -/
def State.fabOn (s : State) (l : Nat) (p : FabPkt) : State :=
  (s.emit (.fab l p)).linkSend l (fabVc p) (fabBytes p) (some (.fab p))

/-- Send a packet towards its destination; with no link that reaches it, nothing leaves; one for the package
itself takes the agent's loopback (R377). -/
def State.fabSend (s : State) (p : FabPkt) : State :=
  if p.dst = s.dom.node then s.emit (.fabLocal p) else
  match s.linkFor p.dst (fabFlow p) with
  | some l => s.fabOn l p
  | none => s

/-- The 32-byte header of a routing packet with its payload, padded to a multiple of 64 (R181). -/
def routeBytes (p : RoutePkt) : List Byte :=
  let h := packAt [
    (0, 4, p.steep.toNat),
    (4, 4, putBits p.layer 23 16 + putBits p.homeNode 15 8 + putBits p.ptype 7 0),
    (8, 4, putBits p.slot 31 16 + putBits p.expert 11 0),
    (12, 4, putBits p.elems 31 16 + putBits p.localExpert 15 0),
    (16, 4, p.tag.toNat),
    (20, 4, putBits p.fmt 3 0),
    (24, 4, p.rowScale.toNat),
    (28, 4, p.count)]
  leBytes 32 h ++ p.payload ++ List.replicate ((64 - p.payload.length % 64) % 64) 0

/-- Send a routing packet to a node on virtual channel 2; one for the package itself stays on it (R181, R377). -/
def State.routeSend (s : State) (node : Nat) (p : RoutePkt) : State :=
  if node = s.dom.node then s.emit (.local_ p)
  else match s.linkFor node p.slot with
    | some l => (s.emit (.route l p)).linkSend l 2 (routeBytes p) (some (.route node p))
    | none => s

/-- An empty packet. -/
def blankPkt : FabPkt :=
  { op := 0, src := 0, dst := 0, srcDie := 0, cacheable := false, nocache := false, raw := false, retry := false
    rsvd := 0, tag := 0, dseq := 0, status := 0, asub := 0, asize := false, lenM1 := 0, addr := 0, operand := 0
    payload := [] }

/-- TAG of slot `slot` of an engine, used for the `issue`-th time (R393). -/
def mkTag (issue die engine slot : Nat) : Word :=
  BitVec.ofNat 32 (putBits issue 31 17 + putBits die 16 15 + putBits engine 14 9 + putBits slot 8 0)

/-- Requests outstanding at an engine (R393). -/
def State.engineReqs (s : State) (die engine : Nat) : List FabReq :=
  s.fab.reqs.filter fun r => r.die = die && r.engine = engine

/-- Replace the fabric agent. -/
def State.setFab (s : State) (f : Fabric) : State := { s with fab := f }

/-- The next DSEQ of a die to a node (R398). -/
def State.nextDseq (s : State) (die node : Nat) : Word := s.fab.dseq.get 1 (die * 256 + node)

/-- Unacknowledged writes of a die to a node. -/
def State.unacked (s : State) (die node : Nat) : List FabReq :=
  s.fab.reqs.filter fun r => r.numbered && r.pkt.srcDie = die && r.pkt.dst = node

/-- The window of 1,024 DSEQs to a node is open (R398). -/
def State.windowOpen (s : State) (die node : Nat) : Bool :=
  (s.unacked die node).all fun r => (s.nextDseq die node - r.pkt.dseq).toNat < 1024

/-- Issue a request from an engine slot: tag, DSEQ for a write, sent, and held until answered (R393, R398).
`none` where the engine is full or the DSEQ window closed: the operation is not accepted. -/
def State.request (s : State) (die engine : Nat) (write : Bool) (p : FabPkt) (compl : Nat) : Option State :=
  let slots := (s.engineReqs die engine).map fun r => bits r.pkt.tag.toNat 8 0
  let slot := lowestFree slots 512
  if 512 ≤ slot || (write && !s.windowOpen die p.dst) then none
  else
    let key := (die * 64 + engine) * 512 + slot
    let issue := s.fab.issues.get 0 key
    let ds := s.nextDseq die p.dst
    let p := { p with src := s.dom.node, srcDie := die, tag := mkTag issue die engine slot, dseq := if write then ds else 0 }
    let f := s.fab
    let f := { f with
      issues := f.issues.set key ((issue + 1) % 2 ^ 15)
      dseq := if write then f.dseq.set (die * 256 + p.dst) (if ds + 1 = 0 then 1 else ds + 1) else f.dseq
      reqs := f.reqs ++ [{ die := die, engine := engine, pkt := p, numbered := write, sentAt := s.now, compl := compl }] }
    some ((s.setFab f).fabSend p)

/-- Issue a request of the package's own, after those that wait; it waits where the engine is full or the DSEQ window closed
(R393, R398). -/
def State.requestLater (s : State) (die engine : Nat) (p : FabPkt) : State :=
  let wait := s.setFab { s.fab with owed := s.fab.owed ++ [(die, engine, p)] }
  if s.fab.owed.isEmpty then (s.request die engine true p 0).getD wait else wait

/-- Requests that wait are issued once another has left. -/
def State.settleOwed (s : State) : State :=
  s.fab.owed.foldl (fun s o => s.requestLater o.1 o.2.1 o.2.2) (s.setFab { s.fab with owed := [] })

/-- A fabric completion written at the address the operation names, with the node mask of FENCE_UNREACHED
and FAB_NODE_LOST before it (R413). The completion address is a device address, the mask follows at +16
(notes/assumptions/17.md). -/
def State.complete (s : State) (die engine compl : Nat) (status : Nat) (known applied : Bool) (tag : Word)
    (result : Nat) (mask : Option (List Nat)) : State :=
  let bytes := leBytes 16 (packAt [
    (0, 4, 2 ^ 31 + putBits (b2n known) 30 30 + putBits (b2n applied) 29 29 + putBits status 15 0),
    (4, 4, tag.toNat), (8, 8, result)])
  let m := match mask with
    | some ns => leBytes 32 (maskOf ns).toNat
    | none => []
  let s := if compl = 0 then s else if (s.checkWrite compl (16 + m.length)).isSome then s
    else (s.store (compl + 16) m).store compl bytes
  s.emit (.completion die engine compl (bytes ++ m))

end Sys2Proof.Machine
end

