-- ==== Sys2Proof/Machine/Geometry.lean ====
section
/-! DEFINITION. The attention geometry word and the sizes it fixes (spec 06 R140, R142). -/

namespace Sys2Proof.Machine

/-- Query heads per layer (R140). -/
def geoHeads (g : DWord) : Nat := bits g.toNat 49 42 + 1
/-- Head width of keys (R140). -/
def geoDk (g : DWord) : Nat := 64 * (bits g.toNat 41 40 + 1)
/-- Head width of values (R140). -/
def geoDv (g : DWord) : Nat := 64 * (bits g.toNat 39 38 + 1)
/-- Latent elements (R140). -/
def geoLat (g : DWord) : Nat := 64 * bits g.toNat 37 32
/-- Rotary elements (R140). -/
def geoRot (g : DWord) : Nat := bits g.toNat 31 24
/-- Latent format code (R140). -/
def geoFmt (g : DWord) : Nat := bits g.toNat 23 20
/-- Draft layers (R140). -/
def geoDraft (g : DWord) : Nat := bits g.toNat 19 12
/-- Main-model layers (R140). -/
def geoLayers (g : DWord) : Nat := bits g.toNat 11 4 + 1
/-- Bytes of a latent element (R142). -/
def geoElem (g : DWord) : Nat := if geoFmt g = 1 then 2 else 1

/-- The attention geometry word holds no refused value (R140). -/
def geomOk (g : DWord) : Bool :=
  bits g.toNat 63 50 = 0 && bits g.toNat 3 0 = 0 &&
  (let w := bits g.toNat 37 32; 1 ≤ w && w ≤ 16) &&
  geoRot g % 2 = 0 && geoRot g ≤ 128 && [1, 3, 4].contains (geoFmt g)

/-- Token stride (R142). -/
def geoTS (g : DWord) : Nat := ceilDiv (geoLat g * geoElem g + 2 * geoRot g) 64 * 64
/-- Layer stride (R142). -/
def geoLS (g : DWord) : Nat := 256 * geoTS g
/-- Page size (R142). -/
def geoPS (g : DWord) : Nat := ceilDiv ((geoLayers g + geoDraft g) * geoLS g) 65536 * 65536

end Sys2Proof.Machine
end

