-- ==== Sys2Proof/Machine/Ops.lean ====
section
/-! DEFINITION. Arithmetic of the compute dies: exact numbers, FP32 with one rounding, the special
functions correctly rounded, and the Philox generator (spec 03 R59 to R61, R68, R70, R78; spec 05 R121 to R123,
R130; spec 08 R202). -/

namespace Sys2Proof.Machine

/-! ## Exact numbers -/

/-- A number: not a number, an infinity, or ± m × 2ᵉ exactly; a zero keeps its sign. -/
inductive Num where
  | nan
  | inf (neg : Bool)
  | fin (neg : Bool) (m : Nat) (e : Int)
  deriving DecidableEq, Repr

/-- Shift left for a positive count, right (floor) for a negative one. -/
def shiftI (m : Nat) (e : Int) : Nat := if 0 ≤ e then m * 2 ^ e.toNat else m / 2 ^ (-e).toNat

/-- The zero of either sign. -/
def Num.zero (neg : Bool) : Num := .fin neg 0 0

/-- The negated number. -/
def Num.neg : Num → Num
  | .nan => .nan
  | .inf s => .inf !s
  | .fin s m e => .fin (!s) m e

/-- The magnitude. -/
def Num.abs : Num → Num
  | .nan => .nan
  | .inf _ => .inf false
  | .fin _ m e => .fin false m e

/-- A finite number. -/
def Num.isFin : Num → Bool
  | .fin _ _ _ => true
  | _ => false

/-- A zero of either sign. -/
def Num.isZero : Num → Bool
  | .fin _ m _ => m = 0
  | _ => false

/-- Exact product. -/
def Num.mul : Num → Num → Num
  | .nan, _ => .nan
  | _, .nan => .nan
  | .inf s, .inf t => .inf (s != t)
  | .inf s, .fin t m _ => if m = 0 then .nan else .inf (s != t)
  | .fin s m _, .inf t => if m = 0 then .nan else .inf (s != t)
  | .fin s m e, .fin t n f => .fin (s != t) (m * n) (e + f)

/-- Exact sum; a sum of opposite numbers is +0. -/
def Num.add : Num → Num → Num
  | .nan, _ => .nan
  | _, .nan => .nan
  | .inf s, .inf t => if s = t then .inf s else .nan
  | .inf s, .fin _ _ _ => .inf s
  | .fin _ _ _, .inf t => .inf t
  | .fin s m e, .fin t n f =>
    if m = 0 && n = 0 then .fin (s && t) 0 0
    else
      let k := min e f
      let a := shiftI m (e - k)
      let b := shiftI n (f - k)
      if s = t then .fin s (a + b) k
      else if b < a then .fin s (a - b) k
      else if a < b then .fin t (b - a) k
      else .fin false 0 0

/-- Magnitudes compare: |x| < |y| for finite numbers. -/
def Num.ltMag : Num → Num → Bool
  | .fin _ m e, .fin _ n f => let k := min e f; shiftI m (e - k) < shiftI n (f - k)
  | .fin _ _ _, .inf _ => true
  | _, _ => false

/-- Order of numbers; false where either is not a number. -/
def Num.lt : Num → Num → Bool
  | .nan, _ => false
  | _, .nan => false
  | .inf s, .inf t => s && !t
  | .inf s, .fin _ _ _ => s
  | .fin _ _ _, .inf t => !t
  | .fin s m e, .fin t n f =>
    let k := min e f
    let a := shiftI m (e - k)
    let b := shiftI n (f - k)
    if s then (if t then b < a else 0 < a || 0 < b) else if t then false else a < b

/-! ## Floating-point formats (R59) -/

/-- Field widths and special values of a floating-point format (R59). -/
structure FpFmt where
  /-- Bits of the mantissa, bias, and bits of the magnitude code. -/
  mb : Nat
  bias : Int
  magBits : Nat
  /-- Largest finite magnitude code. -/
  maxCode : Nat
  /-- Magnitude code of infinity, where there is one. -/
  infCode : Option Nat
  /-- Magnitude codes above both are NaN; the canonical one. -/
  nanCode : Option Nat
  deriving DecidableEq, Repr

/-- FP32 (R59). -/
def fp32 : FpFmt := ⟨23, 127, 31, 0x7F7FFFFF, some 0x7F800000, some 0x7FC00000⟩
/-- BF16 (R59). -/
def bf16 : FpFmt := ⟨7, 127, 15, 0x7F7F, some 0x7F80, some 0x7FC0⟩
/-- FP16 (R59). -/
def fp16 : FpFmt := ⟨10, 15, 15, 0x7BFF, some 0x7C00, some 0x7E00⟩
/-- E4M3 (R59). -/
def e4m3 : FpFmt := ⟨3, 7, 7, 0x7E, none, some 0x7F⟩
/-- E5M2 (R59). -/
def e5m2 : FpFmt := ⟨2, 15, 7, 0x7B, some 0x7C, some 0x7E⟩
/-- E3M2 (R59). -/
def e3m2 : FpFmt := ⟨2, 3, 5, 0x1F, none, none⟩
/-- E2M3 (R59). -/
def e2m3 : FpFmt := ⟨3, 1, 5, 0x1F, none, none⟩
/-- E2M1 (R59, R64). -/
def e2m1 : FpFmt := ⟨1, 1, 3, 7, none, none⟩
/-- UE5M3, without a sign (R59). -/
def ue5m3 : FpFmt := ⟨3, 15, 8, 0xFF, none, none⟩

/-- Value of a magnitude code that is finite. -/
def FpFmt.mag (f : FpFmt) (neg : Bool) (c : Nat) : Num :=
  let x := c / 2 ^ f.mb
  let m := c % 2 ^ f.mb
  if x = 0 then .fin neg m (1 - f.bias - f.mb) else .fin neg (2 ^ f.mb + m) (x - f.bias - f.mb)

/-- Value of a code with its sign above the magnitude bits (R59). -/
def FpFmt.decode (f : FpFmt) (c : Nat) : Num :=
  let neg := c.testBit f.magBits
  let m := c % 2 ^ f.magBits
  if f.maxCode < m then (if f.infCode = some m then .inf neg else .nan) else f.mag neg m

/-- Magnitude code nearest to m × 2ᵉ plus a residue below the last bit when `sticky`, ties to even, exponent
unbounded above (R60, R71). -/
def FpFmt.nearest (f : FpFmt) (m : Nat) (e : Int) (sticky : Bool) : Nat :=
  if m = 0 then 0 else
  let top := max ((Nat.log2 m : Int) + e) (1 - f.bias)
  let q := top - f.mb
  let n :=
    if q ≤ e then m * 2 ^ (e - q).toNat
    else
      let sh := (q - e).toNat
      let r := m % 2 ^ sh
      let half := 2 ^ (sh - 1)
      m / 2 ^ sh + (if half < r || (r = half && (sticky || (m / 2 ^ sh) % 2 = 1)) then 1 else 0)
  (top + f.bias - 1).toNat * 2 ^ f.mb + n

/-- Smallest magnitude code whose value is not less than m × 2ᵉ plus the residue. -/
def FpFmt.ceil (f : FpFmt) (m : Nat) (e : Int) (sticky : Bool) : Nat :=
  if m = 0 then (if sticky then 1 else 0) else
  let top := max ((Nat.log2 m : Int) + e) (1 - f.bias)
  let q := top - f.mb
  let n :=
    if q ≤ e then m * 2 ^ (e - q).toNat + (if sticky then 1 else 0)
    else
      let sh := (q - e).toNat
      m / 2 ^ sh + (if m % 2 ^ sh != 0 || sticky then 1 else 0)
  (top + f.bias - 1).toNat * 2 ^ f.mb + n

/-! ## FP32 -/

/-- The canonical NaN (R61). -/
def fNaN : Word := 0x7FC00000

/-- An FP32 code's value. -/
def num (w : Word) : Num := fp32.decode w.toNat

/-- Round to FP32 with a sign and a residue; overflow gives infinity (R70). -/
def f32Of (neg : Bool) (m : Nat) (e : Int) (sticky : Bool) : Word :=
  BitVec.ofNat 32 (min (fp32.nearest m e sticky) 0x7F800000 + if neg then 2 ^ 31 else 0)

/-- An exact number rounded once to FP32 (R61, R70). -/
def rnd : Num → Word
  | .nan => fNaN
  | .inf s => if s then 0xFF800000 else 0x7F800000
  | .fin s m e => f32Of s m e false

/-- a + b, rounded once. -/
def fAdd (a b : Word) : Word := rnd ((num a).add (num b))
/-- a − b, rounded once. -/
def fSub (a b : Word) : Word := rnd ((num a).add (num b).neg)
/-- a × b, rounded once. -/
def fMul (a b : Word) : Word := rnd ((num a).mul (num b))
/-- a × b + c, one rounding. -/
def fFma (a b c : Word) : Word := rnd (((num a).mul (num b)).add (num c))
/-- −a; a NaN stays the canonical NaN (R61). -/
def fNeg (a : Word) : Word := rnd (num a).neg

/-- Quotient of two positive magnitudes to more bits than any rounding needs: bits, exponent, residue. -/
def quo (m : Nat) (e : Int) (n : Nat) (f : Int) : Nat × Int × Bool :=
  let k := Nat.log2 n + 70
  (m * 2 ^ k / n, e - f - k, m * 2 ^ k % n != 0)

/-- a divided by a positive whole number, correctly rounded (R127). -/
def fDivNat (a : Word) (n : Nat) : Word :=
  match num a with
  | .fin s m e => let q := quo m e n 0; f32Of s q.1 q.2.1 q.2.2
  | x => rnd x

/-- 1 / a (R121, R123). -/
def fRcp (a : Word) : Word :=
  match num a with
  | .nan => fNaN
  | .inf s => if s then 0x80000000 else 0
  | .fin s m e =>
    if m = 0 then (if s then 0xFF800000 else 0x7F800000)
    else let q := quo 1 0 m e; f32Of s q.1 q.2.1 q.2.2

/-- Bits of the whole square root, from bit `k` down. -/
def isqrtFrom : Nat → Nat → Nat → Nat
  | 0, n, r => if (r + 1) * (r + 1) ≤ n then r + 1 else r
  | k + 1, n, r =>
    let t := r + 2 ^ (k + 1)
    isqrtFrom k n (if t * t ≤ n then t else r)

/-- The whole square root. -/
def isqrt (n : Nat) : Nat := isqrtFrom (Nat.log2 n / 2 + 1) n 0

/-- The square root, correctly rounded (R125). -/
def fSqrt (a : Word) : Word :=
  match num a with
  | .nan => fNaN
  | .inf s => if s then fNaN else 0x7F800000
  | .fin s m e =>
    if m = 0 then rnd (.zero s) else if s then fNaN
    else
      let odd := e % 2 != 0
      let n := (if odd then 2 * m else m) * 2 ^ 80
      let r := isqrt n
      f32Of false r ((if odd then e - 1 else e) / 2 - 40) (r * r != n)

/-- 1 / √a (R121, R123). -/
def fRsqrt (a : Word) : Word :=
  match num a with
  | .nan => fNaN
  | .inf s => if s then fNaN else 0
  | .fin s m e =>
    if m = 0 then (if s then 0xFF800000 else 0x7F800000) else if s then fNaN
    else
      let odd := e % 2 != 0
      let n := if odd then 2 * m else m
      let f := if odd then e - 1 else e
      let k := 2 * (Nat.log2 n + 40)
      let q := 2 ^ k / n
      let r := isqrt q
      f32Of false r (-(f / 2) - (k / 2 : Nat)) (r * r * n != 2 ^ k)

/-- The larger of two, as comparison of scores gives it (R132). -/
def fMax (a b : Word) : Word := if (num a).lt (num b) then b else a

/-! ## Special functions, correctly rounded (R121, R123)

Each is computed in fixed point with `p` fraction bits and an error bound; both ends of the interval are
rounded, and where they differ the precision is raised (notes/assumptions/13.md). -/

/-- An interval of magnitudes lo × 2ᵉ to hi × 2ᵉ. -/
structure Ival where
  lo : Nat
  hi : Nat
  e : Int
  deriving DecidableEq, Repr

/-- The FP32 value that both ends round to, with raised precision while they differ. -/
def settle (neg : Bool) (f : Nat → Ival) : List Nat → Word
  | [] => let v := f 512; f32Of neg v.lo v.e true
  | p :: t =>
    let v := f p
    let a := f32Of neg v.lo v.e true
    if a = f32Of neg v.hi v.e false then a else settle neg f t

/-- Precisions tried in turn. -/
def precisions : List Nat := [160, 320, 640, 1280]

/-- Sum of a series by fuel: each term from the one before and its index. -/
def series : Nat → (Nat → Int → Int) → Nat → Int → Int → Int
  | 0, _, _, _, acc => acc
  | n + 1, next, i, t, acc => if t = 0 then acc else series n next (i + 1) (next i t) (acc + t)

/-- Arctangent of 1/k in fixed point. -/
def atanInv (p k : Nat) : Int :=
  series (p + 8) (fun i t => -(t * (2 * i + 1 : Nat)) / ((k * k * (2 * i + 3) : Nat) : Int)) 0 ((2 ^ p / k : Nat) : Int) 0

/-- π in fixed point, by Machin's formula. -/
def piFix (p : Nat) : Nat := (16 * atanInv (p + 16) 5 - 4 * atanInv (p + 16) 239).toNat / 2 ^ 16

/-- ln 2 in fixed point: the sum of 1 / (n × 2ⁿ). -/
def ln2Fix (p : Nat) : Nat := (List.range (p + 16)).foldl (fun a i => a + 2 ^ (p + 16) / ((i + 1) * 2 ^ (i + 1))) 0 / 2 ^ 16

/-- eˣ for x in fixed point: an interval of e^x. -/
def expFix (p : Nat) (x : Int) : Ival :=
  let l : Int := ln2Fix p
  let k := x / l
  let r := x - k * l
  let s := series (p + 8) (fun i t => t * r / (2 ^ p * (i + 1 : Nat))) 0 (2 ^ p : Nat) 0
  { lo := (s - 2 ^ 24).toNat, hi := (s + 2 ^ 24).toNat, e := k - p }

/-- ± m × 2ᵉ in fixed point, floor. -/
def toFix (neg : Bool) (m : Nat) (e : Int) (p : Nat) : Int :=
  let v : Int := shiftI m (e + p)
  if neg then -v else v

/-- EXP (R121, R123). -/
def fExp (a : Word) : Word :=
  match num a with
  | .nan => fNaN
  | .inf s => if s then 0 else 0x7F800000
  | .fin s m e =>
    if m = 0 then 0x3F800000
    -- a > 88.7228 and a < −103.9721, decimals as written.
    else if !s && Num.ltMag (.fin false 887228 0) (.fin false (10000 * m) e) then 0x7F800000
    else if s && Num.ltMag (.fin false 1039721 0) (.fin false (10000 * m) e) then 0
    else settle false (fun p => expFix p (toFix s m e p)) precisions

/-- |a| / (1 + y) for y in an interval. -/
def sigQuo (p m : Nat) (e : Int) (y : Ival) : Ival :=
  let den := fun v : Nat => if y.e ≤ 0 then (2 ^ (-y.e).toNat + v, y.e) else (1 + v * 2 ^ y.e.toNat, 0)
  let dl := den y.hi
  let dh := den y.lo
  let k := Nat.log2 dl.1 + p
  { lo := m * 2 ^ k / dl.1, hi := m * 2 ^ k / dh.1 + 1, e := e - dl.2 - k }

/-- The limits that the three GELU forms share (R123), and a form for other inputs; from `cut` on the
result is a, and below −`cut` it is −0. -/
def gelu (cut : Nat) (f : Nat → Bool → Nat → Int → Ival) (a : Word) : Word :=
  match num a with
  | .nan => fNaN
  | .inf s => if s then 0x80000000 else 0x7F800000
  | .fin s m e =>
    if m = 0 then a
    else if Num.ltMag (.fin false m e) (.fin false cut 0) then settle s (fun p => f p s m e) precisions
    else if s then 0x80000000 else a

/-- GELU_SIG (R121). -/
def fGeluSig : Word → Word :=
  gelu 200 fun p s m e => sigQuo p m e (expFix p (toFix (!s) (1702 * m) e p / 1000))

/-- GELU_TANH (R121): a × σ(2z), z the argument of tanh. -/
def fGeluTanh : Word → Word :=
  gelu 16 fun p s m e =>
    let c := isqrt (2 * 2 ^ (3 * p) / piFix p)
    let x := toFix false m e p
    let t := (1000000 * x + 44715 * (x * x / 2 ^ p * x / 2 ^ p)) / 1000000
    let z := 2 * (t * c) / 2 ^ p
    sigQuo p m e (expFix p (if s then z else -z))

/-- GELU_ERF (R121): a × Φ(a), Φ = ½ ± φ(a) × Σ |a|^(2n+1) / (2n+1)!!. -/
def fGeluErf : Word → Word :=
  gelu 16 fun p s m e =>
    let p := p + 320
    let x := toFix false m e p
    let x2 := x * x / 2 ^ p
    let sum := series (4 * p) (fun i t => t * x2 / (2 ^ p * (2 * i + 3 : Nat))) 0 x 0
    let d := expFix p (-(x2 / 2))
    let r := isqrt (2 * piFix p * 2 ^ p)
    -- φ × Σ in fixed point, both ends.
    let t := fun v : Nat => shiftI (v * sum.toNat / r) (d.e + p)
    let lo := t d.lo - 2 ^ 32
    let hi := t d.hi + 2 ^ 32
    let half := 2 ^ (p - 1)
    let v : Nat × Nat := if s then (half - hi, half - lo) else (half + lo, half + hi)
    { lo := m * v.1, hi := m * v.2, e := e - p }

/-- Cosine and sine of an angle m × 2ᵉ, each with its sign, in fixed point with bound 2^64 units. -/
def trigFix (p m : Nat) (e : Int) : (Bool × Ival) × (Bool × Ival) :=
  let q := p + 256
  let half := piFix q
  let x := shiftI m (e + q + 1)
  -- x has q + 1 fraction bits, as π / 2 has when `half` is read so.
  let n := x / half
  let r : Int := (x - n * half : Nat)
  let one : Int := 2 ^ (q + 1)
  let r2 := r * r / one
  let c := series (q + 8) (fun i t => -(t * r2) / (one * ((2 * i + 1) * (2 * i + 2) : Nat))) 0 one 0
  let s := series (q + 8) (fun i t => -(t * r2) / (one * ((2 * i + 2) * (2 * i + 3) : Nat))) 0 r 0
  let iv := fun v : Int => (decide (v < 0), { lo := v.natAbs - 2 ^ 200, hi := v.natAbs + 2 ^ 200, e := -((q : Int) + 1) : Ival })
  match n % 4 with
  | 0 => (iv c, iv s)
  | 1 => (iv (-s), iv c)
  | 2 => (iv (-c), iv (-s))
  | _ => (iv s, iv (-c))

/-- Settle a signed value. -/
def settleS (f : Nat → Bool × Ival) : Word := settle (f 320).1 (fun p => (f p).2) [320, 640, 1280, 2560]

/-- Cosine and sine of the exact angle p × f, each nearest in FP32 (R130). An angle that is not finite has
none; the specification states no value for it. -/
def cosSin (p : Nat) (f : Word) : Word × Word :=
  match num f with
  | .fin s m e =>
    if p * m = 0 then (0x3F800000, 0)
    else
      let sn := settleS (fun q => (trigFix q (p * m) e).2)
      (settleS (fun q => (trigFix q (p * m) e).1), if s then fNeg sn else sn)
  | _ => Config.openAngle p f

/-! ## Philox-4×32-10 (R78, R202) -/

/-- One round (notes/assumptions/12.md). -/
def philoxRound (c : Nat × Nat × Nat × Nat) (k0 k1 : Nat) : Nat × Nat × Nat × Nat :=
  let p0 := 0xD2511F53 * c.1
  let p1 := 0xCD9E8D57 * c.2.2.1
  ((p1 / 2 ^ 32).xor (c.2.1.xor k0), p1 % 2 ^ 32, (p0 / 2 ^ 32).xor (c.2.2.2.xor k1), p0 % 2 ^ 32)

/-- Rounds with the key advanced between them. -/
def philoxRounds : Nat → Nat × Nat × Nat × Nat → Nat → Nat → Nat × Nat × Nat × Nat
  | 0, c, _, _ => c
  | n + 1, c, k0, k1 => philoxRounds n (philoxRound c k0 k1) ((k0 + 0x9E3779B9) % 2 ^ 32) ((k1 + 0xBB67AE85) % 2 ^ 32)

/-- The four output words under a 64-bit key, low word first (R78). -/
def philox (key : DWord) (c0 c1 c2 c3 : Nat) : List Nat :=
  let r := philoxRounds 10 (c0, c1, c2, c3) (key.toNat % 2 ^ 32) (key.toNat / 2 ^ 32)
  [r.1, r.2.1, r.2.2.1, r.2.2.2]

/-- A draw: word 0 at a position and draw index (R202, R233). -/
def draw (seed : DWord) (pos index : Nat) : Nat := (philox seed 0 (pos % 2 ^ 32) index 0).headD 0

/-- The draw as a number in [0, 1). -/
def drawNum (u : Nat) : Num := .fin false u (-32)

end Sys2Proof.Machine
end

