-- ==== Sys2Proof/Machine/Operands.lean ====
section
/-! DEFINITION. Operand formats: element and scale values, conversion, packing, tile dot products, and
compressed leaves (spec 03 R58 to R78, spec 10 R241 to R253). -/

namespace Sys2Proof.Machine

/-! ## Format codes (R58) -/

/-- The format of a code; 0xC to 0xF are reserved. -/
def fmtOf : Nat → Option Format
  | 0 => some .fp32 | 1 => some .bf16 | 2 => some .fp16 | 3 => some .e4m3 | 4 => some .e5m2
  | 5 => some .mx8e4m3 | 6 => some .mx8e5m2 | 7 => some .mx6e3m2 | 8 => some .mx6e2m3 | 9 => some .mx4
  | 10 => some .ib4 | 11 => some .ib3 | _ => none

/-- The code of a format. -/
def fmtCode : Format → Nat
  | .fp32 => 0 | .bf16 => 1 | .fp16 => 2 | .e4m3 => 3 | .e5m2 => 4 | .mx8e4m3 => 5 | .mx8e5m2 => 6
  | .mx6e3m2 => 7 | .mx6e2m3 => 8 | .mx4 => 9 | .ib4 => 10 | .ib3 => 11

/-- Bits of an element. -/
def fmtBits : Format → Nat
  | .fp32 => 32 | .bf16 => 16 | .fp16 => 16 | .e4m3 => 8 | .e5m2 => 8 | .mx8e4m3 => 8 | .mx8e5m2 => 8
  | .mx6e3m2 => 6 | .mx6e2m3 => 6 | .mx4 => 4 | .ib4 => 4 | .ib3 => 3

/-- Width rank. -/
def fmtRank : Format → Nat
  | .fp32 => 5 | .bf16 => 4 | .fp16 => 4 | .e4m3 => 3 | .e5m2 => 3 | .mx8e4m3 => 3 | .mx8e5m2 => 3
  | .mx6e3m2 => 2 | .mx6e2m3 => 2 | .mx4 => 1 | .ib4 => 1 | .ib3 => 0

/-- A format with an E8M0 scale per block. -/
def fmtMx : Format → Bool
  | .mx8e4m3 => true | .mx8e5m2 => true | .mx6e3m2 => true | .mx6e2m3 => true | .mx4 => true | _ => false
/-- A format with a UE5M3 scale per block. -/
def fmtIb : Format → Bool
  | .ib4 => true | .ib3 => true | _ => false
/-- A block-scaled format. -/
def fmtBlock (f : Format) : Bool := fmtMx f || fmtIb f
/-- A plain FP8 format. -/
def fmtFp8 : Format → Bool
  | .e4m3 => true | .e5m2 => true | _ => false

/-- Floating-point form of an element; IB3 has magnitudes of its own. -/
def fmtFp : Format → FpFmt
  | .fp32 => fp32 | .bf16 => bf16 | .fp16 => fp16 | .e4m3 => e4m3 | .e5m2 => e5m2 | .mx8e4m3 => e4m3
  | .mx8e5m2 => e5m2 | .mx6e3m2 => e3m2 | .mx6e2m3 => e2m3 | .mx4 => e2m1 | .ib4 => e2m1 | .ib3 => e2m1

/-- emax of R73. -/
def fmtEmax : Format → Int
  | .mx8e4m3 => 8 | .mx8e5m2 => 15 | .mx6e3m2 => 4 | _ => 2

/-- Operand pairs of the matrix tiles (R67). -/
def pairOk (a w : Format) : Bool :=
  match a, w with
  | .ib4, .ib4 => true | .ib4, .ib3 => true
  | .mx4, .mx4 => true
  | .bf16, .bf16 => true
  | .fp16, .fp16 => true
  | _, _ =>
    let mx6 := fun f : Format => f = .mx6e3m2 || f = .mx6e2m3
    let mx8 := fun f : Format => f = .mx8e4m3 || f = .mx8e5m2
    (mx6 a && mx6 w) || (fmtFp8 a && (fmtFp8 w || fmtIb w || fmtMx w)) || (mx8 a && mx8 w)

/-- A tensor scale is valid: positive, finite, normal (R65). -/
def scaleValid (w : Word) : Bool := 0x00800000 ≤ w.toNat && w.toNat ≤ 0x7F7FFFFF

/-! ## Element and scale values -/

/-- Magnitudes of IB3 (R64). -/
def ib3Mag (c : Nat) : Nat := if c = 3 then 4 else c

/-- Value of an element code without its scales; a stored −0 of a format that does not keep it is zero
(R59, R61, R64). -/
def elemNum (f : Format) (c : Nat) : Num :=
  match f with
  | .ib3 => let m := ib3Mag (c % 4); .fin (m != 0 && bit c 2) m 0
  | _ =>
    let v := (fmtFp f).decode c
    if v.isZero && [Format.mx6e3m2, .mx6e2m3, .mx4, .ib4].contains f then .zero false else v

/-- Value of a block scale code (R62, R63). -/
def blockScale (f : Format) (c : Nat) : Num :=
  if fmtMx f then (if c = 0xFF then .nan else .fin false 1 ((c : Int) - 127))
  else if fmtIb f then ue5m3.mag false c else .fin false 1 0

/-- Effective scale: block scale × tensor scale, rounded to FP32 (R68). -/
def effScale (f : Format) (blk : Nat) (t : Word) : Word :=
  if fmtMx f then rnd (blockScale f blk)
  else if fmtIb f then rnd ((blockScale f blk).mul (num t))
  else if fmtFp8 f then (if t = 0 then 0x3F800000 else t) else 0x3F800000

/-- A stored element expanded to FP32: scales applied under R68, rounded once (R121). -/
def expand (f : Format) (blk : Nat) (t : Word) (c : Nat) : Word :=
  rnd ((elemNum f c).mul (num (effScale f blk t)))

/-! ## Conversion (R71 to R77) -/

/-- Quotient of a finite magnitude by a positive one. -/
def quoNum (x d : Num) : Nat × Int × Bool :=
  match x, d with
  | .fin _ m e, .fin _ n g => quo m e n g
  | _, _ => (0, 0, false)

/-- Sign of a number. -/
def Num.sign : Num → Bool
  | .fin s _ _ => s
  | .inf s => s
  | .nan => false

/-- A value converted into a scalar format after division by `d`; a finite value beyond the largest finite
one overflows (R71, R72). -/
def convElem (f : FpFmt) (x d : Num) : Nat :=
  let s := if x.sign then 2 ^ f.magBits else 0
  match x with
  | .nan => f.nanCode.getD f.maxCode
  | .inf _ => f.infCode.getD f.maxCode + s
  | .fin _ _ _ =>
    if Num.ltMag ((f.mag false f.maxCode).mul d) x.abs then f.infCode.getD f.maxCode + s
    else let q := quoNum x.abs d; min (f.nearest q.1 q.2.1 q.2.2) f.maxCode + s

/-- A small element: sign kept only on a non-zero magnitude where the format has no −0 (R61). -/
def dropZeroSign (f : FpFmt) (keep : Bool) (c : Nat) : Nat := if c % 2 ^ f.magBits = 0 && !keep then 0 else c

/-- IB3 magnitude code of |x| / d, ties to the even code (R71). -/
def ib3Code (x d : Num) : Nat :=
  let le := fun k : Nat => !Num.ltMag ((d.mul (.fin false k (-1)))) x.abs
  let lt := fun k : Nat => Num.ltMag x.abs (d.mul (.fin false k (-1)))
  if le 1 then 0 else if lt 3 then 1 else if le 6 then 2 else 3

/-- Stochastic rounding of a magnitude to E2M1 with a 16-bit value `u` (R77). -/
def srCode (x d : Num) (u : Nat) : Nat :=
  let at_ := fun c : Nat => (e2m1.mag false c).mul d
  let lo := ((List.range 8).filter fun c => !Num.ltMag x.abs (at_ c)).getLastD 0
  if lo = 7 || !Num.ltMag (at_ lo) x.abs then lo
  else
    let gap := (at_ (lo + 1)).add (at_ lo).neg
    let q := quoNum (x.abs.add (at_ lo).neg) gap
    let ratio := f32Of false q.1 q.2.1 q.2.2
    if (Num.fin false u (-16)).lt (num ratio) then lo + 1 else lo

/-- Largest magnitude of a list of finite numbers. -/
def amax (xs : List Num) : Num := xs.foldl (fun m x => if Num.ltMag m x.abs then x.abs else m) (.zero false)

/-- E8M0 code of R73 with an emax. -/
def mxScale (emax : Int) (a : Num) : Nat :=
  match a with
  | .fin _ m e => if m = 0 then 0 else (max 0 (min 254 ((Nat.log2 m : Int) + e - emax + 127))).toNat
  | _ => 0xFF

/-- UE5M3 code of R74 with a divisor q and tensor scale t. -/
def ibScale (q : Nat) (t a : Num) : Nat :=
  if a.isZero then 0 else
  let v := quoNum a (t.mul (.fin false q 0))
  max 1 (min 0xFF (ue5m3.ceil v.1 v.2.1 v.2.2))

/-- A converted block: scale byte, element codes, and whether it was written as zero (R72). -/
structure Block where
  scale : Nat
  codes : List Nat
  zeroed : Bool
  deriving DecidableEq, Repr

/-- Convert one block into a block-scaled format; `u` gives the draws of stochastic rounding (R72 to R77). -/
def convBlock (f : Format) (t : Word) (u : Option (Nat → Nat)) (xs : List Word) : Block :=
  let ns := xs.map num
  if !ns.all Num.isFin then
    if fmtMx f then ⟨0xFF, (List.range xs.length).map fun i => Config.nanBlockCode (fmtCode f) i % 2 ^ fmtBits f, false⟩
    else ⟨0, xs.map fun _ => 0, true⟩
  else
    let a := amax ns
    let tn := if fmtIb f then num t else .fin false 1 0
    let sc := if fmtMx f then mxScale (fmtEmax f) a else ibScale (if f = .ib3 then 4 else 6) tn a
    let d := (blockScale f sc).mul tn
    if a.isZero then ⟨sc, ns.map fun x =>
        if (f = .mx8e4m3 || f = .mx8e5m2) && x.sign then 0x80 else 0, false⟩
    else
      let one := fun (x : Num) (i : Nat) =>
        if f = .ib3 then (let c := ib3Code x d; if x.sign && c != 0 then c + 4 else c)
        else
          let fp := fmtFp f
          match u with
          | some g => dropZeroSign fp false (srCode x d (g i) + if x.sign then 8 else 0)
          | none =>
            let c := convElem { fp with infCode := none } x d
            dropZeroSign fp (f = .mx8e4m3 || f = .mx8e5m2) c
      ⟨sc, ns.mapIdx fun i x => one x i, false⟩

/-- Cut a list into pieces; fuel is its length. -/
def pieces {α : Type} (k : Nat) : Nat → List α → List (List α)
  | 0, _ => []
  | n + 1, l => if l.isEmpty then [] else l.take k :: pieces k n (l.drop k)

/-- A stored line: element codes and block scales (R66). -/
structure Line where
  codes : List Nat
  scales : List Nat
  /-- Blocks written as zero under R72. -/
  zeroed : Nat
  deriving DecidableEq, Repr

/-- Convert a line; an FP8 line divides by its tensor scale, where it has one (R71 to R77). -/
def convLine (f : Format) (t : Word) (u : Option (Nat → Nat)) (xs : List Word) : Line :=
  if fmtBlock f then
    let bs := (pieces 32 xs.length xs).mapIdx fun b p => convBlock f t (u.map fun g => fun i => g (32 * b + i)) p
    ⟨bs.flatMap fun b => b.codes ++ List.replicate (32 - b.codes.length) 0, bs.map Block.scale, (bs.filter Block.zeroed).length⟩
  else if f = .fp32 then ⟨xs.map fun x => (rnd (num x)).toNat, [], 0⟩
  else
    let d : Num := if fmtFp8 f && t != 0 then num t else .fin false 1 0
    ⟨xs.map fun x => convElem (fmtFp f) (num x) d, [], 0⟩

/-- Codes as one little-endian bit string (R66). -/
def packBits (w : Nat) (codes : List Nat) : List Byte :=
  leBytes (ceilDiv (w * codes.length) 8) (codes.foldr (fun c v => c % 2 ^ w + 2 ^ w * v) 0)

/-- `n` codes of `w` bits from a little-endian bit string. -/
def unpackBits (w n : Nat) (bs : List Byte) : List Nat :=
  let v := ofLe bs
  (List.range n).map fun i => v / 2 ^ (w * i) % 2 ^ w

/-- Element bytes of a line of `n` elements (R66). -/
def lineSize (f : Format) (n : Nat) : Nat := if fmtBlock f then ceilDiv n 32 * (4 * fmtBits f) else n * fmtBits f / 8
/-- Block-scale bytes of a line (R66). -/
def scaleSize (f : Format) (n : Nat) : Nat := if fmtBlock f then ceilDiv n 32 else 0
/-- Element bytes of a stored line. -/
def Line.bytes (l : Line) (f : Format) : List Byte := packBits (fmtBits f) l.codes
/-- Scale bytes of a stored line. -/
def Line.scaleBytes (l : Line) : List Byte := l.scales.map (BitVec.ofNat 8)

/-- A stored line of `n` elements expanded to FP32 (R68, R121). -/
def readLine (f : Format) (t : Word) (n : Nat) (elems scales : List Byte) : List Word :=
  (unpackBits (fmtBits f) n elems).mapIdx fun i c => expand f ((scales.getD (i / 32) 0).toNat) t c

/-- Smallest power of two not less than |a| / q, and not less than 2⁻¹²⁶ when `floor` says so; 1.0 for zero
(R89, R181). -/
def pow2Scale (q : Nat) (k : Int) (a : Num) : Word :=
  match a with
  | .fin _ m e =>
    if m = 0 then 0x3F800000 else
    let v := quo m e q 0
    let top : Int := (Nat.log2 v.1 : Int) + v.2.1
    let exact := v.1 = 2 ^ Nat.log2 v.1 && !v.2.2
    rnd (.fin false 1 (max k (if exact then top else top + 1)))
  | _ => fNaN

/-- Row scale of an FP8 E4M3 line: smallest power of two not less than amax / 448 (R89). -/
def rowScale (xs : List Word) : Word := pow2Scale 448 (-149) (amax (xs.map num))
/-- Tensor scale of an IB4 dispatch line (R181). -/
def dispScale (xs : List Word) : Word := pow2Scale (6 * 32768) (-126) (amax (xs.map num))

/-! ## Tile arithmetic (R68, R97, R99) -/

/-- An operand line as it enters the cells: element values and one effective scale a group of 32. -/
structure Operand where
  fmt : Format
  elems : List Num
  scales : List Word
  deriving DecidableEq, Repr

/-- Exact dot product of two element groups (R68 step 1). -/
def dotExact (a w : List Num) : Num := (List.zipWith Num.mul a w).foldl Num.add (.zero false)

/-- One column of one pass: FP32 sum from +0.0, contraction index ascending (R69, R97). -/
def column (a w : Operand) : Word :=
  if fmtBlock a.fmt || fmtBlock w.fmt then
    (List.range 4).foldl (fun (acc : Word) g =>
      let x := (a.elems.drop (32 * g)).take 32
      let y := (w.elems.drop (32 * g)).take 32
      if x.isEmpty || y.isEmpty then acc
      else
        let d := dotExact x y
        let s := (num (a.scales.getD g 0)).mul (num (w.scales.getD g 0))
        fAdd acc (rnd (d.mul s))) 0
  else
    let scale := (num (a.scales.getD 0 0x3F800000)).mul (num (w.scales.getD 0 0x3F800000))
    let s := (List.zipWith Num.mul a.elems w.elems).foldl (fun (acc : Word) p => rnd ((num acc).add p)) 0
    if scale = (num 0x3F800000).mul (num 0x3F800000) then s else rnd ((num s).mul scale)

/-! ## Leaves (R241 to R253) -/

/-- CRC-16, polynomial 0x1021, initial 0xFFFF (R244). -/
def crc16 (bs : List Byte) : Nat :=
  bs.foldl (fun (c : Nat) (b : Byte) => (List.range 8).foldl
    (fun (c : Nat) _ => if c.testBit 15 then (2 * c % 65536).xor 0x1021 else 2 * c % 65536)
    (c.xor (b.toNat * 256))) 0xFFFF

/-- Bytes of a leaf at a RATE code; 0 for an invalid one (R241). -/
def leafSize : Nat → Nat
  | 0 => 96 | 1 => 112 | 2 => 128 | 3 => 144 | 4 => 208 | _ => 0

/-- A RATE code is allowed for a format (R241). -/
def rateOk (f : Format) (rate : Nat) : Bool :=
  match f with
  | .ib4 => rate < 4
  | .mx4 => rate < 4
  | .ib3 => rate < 2
  | .mx6e3m2 => rate = 4
  | .mx6e2m3 => rate = 4
  | _ => false

/-- Magnitude pairs of rate code 0 (R246). -/
def pairs0 : List (Nat × Nat) := [(0, 0), (1, 0), (0, 1), (1, 1), (2, 0), (0, 2), (2, 1), (1, 2)]
/-- Magnitudes of rate code 2 (R246). -/
def mags2 : List Nat := [0, 1, 2, 3, 4, 6]
/-- Magnitude pairs of rate code 2, by index (R246). -/
def pairs2 : List (Nat × Nat) :=
  (List.range 24).map (fun i => (mags2.getD (i / 6) 0, mags2.getD (i % 6) 0)) ++
  (List.range 4).map (fun b => (4, mags2.getD b 0)) ++ (List.range 4).map (fun b => (6, mags2.getD b 0))

/-- Signed element of a magnitude. -/
def signed (neg : Bool) (m : Nat) : Num := .fin (neg && m != 0) m 0

/-- The 256 element values of a leaf's code area (R245, R246, R248). -/
def leafElems (f : Format) (rate : Nat) (codes : List Byte) : List Num :=
  match rate with
  | 0 => (unpackBits 5 128 codes).flatMap fun c =>
      let p := pairs0.getD (c % 8) (0, 0); [signed (bit c 3) p.1, signed (bit c 4) p.2]
  | 1 => (unpackBits 3 256 codes).map (elemNum .ib3)
  | 2 => (unpackBits 7 128 codes).flatMap fun c =>
      let p := pairs2.getD (c % 32) (0, 0); [signed (bit c 5) p.1, signed (bit c 6) p.2]
  | 3 => (unpackBits 4 256 codes).map (elemNum .ib4)
  | _ => (unpackBits 6 256 codes).map (elemNum f)

/-- The leaf passes its check: CRC, and where it is in clear RATE, tags and reserved fields (R251). -/
def leafClear (f : Format) (rate seg pos : Nat) (b : List Byte) : Bool :=
  let w0 := leAt b 0 4
  let w1 := leAt b 4 4
  bits w0 31 24 = 0 && bits w0 20 16 = 0 && bits w1 15 6 = 0 &&
  bits w0 23 21 = rate && bits w1 31 16 = seg % 65536 && bits w1 5 0 = pos && rateOk f rate

/-- CHECK matches the CRC-16 of bytes 2 to the end (R243, R251). -/
def leafCrc (b : List Byte) : Bool := leAt b 0 2 = crc16 (b.drop 2)

/-- Bytes of a leaf from its parts (R243). -/
def mkLeaf (rate seg pos : Nat) (scales : List Nat) (codes : List Byte) : List Byte :=
  let body := leBytes 2 (putBits rate 7 5) ++ leBytes 4 (putBits seg 31 16 + putBits pos 5 0) ++
    (List.range 8).map (fun i => BitVec.ofNat 8 (scales.getD i 0)) ++ codes
  leBytes 2 (crc16 body) ++ body

/-- Magnitude codes of a block at a rate: values and d = block scale × tensor scale (R247 steps 3 to 6). -/
def leafCodes (f : Format) (rate : Nat) (d : Num) (xs : List Num) : List Nat :=
  let top := if rate = 0 then 2 else if rate = 1 then 4 else 6
  let dead := d.isZero
  let sat := fun x : Num => if Num.ltMag (d.mul (.fin false top 0)) x.abs then d.mul (.fin false top 0) else x.abs
  let sgn := fun (x : Num) (m : Nat) => if x.sign && m != 0 then 1 else 0
  let pair := fun (ps : List (Nat × Nat)) (x y : Num) =>
    let err := fun p : Nat × Nat =>
      let a := (sat x).add (d.mul (.fin false p.1 0)).neg
      let b := (sat y).add (d.mul (.fin false p.2 0)).neg
      (a.mul a).add (b.mul b)
    let i := if dead then 0 else (List.range ps.length).foldl (fun best i =>
      if (err (ps.getD i (0, 0))).lt (err (ps.getD best (0, 0))) then i else best) 0
    (i, ps.getD i (0, 0))
  match rate with
  | 0 => (pieces 2 xs.length xs).map fun p =>
      let x := p.getD 0 (.zero false); let y := p.getD 1 (.zero false)
      let r := pair pairs0 x y
      r.1 + 8 * sgn x r.2.1 + 16 * sgn y r.2.2
  | 2 => (pieces 2 xs.length xs).map fun p =>
      let x := p.getD 0 (.zero false); let y := p.getD 1 (.zero false)
      let r := pair pairs2 x y
      r.1 + 32 * sgn x r.2.1 + 64 * sgn y r.2.2
  | 1 => xs.map fun x => if dead then 0 else let c := ib3Code x d; c + 4 * sgn x c
  | 3 => xs.map fun x => if dead then 0 else dropZeroSign e2m1 false (convElem e2m1 x d)
  | _ => xs.map fun x => if dead then 0 else dropZeroSign (fmtFp f) false (convElem (fmtFp f) x d)

/-- Bits of one code of a rate: one for each pair at rates 0 and 2 (R245). -/
def rateWidth (f : Format) : Nat → Nat
  | 0 => 5 | 1 => 3 | 2 => 7 | 3 => 4 | _ => fmtBits f

/-- What a leaf is encoded from: 256 FP32 source values, and their stored codes and scales where the source
format is one that a rate copies unchanged (R247 step 1). -/
structure LeafSrc where
  vals : List Word
  fmt : Format
  codes : List Nat
  scales : List Nat
  deriving DecidableEq, Repr

/-- The source is copied at this rate (R247 step 1). -/
def copied (src : Format) (rate : Nat) : Bool :=
  match src, rate with
  | .ib4, 3 => true | .mx4, 3 => true | .ib3, 1 => true | .mx6e3m2, 4 => true | .mx6e2m3, 4 => true
  | _, _ => false

/-- Encode one leaf (R243, R247). The codes of a block that its scale makes NaN are free: the specification states none
(R72, notes/assumptions/130.md). -/
def encodeLeaf (f : Format) (t : Word) (rate seg pos : Nat) (s : LeafSrc) : List Byte :=
  if copied s.fmt rate && s.fmt = f then
    mkLeaf rate seg pos s.scales (packBits (rateWidth f rate) (s.codes ++ List.replicate (256 - s.codes.length) 0))
  else
    let tn := if fmtIb f then num t else .fin false 1 0
    let blocks := (pieces 32 256 (s.vals ++ List.replicate (256 - s.vals.length) 0)).map fun xs =>
      let ns := xs.map num
      if !ns.all Num.isFin then
        if fmtMx f then (0xFF, (leafCodes f rate (.zero false) ns).mapIdx fun i _ =>
          Config.nanBlockCode (fmtCode f + 16 * (rate + 1)) i % 2 ^ rateWidth f rate)
        else (0, leafCodes f rate (.zero false) ns)
      else
        let a := amax ns
        let sc := if fmtMx f then mxScale (if rate = 0 then 1 else 2) a
                  else ibScale (if rate = 0 then 2 else if rate = 1 then 4 else 6) tn a
        let d := if a.isZero then .zero false else (blockScale f sc).mul tn
        (sc, leafCodes f rate d ns)
    mkLeaf rate seg pos (blocks.map Prod.fst) (packBits (rateWidth f rate) (blocks.flatMap Prod.snd))

/-- The 256 FP32 values of a leaf (R248). -/
def leafVals (f : Format) (t : Word) (b : List Byte) : List Word :=
  let rate := bits (leAt b 0 4) 23 21
  (leafElems f rate (b.drop 16)).mapIdx fun i x =>
    rnd (x.mul (num (effScale f (b.getD (8 + i / 32) 0).toNat t)))

end Sys2Proof.Machine
end

