-- ==== Sys2Proof/Machine/Vector.lean ====
section
/-! DEFINITION. Vector and statistics units: softmax, normalisation, rotation, compositions, and the draw of a
token (spec 05 R124 to R136, spec 08 R202, spec 09 R232 to R236). -/

namespace Sys2Proof.Machine

/-! ## Softmax (R131 to R134) -/

/-- A key of a softmax row: its position, which fixes its tile, its score s, and its value vector. -/
structure Key where
  pos : Nat
  s : Word
  v : List Word
  deriving DecidableEq, Repr

/-- −∞. -/
def negInf : Word := 0xFF800000
/-- A score that makes the row NaN: NaN or +∞ (R134). -/
def badScore (s : Word) : Bool := num s = .nan || num s = .inf false

/-- Running state of a row: maximum, sum, partial output (R132). -/
structure Soft where
  m : Word
  l : Word
  o : List Word
  deriving DecidableEq, Repr

/-- EXP of a score below a maximum; −∞ contributes 0 (R134). -/
def keyP (s m : Word) : Word := if s = negInf then 0 else fExp (fSub s m)

/-- One tile of included keys (R132). -/
def softTile (st : Soft) (keys : List Key) : Soft :=
  if keys.isEmpty then st else
  let mt := keys.foldl (fun m k => fMax m k.s) negInf
  let mnew := fMax st.m mt
  if mnew = negInf then st else
  let c := if st.m = negInf then 0 else fExp (fSub st.m mnew)
  let st := { st with l := fMul st.l c, o := st.o.map fun x => fMul x c }
  let st := keys.foldl (fun st k =>
    let p := keyP k.s mnew
    { st with l := fAdd st.l p, o := List.zipWith (fun v o => fFma p v o) k.v st.o }) st
  { st with m := mnew }

/-- Included keys grouped in tiles of 128 positions, ascending; fuel is the number of keys. -/
def tilesOf : Nat → List Key → List (List Key)
  | 0, _ => []
  | n + 1, ks =>
    match ks with
    | [] => []
    | k :: _ =>
      let here := ks.takeWhile fun j => j.pos / 128 = k.pos / 128
      here :: tilesOf n (ks.drop here.length)

/-- The loop of R132 over included keys in ascending position. -/
def softRun (width : Nat) (keys : List Key) : Soft :=
  (tilesOf keys.length keys).foldl softTile ⟨negInf, 0, List.replicate width 0⟩

/-- Weighted mode: the output of a row of included keys (R132, R134). -/
def softWeighted (width : Nat) (keys : List Key) : List Word :=
  if keys.any fun k => badScore k.s then List.replicate width fNaN
  else
    let st := softRun width keys
    if st.m = negInf then List.replicate width 0 else
    let r := fRcp st.l
    st.o.map fun x => fMul x r

/-- Probability mode over scores in ascending key order (R133, R134). -/
def softProb (scores : List Word) : List Word :=
  if scores.any badScore then scores.map fun _ => fNaN
  else
    let st := softRun 0 (scores.mapIdx fun i s => ⟨i, s, []⟩)
    if st.m = negInf then scores.map fun _ => 0
    else let r := fRcp st.l; scores.map fun s => fMul (keyP s st.m) r

/-! ## Normalisation (R127) -/

/-- RMS normalisation. -/
def normRms (x g : List Word) (eps : Word) : List Word :=
  let q := x.foldl (fun q v => fFma v v q) 0
  let r := fRsqrt (fAdd (fDivNat q x.length) eps)
  List.zipWith (fun v g => fMul (fMul v r) g) x g

/-- Layer normalisation. -/
def normLayer (x g b : List Word) (eps : Word) : List Word :=
  let mu := fDivNat (x.foldl fAdd 0) x.length
  let d := x.map fun v => fSub v mu
  let v := d.foldl (fun q v => fFma v v q) 0
  let r := fRsqrt (fAdd (fDivNat v x.length) eps)
  List.zipWith (fun p b => fFma (fMul p.1 r) p.2 b) (List.zip d g) b

/-- The norm of a line (R125). -/
def lineNorm (x : List Word) : Word := fSqrt (x.foldl (fun q v => fFma v v q) 0)

/-! ## Rotary rotation (R129, R130) -/

/-- Rotate one pair at an angle. -/
def ropePair (a b : Word) (cs : Word × Word) : Word × Word :=
  if !(num a).isFin || !(num b).isFin then (fNaN, fNaN)
  else (fFma a cs.1 (fNeg (fMul b cs.2)), fFma a cs.2 (fMul b cs.1))

/-- Rotate a rotary part at a position; frequency values by pair (R130). -/
def rope (pos start len : Nat) (adjacent : Bool) (freq : List Word) (x : List Word) : List Word :=
  let h := len / 2
  x.mapIdx fun i v =>
    if i < start || start + 2 * h ≤ i then v
    else
      let j := i - start
      let k := if adjacent then j / 2 else j % h
      let first := if adjacent then j % 2 = 0 else j < h
      let ia := start + if adjacent then 2 * k else k
      let ib := start + if adjacent then 2 * k + 1 else k + h
      let r := ropePair (x.getD ia 0) (x.getD ib 0) (cosSin pos (freq.getD k 0))
      if first then r.1 else r.2

/-! ## Compositions (R36, R121) -/

/-- The elementwise function of a code 0x01 to 0x09 (R121). -/
def vfn (code : Nat) (a b c : Word) : Word :=
  match code with
  | 1 => fAdd a b
  | 2 => fMul a b
  | 3 => fFma a b c
  | 4 => fExp a
  | 5 => fRcp a
  | 6 => fRsqrt a
  | 7 => fGeluErf a
  | 8 => fGeluTanh a
  | _ => fGeluSig a

/-- One step of a composition on a line: the working line and temporaries t₁ to t₇ are lines 0 to 7 (R36).
`src` reads a selected operand 8 to 10 for an element. -/
def vstep (rec : Nat) (src : (sel konst : Nat) → (elem : Nat) → Word) (lines : List (List Word)) (n : Nat) : List (List Word) :=
  let w0 := fieldAt rec 0 4
  let w1 := fieldAt rec 4 4
  let arg := fun sel konst i => if sel ≤ 7 then (lines.getD sel []).getD i 0 else src sel konst i
  let out := (List.range n).map fun i =>
    vfn (bits w0 31 27) (arg (bits w0 23 20) 0 i) (arg (bits w0 19 16) (bits w1 31 16) i) (arg (bits w0 15 12) (bits w1 15 0) i)
  lines.set (bits w0 26 24) out

/-! ## Drawing a token (R202, R232 to R236) -/

/-- The token of highest logit, ties to the lower index. -/
def greedy (logits : List Word) : Nat :=
  (List.range logits.length).foldl (fun b i => if (num (logits.getD b 0)).lt (num (logits.getD i 0)) then i else b) 0

/-- The kept tokens in ascending index: the TOPK of highest logit, ties to the lower index; 0 keeps all. -/
def keptTokens (topk : Nat) (logits : List Word) : List Nat :=
  let all := List.range logits.length
  if topk = 0 then all else
  let ranked := sortBy (fun a b : Nat =>
    let x := num (logits.getD a 0); let y := num (logits.getD b 0)
    y.lt x || (!x.lt y && a ≤ b)) all
  let k := ranked.take topk
  all.filter fun i => k.contains i

/-- A distribution of tokens: kept tokens in ascending index with their probabilities. -/
structure Dist where
  kept : List (Nat × Word)
  /-- What the rule for TEMP = +0.0 gives over the kept tokens. -/
  top : Nat
  deriving DecidableEq, Repr

/-- The distribution at a position, none where the sampled token is undefined (R202). -/
def distOf (temp : Word) (topk : Nat) (logits : List Word) : Option Dist :=
  if logits.any fun x => num x = .nan then none else
  let kept := keptTokens topk logits
  let tau := fRcp temp
  let zs := kept.map fun i => logits.getD i 0
  let ss := zs.map fun z => fMul tau z
  if zs.any (fun z => num z = .inf false) || ss.any badScore then none
  else some ⟨List.zip kept (softProb ss), greedy logits⟩

/-- Inverse cumulative draw with a word u / 2³² (R202 step 3). -/
def drawToken (d : Dist) (u : Nat) : Nat :=
  let r := d.kept.foldl (fun (st : Word × Option Nat) p =>
    match st.2 with
    | some _ => st
    | none =>
      let s := fAdd st.1 p.2
      (s, if (drawNum u).lt (num s) then some p.1 else none)) (0, none)
  match r.2 with
  | some t => t
  | none =>
    match (d.kept.filter fun p => !(num p.2).isZero).getLast? with
    | some p => p.1
    | none => d.top

/-- The sampled token at a position under draw `index`, none where it is undefined (R202, R233). -/
def sample (temp : Word) (topk : Nat) (seed : DWord) (pos index : Nat) (logits : List Word) : Option Nat :=
  if temp = 0 then (if logits.any fun x => num x = .nan then none else some (greedy logits))
  else (distOf temp topk logits).map fun d => drawToken d (draw seed pos index)

/-- Probability of a token; 0 for one not kept. -/
def Dist.prob (d : Dist) (t : Nat) : Word := ((d.kept.find? fun p => p.1 = t).map Prod.snd).getD 0

/-- The draw from the residual distribution over `n` tokens, or from p where the residual is 0 (R235). -/
def drawResidual (p q : Dist) (n u : Nat) : Nat :=
  let r := (List.range n).map fun t =>
    let d := fSub (p.prob t) (q.prob t)
    if (num d).lt (.zero false) || d = 0x80000000 then (0 : Word) else d
  let sum := r.foldl fAdd 0
  if sum = 0 then drawToken p u
  else
    let k := fRcp sum
    drawToken ⟨(List.range n).map fun t => (t, fMul (r.getD t 0) k), p.top⟩ u

/-- Acceptance test of a present draft token under a temperature: u < p(d) × RCP(q(d)) (R235). -/
def acceptDraft (p q : Dist) (t u : Nat) : Bool := (drawNum u).lt (num (fMul (p.prob t) (fRcp (q.prob t))))

end Sys2Proof.Machine
end

