-- ==== Sys2Proof/Machine/Program.lean ====
section
/-! DEFINITION. The steep program and the words of a model: fields, and the checks of a load (spec 01 R34 to R37,
spec 03 R79 to R86, spec 05 R121 to R129, spec 06 R140 to R162, spec 07 R167, R168, spec 09 R228, R229,
spec 10 R249, R260). -/

namespace Sys2Proof.Machine

/-! ## Model words -/

/-- Experts of a routed layer (R167). -/
def rtExperts (r : DWord) : Nat := bits r.toNat 23 12 + 1
/-- Choices per token (R167). -/
def rtK (r : DWord) : Nat := bits r.toNat 27 24 + 1
/-- Combine mode is travelling tags (R167). -/
def rtTags (r : DWord) : Bool := bit r.toNat 28
/-- Overflow policy is spill (R167). -/
def rtSpill (r : DWord) : Bool := bit r.toNat 29
/-- Dispatch format code (R167). -/
def rtDisp (r : DWord) : Nat := bits r.toNat 35 32
/-- Pour format code (R167). -/
def rtPour (r : DWord) : Nat := bits r.toNat 39 36

/-- The routing word holds no refused value (R167). -/
def routingOk (r : DWord) : Bool :=
  bits r.toNat 63 40 = 0 && bits r.toNat 31 30 = 0 && bits r.toNat 11 0 = 0 &&
  (rtPour r = 0 || rtPour r = 1) && [1, 3, 10].contains (rtDisp r)

/-- The wire compression word holds no refused value (R260). -/
def wireOk (w : Word) (r : DWord) : Bool :=
  bits w.toNat 31 4 = 0 && (!bit w.toNat 3 || (rtDisp r = 10 && rateOk .ib4 (bits w.toNat 2 0)))

/-- The floor word holds no refused value (R80). -/
def floorOk (w : Word) : Bool :=
  bits w.toNat 31 15 = 0 && (List.range 5).all fun i => bits w.toNat (3 * i + 2) (3 * i) ≤ 5

/-- Floor of a layer class; class 0 has none (R80). -/
def floorOf (w : Word) (cls : Nat) : Nat := if cls = 0 then 0 else bits w.toNat (3 * cls - 1) (3 * cls - 3)

/-! ## Operation records (R35) -/

/-- KIND of a record. -/
def rKind (r : List Byte) : Nat := leAt r 3 1
/-- LAYER. -/
def rLayer (r : List Byte) : Nat := leAt r 2 1
/-- OPIDX. -/
def rOpidx (r : List Byte) : Nat := leAt r 1 1
/-- Layer precision word. -/
def rLpw (r : List Byte) : Nat := leAt r 4 4
/-- Attention operation word. -/
def rAow (r : List Byte) : Nat := leAt r 8 4
/-- Control word at byte 12. -/
def rCtl (r : List Byte) : Nat := leAt r 12 4
/-- IN. -/
def rIn (r : List Byte) : Nat := leAt r 16 8
/-- WGT. -/
def rWgt (r : List Byte) : Nat := leAt r 24 8
/-- WGT2. -/
def rWgt2 (r : List Byte) : Nat := leAt r 32 8
/-- OUT. -/
def rOut (r : List Byte) : Nat := leAt r 40 8
/-- RESIDUAL. -/
def rResidual (r : List Byte) : Nat := leAt r 48 8
/-- ESC_BUF. -/
def rEscBuf (r : List Byte) : Nat := leAt r 56 8
/-- SB. -/
def rSb (r : List Byte) : Nat := leAt r 64 8
/-- VSTEP_LIST. -/
def rVlist (r : List Byte) : Nat := leAt r 72 8
/-- K. -/
def rK (r : List Byte) : Nat := leAt r 80 4
/-- N. -/
def rN (r : List Byte) : Nat := leAt r 84 4
/-- OUT_TSCALE. -/
def rTscale (r : List Byte) : Word := BitVec.ofNat 32 (leAt r 88 4)
/-- C_A. -/
def rCa (r : List Byte) : Nat := leAt r 94 2
/-- C_B. -/
def rCb (r : List Byte) : Nat := leAt r 92 2
/-- ROT_TABLE. -/
def rRotTable (r : List Byte) : Nat := leAt r 96 8
/-- ROT_LEN, ROT_START, ROT_PAIR. -/
def rRotLen (r : List Byte) : Nat := leAt r 107 1
/-- ROT_START. -/
def rRotStart (r : List Byte) : Nat := leAt r 106 1
/-- ROT_PAIR: 1 pairs element i with i + ROT_LEN / 2. -/
def rRotPair (r : List Byte) : Bool := bit (leAt r 104 4) 15
/-- BIAS2. -/
def rBias2 (r : List Byte) : Nat := leAt r 112 8
/-- SCALE of the control word. -/
def rScale (r : List Byte) : Nat := bits (rCtl r) 31 30
/-- BIAS flag. -/
def rBias (r : List Byte) : Bool := bit (rCtl r) 29
/-- RESID flag. -/
def rResid (r : List Byte) : Bool := bit (rCtl r) 28
/-- STEER flag. -/
def rSteer (r : List Byte) : Bool := bit (rCtl r) 27
/-- KVW flag. -/
def rKvw (r : List Byte) : Bool := bit (rCtl r) 26
/-- ESC flag. -/
def rEsc (r : List Byte) : Bool := bit (rCtl r) 25
/-- ESCW flag. -/
def rEscw (r : List Byte) : Bool := bit (rCtl r) 24
/-- NORMK. -/
def rNormk (r : List Byte) : Nat := bits (rCtl r) 23 22
/-- ACT. -/
def rAct (r : List Byte) : Nat := bits (rCtl r) 20 16
/-- VSTEPS. -/
def rVsteps (r : List Byte) : Nat := bits (rCtl r) 15 0

/-- ACT_FMT of a layer precision word (R79). -/
def lpwAct (w : Nat) : Nat := bits w 31 28
/-- WGT_FMT. -/
def lpwWgt (w : Nat) : Nat := bits w 27 24
/-- OUT_FMT. -/
def lpwOut (w : Nat) : Nat := bits w 23 20
/-- LCLASS. -/
def lpwClass (w : Nat) : Nat := bits w 19 17
/-- SROUND. -/
def lpwSround (w : Nat) : Bool := bit w 16
/-- NACT: 0 off, 1 flag, 2 escalate. -/
def lpwNact (w : Nat) : Nat := bits w 15 14
/-- Smoothing shift k; 0 selects 5. -/
def lpwShift (w : Nat) : Nat := let k := bits w 13 10; if k = 0 then 5 else k
/-- Jump ratio × 2; 0 selects 16. -/
def lpwJump (w : Nat) : Nat := let j := bits w 7 0; if j = 0 then 16 else j

/-- A layer precision word holds no refused value (R58, R79). -/
def lpwOk (w : Nat) : Bool :=
  lpwAct w < 11 && lpwWgt w < 12 && lpwOut w < 11 && lpwClass w < 6 && lpwNact w < 3 && bits w 9 8 = 0 &&
  bits w 13 10 ≤ 12 && (let j := bits w 7 0; j = 0 || (4 ≤ j && j ≤ 128)) &&
  (!lpwSround w || lpwOut w = 10 || lpwOut w = 9)

/-- Class that KIND and layer fix in the main list (R79). -/
def classFor (kind layer top : Nat) : Nat :=
  if kind = 1 then 1 else if kind = 6 then 4 else if kind = 4 then 5
  else if layer = 0 then 2 else if layer = top then 3 else 0

/-- Width rank of a format code. -/
def rankOf (c : Nat) : Nat := match fmtOf c with | some f => fmtRank f | none => 0

/-- An operation meets the floor of its class (R81). -/
def meetsFloor (floor : Word) (w : Nat) : Bool :=
  let f := floorOf floor (lpwClass w)
  f ≤ rankOf (lpwAct w) && f ≤ rankOf (lpwWgt w) && f ≤ rankOf (lpwOut w)

/-! ## Header (R34) -/

/-- CONSTS. -/
def hConsts (h : List Byte) : Nat := leAt h 92 4
/-- HIDDEN. -/
def hHidden (h : List Byte) : Nat := leAt h 84 4
/-- VOCAB. -/
def hVocab (h : List Byte) : Nat := leAt h 88 4
/-- BATCH_AREA. -/
def hBatch (h : List Byte) : Nat := leAt h 104 8
/-- NORM_TABLE. -/
def hNorm (h : List Byte) : Nat := leAt h 40 8
/-- ROUTE_TABLE. -/
def hRoute (h : List Byte) : Nat := leAt h 48 8
/-- SHAPE_AREA. -/
def hShape (h : List Byte) : Nat := leAt h 56 8
/-- LINE_AREA. -/
def hLine (h : List Byte) : Nat := leAt h 64 8
/-- LOCAL_TABLE. -/
def hLocal (h : List Byte) : Nat := leAt h 72 8
/-- Local experts. -/
def hLocals (h : List Byte) : Nat := leAt h 80 2 + 1
/-- MODEL_SEED. -/
def hSeed (h : List Byte) : DWord := BitVec.ofNat 64 (leAt h 8 8)
/-- COSY_EN. -/
def hCosy (h : List Byte) : Bool := bit (leAt h 4 4) 0
/-- Address and length of a list: draft or main. -/
def hList (h : List Byte) (draft : Bool) : Nat × Nat :=
  if draft then (leAt h 32 8, leAt h 20 4) else (leAt h 24 8, leAt h 16 4)

/-- A constant of the program (R34). -/
def State.constant (s : State) (h : List Byte) (i : Nat) : Word := BitVec.ofNat 32 (s.devNum (leAt h 96 8 + 4 * i) 4)

/-- An address of the header is 64-byte aligned and in a window (R34). -/
def State.areaOk (s : State) (a n : Nat) : Bool := a % 64 = 0 && (s.inWindow a n).isSome

/-- An area that the package writes is aligned and writable (R34, R37). -/
def State.writeOk (s : State) (a n : Nat) : Bool := a % 64 = 0 && (s.checkWrite a n).isNone

/-- The routed layers of a list, in order. -/
def routedLayers (recs : List (List Byte)) : List Nat := (recs.filter fun r => rKind r = 4).map rLayer

/-- Watched operations of the main list, in order (R93). -/
def watched (recs : List (List Byte)) : List Nat :=
  (List.range recs.length).filter fun i => lpwNact (rLpw (recs.getD i [])) != 0

/-- The header obeys R34; LINE_AREA, whose length the receive area fixes and not the header, is tested over its first
entry (notes/assumptions/114.md). -/
def State.headerOk (s : State) (h : List Byte) (geom : DWord) (main : List (List Byte)) : Bool :=
  let routed := !(routedLayers main).isEmpty
  let optional := fun (a n : Nat) (need : Bool) => if a = 0 then !need else s.writeOk a n
  leAt h 0 4 = 0x50535154 && leAt h 6 2 = 1 && bits (leAt h 4 4) 15 1 = 0 &&
  2 ≤ leAt h 16 4 && (if geoDraft geom = 0 then leAt h 20 4 = 0 else 2 ≤ leAt h 20 4) &&
  s.areaOk (leAt h 24 8) (128 * leAt h 16 4) && leAt h 24 8 != 0 &&
  (if leAt h 20 4 = 0 then leAt h 32 8 = 0 else leAt h 32 8 != 0 && s.areaOk (leAt h 32 8) (128 * leAt h 20 4)) &&
  optional (hNorm h) (32 * (watched main).length) (!(watched main).isEmpty) &&
  optional (hRoute h) (32 * (routedLayers main).length) routed &&
  optional (hShape h) (4 * hLocals h) routed && optional (hLine h) 4 routed &&
  (if hLocal h = 0 then !routed else s.areaOk (hLocal h) (32 * hLocals h)) &&
  (routed || leAt h 80 2 = 0) && leAt h 82 2 = 0 &&
  64 ≤ hHidden h && hHidden h ≤ 16384 && 2 ≤ hVocab h && hVocab h ≤ 0xFFFFFFFE && hConsts h ≤ 65536 &&
  (if hConsts h = 0 then leAt h 96 8 = 0 else leAt h 96 8 != 0 && s.areaOk (leAt h 96 8) (4 * hConsts h)) &&
  hBatch h != 0 && s.writeOk (hBatch h) 262208 && (bytesAt h 112 144).all (· = 0)

/-! ## Records (R35 to R37) -/

/-- One vector step record obeys R36; a constant index of no constant, and an index where no constant is selected, are
refused too (notes/assumptions/113.md). -/
def vstepOk (h : List Byte) (b : List Byte) (last : Bool) : Bool :=
  let w0 := leAt b 0 4
  let w1 := leAt b 4 4
  let fn := bits w0 31 27
  let a := bits w0 23 20
  let bb := bits w0 19 16
  let c := bits w0 15 12
  let usesB := fn = 1 || fn = 2 || fn = 3
  let usesC := fn = 3
  1 ≤ fn && fn ≤ 9 && bits w0 11 0 = 0 && a ≤ 7 && bb ≤ 10 && c ≤ 10 &&
  (usesB || (bb = 0 && bits w1 31 16 = 0)) && (usesC || (c = 0 && bits w1 15 0 = 0)) &&
  (if bb = 8 then bits w1 31 16 < hConsts h else bits w1 31 16 = 0) &&
  (if c = 8 then bits w1 15 0 < hConsts h else bits w1 15 0 = 0) &&
  !(9 ≤ bb && bb ≤ 10 && 9 ≤ c) && (9 ≤ bb || 9 ≤ c || leAt b 8 8 = 0) && (!last || bits w0 26 24 = 0)

/-- A compressed tensor header obeys R249. -/
def tensorOk (b : List Byte) : Bool :=
  let fmt := bits (leAt b 0 4) 31 28
  let ts := BitVec.ofNat 32 (leAt b 4 4)
  let lpl := ceilDiv (leAt b 12 4) 256
  7 ≤ fmt && fmt ≤ 11 && bits (leAt b 0 4) 27 0 = 0 &&
  (if fmt ≤ 9 then ts = 0x3F800000 else scaleValid ts) &&
  1 ≤ leAt b 8 4 && 1 ≤ leAt b 12 4 && leAt b 16 8 % 8 = 0 && leAt b 24 8 % 64 = 0 &&
  leAt b 40 4 = ceilDiv (leAt b 8 4 * lpl) 64 && (bytesAt b 44 20).all (· = 0)

/-- An entry of the local expert table (R172). -/
structure LocalExpert where
  layer : Nat
  expert : Nat
  inter : Nat
  wIn : Nat
  wOut : Nat
  deriving DecidableEq, Repr

/-- The entry of a local index, from device memory (R172). -/
def State.localExpert (s : State) (h : List Byte) (i : Nat) : LocalExpert :=
  let b := s.devRead (hLocal h + 32 * i) 32
  { layer := bits (leAt b 0 4) 7 0, expert := bits (leAt b 0 4) 19 8, inter := leAt b 4 2, wIn := leAt b 8 8, wOut := leAt b 16 8 }

/-- Weight operands that a record names, itself or through the local expert table (R35, R172). -/
def State.recWeights (s : State) (h r : List Byte) : List Nat :=
  match rKind r with
  | 1 => [rWgt r]
  | 2 => [rWgt r]
  | 3 => [rWgt r, rWgt2 r]
  | 4 => [rWgt r]
  | 5 => (((List.range (hLocals h)).map (s.localExpert h)).filter fun e => e.layer = rLayer r).map fun e =>
      if rWgt r = 0 then e.wIn else e.wOut
  | 6 => if rWgt2 r = 0 then [rWgt r] else [rWgt r, rWgt2 r]
  | 7 => [rWgt r]
  | _ => []

/-- Scale of a plain tensor of a format as R65 allows it: IB4 and IB3 need one, FP8 may have one. -/
def plainScaleOk (wgtFmt : Nat) (a : Nat) : Bool :=
  match fmtOf wgtFmt with
  | some f => (!fmtIb f || scaleValid (Config.plainScale a)) &&
      (!fmtFp8 f || Config.plainScale a = 0 || scaleValid (Config.plainScale a))
  | none => true

/-- A weight operand obeys R65 and R249. -/
def State.weightOk (s : State) (wgtFmt a : Nat) : Bool :=
  a != 0 && (if Config.compressedAt a then a % 64 = 0 && tensorOk (s.devRead a 64) else plainScaleOk wgtFmt a)

/-- Operand pairs of a record (R67, R141). -/
def recordPair (geom : DWord) (r : List Byte) : Bool :=
  let p := fun a w => match fmtOf a, fmtOf w with | some a, some w => pairOk a w | _, _ => false
  let w := rLpw r
  match rKind r with
  | 1 => true
  | 6 => true
  | 3 => p (geoFmt geom) (lpwWgt w)
  | _ => p (lpwAct w) (lpwWgt w)

/-- Fields of one record obey R35, R65, R79, R85, R86, R128, R129, R157, R162. Expansion matrices that pair with LAT_FMT
but break R141, rotation fields in a record that rotates nothing, and KVW in any kind but MATMUL are refused as fields
(notes/assumptions/115.md, 116.md); OUT and ESC_BUF are tested at their first byte (notes/assumptions/114.md). -/
def State.recordOk (s : State) (h : List Byte) (geom routing : DWord) (draft firstExpert : Bool) (top : Nat) (r : List Byte) : Bool :=
  let k := rKind r
  let w := rLpw r
  let c := rCtl r
  let act := rAct r
  let out := lpwOut w
  let ts := rTscale r
  let const := fun i => i < hConsts h
  let rot := k = 3 || rKvw r
  1 ≤ k && k ≤ 7 && leAt r 0 1 = 0 && lpwOk w && !bit c 21 && rScale r ≤ 2 && rNormk r ≤ 2 &&
  lpwClass w = (if draft then 0 else classFor k (rLayer r) top) && (!draft || lpwNact w = 0) &&
  (k = 3 || rAow r = 0) && (act = 0 || act = 7 || act = 8 || act = 9 || act = 0x1F) &&
  (if act = 0x1F then 1 ≤ rVsteps r && rVsteps r ≤ 256 && rVlist r != 0 &&
      ((List.range (rVsteps r)).all fun i => vstepOk h (s.devRead (rVlist r + 16 * i) 16) (i + 1 = rVsteps r))
    else rVsteps r = 0 && rVlist r = 0) &&
  (if k = 1 || (k = 5 && firstExpert) then rIn r = 0 else rIn r != 0) &&
  (if k = 5 then rWgt r ≤ 1 && rWgt2 r = 0 else if k = 3 then rWgt2 r != 0 else k = 6 || rWgt2 r = 0) &&
  (if rResid r then rResidual r != 0 else rResidual r = 0) &&
  (if rEsc r || rEscw r then rEscBuf r != 0 else rEscBuf r = 0) &&
  (if rScale r = 2 || rBias r then rSb r != 0 else rSb r = 0) &&
  (if k = 6 then rNormk r != 0 else rNormk r = 0) &&
  (if out = 10 then scaleValid ts else if out = 3 || out = 4 then ts = 0 || scaleValid ts else ts = 0) &&
  (if rScale r = 1 || k = 3 || k = 6 then const (rCa r) else true) &&
  (k != 6 || scaleValid (s.constant h (rCa r))) &&
  (k != 7 || (out = 0 && rN r = hVocab h)) && (k != 4 || rN r = rtExperts routing) && (!rKvw r || k = 2) &&
  (if k = 3 && geoFmt geom != 1 then const (rCb r) && scaleValid (s.constant h (rCb r)) else true) &&
  (if rot && geoRot geom != 0 then
      2 ≤ rRotLen r && rRotLen r % 2 = 0 && rRotLen r ≤ 128 && rRotStart r + rRotLen r ≤ geoRot geom && rRotTable r != 0
    else rRotTable r = 0 && rRotLen r = 0 && rRotStart r = 0 && !rRotPair r) &&
  bits (leAt r 104 4) 14 0 = 0 && leAt r 108 4 = 0 && (k = 4 || rBias2 r = 0) && leAt r 120 8 = 0 &&
  (if k = 3 then
      bits (rAow r) 26 0 = 0 && (let hpc := bits (rAow r) 28 27 + 1
        geoHeads geom % hpc = 0 && geoHeads geom / hpc ≤ 64) &&
      (!recordPair geom r || (if geoFmt geom = 1 then lpwWgt w = 1 else lpwWgt w = 3 || lpwWgt w = 4))
    else true) &&
  (lpwNact w != 2 || (k != 5 && (4 ≤ rankOf (lpwAct w) || rEsc r))) &&
  (s.checkWrite (rOut r) 1).isNone && (!rEscw r || (s.checkWrite (rEscBuf r) 1).isNone) &&
  (s.recWeights h r).all (s.weightOk (lpwWgt w))

/-- Order, ends, routed and attention layers, steering and escalation of a list (R37, R168). -/
def listOk (draft : Bool) (layers : Nat) (rs : List (List Byte)) : Bool :=
  let idx := List.range rs.length
  let at_ := fun i => rs.getD i []
  let top := layers - 1
  let inLayer := fun l => rs.filter fun r => rLayer r = l
  rKind (at_ 0) = 1 && rLayer (at_ 0) = 0 && rKind (at_ (rs.length - 1)) = 7 && rLayer (at_ (rs.length - 1)) = top &&
  (idx.all fun i =>
    let r := at_ i
    let p := at_ (i - 1)
    (if i = 0 then rOpidx r = 0 else
      if rLayer r = rLayer p then rOpidx r = rOpidx p + 1 else rLayer r = rLayer p + 1 && rOpidx r = 0) &&
    (i = 0 || rKind r != 1) && (i + 1 = rs.length || rKind r != 7) &&
    (rKind r != 5 || ((rKind p = 4 || rKind p = 5) && rLayer p = rLayer r)) &&
    (rKind r != 5 || rKind p != 5 || rIn r = rOut p) &&
    (rKind r != 4 || rKind (at_ (i + 1)) = 5) &&
    (!draft || (rKind r != 4 && rKind r != 5)) &&
    (draft || rSteer r = (i + 1 = rs.length || rLayer (at_ (i + 1)) != rLayer r)) && (!draft || !rSteer r) &&
    (!rEsc r || (match (rs.take i).reverse.find? fun q => rOut q = rIn r with
      | some q => rEscw q && rEscBuf q = rEscBuf r
      | none => false))) &&
  ((List.range layers).all fun l =>
    let ks := inLayer l
    !ks.isEmpty && (ks.filter fun r => rKind r = 4).length ≤ 1 &&
    (!(ks.any fun r => rKind r = 3) ||
      ((ks.filter rKvw).length = 1 &&
       (match ks.findIdx? rKvw, ks.findIdx? (fun r => rKind r = 3) with | some a, some b => a < b | _, _ => false))))

/-- Ranges of a weight operand as stored: a compressed tensor's header, index table and leaf data, or a plain tensor's
arrays (R66, R228, R249). -/
def State.weightRanges (s : State) (h : List Byte) (geom : DWord) (r : List Byte) (a : Nat) : List (Nat × Nat) :=
  if Config.compressedAt a then
    let b := s.devRead a 64
    [(a, 64), (leAt b 16 8, 8 * leAt b 40 4), (leAt b 24 8, leAt b 32 8)]
  else
    let shape : Nat × Nat := match rKind r with
      | 1 => (hVocab h, hHidden h)
      | 6 => (1, rN r)
      | 3 => (geoHeads geom * (if a = rWgt r then geoDk geom else geoDv geom), geoLat geom)
      | _ => (rN r, rK r)
    match fmtOf (lpwWgt (rLpw r)) with
    | some f => [(a, shape.1 * (lineSize f shape.2 + scaleSize f shape.2))]
    | none => []

/-- Distinct weight operands of the draft list, each with its ranges (R228). -/
def State.draftWeights (s : State) (h : List Byte) (geom : DWord) (rs : List (List Byte)) : List (Nat × List (Nat × Nat)) :=
  rs.foldl (fun (acc : List (Nat × List (Nat × Nat))) r => (s.recWeights h r).foldl (fun acc a =>
    if acc.any fun p => p.1 = a then acc else acc ++ [(a, s.weightRanges h geom r a)]) acc) []

/-- Draft weights in bytes, each distinct address once (R228). -/
def State.draftBytes (s : State) (h : List Byte) (geom : DWord) (rs : List (List Byte)) : Nat :=
  ((s.draftWeights h geom rs).flatMap Prod.snd).foldl (fun k p => k + p.2) 0

/-- A granule of the caddy or host window holds draft weights of the loaded model, which stay pinned (R228). -/
def State.draftGranule (s : State) (g : Nat) : Bool :=
  match s.model with
  | none => false
  | some m => ((s.draftWeights m.header m.attnGeom m.draftOps).flatMap Prod.snd).any fun p =>
      g * 0x10000 < p.1 + p.2 && p.1 < (g + 1) * 0x10000

/-- Records of a list as device memory holds them. -/
def State.readList (s : State) (h : List Byte) (draft : Bool) : List (List Byte) :=
  let l := hList h draft
  if (s.inWindow l.1 (128 * l.2)).isSome then (List.range l.2).map fun i => s.devRead (l.1 + 128 * i) 128 else []

/-- The EXPERT record of a position is the first of its list. -/
def firstExpert (rs : List (List Byte)) (i : Nat) : Bool := rKind (rs.getD (i - 1) []) != 5

/-- The statuses that a load meets, of FORMAT_FIELD, FORMAT_PAIR, FORMAT_FLOOR and DRAFT_SIZE, and the model. -/
def State.loadCheck (s : State) (prog : Nat) (geom routing : DWord) (floor wire : Word) : List Nat × Model :=
  let h := s.devRead prog 256
  let main := s.readList h false
  let draft := s.readList h true
  let m : Model := { steepProg := prog, attnGeom := geom, routing := routing, floor := floor, wire := wire,
                     header := h, draftOps := draft, mainOps := main }
  let field := geomOk geom && routingOk routing && floorOk floor && wireOk wire routing &&
    s.headerOk h geom main && listOk false (geoLayers geom) main && (draft.isEmpty || listOk true (geoDraft geom) draft) &&
    ((List.range main.length).all fun i => s.recordOk h geom routing false (firstExpert main i) (geoLayers geom - 1) (main.getD i [])) &&
    (draft.all fun r => s.recordOk h geom routing true false 0 r)
  let pair := (main ++ draft).all (recordPair geom)
  let fl := main.all fun r => meetsFloor floor (rLpw r)
  ((if field then [] else [0x0112]) ++ (if pair then [] else [0x0111]) ++ (if fl then [] else [0x0110]) ++
   (if s.draftBytes h geom draft ≤ 8 * 2 ^ 30 then [] else [0x0113]), m)

/-- One of several statuses that apply: which one is reported is left open (notes/assumptions/22.md). -/
def State.anyOf (s : State) (l : List Nat) : Nat × State :=
  match l with
  | [] => (0, s)
  | [a] => (a, s)
  | _ => (l.getD (Config.freeNat s.free % l.length) 0, { s with free := s.free + 1 })

/-! ## The record in use -/

/-- The loaded model's record at an index, read afresh (R82). -/
def State.record_ (s : State) (m : Model) (draft : Bool) (i : Nat) : List Byte :=
  s.devRead ((hList m.header draft).1 + 128 * i) 128

/-- Records of a list as loaded. -/
def Model.ops (m : Model) (draft : Bool) : List (List Byte) := if draft then m.draftOps else m.mainOps

/-- The model has a draft model (R228). -/
def Model.hasDraft (m : Model) : Bool := geoDraft m.attnGeom != 0

/-- KV tensor scale of a layer of a list: the constant that its ATTENTION record names (R141, R157). -/
def State.kvScale (s : State) (m : Model) (draft : Bool) (layer : Nat) : Word :=
  match (List.range (m.ops draft).length).find? fun i => rKind ((m.ops draft).getD i []) = 3 && rLayer ((m.ops draft).getD i []) = layer with
  | some i => s.constant m.header (rCb (s.record_ m draft i))
  | none => 0x3F800000

/-- The loaded model's routing word; 0 with none. -/
def State.routing (s : State) : DWord := match s.model with | some m => m.routing | none => 0

end Sys2Proof.Machine
end

