-- ==== Sys2Proof/Machine/Errors.lean ====
section
/-! DEFINITION. Handling of errors by class: barrier signals, messages, map-outs, channel loss, the
package-fatal stop, and `State.raise`, which every detector calls (spec 11 R286, spec 17 R423, spec 18). -/

namespace Sys2Proof.Machine

/-! ## Signals to the manager -/

/-- Swap a value into the package's arrival slot at the manager (R423, R459). -/
def State.barrierSwap (s : State) (v : Nat) : State :=
  if s.dom.role = .manager then
    let s := if s.dom.firstArrival.isNone && s.steep.running then { s with dom := { s.dom with firstArrival := some s.now } } else s
    s.objSet (0xFE00 + s.dom.node) v
  else
    let p : FabPkt := { blankPkt with
      op := 0x12, dst := s.dom.manager, asub := 1, asize := true, lenM1 := 7
      addr := BitVec.ofNat 64 (s.dom.manager * 2 ^ 56 + 0xFFF * 2 ^ 44 + 8 * s.dom.node), operand := BitVec.ofNat 64 v }
    s.requestLater 0 0 p

/-- Add to the reply object: a local add, or a fabric fetch-add under the domain job (R421, R434). -/
def State.replyTo (s : State) (q : DomReq) (v : Nat) : State :=
  if q.replyNode = s.dom.node then s.objAdd q.replyObj v
  else
    let p : FabPkt := { blankPkt with
      op := 0x12, dst := q.replyNode, asub := 0, asize := true, lenM1 := 7
      addr := BitVec.ofNat 64 (q.replyNode * 2 ^ 56 + 0xFFF * 2 ^ 44 + 8 * (q.replyObj - 0xFE00)), operand := BitVec.ofNat 64 v }
    s.requestLater 0 0 p

/-- A member has taken the adoption record in progress; once every member has, the request is answered (R422). -/
def State.adoptTaken (s : State) (n : Nat) : State :=
  match s.dom.adopting with
  | none => s
  | some (q, ns) =>
    let rest := ns.filter fun k => k != n && k < 256 && s.dom.members.getLsbD k
    if rest.isEmpty then { s with dom := { s.dom with adopting := none } }.replyTo q 1
    else { s with dom := { s.dom with adopting := some (q, rest) } }

/-- Signal a miss for the steep in progress (R459). -/
def State.signalMiss (s : State) : State := s.barrierSwap (2 ^ 63 + s.steep.number.toNat)

/-- A free byte: the specification states no body for the notice (notes/assumptions/19.md). -/
def State.drawByte (s : State) : Byte × State := (BitVec.ofNat 8 (Config.freeNat s.free), { s with free := s.free + 1 })

/-- Destination word of a mailbox of a node in this domain (R414). -/
def destWord (node m : Nat) : DWord := BitVec.ofNat 64 (putBits node 31 24 + putBits m 5 0)

/-- Key of a message sequence: port and destination word (R415). -/
def msgKey (port : Nat) (dest : DWord) : Nat := port * 2 ^ 64 + dest.toNat

/-- The fragments of a message as packets (R415). -/
def fragments (src : Nat) (dest : DWord) (number : Nat) (bytes : List Byte) : List FabPkt :=
  (List.range (ceilDiv bytes.length 4096)).map fun i =>
    let part := (bytes.drop (4096 * i)).take 4096
    { blankPkt with
      op := 0x18, src := src, dst := bits dest.toNat 31 24, dseq := BitVec.ofNat 32 number, lenM1 := part.length - 1
      addr := dest, operand := BitVec.ofNat 64 (putBits (bytes.length - 1) 47 27 + putBits i 26 18), payload := part }

/-- A message on a domain port for the package itself takes the agent's loopback (R377). -/
def State.loopsBack (s : State) (port : Nat) (dest : DWord) : Bool :=
  s.portKind port = 1 && bits dest.toNat 31 24 = s.dom.node && bits dest.toNat 47 32 = 0

/-- Send the fragments of a message on the link of its port (R377, R415). -/
def State.sendFragments (s : State) (port : Nat) (dest : DWord) (number : Nat) (bytes : List Byte) : State :=
  if s.loopsBack port dest then (fragments s.dom.node dest number bytes).foldl (fun s p => s.emit (.fabLocal p)) s
  else match s.messageLink port (bits dest.toNat 31 24) with
  | some l => (fragments s.dom.node dest number bytes).foldl (fun s p => s.fabOn l p) s
  | none => s

/-- Send a message and keep it for its acknowledgement (R415). -/
def State.sendMessage (s : State) (ring : Option Nat) (port : Nat) (dest : DWord) (bytes : List Byte) : State :=
  let number := s.fab.msgNumber.get 1 (msgKey port dest)
  let f := s.fab
  let s := s.setFab { f with
    msgNumber := f.msgNumber.set (msgKey port dest) (number + 1)
    msgOut := f.msgOut ++ [{ ring := ring, port := port, dest := dest, number := number, bytes := bytes, sentAt := s.now }] }
  s.sendFragments port dest number bytes

/-- Send a message of the package's own to a mailbox of a member: to itself by a post, to another over the
domain port that reaches it (R424). -/
def State.sendOwn (s : State) (node m : Nat) (bytes : List Byte) : State :=
  if node = s.dom.node then (s.post m bytes node 0 0).getD s
  else s.sendMessage none ((s.domainPort node).getD 0) (destWord node m) bytes

/-- Post a leave notice to mailbox 61 of the manager (R309, R458). -/
def State.leave (s : State) : State :=
  let (b, s) := s.drawByte
  s.sendOwn s.dom.manager 61 [b]

/-- Stop the flit stream of every link (R458, R495). -/
def State.stopLinks (s : State) : State :=
  { s with links := s.links.map fun p =>
      (p.1, { p.2 with train := .off, queue := [], replay := [], downs := if p.2.isUp then p.2.downs + 1 else p.2.downs }) }

/-! ## Sequences that fail a steep -/

/-- Sequences fail the steep: nothing of theirs is staged, an event record each (R20, R336, R442). -/
def State.failSeqs (s : State) (qs : List Nat) (status : Nat) : State :=
  let st := s.steep
  let s := { s with steep := { st with
    failed := qs.foldl addNew st.failed
    staged := st.staged.filter fun g => !qs.contains g.seq } }
  s.events qs status

/-! ## Cores and tiles -/

/-- A core position is mapped out (R107). -/
def State.coreLost (s : State) (die core : Nat) : Bool := (s.comp.coreLost.get 0 die).getLsbD core
/-- A tile is mapped out, alone or with its core (R107). -/
def State.tileLost (s : State) (die pos : Nat) : Bool :=
  (s.comp.tileLost.get 0 die).getLsbD pos || s.coreLost die (pos / 2)
/-- Cores available on a die (R15, R451). -/
def State.coresOf (s : State) (die : Nat) : List Nat := (List.range 64).filter fun c => !s.coreLost die c
/-- Key of a tile. -/
def tileKey (die pos : Nat) : Nat := die * 128 + pos
/-- A tile as it stands. -/
def State.tile (s : State) (die pos : Nat) : Tile := s.comp.tiles.get {} (tileKey die pos)
/-- Replace a tile. -/
def State.setTile (s : State) (die pos : Nat) (t : Tile) : State :=
  { s with comp := { s.comp with tiles := s.comp.tiles.set (tileKey die pos) t } }
/-- Core numbers: positions available, ascending (R15). -/
def State.coreNumber (s : State) (die pos : Nat) : Option Nat := (s.coresOf die).findIdx? (· = pos)

/-- Queue a tile's work items of the steep again, for the error of the given INDEX (R57, R449). -/
def State.reissueTile (s : State) (die pos : Nat) (index : Word) : State :=
  let t := s.tile die pos
  let ws := t.items ++ t.hold.toList.map Prod.fst
  if ws.isEmpty then s else
  let s := s.setTile die pos { t with items := [], hold := none, acc := [], active := none, shadow := none, forErr := none }
  let s := { s with comp := { s.comp with reissue := s.comp.reissue ++ ws.map fun w => (die, w, index) } }
  s.setErr { s.err with handling := updateIf s.err.handling (fun h => h.index = index) fun h => { h with items := h.items + ws.length } }

/-- Map a tile out: its item goes elsewhere (R107, R450). -/
def State.mapOutTile (s : State) (die pos : Nat) (index : Word) : State :=
  let s := s.reissueTile die pos index
  { s with comp := { s.comp with tileLost := s.comp.tileLost.set die (s.comp.tileLost.get 0 die ||| (1 : BitVec 128) <<< pos) } }

/-- Map a core out: the items of both tiles go elsewhere; later steeps number the cores anew (R15, R451). -/
def State.mapOutCore (s : State) (die core : Nat) (index : Word) : State :=
  let s := (s.reissueTile die (2 * core) index).reissueTile die (2 * core + 1) index
  { s with comp := { s.comp with coreLost := s.comp.coreLost.set die (s.comp.coreLost.get 0 die ||| (1 : BitVec 64) <<< core) } }

/-! ## Channel loss -/

/-- Survivors of a set in ascending number, from after the lost channel and wrapping (R286). -/
def State.survivors (s : State) (set : List Nat) (ch : Nat) : List Nat :=
  let u := set.filter fun c => c != ch && s.chUsable c
  (u.filter fun c => ch < c) ++ u.filter fun c => c < ch

/-- Pieces of 64 KiB that a round-robin of `pieces` over a list puts on a channel (R286). -/
def rrPieces (pieces : Nat) (dest : List Nat) (c : Nat) : Nat :=
  match dest.findIdx? (· = c) with
  | some i => pieces / dest.length + if i < pieces % dest.length then 1 else 0
  | none => 0

/-- Pieces already redirected into a channel's spare slice (R286). -/
def State.spareUsed (s : State) (c : Nat) : Nat :=
  s.mem.redirects.foldl (fun k r =>
    k + rrPieces (s.mem.sliceShared * 32) r.sharedTo c + rrPieces (s.mem.sliceLocal * 32) r.localTo c) 0

/-- The redirect of a channel's slices. -/
def State.redirectOf (s : State) (ch : Nat) : Redirect :=
  { channel := ch, sharedTo := s.survivors s.sharedChans ch, localTo := s.survivors (s.localChans (ch / 32)) ch }

/-- Every survivor's spare slice holds what the redirect gives it (R287). -/
def State.redirectFits (s : State) (r : Redirect) : Bool :=
  let t := { s with mem := { s.mem with redirects := s.mem.redirects ++ [r] } }
  (!r.sharedTo.isEmpty || s.mem.sliceShared = 0) && (!r.localTo.isEmpty || s.mem.sliceLocal = 0) &&
  (r.sharedTo ++ r.localTo).all fun c => t.spareUsed c ≤ s.mem.sliceSpare * 32

/-- The class whose set holds a channel. -/
def State.classOf (s : State) (ch : Nat) : Option Nat :=
  (List.range 16).find? fun c => (s.mem.classCh.get 0 c).getLsbD ch

/-- A class is usable: a channel, and a way on every compute die (R225). -/
def State.classUsable (s : State) (c : Nat) : Bool :=
  s.mem.classCh.get 0 c != 0 &&
  (List.range 4).all fun d => bits (s.mem.classWays.get 0 c).toNat (16 * d + 15) (16 * d) != 0

/-- Frames and list blocks that end beyond the class region leave the pool (R286). -/
def State.withdrawFrames (s : State) (c : Nat) : State :=
  let p := s.eng.kv.get {} c
  let top := (Window.cls c).base + s.classSize c
  let ps := match s.model with | some m => geoPS m.attnGeom | none => 0
  let fits := fun (base size n : Nat) => if size = 0 then n else min n ((top - base) / size)
  let p' := { p with frames := fits p.frameBase.toNat ps p.frames, blocks := fits p.listBase.toNat 256 p.blocks }
  if p = {} then s else { s with eng := { s.eng with kv := s.eng.kv.set c p' } }

/-- A class drops a lost channel: set, hashing and size change, contents undefined until written (R286). -/
def State.classRehash (s : State) (c ch : Nat) : State :=
  let b := (Window.cls c).base
  let m := s.mem
  State.withdrawFrames (c := c) { s with mem := { m with
      classCh := m.classCh.set c (m.classCh.get 0 c &&& ~~~((1 : W512) <<< ch))
      classDrop := m.classDrop.filter (· != (c, ch))
      hbm := Memory.clearIf m.hbm fun a => b ≤ a && a < b + 0x010000000000
      badBursts := m.badBursts.filter fun k => !(b ≤ k * 64 && k * 64 < b + 0x010000000000)
      dieStore := m.dieStore.filter fun p => !(b ≤ p.2 * 128 && p.2 * 128 < b + 0x010000000000) } }

/-- Classes drop the channels that wait for a release (R25 step 1, R286). -/
def State.rehashAll (s : State) : State := s.mem.classDrop.foldl (fun s p => s.classRehash p.1 p.2) s

/-- A range of the shared or stack-local regions has bytes on a channel: a range of 256 bytes for each
channel of the set has bytes on all of them (R269). -/
def State.onChannel (s : State) (a n ch : Nat) : Bool :=
  match s.inWindow a 1 with
  | some (.shared, _) => ((List.range (min (n / 256 + 2) 1024)).any fun i => (s.place (min (a + 256 * i) (a + n - 1))).map Prod.fst = some ch)
  | some (.local_ _, _) => ((List.range (min (n / 256 + 2) 1024)).any fun i => (s.place (min (a + 256 * i) (a + n - 1))).map Prod.fst = some ch)
  | _ => false

/-- What the loss of a channel does to memory: redirect, bytes lost, every granule not resident, the sequence-table
copy on its stack lost, class (R286, R453). -/
def State.dropChannel (s : State) (ch : Nat) : State :=
  let r := s.redirectOf ch
  let lostByte := fun a => a < 0x100000000000 && (s.place a).map Prod.fst = some ch
  let m := s.mem
  let t := { s with mem := { m with
    lostSince := m.lostSince ||| (1 : W512) <<< ch
    redirects := m.redirects ++ [r]
    rebuild := true
    granules := m.granules.filter (·.filling)
    hbm := Memory.clearIf m.hbm lostByte
    badBursts := m.badBursts.filter fun k => !lostByte (k * 64)
    badReads := m.badReads.filter fun b => b.1 != ch } }
  let t := { t with eng := { t.eng with
    copy0 := t.eng.copy0 && ch / 32 != m.copy0
    copy1 := t.eng.copy1 && ch / 32 != m.copy1 } }
  match s.classOf ch with
  | some c => if s.steep.running then { t with mem := { t.mem with classDrop := t.mem.classDrop ++ [(c, ch)] } } else t.classRehash c ch
  | none => t

/-- Sequences that the loss of a channel takes: of its class with a page, and those whose mask object lies
in the shared or stack-local regions (R452, R454). -/
def State.lostSeqs (s : State) (cls : Option Nat) : List Nat :=
  (s.eng.seqs.filter fun p =>
    p.2.state != .free && p.2.state != .lost &&
    ((some p.2.cls = cls && !p.2.frames.isEmpty) ||
     (p.2.maskAddr != 0 && p.2.maskAddr.toNat < 0x100000000000))).map Prod.fst

/-- The long prefill of a sequence ends with a status, which its handle's final record carries (R209, R339, R341;
notes/assumptions/124.md). -/
def State.endPrefill (s : State) (q status : Nat) : State :=
  let h := (s.seq q).opHandle.toNat
  if h = 0 then s
  else (s.endOp h status 0x0605 false).onSeq q fun r => { r with opHandle := 0, suspended := false }

/-- Sequences become LOST, an event record each; a long prefill among them ends (R203, R209, R452). -/
def State.loseSeqs (s : State) (qs : List Nat) : State :=
  let s := qs.foldl (fun s q => (s.endPrefill q 0x0502).onSeq q fun r => { r with state := .lost, paused := false, held := false, suspended := false }) s
  let st := s.steep
  let s := { s with steep := { st with
    failed := qs.foldl addNew st.failed
    staged := st.staged.filter fun g => !qs.contains g.seq } }
  s.events qs 0x0502

/-- A channel of stack 1 clears the synchronisation area and ends every wait; the manager repeats the
steep in progress (R435). -/
def State.syncLoss (s : State) : State :=
  let s := s.syncClear
  let s := (s.waiting.filter fun w => w.what.object.isSome).foldl (fun s w => s.endWait w 0x0425) s
  if s.dom.role = .manager then { s with dom := { s.dom with missed := addNew s.dom.missed s.dom.node } } else s

/-- Read-only structures that a record names beside its weights: scales and biases, vector steps, rotations (R35, R36, R265). -/
def recordRanges (r : List Byte) (experts : Nat) : List (Nat × Nat) :=
  (if rScale r = 2 then [(rSb r, 4 * rN r)] else []) ++ (if rBias r then [(rSb r + 4 * rN r, 4 * rN r)] else []) ++
  [(rVlist r, 16 * rVsteps r), (rRotTable r, 4 * (rRotLen r / 2)), (rBias2 r, 4 * experts)]

/-- Ranges of the read-only structures of a loaded model: header, operation lists, constants, local expert table, and of each
record its weights with headers and index tables (R34, R172, R265). -/
def State.modelRanges (s : State) (m : Model) : List (Nat × Nat) :=
  let h := m.header
  [(m.steepProg, 256), (leAt h 24 8, 128 * leAt h 16 4), (leAt h 32 8, 128 * leAt h 20 4),
   (leAt h 96 8, 4 * hConsts h), (hLocal h, 32 * hLocals h)] ++
  (m.draftOps ++ m.mainOps).flatMap fun r =>
    recordRanges r (rtExperts m.routing) ++ (s.recWeights h r).flatMap (s.weightRanges h m.attnGeom r)

/-- A read-only model structure in the shared or stack-local regions has bytes on a channel (R454). -/
def State.modelOn (s : State) (ch : Nat) : Bool :=
  match s.model with
  | none => false
  | some m => (s.modelRanges m).any fun r => r.1 != 0 && 0 < r.2 && s.onChannel r.1 r.2 ch

/-! ## Links -/

/-- The packets of a link that is lost, those acknowledged left out (R375). -/
def Link.unsent (k : Link) : List SentPkt := (k.replay ++ k.queue).filterMap (·.pkt)

/-! ## The package-fatal stop and the handling of every error -/

/-- The package-fatal stop up to its record (R458 steps 1 to 4). -/
def State.stopPackage (s : State) : State :=
  let s := if s.steep.running then s.signalMiss else s
  let s := if s.dom.manager = 0xFF then s else s.leave
  let s := s.stopLinks
  s.setErr { s.err with fatal := true }

/-- The package-fatal stop: the record, one LOST_KV event for each sequence not FREE, and silence (R458). -/
def State.fatal (s : State) (e : ErrIn) : State :=
  let s := if s.err.fatal then s else s.stopPackage
  let s := s.note e
  let s := s.events ((s.eng.seqs.filter fun p => p.2.state != .free).map Prod.fst) 0x0502
  s.setErr { s.err with silent := true }

/-- Lose a channel: the record with what it took, the redirect and the miss; package-fatal where R287 or
R454 say so. -/
def State.loseChannel (s : State) (e : ErrIn) : State :=
  let ch := e.pos
  let cls := s.classOf ch
  let left := match cls with
    | some c => s.classUsable c && (s.classChans c).filter (fun k => k != ch && !s.mem.classDrop.contains (c, k)) = []
    | none => false
  if !s.redirectFits (s.redirectOf ch) || left then
    State.fatal { s with mem := { s.mem with lostSince := s.mem.lostSince ||| (1 : W512) <<< ch } } { e with status := 0x0424, cls := 3 }
  else if s.modelOn ch then (s.dropChannel ch).fatal { e with cls := 3 }
  else
    let qs := s.lostSeqs cls
    let s := s.note { e with detail := qs.length + putBits (match cls with | some c => c | none => 0xF) 35 32, seqs := qs }
    let s := (s.dropChannel ch).loseSeqs qs
    let s := if ch / 32 = 1 then s.syncLoss else s
    if s.steep.running && (s.dom.state = .service || s.dom.state = .test) then s.signalMiss else s

/-- Mark a caddy segment lost; an idle bank that holds it is not built, by an ERASED record (R311). -/
def State.loseSegment (s : State) (die seg : Nat) : State :=
  let c := s.caddy
  let s := s.setCaddy { c with lostSegs := if c.lostSegs.contains (die, seg) then c.lostSegs else c.lostSegs ++ [(die, seg)] }
  match bankOfSeg seg with
  | none => s
  | some b =>
    if b = c.active then s
    else
      let s := s.jnl 5 b 0 0 0 0
      s.setCaddy (s.caddy.setBank b { s.caddy.bank b with built := false })

/-- An error whose reissued work items have all completed leaves handling (heading "Nesting and escalation"). -/
def State.settleItems (s : State) : State :=
  s.setErr { s.err with handling := s.err.handling.filter fun h => !(h.until_ = .item && h.items = 0) }

/-- The primary engine is lost: the mirror goes on, staged outputs and the steep of its sequences fail; the
loss of the mirror leaves the primary alone (R198). -/
def State.failover (s : State) (e : ErrIn) (primaryLost : Bool) : State :=
  let s := s.note { e with detail := b2n primaryLost }
  if primaryLost then
    let qs := s.steep.batch.map BatchItem.seq
    let s := { s with eng := { s.eng with primary := false } }
    if s.steep.running then s.failSeqs qs 0x0F05 else s
  else { s with eng := { s.eng with mirror := false } }

/-- Cores that one attention group needs: heads over heads per core, the most of any operation (R162). -/
def State.groupCores (s : State) : Nat :=
  match s.model with
  | none => 1
  | some m => ((m.draftOps ++ m.mainOps).filter fun o => leAt o 3 1 = 3).foldl
      (fun g o => max g (ceilDiv (geoHeads m.attnGeom) (bits (leAt o 8 4) 28 27 + 1))) 1

/-- No compute die can form an attention group (R451). -/
def State.noGroup (s : State) : Bool := (List.range 4).all fun d => (s.coresOf d).length < s.groupCores

/-- Handle a unit-lost error: record it and map the unit out (R442, R450 to R455). -/
def State.unitLost (s : State) (e : ErrIn) : State :=
  let index := s.err.total
  match e.unit with
  | 1 =>
    let s := ((s.note e).mapOutTile e.die e.pos index).settleItems
    let core := e.pos / 2
    if (s.comp.tileLost.get 0 e.die).getLsbD (2 * core) && (s.comp.tileLost.get 0 e.die).getLsbD (2 * core + 1) &&
       !s.coreLost e.die core then
      if (s.coresOf e.die).length = 1 then s.fatal { status := 0x0F06, cls := 3, unit := 2, die := e.die, pos := core }
      else
        let index := s.err.total
        (s.note { status := 0x0F06, cls := 2, unit := 2, die := e.die, pos := core, until_ := .item }).mapOutCore e.die core index |>.settleItems
    else s
  | 2 =>
    if (s.coresOf e.die).length = 1 && !s.coreLost e.die e.pos then s.fatal { e with cls := 3 }
    else
      let s := ((s.note e).mapOutCore e.die e.pos index).settleItems
      if s.noGroup then s.fatal { status := 0x0F06, cls := 3, unit := 2, die := e.die, pos := e.pos } else s
  | 3 => s.loseChannel e
  | 4 =>
    let k := s.link e.pos
    let s := (s.note { e with detail := k.peerNode + 256 * k.peerLink }).setLink e.pos { k with train := .mappedOut, queue := [], replay := [] }
    s
  | 5 => (s.note { e with detail := b2n (1537 ≤ e.pos) + 2 * b2n ((if e.pos < 1537 then 0 else 1) = s.caddy.active) }).loseSegment e.die e.pos
  | 6 => if s.eng.primary && s.eng.mirror then s.failover e (e.die = 0) else s.fatal { e with cls := 3 }
  | 7 =>
    let s := s.note e
    { s with hif := { s.hif with mgmtRun := false }, start := { s.start with mgmtReset := true, mgmtHeld := true } }
  | _ => s.fatal { e with cls := 3 }

/-- Status of the loss of a unit that escalation maps out (R446, table "Units in error records"). -/
def lossStatus (unit : Nat) (status : Nat) : Nat :=
  match unit with
  | 1 => 0x0F07
  | 2 => 0x0F06
  | 3 => 0x0425
  | 4 => 0x0310
  | 5 => 0x0435
  | 6 => 0x0F05
  | 7 => 0x0F02
  | _ => status

/-- Detect an error: judge it, record it, handle it as its class says (R442 to R447). A sequence named by a
contained error fails the steep. -/
def State.raise (s : State) (e : ErrIn) : State :=
  if s.err.silent then s else
  let j := s.judge e
  match j.cls with
  | 0 => s.note e
  | 1 => (s.note e).failSeqs e.seqs e.status
  | 2 => s.unitLost (if e.cls = 2 then e else { e with
      status := lossStatus e.unit e.status
      until_ := if e.unit = 1 || e.unit = 2 then .item else if e.unit = 3 then .channel else .atOnce })
  | _ => s.fatal e

end Sys2Proof.Machine
end

