-- ==== Sys2Proof/Machine/Guards.lean ====
section
/-! DEFINITION. When the package acts on a command: power, reset, lock, management processor; refusals of
register writes. A command that meets a state in which it cannot act changes nothing (notes/assumptions/6.md). -/

namespace Sys2Proof.Machine

/-- The rails are up and no reset lasts (R509, R516, R517). -/
def State.powered (s : State) : Bool := s.start.vaon && s.start.firstStage && s.start.pkgPg && !s.start.inReset
/-- The package works: powered, not stopped (R458), not locked or erased (R496). -/
def State.live (s : State) : Bool := s.powered && !s.err.fatal && !s.sec.locked
/-- Host software reaches the BARs: powered and the PCI Express controller out of reset (R519). -/
def State.hostUp (s : State) : Bool := s.powered && !s.start.perst
/-- The management processor serves (R33, R457). -/
def State.mgmtUp (s : State) : Bool := s.live && s.hif.mgmtRun && !s.start.mgmtReset && !s.start.mgmtHeld
/-- The package reads rings and starts steep work: live and not quiesced (R309). -/
def State.serving (s : State) : Bool := s.live && !s.start.quiesced

/-- Start-up holds at the tray gate: no link trains and no ring is enabled (R515). -/
def State.trayHeld (s : State) : Bool := s.start.trayPin && !s.start.gatePassed
/-- Start-up passes the tray gate once the caddy is open and the tray-latch warning is deasserted (R515). -/
def State.passGate (s : State) : State :=
  { s with start := { s.start with gatePassed := s.start.gatePassed || (s.hif.mgmtRun && s.caddy.opened && !s.start.trayPin) } }

/-- A meaning that changes the state where a condition holds and leaves it unchanged elsewhere. -/
def act (c : Bool) (s : State) (f : State → State) : Host.Outcome State Fault Refusal :=
  .next (if c then f s else s)

/-- No steeps run: no domain, or BRINGUP or RECOVERY (R26, R418). -/
def State.noSteeps (s : State) : Bool := !s.disc.inDomain || s.dom.state = .bringup || s.dom.state = .recovery
/-- In no domain, or its domain in BRINGUP or TEST (R352, R359). -/
def State.setUpState (s : State) : Bool := !s.disc.inDomain || s.dom.state = .bringup || s.dom.state = .test

/-- Record a refused register write (R346). -/
def State.refuseWrite (s : State) (reason off : Nat) : State :=
  { s with hif := { s.hif with refReason := reason, refOffset := off, refCnt := s.hif.refCnt + 1 } }

/-- MGMT or LOCKED, the reasons that come before any of a register's own (R346, R347, R362). -/
def State.blocked (s : State) : Option Nat :=
  if s.start.mgmtReset || s.start.mgmtHeld then some 5 else if s.sec.locked then some 4 else none

/-- A register write: refused with the first reason of MGMT, LOCKED, STATE, BUSY, RANGE, else applied (R346). -/
def State.regWrite (s : State) (off : Nat) (state busy range : Bool) (f : State → State) : State :=
  match s.blocked with
  | some r => s.refuseWrite r off
  | none =>
    if state then s.refuseWrite 2 off else if busy then s.refuseWrite 3 off
    else if range then s.refuseWrite 1 off else f s

end Sys2Proof.Machine
end

