-- ==== Sys2Proof/Machine/Cut.lean ====
section
/-! DEFINITION. The cut (R26): host requests that wait for it take effect; closed sequences free (R149, R199). -/

namespace Sys2Proof.Machine

/-- A tenant entry as it stands. -/
def State.tenant (s : State) (t : Nat) : Tenant := s.eng.tenants.get {} t
/-- Replace a tenant entry. -/
def State.setTenant (s : State) (t : Nat) (e : Tenant) : State := { s with eng := { s.eng with tenants := s.eng.tenants.set t e } }

/-- Take a waiting descriptor out. -/
def State.unwait (s : State) (w : Waiting) : State := { s with waiting := s.waiting.erase w }

/-- TENANT_SET takes effect (R220). -/
def State.effectTenantSet (s : State) (w : Waiting) : State :=
  let t := dTenant w.desc
  let e := s.tenant t
  let dir : DWord := BitVec.ofNat 64 (dField w.desc 16 8)
  if !s.classUsable (dClass w.desc) then s.finish w.ring w.desc 0x0559 []
  else if !e.valid then
    (s.setTenant t { valid := true, cls := dClass w.desc, steerDir := dir }).finish w.ring w.desc 0 []
  else if e.cls != dClass w.desc && e.openSeqs != 0 then s.finish w.ring w.desc 0x0556 []
  else
    let e' := { e with cls := dClass w.desc, steerDir := dir, steerVer := if dir = e.steerDir then e.steerVer else e.steerVer + 1 }
    (s.setTenant t e').finish w.ring w.desc 0 []

/-- TENANT_REMOVE takes effect (R31, R220). -/
def State.effectTenantRemove (s : State) (w : Waiting) : State :=
  let t := dTenant w.desc
  let e := s.tenant t
  if !e.valid then s.finish w.ring w.desc 0x0557 []
  else if e.openSeqs != 0 then s.finish w.ring w.desc 0x0556 []
  else { s with eng := { s.eng with tenants := s.eng.tenants.erase t } }.finish w.ring w.desc 0 [(16, 8, e.jobs.toNat)]

/-- STEER_SET takes effect (R223). -/
def State.effectSteerSet (s : State) (w : Waiting) : State :=
  let t := dTenant w.desc
  let e := s.tenant t
  if !e.valid then s.finish w.ring w.desc 0x0557 []
  else
    let e' := { e with steerDir := BitVec.ofNat 64 (dField w.desc 16 8), steerVer := e.steerVer + 1 }
    (s.setTenant t e').finish w.ring w.desc 0 [(8, 4, e'.steerVer.toNat)]

/-- SEQ_SET takes effect: the fields its mask names (R203, R330). -/
def State.effectSeqSet (s : State) (w : Waiting) : State :=
  let d := w.desc
  let q := dField d 28 4 % 2 ^ 20
  let m := bits (dField d 28 4) 27 24
  let r := s.seq q
  if r.state = .free then s.finish w.ring d 0x0553 []
  else
    let r := if bit m 0 then { r with priority := bits (dField d 8 4) 17 16 } else r
    let r := if bit m 1 then { r with goal := dField d 8 2 } else r
    let r := if bit m 2 then { r with stop0 := BitVec.ofNat 32 (dField d 20 4), stop1 := BitVec.ofNat 32 (dField d 24 4) } else r
    let r := if bit m 3 then
        { r with temp := BitVec.ofNat 32 (dField d 16 4), topk := dField d 14 2, sampleSeed := BitVec.ofNat 64 (dField d 40 8) }
      else r
    (s.setSeq q r).finish w.ring d 0 []

/-- A waiting request takes effect at the cut (R26). -/
def State.effect (s : State) (w : Waiting) : State :=
  let s := s.unwait w
  match dOpcode w.desc with
  | 0x08 => s.effectTenantSet w
  | 0x09 => s.effectTenantRemove w
  | 0x0B => s.effectSteerSet w
  | 0x12 => s.effectSeqSet w
  | _ => s.finish w.ring w.desc 0 []

/-- A backlogged record is a token or event record of a sequence (R335, R336). -/
def recordOf (q : Nat) (r : W256) : Bool := bit (fieldAt r.toNat 4 4) 29 && bits (fieldAt r.toNat 12 4) 19 0 = q

/-- The sequence whose records a close waits for, and its committed length. -/
def WaitFor.closed : WaitFor → Option (Nat × Nat)
  | .records q n => some (q, n)
  | _ => none

/-- The final record of a close or cancel (R205, R333). -/
def State.endClose (s : State) (n : Nat) (d : W512) (q committed : Nat) : State :=
  s.finish n d (if dOpcode d = 0x14 then 0x0555 else 0) [(8, 4, q), (12, 4, committed)]

/-- Closes whose sequence has no record left in the backlog of its ring complete (R336). -/
def State.settleCloses (s : State) : State :=
  s.waiting.foldl (fun s w =>
    match w.what.closed with
    | some (q, n) => if (s.ring w.ring).backlog.any (recordOf q) then s else { s with waiting := s.waiting.erase w }.endClose w.ring w.desc q n
    | none => s) s

/-- The cut: waiting requests take effect in acceptance order, and limits as written come into force (R26, R211). -/
def State.cut (s : State) : State :=
  let s := { s with serve := { s.serve with inForce := s.serve.written } }
  ((s.waiting.filter fun w => w.what = .cut).foldl (fun s w => s.effect w) s).settleCloses

/-- A request that waits for a cut, or takes effect at once where no steeps run (R26). -/
def State.atCut (s : State) (n : Nat) (d : W512) : State :=
  let w : Waiting := { ring := n, desc := d, what := .cut }
  let s := { s with waiting := s.waiting ++ [w] }
  if s.noSteeps then s.effect w else s

/-- Opcodes that take effect for the next steep where they were accepted before its cut, closes and cancels among them
(R26, R27). -/
def stepOps : List Nat := [0x08, 0x09, 0x0B, 0x10, 0x11, 0x12, 0x13, 0x14]

/-- The sequence engine has acted on every request accepted so far that the cut serves; a release waits for their rows (R26,
R27, notes/assumptions/15.md). -/
def State.requestsIn (s : State) : Bool := !s.accepted.any fun a => stepOps.contains (dOpcode a.desc)

/-- A close or cancel of a sequence is accepted whose row has not run (R27). -/
def State.closeIn (s : State) (q : Nat) : Bool :=
  s.accepted.any fun a => (dOpcode a.desc = 0x13 || dOpcode a.desc = 0x14) && dField a.desc 8 4 % 2 ^ 20 = q

/-- A record enters the cache, or is used again; the least recent record in no batch, paused and held ones left out, leaves
(R197). -/
def State.cacheTouch (s : State) (q : Nat) : State :=
  let c := s.eng.cache.filter (· != q)
  let c := if c.length < 65536 then c else
    match c.find? fun p => !(s.steep.batch.any fun b => b.seq = p) && !(s.seq p).paused && !(s.seq p).held with
    | some p => c.erase p
    | none => c
  { s with eng := { s.eng with cache := c ++ [q] } }

/-- Address of a record in the copy on a stack (R196). -/
def seqAddr (stack q : Nat) : Nat := (Window.local_ stack).base + 128 * q

/-- The engine reads a record from the table: where one copy cannot be read, the other serves and a corrected error is
logged (R195); `bad` says that the read failed. -/
def State.readRecord (s : State) (q : Nat) (bad : Bool) : State :=
  if s.eng.cache.contains q then s
  else if bad || !s.eng.copy0 || !s.eng.copy1 || !s.readable (seqAddr s.mem.copy0 q) 128 || !s.readable (seqAddr s.mem.copy1 q) 128
  then s.raise { status := 0x0426, cls := 0, unit := 6 }
  else s

/-- Free one closed or cancelled sequence: record, frames and blocks return (R149, R199). -/
def State.freeSeq (s : State) (q : Nat) : State :=
  let r := s.seq q
  let t := s.tenant r.tenant
  let s := if t.valid then s.setTenant r.tenant { t with openSeqs := t.openSeqs - 1 } else s
  let zero := fun (s : State) stack => s.devWrite ((Window.local_ stack).base + 128 * q) (List.replicate 128 0)
  let s := zero (zero s s.mem.copy0) s.mem.copy1
  { s with eng := { s.eng with seqs := s.eng.seqs.erase q, cache := s.eng.cache.filter (· != q) } }

/-- Free every sequence whose close or cancel was accepted, and the pages of sequences whose KV was lost and
that have begun again (R149, R203). -/
def State.freeClosed (s : State) : State :=
  let s := ((s.eng.seqs.filter fun p => p.2.closing).map Prod.fst).foldl (fun s q => s.freeSeq q) s
  { s with eng := { s.eng with seqs := s.eng.seqs.mapVals fun _ r =>
      if r.freePages then { r with frames := [], blocks := [], dirBlock := 0xFFFFFFFF, freePages := false } else r } }

/-- Errors whose handling ends with the steep (heading "Nesting and escalation"); `items` ends those of
reissued work that a REPEAT abandons. -/
def State.endHandling (s : State) (items : Bool) : State :=
  s.setErr { s.err with handling := s.err.handling.filter fun h => !(h.until_ = .steep || (items && h.until_ = .item)) }

/-- Drop the staged outputs and the work of the steep in progress, whose number is retired (R23). -/
def State.abandon (s : State) : State :=
  let s := s.endHandling true
  { s with
    steep := { s.steep with
      running := false, batch := [], staged := [], failed := [], ended := [], stopped := none, flagged := [], escalated := [], drafts := []
      draftPasses := 0, issued := [], kvStaged := [], norms := [], routes := [], staged8 := false, signalled := false }
    rte := { s.rte with lines := [], dispEnds := [], dispSent := [], pourSent := [], shaped := [], choices := [], pourEnds := [], combined := [], layersDone := [] }
    comp := { s.comp with reissue := [], tiles := s.comp.tiles.mapVals fun _ t => { t with items := [], hold := none, acc := [], active := none, shadow := none, forErr := none, parked := false } } }

/-- Steeps stop: the steep in progress is abandoned, closed sequences free, lost channels leave their sets,
one last cut is taken (R26, R149, R286, R419, R430). -/
def State.leaveSteeps (s : State) : State :=
  let s := if s.steep.running then s.abandon else s
  let s := { s with rte := { s.rte with held := [] } }
  (s.rehashAll.freeClosed).cut

/-- An arm ends without a switch: the package stays on its bank, frees what it prefilled and forgets the revision;
the arm request completes with a status (R279, R305, R307). -/
def State.endArm (s : State) (status : Nat) (res : List (Nat × Nat × Nat)) : State :=
  let armedRev := match s.caddy.armed with | some _ => some s.caddy.armedRev | none => none
  let s := { s with
    rte := { s.rte with next := s.rte.next.filter fun t => some t.rev != armedRev }
    caddy := { s.caddy with armed := none }
    mem := { s.mem with granules := s.mem.granules.filter fun g => !g.prefill }
    dom := { s.dom with arm := none } }
  (s.waiting.filter fun w => w.what = .arm).foldl (fun s w => (s.unwait w).finish w.ring w.desc status res) s

/-- An armed swap is aborted: the arm request completes with SWAP_ABORTED (R307). -/
def State.abortSwap (s : State) : State := s.endArm 0x0434 []

end Sys2Proof.Machine
end

