-- ==== Sys2Proof/Machine/Fabric.lean ====
section
/-! DEFINITION. Memory-semantic fabric operations: engines, receivers, retry, fences, invalidation,
ownership and messages (spec 16). -/

namespace Sys2Proof.Machine

/-! ## Addresses, members, the remote read cache -/

/-- NODE of a fabric address (R392). -/
def faNode (a : DWord) : Nat := bits a.toNat 63 56
/-- JOB of a fabric address (R392). -/
def faJob (a : DWord) : Nat := bits a.toNat 55 44
/-- OFFSET of a fabric address (R392). -/
def faOffset (a : DWord) : Nat := bits a.toNat 43 0
/-- A node is a member of the current membership (R390). -/
def State.isMember (s : State) (n : Nat) : Bool := n < 256 && s.dom.members.getLsbD n
/-- Code of an atomic operation (R394). -/
def asubOf : AtomicOp → Nat
  | .fetchAdd => 0 | .swap => 1 | .cas => 2 | .min => 3 | .max => 4
/-- Atomic operation of a code (R394). -/
def opOfAsub : Nat → Option AtomicOp
  | 0 => some .fetchAdd | 1 => some .swap | 2 => some .cas | 3 => some .min | 4 => some .max | _ => none

/-- Line addresses that a range covers, 128 bytes each (R406). -/
def linesOf (a : DWord) (n : Nat) : List Nat :=
  (List.range ((a.toNat % 128 + n + 127) / 128)).map fun i => a.toNat / 128 + i

/-- Drop the lines of a range from the remote read caches (R407). -/
def Fabric.dropRange (f : Fabric) (a : DWord) (n : Nat) : Fabric :=
  { f with cache := f.cache.filter fun c => !(linesOf a n).contains (c.2.1.toNat / 128) }

/-- A held line's bytes (R406). -/
def Fabric.line (f : Fabric) (k : Nat) : Option (List Byte) :=
  (f.cache.find? fun c => c.2.1.toNat / 128 = k).map fun c => c.2.2

/-- Install a line on the I/O die that may hold it: 131,072 sets of 16 ways, least recently used leaves (R406). -/
def State.install (s : State) (k : Nat) (bytes : List Byte) : State :=
  let die := k % s.part.ioDies
  let f := s.fab
  let rest := f.cache.filter fun c => c.2.1.toNat / 128 != k
  let same := fun c : Nat × DWord × List Byte => c.1 = die && c.2.1.toNat / 128 % 131072 = k % 131072
  let rest := if (rest.filter same).length < 16 then rest else
    match rest.find? same with
    | some v => rest.erase v
    | none => rest
  s.setFab { f with cache := rest ++ [(die, BitVec.ofNat 64 (k * 128), bytes)] }

/-! ## Completion of requests -/

/-- Complete an operation that was never sent (R390, R396, R404). -/
def State.refuseFab (s : State) (die engine compl status : Nat) (nodes : Option (List Nat)) : State :=
  s.complete die engine compl status false false 0 0 nodes

/-- An unacknowledged write of the package to a node numbered no later than `d` (R412). -/
def State.openUpTo (s : State) (die node : Nat) (d : Word) : Bool :=
  s.fab.reqs.any fun r => r.numbered && r.pkt.srcDie = die && r.pkt.dst = node && !older d r.pkt.dseq

/-- Destinations a fence still waits for (R412). -/
def State.fenceOpen (s : State) (f : Fence) : List Nat :=
  (f.upto.filter fun u => s.isMember (u.1 % 256) && s.openUpTo (u.1 / 256) (u.1 % 256) u.2).map fun u => u.1 % 256
/-- Destinations a fence counts as unreached: those that left the membership (R412). -/
def State.fenceGone (s : State) (f : Fence) : List Nat :=
  (f.upto.filter fun u => !s.isMember (u.1 % 256)).map fun u => u.1 % 256

/-- A fence completes (R412, R413). -/
def State.endFence (s : State) (f : Fence) (unreached : List Nat) : State :=
  let s := s.setFab { s.fab with fences := s.fab.fences.erase f }
  if unreached.isEmpty then s.complete f.die f.engine f.compl 0 false false 0 0 none
  else s.complete f.die f.engine f.compl 0x0306 false false 0 0 (some unreached)

/-- Fences whose destinations are all acknowledged or unreached complete (R412). -/
def State.settleFences (s : State) : State :=
  s.fab.fences.foldl (fun s f => if (s.fenceOpen f).isEmpty then s.endFence f (s.fenceGone f) else s) s

/-- Each die and destination with an unacknowledged write of the package, and the newest DSEQ assigned there (R404, R408,
R412). -/
def State.openWrites (s : State) : List (Nat × Word) :=
  (s.fab.dseq.filter fun p => s.openUpTo (p.1 / 256) (p.1 % 256) (p.2 - 1)).map fun p => (p.1, p.2 - 1)

/-- Destinations that have not acknowledged every write up to the DSEQs of a list (R404, R408). -/
def State.unackedOf (s : State) (upto : List (Nat × Word)) : List Nat :=
  (upto.filter fun u => s.openUpTo (u.1 / 256) (u.1 % 256) u.2).foldl (fun l u => addNew l (u.1 % 256)) []

/-- A received invalidation's effect: lines dropped, fills in flight marked (R407). -/
def State.applyInvalidate (s : State) (a : DWord) (n : Nat) : State :=
  let f := s.fab.dropRange a n
  let inFlight := fun (r : FabReq) =>
    r.pkt.op = 0x10 && (linesOf r.pkt.addr (r.pkt.lenM1 + 1)).any fun k => (linesOf a n).contains k
  s.setFab { f with reqs := updateIf f.reqs inFlight fun r => { r with noInstall := true } }

/-- An invalidation completes (R408). -/
def State.endInval (s : State) (v : Inval) (status : Nat) (nodes : List Nat) : State :=
  let s := s.setFab { s.fab with invals := s.fab.invals.erase v }
  s.complete v.die v.engine v.compl status false false 0 0 (if status = 0 then none else some nodes)

/-- Send an invalidation to each listed member; to the package itself it acts at once (R408). -/
def State.sendInval (s : State) (v : Inval) : State :=
  let members := v.nodes.filter s.isMember
  let gone := v.nodes.filter fun n => !s.isMember n
  let others := members.filter (· != s.dom.node)
  let s := if members.contains s.dom.node then s.applyInvalidate v.addr v.len else s
  let s := others.foldl (fun s n =>
    s.requestLater v.die v.engine { blankPkt with op := 0x13, dst := n, addr := v.addr, operand := BitVec.ofNat 64 v.len }) s
  let v' := { v with sent := true, waiting := others, gone := gone }
  let s := s.setFab { s.fab with invals := s.fab.invals.map fun x => if x = v then v' else x }
  if others.isEmpty then s.endInval v' (if gone.isEmpty then 0 else 0x0303) gone else s

/-- An ownership transfer leaves once earlier writes to its node are acknowledged (R404). -/
def State.sendXfer (s : State) (x : Xfer) : State :=
  let p : FabPkt := { blankPkt with
    op := 0x14, dst := x.node, addr := BitVec.ofNat 64 (x.node * 2 ^ 56 + x.job % 4096 * 2 ^ 44), operand := BitVec.ofNat 64 (x.owner % 256) }
  match s.request x.die x.engine true p x.compl with
  | some t => t.setFab { t.fab with xfers := t.fab.xfers.erase x }
  | none => s

/-- What waits for acknowledgements goes on: invalidations, transfers, fences (R404, R408, R412). -/
def State.settleFabric (s : State) : State :=
  let s := (s.fab.invals.filter fun v => !v.sent && (s.unackedOf v.upto).isEmpty).foldl (fun s v => s.sendInval v) s
  let s := (s.fab.xfers.filter fun x => (s.unackedOf x.upto).isEmpty).foldl (fun s x => s.sendXfer x) s
  s.settleFences

/-- A member has answered an invalidation (R408). -/
def State.invalAnswered (s : State) (die engine : Nat) (a : DWord) (n : Nat) (left : Bool) : State :=
  match s.fab.invals.find? fun v => v.sent && v.die = die && v.engine = engine && v.addr = a && v.waiting.contains n with
  | none => s
  | some v =>
    let v' := { v with waiting := v.waiting.erase n, gone := if left then addNew v.gone n else v.gone }
    let s := s.setFab { s.fab with invals := s.fab.invals.map fun x => if x = v then v' else x }
    if v'.waiting.isEmpty then s.endInval v' (if v'.gone.isEmpty then 0 else 0x0303) v'.gone else s

/-- Take a request out; those that waited for a slot go out (R393). -/
def State.dropReq (s : State) (r : FabReq) : State := (s.setFab { s.fab with reqs := s.fab.reqs.erase r }).settleOwed

/-- A request completes because its node left the membership (R402). -/
def State.reqLost (s : State) (r : FabReq) : State :=
  let s := s.dropReq r
  if r.pkt.op = 0x12 then s.complete r.die r.engine r.compl 0x0305 false false r.pkt.tag 0 none
  else if r.pkt.op = 0x13 then s.invalAnswered r.die r.engine r.pkt.addr r.pkt.dst true
  else s.complete r.die r.engine r.compl 0x0303 false false r.pkt.tag 0 (some [r.pkt.dst])

/-- Outstanding requests to nodes that left complete at once; lines of those nodes are dropped (R402, R407). -/
def State.nodesLeft (s : State) (gone : List Nat) : State :=
  let s := s.setFab { s.fab with cache := s.fab.cache.filter fun c => !gone.contains (bits c.2.1.toNat 63 56) }
  let s := (s.fab.reqs.filter fun r => gone.contains r.pkt.dst).foldl (fun s r => s.reqLost r) s
  s.settleFabric

/-! ## Issue -/

/-- Refusals common to issue: not a member, the domain job from another unit, a 4 KiB crossing. The domain
job belongs to engine 0 of I/O die 0 in this model, which the sequence engine and the management processor
use (R390, R396, R434, notes/assumptions/17.md). -/
def State.issueRefusal (s : State) (die engine : Nat) (a : DWord) (n : Nat) (raw cross : Bool) : Option (Nat × Option (List Nat)) :=
  if !raw && faJob a = 0xFFF && !(die = 0 && engine = 0) then some (0x0301, none)
  else if cross && 4096 < faOffset a % 4096 + n then some (0x0302, none)
  else if !s.isMember (faNode a) then some (0x0303, some [faNode a])
  else none

/-- A die and engine that exist. -/
def State.hasEngine (s : State) (die engine : Nat) : Bool := die < s.part.ioDies && engine < 64

/-- LOAD_ISSUE: served from held lines, else sent with its lines included (R390, R393, R406). -/
def execLoadIssue (die engine : Nat) (a : DWord) (n : Nat) (nocache raw : Bool) (compl : Nat) (s : State) :
    Host.Outcome State Fault Refusal :=
  act (s.live && s.hasEngine die engine && 0 < n && n ≤ 4096) s fun s =>
    match s.issueRefusal die engine a n raw true with
    | some (st, m) => s.refuseFab die engine compl st m
    | none =>
      let ks := linesOf a n
      if !raw && ks.all fun k => (s.fab.line k).isSome then
        let bytes := bytesAt (ks.flatMap fun k => (s.fab.line k).getD []) (a.toNat % 128) n
        let s := ks.foldl (fun s k => s.install k ((s.fab.line k).getD [])) s
        (s.emit (.loadData die engine a bytes)).complete die engine compl 0 false false 0 0 none
      else
        let base : DWord := if raw then a else BitVec.ofNat 64 (a.toNat / 128 * 128)
        let len := if raw then n else ks.length * 128
        match s.request die engine false
          { blankPkt with op := 0x10, dst := faNode a, addr := base, lenM1 := len - 1, nocache := nocache, raw := raw } compl with
        | none => s
        | some s => s.setFab { s.fab with reqs := s.fab.reqs.mapIdx fun i r =>
            if i + 1 = s.fab.reqs.length then { r with want := a, wantLen := n } else r }

/-- STORE_ISSUE: numbered, own cached lines dropped first (R398, R407). -/
def execStoreIssue (die engine : Nat) (a : DWord) (data : List Byte) (raw : Bool) (compl : Nat) (s : State) :
    Host.Outcome State Fault Refusal :=
  act (s.live && s.hasEngine die engine && 0 < data.length && data.length ≤ 4096) s fun s =>
    match s.issueRefusal die engine a data.length raw true with
    | some (st, m) => s.refuseFab die engine compl st m
    | none =>
      match s.request die engine true
        { blankPkt with op := 0x11, dst := faNode a, addr := a, lenM1 := data.length - 1, raw := raw, payload := data } compl with
      | none => s
      | some t => t.setFab (t.fab.dropRange a data.length)

/-- ATOMIC_ISSUE: own cached lines dropped first (R398, R407, R409). -/
def execAtomicIssue (die engine : Nat) (op : AtomicOp) (wide : Bool) (a operand compare : DWord) (raw : Bool)
    (compl : Nat) (s : State) : Host.Outcome State Fault Refusal :=
  let n := if wide then 8 else 4
  act (s.live && s.hasEngine die engine) s fun s =>
    match s.issueRefusal die engine a n raw false with
    | some (st, m) => s.refuseFab die engine compl st m
    | none =>
      match s.request die engine true
        { blankPkt with
          op := 0x12, dst := faNode a, addr := a, lenM1 := n - 1, raw := raw, asub := asubOf op, asize := wide
          operand := operand, payload := if op = .cas then leBytes 8 compare.toNat else [] } compl with
      | none => s
      | some t => t.setFab (t.fab.dropRange a n)

/-- INVALIDATE_ISSUE: sent once every earlier write is acknowledged (R408). -/
def execInvalidateIssue (die engine : Nat) (a : DWord) (n : Nat) (nodes : W256) (compl : Nat) (s : State) :
    Host.Outcome State Fault Refusal :=
  act (s.live && s.hasEngine die engine && n % 128 = 0 && 128 ≤ n) s fun s =>
    let v : Inval := { die := die, engine := engine, addr := a, len := n, nodes := nodesOf nodes, compl := compl, issuedAt := s.now, upto := s.openWrites }
    let s := s.setFab { s.fab with invals := s.fab.invals ++ [v] }
    if v.upto.isEmpty then s.sendInval v else s

/-- INVALIDATE_WAIT_TIMEOUT: 10 ms with writes unacknowledged (R408). -/
def execInvalidateWaitTimeout (i : Nat) (s : State) : Host.Outcome State Fault Refusal :=
  .next (match s.fab.invals[i]? with
    | some v => if s.live && !v.sent && 250000 ≤ s.since v.issuedAt then s.endInval v 0x0306 (s.unackedOf v.upto) else s
    | none => s)

/-- OWN_XFER_ISSUE: held until earlier writes to the node are acknowledged, then sent (R404). -/
def execOwnXferIssue (die engine node job owner compl : Nat) (s : State) : Host.Outcome State Fault Refusal :=
  act (s.live && s.hasEngine die engine) s fun s =>
    if !s.isMember node then s.refuseFab die engine compl 0x0303 (some [node])
    else
      let x : Xfer := { die := die, engine := engine, node := node, job := job, owner := owner, compl := compl
                        upto := s.openWrites.filter fun u => u.1 % 256 = node }
      let s := s.setFab { s.fab with xfers := s.fab.xfers ++ [x] }
      if x.upto.isEmpty then s.sendXfer x else s

/-- FENCE: the newest DSEQ of each die and destination is recorded; it completes when all are acknowledged (R412). -/
def execFence (die engine compl : Nat) (s : State) : Host.Outcome State Fault Refusal :=
  act (s.live && s.hasEngine die engine) s fun s =>
    let f : Fence := { die := die, engine := engine, compl := compl, upto := s.openWrites, issuedAt := s.now }
    if f.upto.isEmpty then s.complete die engine compl 0 false false 0 0 none
    else s.setFab { s.fab with fences := s.fab.fences ++ [f] }

/-- FENCE_TIMEOUT: 10 ms after issue (R412). -/
def execFenceTimeout (i : Nat) (s : State) : Host.Outcome State Fault Refusal :=
  .next (match s.fab.fences[i]? with
    | some f => if s.live && 250000 ≤ s.since f.issuedAt then s.endFence f (s.fenceOpen f ++ s.fenceGone f) else s
    | none => s)

/-! ## The receiver -/

/-- The response to a request (R394). -/
def fabResponse (p : FabPkt) (status : Nat) (result : Nat) (cacheable : Bool) (payload : List Byte) : FabPkt :=
  { blankPkt with
    op := p.op + 0x80, src := p.dst, dst := p.src, srcDie := p.srcDie, cacheable := cacheable, raw := p.raw
    tag := p.tag, dseq := p.dseq, status := BitVec.ofNat 16 status, asub := p.asub, asize := p.asize
    lenM1 := if payload.isEmpty then 0 else payload.length - 1, addr := p.addr, operand := BitVec.ofNat 64 result
    payload := payload }

/-- Fields of an export entry (R395). -/
def xValid (e : W256) : Bool := e.getLsbD 31
def xRead (e : W256) : Bool := e.getLsbD 30
def xWrite (e : W256) : Bool := e.getLsbD 29
def xAtomic (e : W256) : Bool := e.getLsbD 28
def xCache (e : W256) : Bool := e.getLsbD 27
def xOwner (e : W256) : Nat := bits e.toNat 15 8
def xBase (e : W256) : Nat := fieldAt e.toNat 8 8
def xLength (e : W256) : Nat := fieldAt e.toNat 16 8

/-- Entry 0xFFF, kept by the package: 4 KiB over objects 0xFE00 to 0xFFFF, VALID, READ, ATOMIC, OWNER 0xFF (R434). -/
def domainEntry : W256 :=
  BitVec.ofNat 256 (packAt [(0, 4, 2 ^ 31 + 2 ^ 30 + 2 ^ 28 + putBits 0xFF 15 8), (8, 8, objAddr 0xFE00), (16, 8, 0x1000)])

/-- An export entry as it stands (R395, R434). -/
def State.export (s : State) (job : Nat) : W256 := if job = 0xFFF then domainEntry else s.dom.exports.get 0 job

/-- Kinds of access at the receiver. -/
inductive FabAccess where
  | load | store | atomic
  deriving DecidableEq, Repr

/-- Steps 2 to 5 of R396 and R397: the device address, or the refusing status. -/
def State.translate (s : State) (p : FabPkt) (k : FabAccess) (n : Nat) : Nat × Nat :=
  let trusted := s.dom.trustedEn
  if p.raw then
    if trusted && bits p.addr.toNat 55 48 = 0 then (0, bits p.addr.toNat 47 0) else (0x0301, 0)
  else
    let e := s.export (faJob p.addr)
    if !xValid e then (0x0301, 0)
    else if xLength e < faOffset p.addr + n then (0x0302, 0)
    else
      let a := xBase e + faOffset p.addr
      if trusted then (0, a)
      else match k with
        | .load => if xRead e then (0, a) else (0x0302, 0)
        | .store => if !xWrite e then (0x0302, 0) else if xOwner e != p.src then (0x0307, 0) else (0, a)
        | .atomic => if xAtomic e then (0, a) else (0x0302, 0)

/-- A request that the receiver takes: from a member, for this node, reserved fields 0 (R394, R396 step 1). -/
def State.takes_ (s : State) (p : FabPkt) (op : Nat) : Bool :=
  s.live && p.op = op && p.rsvd = 0 && p.dst = s.dom.node && s.isMember p.src

/-- LOAD: checked, and its data returned (R396, R397, R405). Data uncorrectable in HBM is answered MEM_UNCORR. -/
def execLoad (p : FabPkt) (s : State) : Host.Outcome State Fault Refusal :=
  let n := p.lenM1 + 1
  act (s.takes_ p 0x10) s fun s =>
    match s.translate p .load n with
    | (0, a) =>
      match s.checkRead a n with
      | some st => s.fabSend (fabResponse p st 0 false [])
      | none =>
        if !s.readable a n then s.fabSend (fabResponse p 0x0420 0 false [])
        else s.fabSend (fabResponse p 0 0 (!p.raw && xCache (s.export (faJob p.addr))) (s.devRead a n))
    | (st, _) => s.fabSend (fabResponse p st 0 false [])

/-- Outcomes kept of a source's die: those of the 1,024 DSEQs up to the newest received (R399). -/
def State.outcomesOf (s : State) (src die : Nat) : List Outcome1 :=
  s.fab.outcomes.filter fun o => o.src = src && o.die = die

/-- The newest DSEQ received of a source's die (R12, R399). -/
def newestDseq : List Outcome1 → Option Word
  | [] => none
  | o :: t => match newestDseq t with
    | none => some o.dseq
    | some d => some (if older d o.dseq then o.dseq else d)

/-- A write older than every DSEQ kept: 1,024 or more behind the newest (R398, R399). -/
def State.tooOld (s : State) (p : FabPkt) : Bool :=
  match newestDseq (s.outcomesOf p.src p.srcDie) with
  | some d => older p.dseq d && 1024 ≤ (d - p.dseq).toNat
  | none => false

/-- The recorded outcome of a duplicate (R399). -/
def State.outcome (s : State) (p : FabPkt) : Option Nat :=
  ((s.outcomesOf p.src p.srcDie).find? fun o => o.dseq = p.dseq).map (·.status)

/-- Record an outcome, forgetting those that fall behind (R399). -/
def State.keepOutcome (s : State) (p : FabPkt) (status : Nat) : State :=
  let new : Outcome1 := { src := p.src, die := p.srcDie, dseq := p.dseq, status := status }
  let all := s.fab.outcomes ++ [new]
  let nd := (newestDseq (all.filter fun o => o.src = p.src && o.die = p.srcDie)).getD p.dseq
  s.setFab { s.fab with outcomes := all.filter fun o =>
    !(o.src = p.src && o.die = p.srcDie && older o.dseq nd && 1024 ≤ (nd - o.dseq).toNat) }

/-- The common part of a received write: old ones dropped, duplicates answered, the rest applied, recorded
and answered (R399, R400). -/
def State.receiveWrite (s : State) (p : FabPkt) (dup : State → Nat → State) (apply : State → State × Nat × Nat) : State :=
  if s.tooOld p then s
  else match s.outcome p with
    | some st => dup s st
    | none =>
      let r := apply s
      (r.1.keepOutcome p r.2.1).fabSend (fabResponse p r.2.1 r.2.2 false [])

/-- A duplicate answered with its recorded status (R399). -/
def dupStatus (p : FabPkt) (s : State) (st : Nat) : State := s.fabSend (fabResponse p st 0 false [])

/-- STORE: checked, applied once, answered (R396, R399, R405). -/
def execStore (p : FabPkt) (s : State) : Host.Outcome State Fault Refusal :=
  let n := p.lenM1 + 1
  act (s.takes_ p 0x11) s fun s =>
    s.receiveWrite p (dupStatus p) fun s =>
      match s.translate p .store n with
      | (0, a) =>
        match s.checkWrite a n with
        | some st => (s, st, 0)
        | none => (s.store a (bytesAt p.payload 0 n), 0, 0)
      | (st, _) => (s, st, 0)

/-- An arrival slot of the manager was written: the first arrival of the steep is timed (R423, R459). -/
def State.noteArrival (s : State) : State :=
  if s.dom.role = .manager && s.dom.firstArrival.isNone && s.steep.running &&
     (nodesOf s.dom.members).any fun n => s.objGet (0xFE00 + n) % 2 ^ 32 = s.steep.number.toNat
  then { s with dom := { s.dom with firstArrival := some s.now } } else s

/-- Free the earliest entry of a source whose replay table is full, then place the new one (R410). -/
def State.keepReplay (s : State) (p : FabPkt) (result : Nat) : State :=
  let mine := s.fab.replay.filter (·.src = p.src)
  let l := if mine.length < 1024 then s.fab.replay else
    match mine.head? with
    | some r => s.fab.replay.erase r
    | none => s.fab.replay
  let new : Replay :=
    { src := p.src, die := p.srcDie, tag := p.tag, dseq := p.dseq, result := BitVec.ofNat 64 result, status := 0, at_ := s.now }
  s.setFab { s.fab with replay := l ++ [new] }

/-- An atomic duplicate: a refusal as recorded, the stored result, or STALE_RETRY (R411). -/
def dupAtomic (p : FabPkt) (s : State) (st : Nat) : State :=
  if st != 0 then s.fabSend (fabResponse p st 0 false [])
  else match s.fab.replay.find? fun r => r.src = p.src && r.die = p.srcDie && r.tag = p.tag with
    | some r => s.fabSend (fabResponse p 0 r.result.toNat false [])
    | none => s.fabSend (fabResponse p 0x0304 0 false [])

/-- ATOMIC: executed once; duplicates answered from the replay table; an operation code not listed is refused with a status that
the specification leaves open (R394, R396, R409 to R411, R432, notes/assumptions/132.md). -/
def execAtomic (p : FabPkt) (s : State) : Host.Outcome State Fault Refusal :=
  let n := if p.asize then 8 else 4
  act (s.takes_ p 0x12) s fun s =>
    s.receiveWrite p (dupAtomic p) fun s =>
      match s.translate p .atomic n, opOfAsub p.asub with
      | _, none => ({ s with free := s.free + 1 }, 1 + Config.freeNat s.free % 0xFFFF, 0)
      | (0, a), some op =>
        if a % n != 0 then (s, 0x0242, 0)
        else match s.checkWrite a n with
          | some st => (s, st, 0)
          | none =>
            if !s.readable a n then (s, 0x0420, 0) else
              let r := s.atomicOp op n a p.operand.toNat (ofLe p.payload)
              ((r.2.keepReplay p r.1).noteArrival, 0, r.1)
      | (st, _), _ => (s, st, 0)

/-- A RAW request outside trusted-sender mode (R396 step 2). -/
def State.rawRefused (s : State) (p : FabPkt) : Bool := p.raw && !s.dom.trustedEn

/-- INVALIDATE: lines dropped and fills marked before the response; it makes no device access, so that no export entry is
asked for it (R396, R407, notes/assumptions/133.md). -/
def execInvalidate (p : FabPkt) (s : State) : Host.Outcome State Fault Refusal :=
  act (s.takes_ p 0x13) s fun s =>
    s.receiveWrite p (dupStatus p) fun s =>
      if s.rawRefused p then (s, 0x0301, 0) else (s.applyInvalidate p.addr p.operand.toNat, 0, 0)

/-- Put an owner into an export entry (R405). -/
def withOwner (e : W256) (owner : Nat) : W256 :=
  BitVec.ofNat 256 (e.toNat - putBits (xOwner e) 15 8 + putBits owner 15 8)

/-- OWN_XFER: the owner or the manager changes OWNER (R404, R405). -/
def execOwnXfer (p : FabPkt) (s : State) : Host.Outcome State Fault Refusal :=
  act (s.takes_ p 0x14) s fun s =>
    s.receiveWrite p (dupStatus p) fun s =>
      let job := faJob p.addr
      let e := s.export job
      if s.rawRefused p || !xValid e then (s, 0x0301, 0)
      else if p.src = xOwner e || p.src = s.dom.manager then
        let x := if job = 0xFFF then s.dom.exports else s.dom.exports.set job (withOwner e (p.operand.toNat % 256))
        ({ s with dom := { s.dom with exports := x } }, 0, 0)
      else (s, 0x0307, 0)

/-- REPLAY_ENTRY_EXPIRY: an entry is freed 2 ms after its atomic executed (R410). -/
def execReplayEntryExpiry (src die : Nat) (tag : Word) (s : State) : Host.Outcome State Fault Refusal :=
  .next (match s.fab.replay.find? fun r => r.src = src && r.die = die && r.tag = tag with
    | some r => if s.live && 50000 ≤ s.since r.at_ then s.setFab { s.fab with replay := s.fab.replay.erase r } else s
    | none => s)

/-! ## Responses and retries at the issuer -/

/-- FABRIC_RESPONSE: acknowledges its request and completes the operation (R393, R400, R406, R411, R413). -/
def execFabricResponse (p : FabPkt) (s : State) : Host.Outcome State Fault Refusal :=
  .next (match s.fab.reqs.find? fun r => r.pkt.tag = p.tag && r.pkt.op + 0x80 = p.op with
    | none => s
    | some r =>
      if !(s.live && p.rsvd = 0 && p.dst = s.dom.node) then s else
      let st := p.status.toNat
      let s := s.dropReq r
      let s :=
        if r.pkt.op = 0x13 then s.invalAnswered r.die r.engine r.pkt.addr r.pkt.dst false
        else if r.pkt.op = 0x12 then
          if st = 0x0304 then s.complete r.die r.engine r.compl 0x0305 true true r.pkt.tag 0 none
          else s.complete r.die r.engine r.compl st true (st = 0) r.pkt.tag (if st = 0 then p.operand.toNat else 0) none
        else if r.pkt.op = 0x10 then
          let s := if st = 0 then
              let s := if p.cacheable && !r.pkt.nocache && !r.pkt.raw && !r.noInstall then
                  (linesOf r.pkt.addr (r.pkt.lenM1 + 1)).foldl (fun s k =>
                    s.install k (bytesAt p.payload (k * 128 - r.pkt.addr.toNat) 128)) s else s
              s.emit (.loadData r.die r.engine r.want (bytesAt p.payload (r.want.toNat - r.pkt.addr.toNat) r.wantLen))
            else s
          s.complete r.die r.engine r.compl st false false r.pkt.tag 0 none
        else s.complete r.die r.engine r.compl st false false r.pkt.tag 0 none
      s.settleFabric)

/-- FABRIC_RETRY: 200 µs without a response since the last send; four retries (R401). -/
def execFabricRetry (tag : Word) (s : State) : Host.Outcome State Fault Refusal :=
  .next (match s.fab.reqs.find? fun r => r.pkt.tag = tag with
    | none => s
    | some r =>
      if !(s.live && 5000 ≤ s.since r.sentAt && r.retries ≤ 4) then s
      else if r.retries < 4 then
        let r' := { r with pkt := { r.pkt with retry := true }, retries := r.retries + 1, sentAt := s.now }
        (s.setFab { s.fab with reqs := s.fab.reqs.map fun x => if x = r then r' else x }).fabSend r'.pkt
      else if r.pkt.op = 0x12 then
        ((s.dropReq r).complete r.die r.engine r.compl 0x0305 false false tag 0 none).settleFabric
      else
        (s.setFab { s.fab with reqs := s.fab.reqs.map fun x => if x = r then { r with retries := 5 } else x }).raise
          { status := 0x0317, cls := 0, unit := 9, die := r.die, pos := 0, addr := r.pkt.addr.toNat })

/-! ## Messages -/

/-- A message is acknowledged or given up: its MSG_SEND completes (R415). -/
def State.endMessage (s : State) (m : MsgOut) (status : Nat) : State :=
  let s := s.setFab { s.fab with msgOut := s.fab.msgOut.erase m }
  match m.ring with
  | none => s
  | some r =>
    match s.waiting.find? fun w => w.ring = r && w.what = .message m.number m.port m.dest with
    | some w => (s.unwait w).finish r w.desc status []
    | none => s

/-- The acknowledgement of a whole message (R415): the fragment's header with SRC and DST exchanged. -/
def messageAck (p : FabPkt) : FabPkt := { fabResponse p 0 0 false [] with operand := p.operand }

/-- Send a packet of channel 3 back towards a source: over the domain, or over a message port (R376, R415). -/
def State.ackSend (s : State) (p : FabPkt) (outer : Bool) : State :=
  let set := s.linkList.filter fun l => let k := s.link l; k.isUp && !k.heldOut && k.peerKind = 3
  if !outer && p.dst = s.dom.node then s.emit (.fabLocal p) else
  match (if outer then s.pickLink set p.dst 0 else s.linkFor p.dst 0) with
  | some l => s.fabOn l p
  | none => s

/-- MESSAGE: fragments are gathered; a whole message is posted and acknowledged (R415, R436 to R440). -/
def execMessage (p : FabPkt) (s : State) : Host.Outcome State Fault Refusal :=
  let dom := bits p.operand.toNat 63 48
  let len := bits p.operand.toNat 47 27 + 1
  let idx := bits p.operand.toNat 26 18
  let outer := dom != 0
  act (s.live && p.op = 0x18 && p.rsvd = 0 && p.dst = s.dom.node && (outer || s.isMember p.src) &&
      idx < ceilDiv len 4096 && p.payload.length = min 4096 (len - 4096 * idx)) s fun s =>
    let same := fun (k : Nat × Nat × Nat × DWord × Word) => k.1 = dom && k.2.1 = p.src && k.2.2.1 = p.srcDie && k.2.2.2.1 = p.addr
    if s.fab.lastMsg.any fun k => same k && k.2.2.2.2 = p.dseq then
      -- A copy of a message already posted: acknowledged again with its last fragment, not posted.
      if idx + 1 = ceilDiv len 4096 then s.ackSend (messageAck p) outer else s
    else
      let mine := fun (m : MsgIn) => m.domain = dom && m.src = p.src && m.die = p.srcDie && m.dest = p.addr && m.number = p.dseq
      let m : MsgIn := match s.fab.msgIn.find? mine with
        | some m => { m with frags := if (m.frags.find? idx).isSome then m.frags else m.frags.set idx p.payload }
        | none => { domain := dom, src := p.src, die := p.srcDie, dest := p.addr, number := p.dseq, total := len, frags := [(idx, p.payload)] }
      if m.frags.length < ceilDiv len 4096 then s.setFab { s.fab with msgIn := upsert s.fab.msgIn mine m }
      else
        let s := s.setFab { s.fab with msgIn := s.fab.msgIn.filter fun x => !mine x }
        match s.post (bits p.addr.toNat 5 0) (m.frags.flatMap Prod.snd) p.src p.srcDie dom with
        | none => s
        | some s =>
          (s.setFab { s.fab with lastMsg := s.fab.lastMsg ++ [(dom, p.src, p.srcDie, p.addr, p.dseq)] }).ackSend
            (messageAck p) outer

/-- The message that an acknowledgement answers: its destination word and number (R415). -/
def State.ackedMessage (s : State) (p : FabPkt) : Option MsgOut :=
  s.fab.msgOut.find? fun m => m.dest = p.addr && BitVec.ofNat 32 m.number = p.dseq

/-- MESSAGE_ACK: the message completes; an acknowledged replication record lets its release be posted, an acknowledged
adoption record counts as taken (R415, R422, R427). -/
def execMessageAck (p : FabPkt) (s : State) : Host.Outcome State Fault Refusal :=
  .next (match s.ackedMessage p with
    | some m =>
      if s.live && p.op = 0x98 && p.rsvd = 0 then
        let s := s.endMessage m 0
        if m.ring.isNone && bits m.dest.toNat 5 0 = 62 then
          { s with dom := { s.dom with outRelease := s.dom.outRelease.map fun o => { o with waiting := false } } }
        else if m.ring.isNone && bits m.dest.toNat 5 0 = 63 then s.adoptTaken (bits m.dest.toNat 31 24)
        else s
      else s
    | none => s)

end Sys2Proof.Machine
end

