-- ==== Sys2Proof/Machine/Links.lean ====
section
/-! DEFINITION. The Geloc link layer: enable, training, flits, acknowledgement, credits, loss (spec 14 R359,
spec 15 R367 to R378). -/

namespace Sys2Proof.Machine

/-- I/O die of a link (R366). -/
def linkDie (l : Nat) : Nat := l / 24
/-- BAR0 offset of a link's LNK_CTRL (R359). -/
def lnkCtrlOff (l : Nat) : Nat := 0x00150000 + l * 0x20

/-- The kind of a port with no up link left is forgotten (R376). -/
def State.settlePort (s : State) (p : Nat) : State :=
  if s.linkList.any fun l => (s.link l).isUp && (s.link l).port = p then s
  else { s with disc := { s.disc with portKind := s.disc.portKind.erase p } }

/-- Hand a packet back to its port (R375). -/
def State.resendPacket (s : State) (port : Nat) (p : SentPkt) : State :=
  match p with
  | .fab p =>
    if fabVc p = 3 then
      match s.messageLink port p.dst with
      | some l => s.fabOn l p
      | none => s
    else s.fabSend p
  | .route n p => s.routeSend n p

/-- A LINK_REPORT for a link, sent to the manager over a link that reaches it (R385, R387). A link that is
not up reports no plane and no peer. -/
def State.linkReportFrame (s : State) (l : Nat) : Frame :=
  let k := s.link l
  { s.frame l 7 with
    dest := s.dom.manager
    plane := if k.isUp then k.plane else 0xFFFF
    swPort := if k.isUp then k.swPort else 0xFFFF
    assignNode := if k.isUp && k.peerKind = 1 then k.peerNode else 0xFF
    lastSteep := if s.steep.held then s.steep.number else 0
    lsValid := s.steep.held }

/-- Send a link report, or keep it where the package is the manager itself (R385). -/
def State.reportLink (s : State) (l : Nat) : State :=
  let f := s.linkReportFrame l
  if s.dom.role = .manager then
    let keep := s.disc.reports.filter fun r => !(r.node = s.dom.node && r.link = l)
    let new : List LinkRep := if (s.link l).isUp then [{ node := s.dom.node, link := l, peer := f.assignNode, plane := f.plane }] else []
    { s with disc := { s.disc with reports := keep ++ new } }
  else if s.dom.node = 0xFF || s.dom.manager = 0xFF then s
  else
    match s.linkFor s.dom.manager 0 with
    | some via => s.sendFrame via { f with lanes := (s.link via).lanes }
    | none => s

/-- A link goes down: UP 0, LNK_DOWNS, packets handed back, training again unless disabled (R374, R375). -/
def State.downLink (s : State) (l : Nat) (train : LinkTrain) : State :=
  let k := s.link l
  if !k.isUp then s.setLink l { k with train := train }
  else
    let lostPkts := k.unsent
    let s := s.setLink l { k with
      train := train, cls := 0, lanes := 0, downs := k.downs + 1, replay := [], queue := [], resends := 0
      fails := 0, lostAt := some s.now, heldOut := false }
    let s := s.settlePort k.port
    let s := lostPkts.foldl (fun s p => s.resendPacket k.port p) s
    s.reportLink l

/-- Write of LNK_CTRL: refusals of R359. -/
def State.lnkCtrlWrite (s : State) (l : Nat) (v : Word) (f : State → State) : State :=
  let k := s.link l
  s.regWrite (lnkCtrlOff l) (!s.setUpState) (k.enable && bits v.toNat 27 24 != k.port) false f

/-- LNK_CTRL as a write leaves it: 1 in ENABLE lets the link train, 0 holds it down (R359, R369, R374). -/
def State.writeLnkCtrl (s : State) (l : Nat) (v : Word) : State :=
  s.lnkCtrlWrite l v fun s =>
    if v.getLsbD 31 then
      s.onLink l fun k => { k with
        enable := true, port := bits v.toNat 27 24, classAllow := BitVec.ofNat 3 (bits v.toNat 18 16)
        train := if k.enable then k.train else .training, fails := if k.enable then k.fails else 0
        lostAt := if k.enable then k.lostAt else none }
    else
      (s.downLink l .off).onLink l fun k => { k with
        enable := false, port := bits v.toNat 27 24, classAllow := BitVec.ofNat 3 (bits v.toNat 18 16) }

/-- LINK_ENABLE: LNK_CTRL written with ENABLE 1. -/
def execLinkEnable (l : Nat) (v : Word) (s : State) : Host.Outcome State Fault Refusal :=
  act (s.hostUp && l < s.part.links && v.getLsbD 31) s fun s => s.writeLnkCtrl l v

/-- LINK_DISABLE: LNK_CTRL written with ENABLE 0. -/
def execLinkDisable (l : Nat) (v : Word) (s : State) : Host.Outcome State Fault Refusal :=
  act (s.hostUp && l < s.part.links && !v.getLsbD 31) s fun s => s.writeLnkCtrl l v

/-- The class a link keeps: the first that both ends allow and that passes (R368); 0 none. -/
def trainClass (own : BitVec 3) (r : TrainResult) : Nat :=
  match (List.range 3).find? fun i => own.getLsbD i && r.peerAllow.getLsbD i && r.passes.getLsbD i with
  | some i => i + 1
  | none => 0

/-- Lanes a link uses of those that pass (R370). -/
def trainLanes (ok : BitVec 4) : Nat :=
  if ok = 15 then 4
  else if ok.getLsbD 0 && ok.getLsbD 1 then 2
  else if ok.getLsbD 2 && ok.getLsbD 3 then 2
  else if ok = 0 then 0 else 1

/-- A HELLO on a link (R380). -/
def State.hello (s : State) (l : Nat) : State := s.sendFrame l (s.frame l 1)

/-- LINK_TRAINING_COMPLETE: class, lanes and loop check decide whether UP is set (R367 to R370, R374). -/
def execLinkTrainingComplete (l : Nat) (r : TrainResult) (s : State) : Host.Outcome State Fault Refusal :=
  let k := s.link l
  act (s.live && !s.trayHeld && l < s.part.links && k.train = .training && k.enable && k.fails < 3) s fun s =>
    let cls := trainClass k.classAllow r
    let lanes := trainLanes r.lanes
    if cls = 0 || lanes = 0 || r.loop then
      s.setLink l { k with fails := k.fails + 1, lostAt := some (k.lostAt.getD s.now), loop := r.loop }
    else
      let s := s.setLink l { k with
        train := .up, cls := cls, lanes := lanes, txSeq := 0, rxSeq := 0, nakSent := false, replay := [], queue := []
        credits := [512, 512, 512, 512], owed := [0, 0, 0, 0], resends := 0, fails := 0, lostAt := none, loop := false
        peerKind := 0, peerNode := 0xFF, peerLink := 0xFF }
      let s := if lanes < 4 || k.lostAt.isSome then
          s.raise { status := 0x0314, cls := 0, unit := 4, die := linkDie l, pos := l } else s
      let s := { s with disc := { s.disc with firstUp := some (s.disc.firstUp.getD s.now) } }
      s.hello l

/-- An acknowledgement frees every flit up to and including its SEQ (R372). -/
def State.takeAck (s : State) (l ack : Nat) : State :=
  let k := s.link l
  match k.replay.findIdx? (·.seq = ack) with
  | some i =>
    let s := s.setLink l { k with replay := k.replay.drop (i + 1), resends := 0 }
    State.pump (s.link l).queue.length s l
  | none => s

/-- SEQ of the last in-order flit received, which every flit sent carries in ACK (R371). -/
def Link.ackSeq (k : Link) : Nat := (k.rxSeq + 4095) % 4096

/-- A flit is good: no uncorrectable codeword, a listed type, reserved bits 0, VC 0 but in data (R371). -/
def flitGood (f : Flit) : Bool := f.clean && f.ftype < 4 && f.rsvd = 0 && (f.ftype = 1 || f.vc = 0)

/-- Send one NAK for a SEQ (R372). -/
def State.nak (s : State) (l : Nat) : State :=
  let k := s.link l
  if k.nakSent then s else (s.setLink l { k with nakSent := true }).emit (.control l k.ackSeq (some k.rxSeq) [0, 0, 0, 0])

/-- FLIT_RECEIVE: in-order good flits are delivered and owe a credit, others are discarded (R371, R372). -/
def execFlitReceive (l : Nat) (f : Flit) (s : State) : Host.Outcome State Fault Refusal :=
  let k := s.link l
  act (s.live && l < s.part.links && k.isUp) s fun s =>
    if !flitGood f then s.nak l
    else if f.ftype = 0 || f.ftype = 2 then s.takeAck l f.ack
    else
      let s := s.takeAck l f.ack
      if f.seq = k.rxSeq then
        s.onLink l fun k => { k with
          rxSeq := (k.rxSeq + 1) % 4096, nakSent := false
          owed := if f.ftype = 1 then k.owed.set f.vc (k.owed.getD f.vc 0 + 1) else k.owed }
      else if (f.seq + 4096 - k.rxSeq) % 4096 < 2048 then s.nak l else s

/-- Resend every flit of a link from a position on (R372). -/
def State.resendFrom (s : State) (l i : Nat) : State :=
  let k := s.link l
  let again := k.replay.drop i
  let s := s.setLink l { k with
    retries := k.retries + BitVec.ofNat 64 again.length
    replay := k.replay.take i ++ again.map fun f => { f with sentAt := s.now } }
  again.foldl (fun s f => s.emit (.flit l f.vc f.seq f.payload)) s

/-- CONTROL_FLIT: acknowledgement, credits returned, and a NAK's resend (R371 to R373). -/
def execControlFlit (l : Nat) (f : Flit) (nak : Option Nat) (credits : List Nat) (s : State) : Host.Outcome State Fault Refusal :=
  let k := s.link l
  act (s.live && l < s.part.links && k.isUp && flitGood f && f.ftype = 2) s fun s =>
    let s := s.takeAck l f.ack
    let s := s.onLink l fun k => { k with credits := k.credits.mapIdx fun i c => min 512 (c + credits.getD i 0 % 2 ^ 16) }
    let s := State.pump (s.link l).queue.length s l
    match nak with
    | none => s
    | some q =>
      match (s.link l).replay.findIdx? (·.seq = q) with
      | some i => (s.onLink l fun k => { k with resends := k.resends + 1 }).resendFrom l i
      | none => s

/-- LINK_ACK_TIMEOUT: 5 µs without acknowledgement of the oldest flit (R52, R372). -/
def execLinkAckTimeout (l : Nat) (s : State) : Host.Outcome State Fault Refusal :=
  let k := s.link l
  let due := match k.replay.head? with | some f => 125 ≤ s.since f.sentAt | none => false
  act (s.live && l < s.part.links && k.isUp && due) s fun s =>
    (s.onLink l fun k => { k with resends := k.resends + 1 }).resendFrom l 0

/-- CREDIT_RETURN: credits owed go back in a control flit (R373). -/
def execCreditReturn (l : Nat) (s : State) : Host.Outcome State Fault Refusal :=
  let k := s.link l
  act (s.live && l < s.part.links && k.isUp && k.owed.any (0 < ·)) s fun s =>
    (s.setLink l { k with owed := [0, 0, 0, 0] }).emit (.control l k.ackSeq none k.owed)

/-- LINK_DOWN: lane lock lost, eight resends unacknowledged, or the peer stopped (R374). -/
def execLinkDown (l : Nat) (cause : DownCause) (s : State) : Host.Outcome State Fault Refusal :=
  let k := s.link l
  act (s.live && l < s.part.links && k.isUp && (cause != .resends || 8 ≤ k.resends)) s fun s => s.downLink l .training

/-- LINK_RETRAIN_EXHAUSTED: three retrainings failed, the link is mapped out with LINK_DOWN (R374). -/
def execLinkRetrainExhausted (l : Nat) (s : State) : Host.Outcome State Fault Refusal :=
  let k := s.link l
  act (s.live && l < s.part.links && k.train = .training && 3 ≤ k.fails) s fun s =>
    s.raise { status := 0x0310, cls := 2, unit := 4, die := linkDie l, pos := l }

end Sys2Proof.Machine
end

