-- ==== Sys2Proof/Machine/Kv.lean ====
section
/-! DEFINITION. Pages, slots, key sets, masks and steering of sequences (spec 06 R142 to R161, spec 08 R222,
spec 05 R136). -/

namespace Sys2Proof.Machine

/-! ## Pages (R144 to R149) -/

/-- KV pool of a class. -/
def State.pool (s : State) (c : Nat) : KvPool := s.eng.kv.get {} c

/-- Frames and blocks that the sequences of a class hold. -/
def State.heldFrames (s : State) (c : Nat) : List Nat :=
  s.eng.seqs.flatMap fun p => if p.2.cls = c then p.2.frames else []
/-- List blocks that the sequences of a class hold. -/
def State.heldBlocks (s : State) (c : Nat) : List Nat :=
  s.eng.seqs.flatMap fun p => if p.2.cls = c then p.2.blocks else []

/-- Free frames of a class (R353). -/
def State.freeFrames (s : State) (c : Nat) : Nat := (s.pool c).frames - ((s.heldFrames c).filter (· < (s.pool c).frames)).length
/-- Free blocks of a class (R353). -/
def State.freeBlocks (s : State) (c : Nat) : Nat := (s.pool c).blocks - ((s.heldBlocks c).filter (· < (s.pool c).blocks)).length

/-- A free number of `0 .. n-1`: which one is left open (notes/assumptions/14.md). -/
def State.pickFree (s : State) (used : List Nat) (n : Nat) : Nat × State :=
  let rest := n - (used.filter (· < n)).length
  let k := Config.freeNat s.free % (rest + 1)
  let go := (List.range (min n (used.length + k + 1))).filter fun i => !used.contains i
  ((go[k]?).getD (lowestFree used n), { s with free := s.free + 1 })

/-- Pages for positions below `len`. -/
def pagesFor (len : Nat) : Nat := ceilDiv len 256

/-- Give a sequence one more block, its 64 entries absent (R144). -/
def State.addBlock (s : State) (q : Nat) : State :=
  let r := s.seq q
  let (b, s) := s.pickFree (s.heldBlocks r.cls) (s.pool r.cls).blocks
  let a := (s.pool r.cls).listBase.toNat + 256 * b
  let s := s.store a (List.replicate 256 0xFF)
  match r.blocks with
  | [] => s.setSeq q { r with blocks := [b], dirBlock := BitVec.ofNat 32 b }
  | d :: _ =>
    let s := s.store ((s.pool r.cls).listBase.toNat + 256 * d + 4 * (r.blocks.length - 1)) (leBytes 4 b)
    s.setSeq q { r with blocks := r.blocks ++ [b] }

/-- Give a sequence one more frame, named in its list block (R144). -/
def State.addFrame (s : State) (q : Nat) : State :=
  let r := s.seq q
  let (f, s) := s.pickFree (s.heldFrames r.cls) (s.pool r.cls).frames
  let i := r.frames.length
  let lb := r.blocks.getD (1 + i / 64) 0
  let s := s.store ((s.pool r.cls).listBase.toNat + 256 * lb + 4 * (i % 64)) (leBytes 4 f)
  s.setSeq q { r with frames := r.frames ++ [f] }

/-- Repeat a state change. -/
def repeatOn (f : State → State) : Nat → State → State
  | 0, s => s
  | n + 1, s => repeatOn f n (f s)

/-- Reserve what a sequence's appends up to position `len - 1` need; none where the class cannot (R146). -/
def State.reserve (s : State) (q len : Nat) : Option State :=
  let r := s.seq q
  let pages := pagesFor len
  let blocks := if pages = 0 then 0 else 1 + ceilDiv pages 64
  let nf := pages - r.frames.length
  let nb := blocks - r.blocks.length
  if s.freeFrames r.cls < nf || s.freeBlocks r.cls < nb then none
  else some (repeatOn (fun s => s.addFrame q) nf (repeatOn (fun s => s.addBlock q) nb s))

/-- A block entry of the class's list area: none where absent (R144). -/
def State.listEntry (s : State) (cls block i : Nat) : Option Nat :=
  let v := s.devNum ((s.pool cls).listBase.toNat + 256 * block + 4 * i) 4
  if v = 0xFFFFFFFF then none else some v

/-- Address of the slot of a position in a layer region, through the directory and list blocks (R142, R144). -/
def State.slotAddr (s : State) (g : DWord) (q l p : Nat) : Option Nat :=
  let r := s.seq q
  let page := p / 256
  if r.dirBlock = 0xFFFFFFFF then none else
  match s.listEntry r.cls r.dirBlock.toNat (page / 64) with
  | none => none
  | some list =>
    (s.listEntry r.cls list (page % 64)).map fun frame =>
      (s.pool r.cls).frameBase.toNat + frame * geoPS g + l * geoLS g + p % 256 * geoTS g

/-- Layer region of a layer of a list (R142). -/
def layerRegion (g : DWord) (draft : Bool) (layer : Nat) : Nat := if draft then geoLayers g + layer else layer

/-! ## Entries (R143, R151) -/

/-- Bytes of a slot: latent, rotary, padding (R143, R151). `freq` is the layer's frequency table. -/
def slotBytes (g : DWord) (kvScale : Word) (pos start len : Nat) (adjacent : Bool) (freq line : List Word) : List Byte :=
  let lat := line.take (geoLat g)
  let rot := (line.drop (geoLat g)).take (geoRot g)
  let f := if geoFmt g = 1 then Format.bf16 else if geoFmt g = 3 then .e4m3 else .e5m2
  let latB := (convLine f (if geoFmt g = 1 then 0 else kvScale) none lat).bytes f
  let rotB := (convLine .bf16 0 none (rope pos start len adjacent freq rot)).bytes .bf16
  bytesAt (latB ++ rotB) 0 (geoTS g)

/-! ## Masks (R157 to R161) -/

/-- One bit of a bit array in device memory. -/
def State.devBit (s : State) (a i : Nat) : Bool := (s.devByte (a + i / 8)).getLsbD (i % 8)

/-- A range of device memory that a unit reads whole: the status of what stops it, none where nothing does (R264,
R272). -/
def State.readFault (s : State) (p : Nat × Nat) : Option Nat :=
  if p.2 = 0 then none
  else match s.checkRead p.1 p.2 with
  | some e => some e
  | none => if s.readable p.1 p.2 then none else some 0x0420

/-- The header of a mask object cannot be read, or a reserved field is not 0 (R159, R161). -/
def State.maskHeaderBad (s : State) (a : Nat) : Bool :=
  (s.readFault (a, 32)).isSome || bits (s.devNum (a + 12) 4) 31 1 != 0 || s.devNum (a + 28) 4 != 0

/-- Bytes of a mask object's arrays that decide the pair (p, k), in the order they are read: a summary bit of 0 ends
the reading (R160). -/
def State.maskReads (s : State) (a p k : Nat) : List Nat :=
  let rows := s.devNum a 4
  let base := s.devNum (a + 4) 4
  let tc := ceilDiv (s.devNum (a + 8) 4) 128
  if p < base || rows ≤ p - base || s.devNum (a + 8) 4 ≤ k then []
  else
    let r := p - base
    let t := r / 128 * tc + k / 128
    let l2 := a + s.devNum (a + 16) 4 + t / 64 / 8
    let l1 := a + s.devNum (a + 20) 4 + t / 8
    if !s.devBit (a + s.devNum (a + 16) 4) (t / 64) then [l2]
    else if !s.devBit (a + s.devNum (a + 20) 4) t then [l2, l1]
    else [l2, l1, a + s.devNum (a + 24) 4 + r * tc * 16 + k / 8]

/-- A mask object cannot be read for a query over the positions of its key set (R161). -/
def State.maskBad (s : State) (a p : Nat) (keys : List Nat) : Bool :=
  a != 0 && (s.maskHeaderBad a || keys.any fun k => (s.maskReads a p k).any fun b => (s.readFault (b, 1)).isSome)

/-- The pair (p, k) is visible in a mask object (R160). -/
def State.maskSees (s : State) (a p k : Nat) : Bool :=
  if a = 0 then true
  else
    let rows := s.devNum a 4
    let base := s.devNum (a + 4) 4
    let cols := s.devNum (a + 8) 4
    let tc := ceilDiv cols 128
    if p < base || rows ≤ p - base || cols ≤ k then bit (s.devNum (a + 12) 4) 0
    else
      let r := p - base
      let t := r / 128 * tc + k / 128
      s.devBit (a + s.devNum (a + 16) 4) (t / 64) && s.devBit (a + s.devNum (a + 20) 4) t &&
      s.devBit (a + s.devNum (a + 24) 4 + r * tc * 16) k

/-- Positions of a sequence's key set in a layer region, ascending: committed, and staged in that region in this steep
(R152). -/
def State.keySet (s : State) (region q : Nat) : List Nat :=
  let c := (s.seq q).committed
  List.range c ++ sortBy (· ≤ ·)
    (((s.steep.kvStaged.filter fun t => t.1 = region && t.2.1 = q && c ≤ t.2.2).map fun t => t.2.2).eraseDups)

/-- A key of the key set is included for a query at a position (R158). -/
def State.keyIn (s : State) (mode mask p k : Nat) : Bool :=
  (!(mode = 1 || mode = 3) || k ≤ p) && (!(mode = 2 || mode = 3) || s.maskSees mask p k)

/-! ## Steering (R136, R222) -/

/-- The steering of a tenant for a layer: first element, scales and values. -/
def State.steering (s : State) (tenant layer : Nat) : Option (Nat × List Word × List Word) :=
  let t := s.tenant tenant
  if t.steerDir = 0 then none
  else
    let a := t.steerDir.toNat + 16 * layer
    let w := s.devNum a 4
    if !bit w 31 then none
    else
      let n := bits w 11 0 + 1
      let d := s.devNum (a + 8) 8
      let vals := fun a => readLine .e4m3 0 n (s.devRead a n) []
      some (bits w 25 12, vals d, vals (d + n))

/-- Apply a steering entry to a line (R136). -/
def steerLine (e : Nat × List Word × List Word) (y : List Word) : List Word :=
  y.mapIdx fun i v => if e.1 ≤ i && i < e.1 + e.2.1.length then fFma v (e.2.1.getD (i - e.1) 0) (e.2.2.getD (i - e.1) 0) else v

/-- Check of a steering directory, in the order of R222: none, or the status of the refusal. Fields are judged in the
entries that read; an entry's data is not read. -/
def State.steerCheck (s : State) (dir : Nat) : Option Nat :=
  if dir = 0 then none else
  match s.model with
  | none => some 0x0511
  | some m =>
    let valid := fun b => bit (leAt b 0 4) 31
    let len := fun b => bits (leAt b 0 4) 11 0 + 1
    let badField := fun b => bits (leAt b 0 4) 30 26 != 0 || leAt b 4 4 != 0 ||
      (valid b && (leAt b 8 8 % 64 != 0 || hHidden m.header < bits (leAt b 0 4) 25 12 + len b))
    if dir % 64 != 0 then some 0x0103
    else match s.checkRead dir 4096 with
    | some e => some e
    | none =>
      let es := ((List.range 256).filter fun l => s.readable (dir + 16 * l) 16).map fun l => s.devRead (dir + 16 * l) 16
      if es.any badField then some 0x0103
      else match (es.filter valid).findSome? fun b => s.checkRead (leAt b 8 8) (2 * len b) with
      | some e => some e
      | none => if s.readable dir 4096 then none else some 0x0420

end Sys2Proof.Machine
end

