-- ==== Sys2Proof/Machine/Weights.lean ====
section
/-! DEFINITION. Weight operands as the units read them: sealed data of the caddy window, leaves and their checks,
lines as operands, contractions (spec 03 R65 to R69, spec 04 R97 to R104, spec 10 R242 to R253, spec 12 R293). -/

namespace Sys2Proof.Machine

/-! ## Sealed data (R293, R296) -/

/-- Tweak of a sealed leaf or unit: window offset and generation (R293). -/
def leafTweak (addr : Nat) (gen : Word) : BitVec 128 :=
  BitVec.ofNat 128 (putBits (addr - Window.caddy.base) 47 0 + putBits gen.toNat 79 48)

/-- How the chunk that wrote a byte of the active bank left it: 0 clear, 1 leaf run, 2 plain sealed (R296). -/
def State.sealedAt (s : State) (a : Nat) : Nat :=
  match windowOf a, s.activeBank with
  | some .caddy, some b =>
    let o := a - Window.caddy.base
    ((b.sealedRuns.find? fun r => r.1 ≤ o && o < r.1 + r.2.1).map fun r => r.2.2).getD 0
  | _, _ => 0

/-- The caddy key in the unseal stage; with none loaded, a key of zeros (notes/assumptions/117.md). -/
def State.unsealKey (s : State) : W512 := s.caddy.key.getD 0

/-- A leaf as it leaves the unseal stage (R103, R253). -/
def State.openLeaf (s : State) (addr : Nat) (b : List Byte) : List Byte :=
  if s.sealedAt addr = 1 then b.take 2 ++ Config.xtsOpen s.unsealKey (leafTweak addr s.mem.genCurrent) (b.drop 2) else b

/-- A byte of a plain operand as it leaves the unseal stage: a byte of a sealed 512-byte unit is opened with its unit
(R103, R293). -/
def State.plainByte (s : State) (a : Nat) : Byte :=
  if s.sealedAt a = 2 then
    let u := a / 512 * 512
    (Config.xtsOpen s.unsealKey (leafTweak u s.mem.genCurrent) (s.devRead u 512)).getD (a % 512) 0
  else s.devByte a

/-- `n` bytes of a plain operand. -/
def State.plainRead (s : State) (a n : Nat) : List Byte := (List.range n).map fun i => s.plainByte (a + i)

/-! ## Operand lines (R66, R68, R97, R98) -/

/-- A line as the scale stage hands it on: one effective scale for each block of 32, or one for the line (R68). -/
def mkOperand (f : Format) (t : Word) (elems : List Num) (scales : List Nat) : Operand :=
  { fmt := f, elems := elems
    scales := if fmtBlock f then (List.range (ceilDiv elems.length 32)).map fun b => effScale f (scales.getD b 0) t
      else [effScale f 0 t] }

/-- A chunk of 128 contraction indices of a line, padded with zeros, with the scale of each group of 32 (R98, R113). -/
def Operand.chunk (o : Operand) (c : Nat) : Operand :=
  let es := (o.elems.drop (128 * c)).take 128
  { o with
    elems := es ++ List.replicate (128 - es.length) (.zero false)
    scales := (List.range 4).map fun g =>
      if fmtBlock o.fmt then o.scales.getD (4 * c + g) 0 else o.scales.headD 0x3F800000 }

/-- Results of the chunks of a contraction, in ascending order: the first is written, each later one added with one
rounding (R69, R99). -/
def chunkSum : List Word → Word
  | [] => 0
  | x :: t => t.foldl fAdd x

/-- The passes of a contraction over `k` indices, one result each (R97, R99, R113). -/
def chunkResults (k : Nat) (a w : Operand) : List Word :=
  (List.range (ceilDiv k 128)).map fun c => column (a.chunk c) (w.chunk c)

/-- A contraction over `k` indices. -/
def contract (k : Nat) (a w : Operand) : Word := chunkSum (chunkResults k a w)

/-- The FP32 values of a line (R68, R121). -/
def Operand.vals (o : Operand) : List Word :=
  o.elems.mapIdx fun i x => rnd (x.mul (num (o.scales.getD (if fmtBlock o.fmt then i / 32 else 0) 0x3F800000)))

/-- A line of FP32 values converted into a format, as an operand with a line scale (R71 to R77). -/
def convOperand (f : Format) (t : Word) (xs : List Word) : Operand :=
  let l := convLine f t none xs
  mkOperand f t ((l.codes.take xs.length).map (elemNum f)) l.scales

/-- A stored plain line as an operand. -/
def storedOperand (f : Format) (t : Word) (n : Nat) (elems scales : List Byte) : Operand :=
  mkOperand f t ((unpackBits (fmtBits f) n elems).map (elemNum f)) (scales.map BitVec.toNat)

/-! ## Weight operands and their checked pieces (R242, R249 to R253) -/

/-- A weight operand in use: its address, operand format, lines and elements per line. -/
structure Wgt where
  addr : Nat
  fmt : Format
  lines : Nat
  k : Nat
  deriving DecidableEq, Repr

/-- The operand at an address: a compressed tensor enters the tiles in its own format, a plain one in WGT_FMT
(R241, R249). -/
def State.wgtAt (s : State) (wgtFmt addr lines k : Nat) : Wgt :=
  { addr := addr, lines := lines, k := k
    fmt := (fmtOf (if Config.compressedAt addr then bits (s.devNum addr 4) 31 28 else wgtFmt)).getD .fp32 }

/-- A piece of an operand that carries a check: a leaf, or the tensor scale of a weight operand (R84, R251). -/
structure Piece where
  /-- Address of the tensor header, the plain tensor, or the received line. -/
  tensor : Nat
  /-- Leaf index; 0 for a scale. -/
  index : Nat
  fmt : Format
  rate : Nat
  addr : Nat
  /-- The leaf's index-table entry is sound (R251). -/
  entryOk : Bool
  /-- The piece is the tensor scale. -/
  scale : Bool
  deriving DecidableEq, Repr

/-- Bytes of a piece. -/
def Piece.size (p : Piece) : Nat := if p.scale then (if Config.compressedAt p.tensor then 64 else 0) else leafSize p.rate

/-- Leaves of a line of a compressed tensor (R242). -/
def State.leavesPerLine (s : State) (addr : Nat) : Nat := ceilDiv (s.devNum (addr + 12) 4) 256

/-- A leaf of a compressed tensor, through its index table (R250, R251). -/
def State.leafPiece (s : State) (w : Wgt) (n : Nat) : Piece :=
  let h := s.devRead w.addr 64
  let e := s.devNum (leAt h 16 8 + 8 * (n / 64)) 8
  let rate := bits e 50 48
  let off := bits e 47 0
  let left := leAt h 8 4 * s.leavesPerLine w.addr - n / 64 * 64
  { tensor := w.addr, index := n, fmt := w.fmt, rate := rate, addr := leAt h 24 8 + off + n % 64 * leafSize rate, scale := false
    entryOk := off % 16 = 0 && rateOk w.fmt rate && off + min 64 left * leafSize rate ≤ leAt h 32 8 }

/-- The tensor scale of a weight operand as a piece (R84). -/
def Wgt.scalePiece (w : Wgt) : Piece :=
  { tensor := w.addr, index := 0, fmt := w.fmt, rate := 0, addr := w.addr, entryOk := true, scale := true }

/-- Leaves of one line. -/
def State.linePieces (s : State) (w : Wgt) (r : Nat) : List Piece :=
  if Config.compressedAt w.addr then
    (List.range (s.leavesPerLine w.addr)).map fun i => s.leafPiece w (r * s.leavesPerLine w.addr + i)
  else []

/-- A piece passes its check: the CRC over the bytes as stored, then RATE, tags and reserved fields after the unseal
stage; a scale is valid under R65 (R84, R251, R253). -/
def State.pieceOk (s : State) (p : Piece) (b : List Byte) : Bool :=
  if p.scale then
    (if Config.compressedAt p.tensor then !fmtIb p.fmt || scaleValid (BitVec.ofNat 32 (leAt b 4 4))
     else plainScaleOk (fmtCode p.fmt) p.tensor)
  else
    p.entryOk && b.length = leafSize p.rate && leafCrc b &&
    leafClear p.fmt p.rate (p.index / 64) (p.index % 64) (s.openLeaf p.addr b)

/-- The bytes of a piece as device memory holds them. -/
def State.pieceBytes (s : State) (p : Piece) : List Byte := s.devRead p.addr p.size

/-- Tensor scale of a weight operand; `bytes` gives the bytes of a piece. -/
def Wgt.tscale (w : Wgt) (bytes : Piece → List Byte) : Word :=
  if Config.compressedAt w.addr then BitVec.ofNat 32 (leAt (bytes w.scalePiece) 4 4) else Config.plainScale w.addr

/-- A weight line as an operand (R66, R103, R242, R248). -/
def State.wgtLine (s : State) (w : Wgt) (bytes : Piece → List Byte) (r : Nat) : Operand :=
  let t := w.tscale bytes
  if Config.compressedAt w.addr then
    let bs := (s.linePieces w r).map fun p => (p, s.openLeaf p.addr (bytes p))
    mkOperand w.fmt t ((bs.flatMap fun b => leafElems w.fmt b.1.rate (b.2.drop 16)).take w.k)
      (bs.flatMap fun b => (bytesAt b.2 8 8).map BitVec.toNat)
  else
    storedOperand w.fmt t w.k (s.plainRead (w.addr + r * lineSize w.fmt w.k) (lineSize w.fmt w.k))
      (s.plainRead (w.addr + w.lines * lineSize w.fmt w.k + r * scaleSize w.fmt w.k) (scaleSize w.fmt w.k))

/-- A weight line as a unit other than a feeder reads it: FP32 values (R127, R128). -/
def State.wgtVals (s : State) (w : Wgt) (r : Nat) : List Word := (s.wgtLine w s.pieceBytes r).vals

/-- Ranges of device memory that a weight line's read touches. -/
def State.wgtRanges (s : State) (w : Wgt) (r : Nat) : List (Nat × Nat) :=
  if Config.compressedAt w.addr then
    (w.addr, 64) :: (s.linePieces w r).flatMap fun p =>
      [(s.devNum (w.addr + 16) 8 + 8 * (p.index / 64), 8), (p.addr, p.size)]
  else
    [(w.addr + r * lineSize w.fmt w.k, lineSize w.fmt w.k),
     (w.addr + w.lines * lineSize w.fmt w.k + r * scaleSize w.fmt w.k, scaleSize w.fmt w.k)]

/-- The first piece of a weight line that fails its check in device memory, as the status it gives (R84, R256). -/
def State.wgtFault (s : State) (w : Wgt) (r : Nat) : Option (Nat × Nat × Nat) :=
  ((w.scalePiece :: s.linePieces w r).find? fun p => !s.pieceOk p (s.pieceBytes p)).map fun p =>
    (if p.scale then 0x0521 else 0x0410, p.tensor, p.index)

end Sys2Proof.Machine
end

