-- ==== Sys2Proof/Machine/Receive.lean ====
section
/-! DEFINITION. The home table, quotas, dispatch payloads and the receive area (spec 07 R171 to R175, R181 to R186,
spec 10 R261). -/

namespace Sys2Proof.Machine

/-- Replace the routing units' state. -/
def State.setRte (s : State) (r : Route) : State := { s with rte := r }

/-! ## Quotas and the home table (R171 to R175) -/

/-- Entry of an expert of a layer in a table (R171). -/
def HomeTable.entry (t : HomeTable) (nexp layer e : Nat) : Option HomeEntry := t.entries[layer * nexp + e]?

/-- Members sorted by node number (R174). -/
def State.sources (s : State) : List Nat := sortBy (· ≤ ·) s.rte.quotaMembers

/-- Quota of a source for a capacity (R174). -/
def quotaOf (sources : List Nat) (cap node : Nat) : Nat :=
  match sources.findIdx? (· = node) with
  | some r => cap / sources.length + if r < cap % sources.length then 1 else 0
  | none => 0

/-- Experts per layer of the loaded model. -/
def State.nexp (s : State) : Nat := rtExperts s.routing

/-- Capacity of an expert of a layer in the table in force. -/
def State.capacity (s : State) (layer e : Nat) : Nat :=
  match s.rte.table.entry s.nexp layer e with | some h => h.capacity | none => 0

/-- Quota of a source for an expert of a layer. -/
def State.quota (s : State) (layer e node : Nat) : Nat := quotaOf s.sources (s.capacity layer e) node

/-- The layer is routed in the loaded model (R167). -/
def State.routed (s : State) (layer : Nat) : Bool :=
  match s.model with | some m => (routedLayers m.mainOps).contains layer | none => false

/-- Home local experts of a layer: expert and local index, in local index order (R183). -/
def State.homeExperts (s : State) (layer : Nat) : List (Nat × Nat) :=
  let es := (List.range s.nexp).filterMap fun e =>
    match s.rte.table.entry s.nexp layer e with
    | some h => if h.homeNode = s.dom.node then some (e, h.homeLocal) else none
    | none => none
  sortBy (fun a b : Nat × Nat => a.2 ≤ b.2) es

/-! ## Payloads (R181, R183, R261) -/

/-- Payload bytes of a dispatch of `n` elements, before padding. -/
def dispSize (routing : DWord) (wire : Word) (n : Nat) : Nat :=
  match rtDisp routing with
  | 1 => 2 * n
  | 3 => n
  | _ => if bit wire.toNat 3 then ceilDiv n 256 * leafSize (bits wire.toNat 2 0) else lineSize .ib4 n + scaleSize .ib4 n

/-- Line stride of the receive area (R183). -/
def dispStride (routing : DWord) (wire : Word) (n : Nat) : Nat := ceilDiv (dispSize routing wire n) 64 * 64

/-- A router input line in DISP_FMT: row scale and payload (R181, R261). -/
def dispPayload (routing : DWord) (wire : Word) (x : List Word) : Word × List Byte :=
  match rtDisp routing with
  | 1 => (0, (convLine .bf16 0 none x).bytes .bf16)
  | 3 => let t := rowScale x; (t, (convLine .e4m3 t none x).bytes .e4m3)
  | _ =>
    let t := dispScale x
    let l := convLine .ib4 t none x
    if bit wire.toNat 3 then
      let vals := l.codes.mapIdx fun i c => expand .ib4 (l.scales.getD (i / 32) 0) t c
      let leaves := (pieces 256 vals.length vals).mapIdx fun i v =>
        encodeLeaf .ib4 t (bits wire.toNat 2 0) 0 i ⟨v, .ib4, (l.codes.drop (256 * i)).take 256, (l.scales.drop (8 * i)).take 8⟩
      (t, leaves.flatten)
    else (t, l.bytes .ib4 ++ l.scaleBytes)

/-- First line of an expert's region in the receive area (R183). -/
def State.regionStart (s : State) (layer e : Nat) : Nat :=
  ((s.homeExperts layer).takeWhile fun p => p.1 != e).foldl (fun k p => k + s.capacity layer p.1) 0

/-- Line of a source's slot in the receive area (R183). -/
def State.recvLine (s : State) (layer e src slot : Nat) : Nat :=
  s.regionStart layer e +
    (s.sources.takeWhile (· != src)).foldl (fun k n => k + s.quota layer e n) 0 + slot

/-- Hidden width of the loaded model. -/
def State.hidden (s : State) : Nat := match s.model with | some m => hHidden m.header | none => 0

/-- Wire compression word of the loaded model. -/
def State.wire (s : State) : Word := match s.model with | some m => m.wire | none => 0

/-- Received lines of an expert in the order of its line list: source rank, then slot (R186). -/
def State.expertLines (s : State) (layer e : Nat) : List HeldLine :=
  let rank := fun n => (s.sources.findIdx? (· = n)).getD 0
  sortBy (fun a b : HeldLine => rank a.src < rank b.src || (rank a.src = rank b.src && a.slot ≤ b.slot))
    (s.rte.lines.filter fun l => l.layer = layer && l.expert = e)

/-- Home expert of a layer at a local index (R172). -/
def State.expertAt (s : State) (layer i : Nat) : Option Nat := ((s.homeExperts layer).find? fun p => p.2 = i).map Prod.fst

/-- Line of the receive area that a held line has. -/
def State.heldAt (s : State) (l : HeldLine) : Nat := s.recvLine l.layer l.expert l.src l.slot

/-- Address of a line of the receive area (R183). -/
def State.recvAddr (s : State) (i : Nat) : Nat := s.rte.recvBase.toNat + dispStride s.routing s.wire s.hidden * i

/-- Stride of the lines of `n` elements that an EXPERT record writes: laid out like the receive area, elements then block
scales, rounded up to 64 bytes (R35, R183). -/
def expertStride (f : Format) (n : Nat) : Nat := ceilDiv (lineSize f n + scaleSize f n) 64 * 64

end Sys2Proof.Machine
end

