-- ==== Sys2Proof/Machine/Output.lean ====
section
/-! DEFINITION. Lines of the steep program's operations: what reads them, the output path, norm watch and escalation
(spec 03 R82 to R93, spec 05 R124 to R137, spec 06 R150 to R164). -/

namespace Sys2Proof.Machine

/-- Replace the steep. -/
def State.setSteep (s : State) (t : Steep) : State := { s with steep := t }

/-- The batch entry of a sequence. -/
def State.item (s : State) (q : Nat) : Option BatchItem := s.steep.batch.find? fun b => b.seq = q

/-- A sequence was closed or cancelled in this steep, from the moment of acceptance on (R27). -/
def State.endedSeq (s : State) (q : Nat) : Bool := s.steep.ended.contains q || s.closeIn q

/-- A sequence stages nothing in this steep: it failed it, or was closed or cancelled (R20, R27). -/
def State.gone (s : State) (q : Nat) : Bool := s.steep.failed.contains q || s.endedSeq q

/-- A sequence fails the steep with a contained data error (R20, R445). -/
def State.dataError (s : State) (status : Nat) (seqs : List Nat) (unit die pos addr detail : Nat) : State :=
  s.raise { status := status, cls := 1, unit := unit, die := die, pos := pos, seqs := seqs, addr := addr
            detail := detail, until_ := .steep }

/-- Unit that an error record names for what stopped a read: the HBM channel of uncorrectable data, else none (R443). -/
def State.faultUnit (s : State) (status a : Nat) : Nat × Nat × Nat :=
  if status = 0x0420 then match s.place a with | some p => (3, 0, p.1) | none => (0, 0, 0) else (0, 0, 0)

/-- A sequence fails the steep because a read of its work was stopped: status, address and detail (R84, R264, R272). -/
def State.readError (s : State) (q : Nat) (e : Nat × Nat × Nat) : State :=
  let u := s.faultUnit e.1 e.2.1
  s.dataError e.1 [q] u.1 u.2.1 u.2.2 e.2.1 e.2.2

/-- Sequences of the batch, in batch-list order. -/
def State.batchSeqs (s : State) : List Nat := s.steep.batch.map BatchItem.seq

/-- The steep program stops for the steep: every sequence of the batch fails (R82). -/
def State.stopProgram (s : State) (draft : Bool) (index status addr detail : Nat) : State :=
  let s := s.setSteep { s.steep with stopped := some (draft, index) }
  s.raise { status := status, cls := 1, unit := 8, die := 0, pos := 0, seqs := s.batchSeqs, addr := addr
            detail := detail, until_ := .steep }

/-! ## Lines (R34, R169, R208, R231) -/

/-- A line of an operation of the package's own batch: sequence, position and token. -/
structure OpLine where
  seq : Nat
  pos : Nat
  token : Word
  deriving DecidableEq, Repr

/-- The draft token that pass i proposed for a sequence; 0 where it is absent (R232). -/
def State.drafted (s : State) (q i : Nat) : Word :=
  match (s.steep.drafts.get [] q)[i - 1]? with
  | some d => d.1.getD 0
  | none => 0

/-- Main-model lines, by row: chunk tokens, or the last committed token and the draft tokens (R208, R231). -/
def State.mainLines (s : State) : List OpLine :=
  s.steep.batch.flatMap fun b => (List.range b.lines).map fun j =>
    { seq := b.seq, pos := b.firstPos + j
      token := if b.prefill || j = 0 then b.tokens.getD j 0 else s.drafted b.seq j }

/-- Lines of the draft pass in progress, by row (R231). -/
def State.draftRows (s : State) : List OpLine :=
  let i := s.steep.draftPasses + 1
  s.steep.batch.flatMap fun b =>
    if i = 1 then
      (if b.prefill then (List.range b.lines).map fun j => { seq := b.seq, pos := b.firstPos + j, token := b.tokens.getD j 0 }
       else [{ seq := b.seq, pos := b.firstPos - 1, token := b.prev }, { seq := b.seq, pos := b.firstPos, token := b.tokens.getD 0 0 }])
    else if !b.prefill && i ≤ b.draft then
      [{ seq := b.seq, pos := b.firstPos + i - 1, token := s.drafted b.seq (i - 1) }]
    else []

/-- Lines of a list's operations, by row. -/
def State.ownLines (s : State) (draft : Bool) : List OpLine := if draft then s.draftRows else s.mainLines

/-- M of the operations of a list: LINES of the batch area, or DRAFT_LINES (R34, R113). -/
def State.areaLines (s : State) (m : Model) (draft : Bool) : Nat := s.devNum (hBatch m.header + if draft then 4 else 0) 4

/-- Address of a line's elements and of its block scales: the block-scale array follows the element array of the M lines
(notes/assumptions/20.md). -/
def lineAddr (f : Format) (lines n base row : Nat) : Nat × Nat :=
  (base + row * lineSize f n, base + lines * lineSize f n + row * scaleSize f n)

/-- Ranges of a stored line. -/
def lineRanges (f : Format) (lines n base row : Nat) : List (Nat × Nat) :=
  let a := lineAddr f lines n base row
  [(a.1, lineSize f n), (a.2, scaleSize f n)]

/-- A stored line as an operand. -/
def State.storedAt (s : State) (f : Format) (t : Word) (lines n base row : Nat) : Operand :=
  let a := lineAddr f lines n base row
  storedOperand f t n (s.devRead a.1 (lineSize f n)) (s.devRead a.2 (scaleSize f n))

/-- FP32 values from device memory. -/
def State.f32s (s : State) (a n : Nat) : List Word := (List.range n).map fun i => BitVec.ofNat 32 (s.devNum (a + 4 * i) 4)

/-- Format and tensor scale of the lines at an address: those of the record that wrote them last, with its layer precision
word as it stands; FP32 where none of the list did (R37, notes/assumptions/118.md). -/
def State.fmtAt (s : State) (m : Model) (draft : Bool) (index addr : Nat) : Format × Word :=
  match (List.range index).reverse.find? fun i => rOut ((m.ops draft).getD i []) = addr with
  | some i => let r := s.record_ m draft i; ((fmtOf (lpwOut (rLpw r))).getD .fp32, rTscale r)
  | none => (.fp32, 0)

/-- Elements of an input line of a record, by its kind (R35, notes/assumptions/119.md). -/
def inWidth (g : DWord) (r : List Byte) : Nat :=
  match rKind r with
  | 3 => geoHeads g * (geoDk g + geoRot g)
  | 6 => rN r
  | _ => rK r

/-- Elements of an output line of a record. -/
def outWidth (h : List Byte) (g : DWord) (r : List Byte) : Nat :=
  match rKind r with
  | 1 => hHidden h
  | 3 => geoHeads g * geoDv g
  | _ => rN r

/-- ACT_FMT of a record. -/
def actFmt (r : List Byte) : Format := (fmtOf (lpwAct (rLpw r))).getD .fp32

/-- The input line of a record at a row of its own batch, as an operand in ACT_FMT (R35, R103). -/
def State.inOperand (s : State) (m : Model) (draft : Bool) (index : Nat) (r : List Byte) (lines row : Nat) : Operand :=
  s.storedAt (actFmt r) (s.fmtAt m draft index (rIn r)).2 lines (inWidth m.attnGeom r) (rIn r) row

/-- The source of an escalation in FP32: the BF16 copy where the record has one, else the input (R86). -/
def State.escSource (s : State) (m : Model) (index : Nat) (r : List Byte) (lines row : Nat) : List Word :=
  let n := inWidth m.attnGeom r
  if rEsc r then (s.storedAt .bf16 0 lines n (rEscBuf r) row).vals
  else (s.inOperand m false index r lines row).vals

/-- The recomputed activation line: FP8 E4M3 with a row scale of its own (R89). -/
def escOperand (x : List Word) : Operand := convOperand .e4m3 (rowScale x) x

/-! ## Contractions of a record (R99, R113, R172) -/

/-- Weight operand of a matrix record: lines are output columns; an EXPERT record takes its local expert's tensor, with
INTER_W elements to a line of W_OUT (R35, R172, notes/assumptions/120.md). -/
def State.opWgt (s : State) (m : Model) (r : List Byte) (expert : Nat) : Wgt :=
  let f := lpwWgt (rLpw r)
  if rKind r = 5 then
    let e := s.localExpert m.header expert
    if rWgt r = 0 then s.wgtAt f e.wIn (rN r) (rK r) else s.wgtAt f e.wOut (rN r) e.inter
  else s.wgtAt f (rWgt r) (rN r) (rK r)

/-- A record whose results come from the matrix tiles (R35). -/
def isMatrix (r : List Byte) : Bool := [2, 4, 5, 7].contains (rKind r)

/-- Output blocks of 128 columns. -/
def opBlocks (r : List Byte) : Nat := ceilDiv (rN r) 128

/-- Format of the lines that an EXPERT record of a list position reads: DISP_FMT for the first of its layer, else what
the record before writes (R35, R183). -/
def State.expertIn (s : State) (m : Model) (index : Nat) : Format × Bool :=
  let p := s.record_ m false (index - 1)
  if rKind p = 5 then ((fmtOf (lpwOut (rLpw p))).getD .fp32, false) else ((fmtOf (rtDisp s.routing)).getD .bf16, true)

/-- Leaves of a received line whose payload is compressed (R261). -/
def State.wirePieces (s : State) (l : HeldLine) : List Piece :=
  let rate := bits s.wire.toNat 2 0
  let a := s.recvAddr (s.heldAt l)
  (List.range (ceilDiv s.hidden 256)).map fun i =>
    { tensor := a, index := i, fmt := .ib4, rate := rate, addr := a + i * leafSize rate, entryOk := true, scale := false }

/-- A received line's input to an EXPERT record as an operand; `bytes` gives the bytes of a leaf (R35, R183, R261). -/
def State.expertOperand (s : State) (m : Model) (index : Nat) (bytes : Piece → List Byte) (l : HeldLine) : Operand :=
  let p := s.record_ m false (index - 1)
  let (f, first) := s.expertIn m index
  if first then
    if f = .ib4 && bit s.wire.toNat 3 then
      let bs := (s.wirePieces l).map fun p => (p, bytes p)
      mkOperand .ib4 l.rowScale ((bs.flatMap fun b => leafElems .ib4 b.1.rate (b.2.drop 16)).take s.hidden)
        (bs.flatMap fun b => (bytesAt b.2 8 8).map BitVec.toNat)
    else
      let a := s.recvAddr (s.heldAt l)
      storedOperand f l.rowScale s.hidden (s.devRead a (lineSize f s.hidden)) (s.devRead (a + lineSize f s.hidden) (scaleSize f s.hidden))
  else
    let n := rN p
    let a := rOut p + expertStride f n * s.heldAt l
    storedOperand f (rTscale p) n (s.devRead a (lineSize f n)) (s.devRead (a + lineSize f n) (scaleSize f n))

/-! ## Runs of operations (R82, R90) -/

/-- The run of an operation in this steep. -/
def State.runOf (s : State) (draft : Bool) (i e : Nat) : Option OpRun :=
  s.steep.issued.find? fun t => t.draft = draft && t.index = i && t.expert = e

/-- Update the run of an operation. -/
def State.onRun (s : State) (draft : Bool) (i e : Nat) (f : OpRun → OpRun) : State :=
  s.setSteep { s.steep with issued := updateIf s.steep.issued (fun t => t.draft = draft && t.index = i && t.expert = e) f }

/-- An operation of the package's own batch has taken the output path whole (R90). -/
def State.opDone (s : State) (draft : Bool) (i : Nat) : Bool :=
  match s.runOf draft i 0 with
  | some t => t.done
  | none => false

/-- Result columns that the vector unit has read for a line, in block order (R118). -/
def OpRun.line (t : OpRun) (row blocks n : Nat) : Option (List Word) :=
  let got := (List.range blocks).map fun b => (t.sums.find? fun x => x.1 = row && x.2.1 = b).map fun x => x.2.2
  if got.all Option.isSome then some ((got.flatMap fun x => x.getD []).take n) else none

/-! ## Attention (R150 to R164) -/

/-- Keys that a query at a position includes, ascending (R152, R158). -/
def State.includedKeys (s : State) (m : Model) (draft : Bool) (r : List Byte) (l : OpLine) : List Nat :=
  (s.keySet (layerRegion m.attnGeom draft (rLayer r)) l.seq).filter
    (s.keyIn (bits (rAow r) 31 30) (s.seq l.seq).maskAddr.toNat l.pos)

/-- Slot of a key; an absent page has none. -/
def State.keySlot (s : State) (m : Model) (draft : Bool) (r : List Byte) (q k : Nat) : Option Nat :=
  s.slotAddr m.attnGeom q (layerRegion m.attnGeom draft (rLayer r)) k

/-- Format of the latent part (R140). -/
def latFmt (g : DWord) : Format := (fmtOf (geoFmt g)).getD .bf16

/-- The latent and the rotary part of a slot as operands (R141, R143). -/
def State.slotOperands (s : State) (g : DWord) (kv : Word) (slot : Nat) : Operand × Operand :=
  let n := geoLat g * geoElem g
  (storedOperand (latFmt g) (if geoFmt g = 1 then 0 else kv) (geoLat g) (s.devRead slot n) [],
   storedOperand .bf16 0 (geoRot g) (s.devRead (slot + n) (2 * geoRot g)) [])

/-- What one head of one query brings to its keys: the query as key-side operand, and its rotated rotary part (R153). -/
structure HeadQuery where
  /-- EXPAND_K = 1: the query latent in LAT_FMT; EXPAND_K = 0: the query in BF16. -/
  side : Operand
  rot : Operand
  deriving DecidableEq, Repr

/-- A head's query (R129, R153). Where LAT_FMT is FP8 the query latent's row scale is that of R89. -/
def State.headQuery (s : State) (m : Model) (r : List Byte) (wuk : Wgt) (pos h : Nat) (q : List Word) : HeadQuery :=
  let g := m.attnGeom
  let qh := (q.drop (h * (geoDk g + geoRot g))).take (geoDk g + geoRot g)
  let qn := convOperand .bf16 0 (qh.take (geoDk g))
  let rot := rope pos (rRotStart r) (rRotLen r) (!rRotPair r) (s.f32s (rRotTable r) (rRotLen r / 2)) (qh.drop (geoDk g))
  let side :=
    if bit (rAow r) 29 then
      let rows := (List.range (geoDk g)).map fun d => s.wgtLine wuk s.pieceBytes (h * geoDk g + d)
      let lat := (List.range (geoLat g)).map fun i =>
        contract (geoDk g) qn (mkOperand wuk.fmt (wuk.tscale s.pieceBytes) (rows.map fun o => o.elems.getD i (.zero false)) [])
      convOperand (latFmt g) (if geoFmt g = 1 then 0 else rowScale lat) lat
    else qn
  { side := side, rot := convOperand .bf16 0 rot }

/-- The score of a key before τ: latent chunks in ascending order, the rotary chunk last (R153). -/
def State.keyScore (s : State) (m : Model) (r : List Byte) (wuk : Wgt) (h : Nat) (hq : HeadQuery) (c kr : Operand) : Word :=
  let g := m.attnGeom
  let lat :=
    if bit (rAow r) 29 then chunkResults (geoLat g) c hq.side
    else
      let k := (List.range (geoDk g)).map fun d => contract (geoLat g) c (s.wgtLine wuk s.pieceBytes (h * geoDk g + d))
      chunkResults (geoDk g) (convOperand .bf16 0 k) hq.side
  chunkSum (lat ++ if geoRot g = 0 then [] else chunkResults (geoRot g) kr hq.rot)

/-- The value vector of a key for a head, in BF16 and expanded again (R154). -/
def State.keyValue (s : State) (m : Model) (wuv : Wgt) (h : Nat) (c : Operand) : List Word :=
  let g := m.attnGeom
  (convOperand .bf16 0 ((List.range (geoDv g)).map fun d =>
    contract (geoLat g) c (s.wgtLine wuv s.pieceBytes (h * geoDv g + d)))).vals

/-- Expansion matrices of an attention record: W_UK and W_UV of every head (R35, R153). -/
def State.expansions (s : State) (m : Model) (r : List Byte) : Wgt × Wgt :=
  let g := m.attnGeom
  let f := lpwWgt (rLpw r)
  (s.wgtAt f (rWgt r) (geoHeads g * geoDk g) (geoLat g), s.wgtAt f (rWgt2 r) (geoHeads g * geoDv g) (geoLat g))

/-- The attention output of a line, head by head (R131, R132, R153, R154, R158). -/
def State.attnLine (s : State) (m : Model) (draft : Bool) (r : List Byte) (l : OpLine) (q : List Word) : List Word :=
  let g := m.attnGeom
  let tau := s.constant m.header (rCa r)
  let kv := s.kvScale m draft (rLayer r)
  let w := s.expansions m r
  let keys := (s.includedKeys m draft r l).filterMap fun k =>
    (s.keySlot m draft r l.seq k).map fun a => (k, s.slotOperands g kv a)
  (List.range (geoHeads g)).flatMap fun h =>
    let hq := s.headQuery m r w.1 l.pos h q
    softWeighted (geoDv g) (keys.map fun k =>
      ⟨k.1, fMul tau (s.keyScore m r w.1 h hq k.2.1 k.2.2), s.keyValue m w.2 h k.2.1⟩)

/-! ## Placing sequences (R162 to R164) -/

/-- Groups of G cores of a die, in core-number order (R163). -/
def State.attnGroups (s : State) (die : Nat) : List (List Nat) :=
  pieces s.groupCores ((s.coresOf die).length / s.groupCores) (s.coresOf die)

/-- Die of each of several sequences with their key-set sizes: the smallest sum so far, lowest number on a tie, of the
dies that can form a group (R163, R451). -/
def State.placeDies (s : State) (sizes : List Nat) : List Nat :=
  let dies := (List.range 4).filter fun d => s.groupCores ≤ (s.coresOf d).length
  (sizes.foldl (fun (acc : List Nat × Tab Nat) n =>
    let best := dies.foldl (fun o d => match o with
      | none => some d
      | some e => if acc.2.get 0 d < acc.2.get 0 e then some d else some e) none
    let d := best.getD 0
    (acc.1 ++ [d], acc.2.set d (acc.2.get 0 d + n))) (([] : List Nat), ([] : Tab Nat))).1

/-- The die that runs a batch entry's attention now: the one assigned, or one of the other dies, chosen in the same
order, where that die can form no group any more (R451). -/
def State.attnDie (s : State) (b : BatchItem) : Nat :=
  if (s.attnGroups b.die).isEmpty then
    let moved := s.steep.batch.filter fun c => (s.attnGroups c.die).isEmpty
    ((List.zip (moved.map BatchItem.seq) (s.placeDies (moved.map fun c => c.firstPos + c.lines))).find? fun p => p.1 = b.seq).elim
      b.die Prod.snd
  else b.die

/-- Cores of the group that runs a batch entry's attention: a die's groups take its sequences in assignment order
(R163). -/
def State.attnCores (s : State) (b : BatchItem) : List Nat :=
  let d := s.attnDie b
  let mine := (s.steep.batch.filter fun c => s.attnDie c = d).map BatchItem.seq
  let gs := s.attnGroups d
  gs.getD ((mine.findIdx? (· = b.seq)).getD 0 % gs.length) []

/-! ## The output path (R124) -/

/-- Step 1 of a line of the package's own batch; `esc` recomputes it from the escalation source (R89, R124). -/
def State.step1 (s : State) (m : Model) (draft : Bool) (t : OpRun) (r : List Byte) (row : Nat) (l : OpLine) (esc : Bool) : List Word :=
  let input := fun (_ : Unit) =>
    if esc then escOperand (s.escSource m t.index r t.lines row) else s.inOperand m draft t.index r t.lines row
  match rKind r with
  | 1 => s.wgtVals (s.wgtAt (lpwWgt (rLpw r)) (rWgt r) (hVocab m.header) (hHidden m.header)) l.token.toNat
  | 3 => s.attnLine m draft r l (input ()).vals
  | 6 => (input ()).vals
  | _ =>
    if esc then
      let w := s.opWgt m r 0
      (List.range (rN r)).map fun n => contract w.k (input ()) (s.wgtLine w s.pieceBytes n)
    else (t.line row (opBlocks r) (rN r)).getD []

/-- Step 3: the activation (R36, R121). A temporary that no step has written reads +0.0 (notes/assumptions/113.md). -/
def State.activate (s : State) (m : Model) (r : List Byte) (row : Nat) (x : List Word) : List Word :=
  match rAct r with
  | 0 => x
  | 7 => x.map fGeluErf
  | 8 => x.map fGeluTanh
  | 9 => x.map fGeluSig
  | _ =>
    let steps := (List.range (rVsteps r)).map fun i => s.devNum (rVlist r + 16 * i) 16
    let run := fun (lines : List (List Word)) (v : Nat) =>
      let addr := fieldAt v 8 8
      vstep v (fun sel konst i =>
        if sel = 8 then s.constant m.header konst
        else if sel = 9 then BitVec.ofNat 32 (s.devNum (addr + 4 * i) 4)
        else BitVec.ofNat 32 (s.devNum (addr + 4 * row) 4)) lines x.length
    (steps.foldl run (x :: List.replicate 7 (x.map fun _ => (0 : Word)))).headD []

/-- Weight operands of a normalisation: gain, and bias where there is one (R127, R128). -/
def State.normWgts (s : State) (r : List Byte) : List Wgt :=
  if rNormk r = 0 then [] else
  let w := fun a => s.wgtAt (lpwWgt (rLpw r)) a 1 (rN r)
  if rWgt2 r = 0 then [w (rWgt r)] else [w (rWgt r), w (rWgt2 r)]

/-- Steps 2 to 4 on a line (R124, R126, R127). -/
def State.steps2to4 (s : State) (m : Model) (r : List Byte) (row : Nat) (x : List Word) : List Word :=
  let sv := fun i : Nat => match rScale r with
    | 1 => s.constant m.header (rCa r)
    | 2 => BitVec.ofNat 32 (s.devNum (rSb r + 4 * i) 4)
    | _ => 0x3F800000
  let bv := fun i : Nat => if rBias r then BitVec.ofNat 32 (s.devNum (rSb r + 4 * rN r + 4 * i) 4) else 0
  let x := if rScale r = 0 && !rBias r then x else x.mapIdx fun i v => fFma v (sv i) (bv i)
  let x := s.activate m r row x
  let w := (s.normWgts r).map fun w => s.wgtVals w 0
  let eps := s.constant m.header (rCa r)
  match rNormk r with
  | 0 => x
  | 1 => normRms x (w.getD 0 []) eps
  | _ => normLayer x (w.getD 0 []) (w.getD 1 (x.map fun _ => 0)) eps

/-- Ranges that steps 2 to 4 and 6 of a row read: vectors, step arrays, gain and bias, residual (R124). -/
def State.sideRanges (s : State) (m : Model) (draft : Bool) (index : Nat) (r : List Byte) (lines row : Nat) : List (Nat × Nat) :=
  let n := outWidth m.header m.attnGeom r
  (if rScale r = 2 then [(rSb r, 4 * rN r)] else []) ++ (if rBias r then [(rSb r + 4 * rN r, 4 * rN r)] else []) ++
  (if rAct r = 0x1F then (List.range (rVsteps r)).flatMap fun i =>
      let v := s.devRead (rVlist r + 16 * i) 16
      let sels := [bits (leAt v 0 4) 19 16, bits (leAt v 0 4) 15 12]
      [(rVlist r + 16 * i, 16)] ++ (if sels.contains 9 then [(leAt v 8 8, 4 * n)] else []) ++
      (if sels.contains 10 then [(leAt v 8 8 + 4 * row, 4)] else [])
    else []) ++
  (s.normWgts r).flatMap (fun w => s.wgtRanges w 0) ++
  (if rResid r then
    let ft := s.fmtAt m draft index (rResidual r)
    lineRanges ft.1 lines n (rResidual r) row
   else [])

/-- Ranges that step 1 of a row of the package's own batch reads beside the accumulation region. -/
def State.step1Ranges (s : State) (m : Model) (draft : Bool) (t : OpRun) (r : List Byte) (row : Nat) (l : OpLine) : List (Nat × Nat) :=
  let input := lineRanges (actFmt r) t.lines (inWidth m.attnGeom r) (rIn r) row
  match rKind r with
  | 1 => s.wgtRanges (s.wgtAt (lpwWgt (rLpw r)) (rWgt r) (hVocab m.header) (hHidden m.header)) l.token.toNat
  | 3 => input ++ (s.weightRanges m.header m.attnGeom r (rWgt r)) ++ (s.weightRanges m.header m.attnGeom r (rWgt2 r)) ++
      (s.includedKeys m draft r l).filterMap fun k => (s.keySlot m draft r l.seq k).map fun a => (a, geoTS m.attnGeom)
  | 6 => input
  | _ => []

/-- Weight lines that a row's steps 1 to 4 read past the feeders, whose checks they pass too (R84, R252). -/
def State.sideWeights (s : State) (m : Model) (r : List Byte) (l : OpLine) : List (Wgt × Nat) :=
  (if rKind r = 1 then [(s.wgtAt (lpwWgt (rLpw r)) (rWgt r) (hVocab m.header) (hHidden m.header), l.token.toNat)] else []) ++
  (s.normWgts r).map fun w => (w, 0)

/-- What stops a row: status, address and detail; none where every read serves (R84, R256, R264, R272). -/
def State.rowFault (s : State) (m : Model) (draft : Bool) (t : OpRun) (r : List Byte) (row : Nat) (l : OpLine) : Option (Nat × Nat × Nat) :=
  match (s.step1Ranges m draft t r row l ++ s.sideRanges m draft t.index r t.lines row).findSome? fun p =>
    (s.readFault p).map fun e => (e, p.1, 0) with
  | some e => some e
  | none => (s.sideWeights m r l).findSome? fun w => s.wgtFault w.1 w.2

/-! ## Norm watch (R85 to R91) -/

/-- Address of the norm-watch entry of an operation of the main list (R93). -/
def normAddr (m : Model) (i : Nat) : Option Nat :=
  match (watched m.mainOps).findIdx? (· = i) with
  | some k => if hNorm m.header = 0 then none else some (hNorm m.header + 32 * k)
  | none => none

/-- A norm jumps (R87). -/
def State.jumps (s : State) (m : Model) (i lpw : Nat) (n : Word) : Bool :=
  if !(num n).isFin then true
  else match normAddr m i with
  | none => false
  | some a =>
    let mean := BitVec.ofNat 32 (s.devNum a 4)
    256 ≤ s.devNum (a + 4) 4 && (Num.zero false).lt (num mean) &&
    ((Num.fin false (lpwJump lpw) (-1)).mul (num mean)).lt (num n)

/-- Update the norm results of an operation in this steep. -/
def State.onNorm (s : State) (i : Nat) (f : NormAcc → NormAcc) : State :=
  let ns := s.steep.norms
  let ns := if ns.any fun a => a.op = i then ns else ns ++ [{ op := i }]
  s.setSteep { s.steep with norms := updateIf ns (fun a => a.op = i) f }

/-- A line that is kept although its norm jumps is flagged; a norm that is not finite fails the sequence
(R89, R91). -/
def State.flagLine (s : State) (index q : Nat) (n : Word) : State :=
  let bad := !(num n).isFin
  let s := s.onNorm index fun a => { a with flagLines := a.flagLines + 1, nonfinite := a.nonfinite + (if bad then 1 else 0) }
  let s := s.setSteep { s.steep with flagged := addNew s.steep.flagged q }
  if bad then s.dataError 0x0522 [q] 0 0 0 0 0 else s

/-- The norm check of a line that no escalation can follow: counted, or flagged (R87, R89). -/
def State.normCheck (s : State) (m : Model) (index : Nat) (r : List Byte) (q : Nat) (x : List Word) : State :=
  if lpwNact (rLpw r) = 0 then s
  else
    let n := lineNorm x
    if s.jumps m index (rLpw r) n then s.flagLine index q n
    else s.onNorm index fun a => { a with norms := a.norms ++ [(q, n)] }

/-- Lines that jump are recomputed under this layer precision word (R89). -/
def escalates (lpw : Nat) : Bool := lpwNact lpw = 2 && rankOf (lpwAct lpw) < 3

/-! ## Steps 6 to 8 (R124, R136, R151) -/

/-- Draws of stochastic rounding of a line (R77, R78). -/
def srDraw (seed : DWord) (layer opidx c1 c2 : Nat) (e : Nat) : Nat :=
  (philox seed (layer % 256 + opidx % 256 * 256) c1 c2 (e / 4)).getD (e % 4) 0 % 65536

/-- Step 8 of a line of a record whose generator counts a sequence and a position (R77, R78, R124). -/
def convOut (m : Model) (r : List Byte) (c1 c2 : Nat) (x : List Word) : Line :=
  let u := if lpwSround (rLpw r) then some (srDraw (hSeed m.header) (rLayer r) (rOpidx r) c1 c2) else none
  convLine ((fmtOf (lpwOut (rLpw r))).getD .fp32) (rTscale r) u x

/-- Store where the package may write. -/
def State.storeOk (s : State) (a : Nat) (bs : List Byte) : State :=
  if bs.isEmpty || (s.checkWrite a bs.length).isSome then s else s.store a bs

/-- Store bytes of a sequence's line; a place that takes no write fails the sequence for the steep (R264, R276). -/
def State.storeLine (s : State) (q a : Nat) (bs : List Byte) : State :=
  if bs.isEmpty then s
  else match s.checkWrite a bs.length with
  | some e => s.dataError e [q] 0 0 0 a 0
  | none => s.store a bs

/-- The KV entry of a line of the latent projection, in the slot of its position (R151, R152). -/
def State.writeSlot (s : State) (m : Model) (draft : Bool) (r : List Byte) (l : OpLine) (line : List Word) : State :=
  let g := m.attnGeom
  let region := layerRegion g draft (rLayer r)
  match s.slotAddr g l.seq region l.pos with
  | none => s
  | some slot =>
    let s := s.storeLine l.seq slot (slotBytes g (s.kvScale m draft (rLayer r)) l.pos (rRotStart r) (rRotLen r) (!rRotPair r)
      (s.f32s (rRotTable r) (rRotLen r / 2)) line)
    s.setSteep { s.steep with kvStaged := s.steep.kvStaged ++ [(region, l.seq, l.pos)] }

/-- Steps 6 to 8 of a line of the package's own batch, the escalation copy, and the KV entry of a latent projection (R86,
R124, R136, R151). -/
def State.steps6to8 (s : State) (m : Model) (draft : Bool) (index : Nat) (r : List Byte) (lines row : Nat) (l : OpLine)
    (x : List Word) : State :=
  let n := x.length
  let x := if rResid r then
      let ft := s.fmtAt m draft index (rResidual r)
      List.zipWith fAdd x (s.storedAt ft.1 ft.2 lines n (rResidual r) row).vals
    else x
  let x := if rSteer r && !draft then
      match s.steering (s.seq l.seq).tenant (rLayer r) with
      | some e => steerLine e x
      | none => x
    else x
  let f := (fmtOf (lpwOut (rLpw r))).getD .fp32
  let y := convOut m r l.seq l.pos x
  let a := lineAddr f lines n (rOut r) row
  let s := (s.storeLine l.seq a.1 (y.bytes f)).storeLine l.seq a.2 y.scaleBytes
  let s := if rEscw r then s.storeLine l.seq (rEscBuf r + row * lineSize .bf16 n) ((convLine .bf16 0 none x).bytes .bf16) else s
  let s := if y.zeroed = 0 || draft || lpwNact (rLpw r) = 0 then s
           else s.onNorm index fun a => { a with nonfinite := a.nonfinite + y.zeroed }
  if rKvw r && !s.gone l.seq then
    s.writeSlot m draft r l (storedOperand f (rTscale r) n (y.bytes f) y.scaleBytes).vals
  else s

/-! ## Change of bank (R88, R279, R306, R308) -/

/-- Mean and contributing-line count of every watched operation are reset; all of each entry where `whole`, at model load and in
a rebuild (R88, R453, notes/assumptions/129.md). -/
def State.normReset (s : State) (m : Model) (whole : Bool) : State :=
  (List.range (watched m.mainOps).length).foldl (fun s i =>
    if hNorm m.header = 0 then s else s.storeOk (hNorm m.header + 32 * i) (List.replicate (if whole then 32 else 8) 0)) s

/-- Granules at a bank switch: the old generation's stop being hits, the prefilled become hits (R279). -/
def switchGranules (gen : Word) (l : List Granule) : List Granule :=
  (l.filter fun g => g.gen = none || g.gen = some gen || g.filling).map fun g =>
    if g.gen = none then g else if g.gen = some gen then { g with prefill := false } else { g with drop := true }

/-- The idle bank of a generation becomes the active one: ACTIVATE is written, the generation is in force, means are reset
(R88, R279, R306, R308). -/
def State.takeBank (s : State) (g : Word) : State :=
  let b := s.caddy.idle
  let s := (s.setCaddy { s.caddy with active := b, armed := none }).jnlActivate b
  let s := { s with mem := { s.mem with genCurrent := g, granules := switchGranules g s.mem.granules } }
  match s.model with | some m => s.normReset m false | none => s

end Sys2Proof.Machine
end

