-- ==== Sys2Proof/Machine/Discovery.lean ====
section
/-! DEFINITION. Discovery: HELLO, election, node numbering, link reports, membership (spec 15 R376 to R388,
spec 17 R430, spec 18 R459, R460). -/

namespace Sys2Proof.Machine

/-- Replace the discovery state. -/
def State.setDisc (s : State) (d : Disc) : State := { s with disc := d }
/-- Replace the domain state. -/
def State.setDom (s : State) (d : Domain) : State := { s with dom := d }

/-- Up links, ascending. -/
def State.upLinks (s : State) : List Nat := s.linkList.filter fun l => (s.link l).isUp
/-- Up domain links, ascending. -/
def State.domainLinks (s : State) : List Nat := s.linkList.filter s.domainLink

/-- A period since an optional time has passed. -/
def State.elapsed (s : State) (t : Option DWord) (n : Nat) : Bool :=
  match t with | some t => n ≤ s.since t | none => true

/-! ## HELLO (R376, R380) -/

/-- HELLO_SEND: on every up link once every 1 ms (R380). -/
def execHelloSend (s : State) : Host.Outcome State Fault Refusal :=
  act (s.live && s.elapsed s.disc.lastHello 25000) s fun s =>
    let s := s.setDisc { s.disc with lastHello := some s.now }
    s.upLinks.foldl (fun s l => s.hello l) s

/-- Another link of the package on the same switch plane that keeps this one out: lower index, up, in its
port (R376). -/
def State.planeTaken (s : State) (l plane : Nat) : Bool :=
  s.upLinks.any fun m => m < l && (s.link m).peerKind = 2 && (s.link m).plane = plane && !(s.link m).heldOut

/-- Hold a link out of its port, logged as corrected (R376). -/
def State.holdOut (s : State) (l : Nat) : State :=
  (s.onLink l fun k => { k with heldOut := true }).raise { status := 0x0315, cls := 0, unit := 4, die := linkDie l, pos := l }

/-- HELLO: the peer is recorded, the port takes its kind or the link is held out (R376, R380). -/
def execHello (l : Nat) (f : Frame) (s : State) : Host.Outcome State Fault Refusal :=
  act (s.live && l < s.part.links && (s.link l).isUp && f.intact && f.kind = 1) s fun s =>
    let k := s.link l
    let kind := f.senderKind + 1
    let want := if f.senderKind = 2 then 2 else 1
    let k' := { k with
      peerKind := kind, peerNode := f.node, peerLink := f.link, plane := f.plane, swPort := f.swPort
      swPorts := if kind = 1 then 0 else f.count }
    let s := if f.senderKind = 0 && f.node != 0xFF then s.setDisc { s.disc with prio := s.disc.prio.set f.node f.mgrPrio } else s
    let changed := k'.peerKind != k.peerKind || k'.peerNode != k.peerNode || k'.plane != k.plane
    let s := s.setLink l k'
    let s := if s.portKind k.port = 0 then s.setDisc { s.disc with portKind := s.disc.portKind.set k.port want } else s
    let bad := s.portKind k.port != want || (kind = 2 && s.planeTaken l f.plane)
    let s := if bad then (if k.heldOut then s else s.holdOut l) else s.onLink l fun k => { k with heldOut := false }
    -- A link of higher index already on the plane is held out in favour of this one.
    let s := if bad || kind != 2 then s else
      (s.upLinks.filter fun m => l < m && (s.link m).peerKind = 2 && (s.link m).plane = f.plane && !(s.link m).heldOut).foldl
        (fun s m => s.holdOut m) s
    if changed && s.dom.node != 0xFF then s.reportLink l else s

/-! ## Election (R381, R382) -/

/-- CLAIM_SEND: a candidate, or the elected manager, claims on every up domain link once every 1 ms (R381). -/
def execClaimSend (s : State) : Host.Outcome State Fault Refusal :=
  act (s.mgmtUp && s.dom.mgrPrio != 0 && (s.disc.candidate || s.dom.role = .manager) && s.disc.firstUp.isSome &&
      s.elapsed s.disc.lastClaim 25000) s fun s =>
    let s := s.setDisc { s.disc with lastClaim := some s.now }
    s.domainLinks.foldl (fun s l => s.sendFrame l
      { s.frame l 2 with
        elected := s.dom.role = .manager, conflict := s.disc.conflict
        count := if s.dom.role = .manager then (nodesOf s.dom.members).length else 0 }) s

/-- The package takes MANAGER and STANDBY of an ELECTED claim; a member that has signalled a steep not yet
released signals it again to a new manager (R381, R383, R423). -/
def State.adoptManager (s : State) (node standby : Nat) : State :=
  let change := s.dom.manager != node
  let s := s.setDom { s.dom with
    manager := node
    role := if s.dom.node != 0xFF && standby = s.dom.node && !s.start.mgmtHeld then .standby else .worker }
  let s := s.setDisc { s.disc with standby := standby }
  let s := if change && s.caddy.armed.isSome then s.abortSwap else s
  if change && s.steep.running && s.steep.signalled then s.barrierSwap s.steep.number.toNat else s

/-- CLAIM: a candidate withdraws, or flags a conflict; ELECTED claims name the manager (R381, R382, R387). -/
def execClaim (l : Nat) (f : Frame) (s : State) : Host.Outcome State Fault Refusal :=
  act (s.live && l < s.part.links && s.domainLink l && f.intact && f.kind = 2 && s.dom.role != .manager) s fun s =>
    if f.elected then
      let s := s.setDisc { s.disc with candidate := false, conflict := false, lastHigher := some s.now }
      let s := s.setDom { s.dom with conflictFlag := false }
      let s := s.adoptManager f.node f.standby
      if s.dom.node = 0xFF && f.count != 0 then
        s.sendFrame l { s.frame l 8 with
          dest := f.node, lastSteep := if s.steep.held then s.steep.number else 0, lsValid := s.steep.held }
      else s
    else if s.dom.mgrPrio = 0 || f.mgrPrio < s.dom.mgrPrio then s
    else if s.dom.mgrPrio < f.mgrPrio then
      let s := s.setDisc { s.disc with candidate := false, conflict := false, lastHigher := some s.now }
      s.setDom { s.dom with conflictFlag := false }
    else if !s.disc.candidate then s.setDisc { s.disc with lastHigher := some s.now }
    else
      let first := !s.dom.conflictFlag
      let s := s.setDisc { s.disc with conflict := true, lastHigher := some s.now }
      let s := s.setDom { s.dom with conflictFlag := true }
      if first then s.raise { status := 0x0311, cls := 0 } else s

/-! ## Numbering (R384) -/

/-- Occupants to visit: each up domain link's peer, or its switch's ports but the manager's own (R384). -/
def State.occupants (s : State) : List (Nat × Nat) :=
  s.domainLinks.flatMap fun l =>
    let k := s.link l
    if k.peerKind = 1 then [(l, 0xFFFF)]
    else ((List.range k.swPorts).filter (· != k.swPort)).map fun p => (l, p)

/-- Send QUERY to the occupant in turn (R384). -/
def State.query (s : State) : State :=
  match s.disc.sweep with
  | some w =>
    match w.todo with
    | (l, port) :: _ =>
      let s := s.setDisc { s.disc with sweep := some { w with assigning := false, sentAt := s.now, tries := 0 } }
      s.sendFrame l { s.frame l 3 with targetPort := port }
    | [] => s.setDisc { s.disc with sweep := none }
  | none => s

/-- Move to the next occupant (R384). -/
def State.nextOccupant (s : State) : State :=
  match s.disc.sweep with
  | some w => (s.setDisc { s.disc with sweep := some { w with todo := w.todo.drop 1 } }).query
  | none => s

/-- The elected manager starts a round: EPOCH advances, it takes node 0, link reports of its own (R384). -/
def State.startRound (s : State) : State :=
  let s := s.setDisc { s.disc with
    epoch := (s.disc.epoch + 1) % 2 ^ 16, found := [0], reports := [], planes := [], lsValid := false, lastSteep := 0
    sweep := some { todo := s.occupants, next := 1 } }
  let s := s.setDom { s.dom with node := 0, manager := 0, role := .manager }
  let s := s.domainLinks.foldl (fun s l => s.reportLink l) s
  s.query

/-- Enter BRINGUP: steeps stop, the membership in force is remembered (R388, R419, R430). -/
def State.enterBringup (s : State) : State :=
  let s := if s.noSteeps then s.abandon.freeClosed else s.leaveSteeps
  let s := s.abortSwap
  let s := s.setDisc { s.disc with lastMembership := if s.disc.inDomain then some s.dom.members else s.disc.lastMembership }
  s.setDom { s.dom with
    state := .bringup, lost := [], missed := [], missRuns := [], firstArrival := none, outRelease := none, joining := [] }

/-- ELECTION_TIMEOUT: 100 ms of silence make a withdrawn candidate claim again and a claiming one the
manager; a domain that lost its manager returns to BRINGUP (R381, R382, R384, R430). -/
def execElectionTimeout (s : State) : Host.Outcome State Fault Refusal :=
  act (s.mgmtUp && s.dom.mgrPrio != 0 && s.dom.role != .manager && s.disc.firstUp.isSome &&
      s.elapsed s.disc.firstUp 2500000 && s.elapsed s.disc.lastHigher 2500000) s fun s =>
    if !s.disc.candidate then s.setDisc { s.disc with candidate := true }
    else
      let s := if s.disc.inDomain then s.enterBringup else s
      let s := s.setDisc { s.disc with elected := true, conflict := false, standby := 0xFF }
      (s.setDom { s.dom with conflictFlag := false }).startRound

/-- QUERY: answered with a REPLY (R384). -/
def execQuery (l : Nat) (f : Frame) (s : State) : Host.Outcome State Fault Refusal :=
  act (s.live && l < s.part.links && s.domainLink l && f.intact && f.kind = 3) s fun s =>
    s.sendFrame l { s.frame l 4 with targetPort := f.swPort }

/-- REPLY: an unnumbered package is assigned the next number, any other is passed over (R384). -/
def execReply (l : Nat) (f : Frame) (s : State) : Host.Outcome State Fault Refusal :=
  .next (match s.disc.sweep with
    | none => s
    | some w =>
      match w.todo with
      | [] => s
      | (ql, port) :: _ =>
        if !(s.mgmtUp && s.dom.role = .manager && ql = l && f.intact && f.kind = 4 && !w.assigning &&
             (port = 0xFFFF || f.swPort = port)) then s
        else if f.senderKind = 0 && (f.node = 0xFF || f.epoch != s.disc.epoch) then
          if w.next ≤ 0xFF then
            let s := s.setDisc { s.disc with sweep := some { w with assigning := true, sentAt := s.now, tries := 0 } }
            s.sendFrame l { s.frame l 5 with targetPort := port, assignNode := w.next }
          else (s.raise { status := 0x0316, cls := 0, unit := 4, die := linkDie l, pos := l, addr := port }).nextOccupant
        else s.nextOccupant)

/-- QUERY_TIMEOUT: 100 µs without an answer; three more sends, then the occupant is skipped (R384). -/
def execQueryTimeout (s : State) : Host.Outcome State Fault Refusal :=
  .next (match s.disc.sweep with
    | none => s
    | some w =>
      match w.todo with
      | [] => s
      | (l, port) :: _ =>
        if !(s.mgmtUp && s.dom.role = .manager && 2500 ≤ s.since w.sentAt) then s
        else if w.tries < 3 then
          let s := s.setDisc { s.disc with sweep := some { w with tries := w.tries + 1, sentAt := s.now } }
          if w.assigning then s.sendFrame l { s.frame l 5 with targetPort := port, assignNode := w.next }
          else s.sendFrame l { s.frame l 3 with targetPort := port }
        else s.nextOccupant)

/-- ASSIGN: the package takes number and EPOCH, acknowledges and reports its links (R384, R385). -/
def execAssign (l : Nat) (f : Frame) (s : State) : Host.Outcome State Fault Refusal :=
  act (s.live && l < s.part.links && s.domainLink l && f.intact && f.kind = 5 && s.dom.role != .manager) s fun s =>
    let s := s.setDom { s.dom with node := f.assignNode, manager := f.manager }
    let s := s.setDisc { s.disc with epoch := f.epoch }
    let s := s.sendFrame l { s.frame l 6 with targetPort := f.swPort }
    s.domainLinks.foldl (fun s k => s.sendFrame l { s.linkReportFrame k with lanes := (s.link l).lanes, targetPort := f.swPort }) s

/-! ## The plane map and membership (R385) -/

/-- Planes and direct peers of a node from the link reports (R385). -/
def planeEntry (reports : List LinkRep) (n : Nat) : PlaneEntry :=
  let mine := reports.filter (·.node = n)
  { node := n
    planes := mine.foldl (fun l r => if r.plane = 0xFFFF then l else addNew l r.plane) []
    peers := mine.foldl (fun l r => if r.peer = 0xFF then l else addNew l r.peer) [] }

/-- Two packages share a plane or a direct link (R385). -/
def PlaneEntry_share (a b : PlaneEntry) : Bool :=
  a.planes.any (fun p => b.planes.contains p) || a.peers.contains b.node || b.peers.contains a.node

/-- One removal of R385: the highest node that shares nothing with some other. The manager stays. -/
def removeOne (es : List PlaneEntry) (mgr : Nat) : Option Nat :=
  (es.filter fun a => a.node != mgr && es.any fun b => b.node != a.node && !PlaneEntry_share a b).foldl
    (fun m a => some (match m with | some k => max k a.node | none => a.node)) none

/-- The packages that R385 admits; fuel is their number. -/
def admitFrom : Nat → List PlaneEntry → Nat → List PlaneEntry
  | 0, es, _ => es
  | k + 1, es, mgr =>
    match removeOne es mgr with
    | some n => admitFrom k (es.filter (·.node != n)) mgr
    | none => es

/-- The standby: highest MGR_PRIO other than the manager's own, lowest node on a tie; none has priority 0
(R383). -/
def State.pickStandby (s : State) : Nat :=
  let ok := (nodesOf s.dom.members).filter fun n => n != s.dom.node && s.disc.prio.get 0 n != 0
  ok.foldl (fun b n => if b = 0xFF || s.disc.prio.get 0 b < s.disc.prio.get 0 n then n else b) 0xFF

/-- The manager names the standby and announces it in its frames (R383). -/
def State.nameStandby (s : State) : State := s.setDisc { s.disc with standby := s.pickStandby }

/-- The windows of nodes that left are without an owner: the manager transfers those it exports (R405, R460,
notes/assumptions/54.md). -/
def State.dropOwners (s : State) (gone : List Nat) : State :=
  s.setDom { s.dom with exports := s.dom.exports.mapVals fun _ e => if gone.contains (xOwner e) then withOwner e 0xFF else e }

/-- What a package does with a member mask and a plane map (R385, R388, R398, R402, R412, R460). -/
def State.takeMask (s : State) (mask : W256) (planes : List PlaneEntry) (adds : Bool) : State :=
  let old := s.dom.members
  let was := s.disc.inDomain
  if !(s.dom.node < 256 && mask.getLsbD s.dom.node) then
    if was then
      -- A member left out while it runs stops; it leaves its domain with a last cut (R26, R460).
      let s := s.leaveSteeps
      let s := s.setDisc { s.disc with inDomain := false, planes := planes }
      let s := s.setDom { s.dom with members := mask }
      s.raise { status := 0x0303, cls := 3, detail := s.dom.node }
    else (s.setDisc { s.disc with planes := planes }).raise { status := 0x0316, cls := 0 }
  else
    let gone := (nodesOf old).filter fun n => !mask.getLsbD n
    let new := (nodesOf mask).filter fun n => !old.getLsbD n
    let changed := mask != old
    let s := if changed && was then s.abortSwap else s
    let flag := match s.disc.lastMembership with
      | some m => (!was || s.dom.state = .bringup) && (nodesOf m).length != (nodesOf mask).length
      | none => false
    let s := s.setDisc { s.disc with planes := planes, inDomain := true, lastMembership := if s.dom.state = .bringup then none else s.disc.lastMembership }
    let s := s.setDom { s.dom with members := mask, membershipChanged := s.dom.membershipChanged || flag }
    let s := if adds then
        s.setFab { s.fab with
          dseq := s.fab.dseq.filter fun p => !new.contains (p.1 % 256)
          outcomes := s.fab.outcomes.filter fun o => !new.contains o.src
          lastMsg := s.fab.lastMsg.filter fun k => !(k.1 = 0 && new.contains k.2.1)
          replay := s.fab.replay.filter fun r => !new.contains r.src }
      else s
    let s := s.nodesLeft gone
    let s := if s.dom.role = .manager then s.dropOwners gone else s
    if flag && s.dom.role = .manager then s.raise { status := 0x0312, cls := 0 } else s

/-- MEMBER_MASK: mask and plane map as the manager distributes them (R385). -/
def execMemberMask (mask : W256) (planes : List PlaneEntry) (adds : Bool) (s : State) : Host.Outcome State Fault Refusal :=
  act (s.live && s.dom.role != .manager && s.dom.node != 0xFF) s fun s => s.takeMask mask planes adds

/-- The words of a distributed mask (R357). -/
def maskWords (m : W256) : List DWord := (List.range 4).map fun i => BitVec.ofNat 64 (m.toNat / 2 ^ (64 * i))

/-- The manager distributes mask and plane map to every member and takes them itself (R385). -/
def State.distribute (s : State) (mask : W256) (planes : List PlaneEntry) : State :=
  let s := s.setDom { s.dom with planeRev := s.dom.planeRev + 1, memberRev := if mask = s.dom.members then s.dom.memberRev else s.dom.memberRev + 1 }
  let s := ((nodesOf mask).filter (· != s.dom.node)).foldl (fun s n => s.emit (.member n 1 (maskWords mask))) s
  (s.takeMask mask planes true).nameStandby

/-- The manager takes a member as lost: its record, its number among the lost of the steep (R459, R460). -/
def State.memberLost (s : State) (n cause : Nat) : State :=
  if !s.isMember n || s.dom.lost.contains n || n = s.dom.node then s else
  let s := s.raise { status := 0x0303, cls := 0, detail := n + 256 * cause }
  let s := s.setDom { s.dom with lost := addNew s.dom.lost n }
  if s.noSteeps then
    let s := s.distribute (s.dom.members &&& ~~~((1 : W256) <<< n)) (s.disc.planes.filter (·.node != n))
    s.setDom { s.dom with lost := s.dom.lost.erase n }
  else s

/-- The manager takes what a package tells of its generations; where its idle bank holds the domain's, it orders ACTIVATE
(R308). -/
def State.takeGens (s : State) (n : Nat) (gens : Option GenReport) : State :=
  match gens with
  | none => s
  | some g =>
    let s := s.setDisc { s.disc with gens := s.disc.gens.set n g }
    if s.dom.state = .service && !s.isMember n && g.current != s.mem.genCurrent && g.idle = some s.mem.genCurrent then
      s.emit (.member n 5 [s.mem.genCurrent.setWidth 64])
    else s

/-- A package may enter the membership: in SERVICE only with the domain's generation in force (R308). -/
def State.genFits (s : State) (n : Nat) : Bool :=
  s.dom.state != .service || (match s.disc.gens.find? n with | some g => g.current = s.mem.genCurrent | none => false)

/-- Admission once the sweep is over: before service at once, in service losses and joiners wait for a
release, and joiners of another generation are held out (R308, R385, R387). -/
def State.admitMembers (s : State) : State :=
  if s.disc.sweep.isSome then s else
  let es := s.disc.found.map (planeEntry s.disc.reports)
  let ok := admitFrom es.length es s.dom.node
  let mask := maskOf (ok.map (·.node))
  if s.noSteeps then
    if mask = s.dom.members && s.disc.inDomain && ok = s.disc.planes then s else s.distribute mask ok
  else
    let s := s.setDisc { s.disc with planes := ok }
    let gone := (nodesOf s.dom.members).filter fun n => !mask.getLsbD n
    let s := gone.foldl (fun s n => s.memberLost n 2) s
    s.setDom { s.dom with joining := (ok.map (·.node)).filter fun n => !s.isMember n && s.genFits n }

/-- ASSIGN_ACK: the number is taken, the sweep goes on (R384). -/
def execAssignAck (l : Nat) (f : Frame) (s : State) : Host.Outcome State Fault Refusal :=
  .next (
    if !(s.mgmtUp && s.dom.role = .manager && f.intact && f.kind = 6 && l < s.part.links) then s
    else match s.disc.sweep with
    | some w =>
      if w.assigning && f.node = w.next then
        let s := s.setDisc { s.disc with
          found := addNew s.disc.found f.node, prio := s.disc.prio.set f.node f.mgrPrio
          sweep := some { w with next := w.next + 1 } }
        s.nextOccupant.admitMembers
      else s
    | none => s.setDisc { s.disc with found := addNew s.disc.found f.node, prio := s.disc.prio.set f.node f.mgrPrio })

/-- LINK_REPORT: the manager takes a package's report, or a switch's of a port that went down, and admits
members or takes one as lost; other packages discard it (R385, R387, R459). -/
def execLinkReport (l : Nat) (f : Frame) (gens : Option GenReport) (s : State) : Host.Outcome State Fault Refusal :=
  act (s.mgmtUp && s.dom.role = .manager && l < s.part.links && f.intact && f.kind = 7) s fun s =>
    let s := if f.senderKind = 0 then s.takeGens f.node gens else s
    let d := s.disc
    let s := if f.senderKind = 0 then
        let keep := d.reports.filter fun r => !(r.node = f.node && r.link = f.link)
        let new : List LinkRep := if f.plane = 0xFFFF && f.assignNode = 0xFF then [] else
          [{ node := f.node, link := f.link, peer := f.assignNode, plane := f.plane }]
        let newer := f.lsValid && (!d.lsValid || older d.lastSteep f.lastSteep)
        s.setDisc { d with
          reports := keep ++ new
          lastSteep := if newer then f.lastSteep else d.lastSteep, lsValid := d.lsValid || f.lsValid }
      else s.setDisc { d with reports := d.reports.filter fun r => !(r.node = f.assignNode && r.plane = f.plane) }
    s.admitMembers

/-- JOIN at the manager: the lowest unused number and the current EPOCH go to the joiner (R308, R387). -/
def State.takeJoin (s : State) (l : Nat) (f : Frame) (gens : Option GenReport) : State :=
  let n := lowestFree (s.disc.found ++ nodesOf s.dom.members) 256
  let newer := f.lsValid && (!s.disc.lsValid || older s.disc.lastSteep f.lastSteep)
  let s := s.setDisc { s.disc with lastSteep := if newer then f.lastSteep else s.disc.lastSteep, lsValid := s.disc.lsValid || f.lsValid }
  if n ≤ 0xFF then (s.sendFrame l { s.frame l 5 with targetPort := f.swPort, assignNode := n }).takeGens n gens else s

/-- JOIN at the package that joins: on the manager's order it writes ACTIVATE for its idle bank, where that is built at the
domain's generation (R308, notes/assumptions/53.md). -/
def State.takeOrder (s : State) (g : Word) : State :=
  let k := s.caddy.bank s.caddy.idle
  if s.dom.state = .bringup && !s.start.quiesced && k.built && k.gen = g && s.mem.genCurrent != g then s.takeBank g else s

/-- JOIN: a package's request at the manager, or the manager's order at the package that joins (R308, R387). -/
def execJoin (l : Nat) (f : Frame) (gens : Option GenReport) (order : Option Word) (s : State) : Host.Outcome State Fault Refusal :=
  .next (match order with
    | some g => if s.live && s.dom.role != .manager then s.takeOrder g else s
    | none =>
      if s.mgmtUp && s.dom.role = .manager && l < s.part.links && s.domainLink l && f.intact && f.kind = 8 && s.disc.sweep.isNone then
        s.takeJoin l f gens
      else s)

end Sys2Proof.Machine
end

