-- ==== Sys2Proof/Machine/Routing.lean ====
section
/-! DEFINITION. Expert routing: admission, dispatch, shape words, pours, combining, home table revisions
(spec 07). -/

namespace Sys2Proof.Machine

/-! ## Counting and filtering (R190) -/

/-- The two counters of the filter. -/
inductive Steepness where
  | current | next | old | far
  deriving DecidableEq, Repr

/-- How a packet's steep stands to the current one (R12, R190). -/
def State.steepness (s : State) (n : Word) : Steepness :=
  if n = s.steep.number then .current else if older n s.steep.number then .old
  else if n = s.steep.number + 1 then .next else .far

/-- Count an old or an invalid packet (R190). -/
def State.discardOld (s : State) : State := s.setRte { s.rte with discOld := s.rte.discOld + 1 }
/-- Count an invalid packet (R190). -/
def State.discardInvalid (s : State) : State := s.setRte { s.rte with discInvalid := s.rte.discInvalid + 1 }
/-- Count a duplicate (R190). -/
def State.discardDup (s : State) : State := s.setRte { s.rte with discDup := s.rte.discDup + 1 }

/-- A dispatch or end marker of the next steep is a duplicate of one held (R185, R190). -/
def State.heldTwice (s : State) (p : RoutePkt) : Bool :=
  s.rte.held.any fun q => q.ptype = p.ptype && q.src = p.src && q.layer = p.layer &&
    (p.ptype = 2 || (q.expert = p.expert && q.slot = p.slot))

/-- A dispatch of the next steep breaks its quota already: no revision waits that could change it (R175, R190). -/
def State.heldInvalid (s : State) (p : RoutePkt) : Bool :=
  p.ptype = 1 && s.rte.next.isNone && s.quota p.layer p.expert p.src ≤ p.slot

/-- A dispatch or end marker of the next steep is held, or discarded and counted as it arrives (R185, R190). -/
def State.holdPkt (s : State) (p : RoutePkt) : State :=
  if s.heldInvalid p then s.discardInvalid
  else if s.heldTwice p then s.discardDup
  else s.setRte { s.rte with held := s.rte.held ++ [p] }

/-- A routing packet of a type the command takes: old and far ones are counted, a dispatch or its end marker of the
next steep is held, the rest go on (R185, R190). -/
def State.routeIn (s : State) (p : RoutePkt) (ptype : Nat) (next : Bool) (f : State → State) : State :=
  if !s.live then s
  else if p.ptype < 1 || 4 < p.ptype then s.discardInvalid
  else if p.ptype != ptype then s
  else match s.steepness p.steep with
  | .old => s.discardOld
  | .far => s.discardInvalid
  | .current => f s
  | .next => if next then s.holdPkt p else s.discardInvalid

/-! ## End markers (R182, R184) -/

/-- Members of the domain, ascending. -/
def State.memberList (s : State) : List Nat := nodesOf s.dom.members

/-- A routing packet of this package. -/
def State.routePkt (s : State) (layer homeNode ptype : Nat) : RoutePkt :=
  { src := s.dom.node, steep := s.steep.number, layer := layer, homeNode := homeNode, ptype := ptype, slot := 0
    expert := 0, elems := 0, localExpert := 0, tag := 0, fmt := 0, rowScale := 0, count := 0, payload := [] }

/-- Dispatches sent to a node in a layer. -/
def State.dispCount (s : State) (layer node : Nat) : Nat :=
  (s.rte.choices.filter fun c => c.layer = layer && c.node = node).length

/-- Send DISP_END to every member (R182). -/
def State.sendDispEnds (s : State) (layer : Nat) : State :=
  if s.rte.dispSent.contains layer then s else
  let s := s.memberList.foldl (fun s n => s.routeSend n
    { s.routePkt layer s.dom.node 2 with count := s.dispCount layer n }) s
  s.setRte { s.rte with dispSent := s.rte.dispSent ++ [layer] }

/-- Send POUR_END to every member once every pour of the layer is sent (R184). -/
def State.sendPourEnds (s : State) (layer : Nat) : State :=
  let ls := s.rte.lines.filter fun l => l.layer = layer
  if s.rte.pourSent.contains layer || !s.rte.shaped.contains layer || !ls.all HeldLine.pourSent then s else
  let s := s.memberList.foldl (fun s n => s.routeSend n
    { s.routePkt layer n 4 with count := (ls.filter fun l => l.homeNode = n).length }) s
  s.setRte { s.rte with pourSent := s.rte.pourSent ++ [layer] }

/-- All of the package's own sequences failed the steep, or its program stopped (R192). -/
def State.allFailed (s : State) : Bool :=
  s.steep.running && s.batchSeqs.all s.gone && (!s.batchSeqs.isEmpty || s.steep.stopped.isSome)

/-! ## The receive area (R183, R186) -/

/-- Dispatches of a source for a layer are complete (R182). -/
def State.sourceDone (s : State) (layer n : Nat) : Bool :=
  s.rte.dispEnds.any fun d => d.layer = layer && d.node = n &&
    d.count = (s.rte.lines.filter fun l => l.layer = layer && l.src = n).length

/-- Shape word and line list of one home local expert (R186). -/
def State.writeShape (s : State) (m : Model) (layer : Nat) (p : Nat × Nat) : State :=
  let ls := s.expertLines layer p.1
  (s.storeOk (hShape m.header + 4 * p.2) (leBytes 4 (ls.length % 65536))).storeOk
    (hLine m.header + 4 * s.regionStart layer p.1) (ls.flatMap fun l => leBytes 4 (s.heldAt l))

/-- Shape words are written once every source's dispatches of a layer are complete (R186). -/
def State.settleLayer (s : State) (layer : Nat) : State :=
  match s.model with
  | none => s
  | some m =>
    if s.rte.shaped.contains layer || !s.steep.running || !s.memberList.all (s.sourceDone layer) then s
    else
      let s := (s.homeExperts layer).foldl (fun s p => s.writeShape m layer p) s
      (s.setRte { s.rte with shaped := s.rte.shaped ++ [layer] }).sendPourEnds layer

/-! ## Combined lines (R178, R189) -/

/-- The layer is combined: every row, and POUR_END from every member with its count (R189). -/
def State.layerDone (s : State) (layer : Nat) : Bool :=
  s.memberList.all (fun n => s.rte.pourEnds.any fun d => d.layer = layer && d.node = n &&
    d.count = (s.rte.choices.filter fun c => c.layer = layer && c.node = n && c.arrived).length) &&
  s.rte.choices.all fun c => c.layer != layer || s.gone c.seq ||
    s.rte.combined.any fun k => k.layer = layer && k.row = c.row

/-- The last record of a layer's expert operation list, with its index (R37). -/
def Model.lastExpert (m : Model) (layer : Nat) : Option (Nat × List Byte) :=
  ((List.range m.mainOps.length).map fun i => (i, m.mainOps.getD i [])).reverse.find? fun p => rKind p.2 = 5 && rLayer p.2 = layer

/-- Combined lines of a layer with their batch lines, by row, of sequences that still run. -/
def State.combinedRows (s : State) (layer : Nat) : List (Nat × OpLine × List Word) :=
  (sortBy (fun a b : Combined => a.row ≤ b.row) (s.rte.combined.filter fun c => c.layer = layer)).filterMap fun c =>
    match s.mainLines[c.row]? with
    | some l => if s.gone l.seq then none else some (c.row, l, c.line)
    | none => none

/-- The combined lines of a layer take the output path at step 5, under the layer precision word as it stands: norm check
of every line, then residual, steering and conversion, stored at OUT of the layer's last EXPERT record (R85, R125, R178,
R189; notes/assumptions/26.md). -/
def State.finishLayer (s : State) (m : Model) (layer : Nat) : State :=
  let s' := match m.lastExpert layer with
    | none => s
    | some (i, _) =>
      let r := s.record_ m false i
      let rows := s.combinedRows layer
      let s := rows.foldl (fun (s : State) (p : Nat × OpLine × List Word) => s.normCheck m i r p.2.1.seq p.2.2) s
      rows.foldl (fun (s : State) (p : Nat × OpLine × List Word) => if s.gone p.2.1.seq then s
        else s.steps6to8 m false i r (s.areaLines m false) p.1 p.2.1 p.2.2) s
  s'.setRte { s'.rte with layersDone := s'.rte.layersDone ++ [layer] }

/-- A routed layer whose combining is complete and whose rows this package has admitted or will not admit. -/
def State.layerReady (s : State) (layer : Nat) : Bool :=
  s.rte.dispSent.contains layer && !s.rte.layersDone.contains layer && s.layerDone layer

/-- Routed layers of the loaded model. -/
def State.routedList (s : State) : List Nat := match s.model with | some m => routedLayers m.mainOps | none => []

/-- Routed layers before a layer are combined (R184). -/
def State.layersBefore (s : State) (layer : Nat) : Bool :=
  (s.routedList.filter (· < layer)).all fun l => s.rte.layersDone.contains l

/-- A package whose own sequences all failed sends its DISP_END for each routed layer it comes to (R192). -/
def State.failedDuties (s : State) : State :=
  if s.allFailed then s.routedList.foldl (fun s l => if s.layersBefore l then s.sendDispEnds l else s) s else s

/-- Layers whose combining is complete go on, and the duties of a failed package with them (R189, R192). -/
def State.settleRoutes (s : State) : State :=
  match s.model with
  | none => s
  | some m => s.routedList.foldl (fun s l =>
      let s := s.failedDuties
      if s.layerReady l then (s.finishLayer m l).failedDuties else s) s

/-! ## Admission (R169 to R180) -/

/-- A choice while it is admitted: expert, slot, spilled. -/
structure Adm where
  row : Nat
  k : Nat
  expert : Nat
  slot : Nat
  spilled : Bool
  deriving DecidableEq, Repr

/-- Experts of a row by rank: the selection keys in descending order, ties to the lower index (R170). -/
def rankExperts (keys : List Word) : List Nat :=
  sortBy (fun a b : Nat =>
    let x := num (keys.getD a 0); let y := num (keys.getD b 0)
    y.lt x || (!x.lt y && a ≤ b)) (List.range keys.length)

/-- Admission so far: admitted choices, rejected ones (row, position), admitted count of each expert. -/
structure Admission where
  adm : List Adm := []
  rej : List (Nat × Nat) := []
  used : Tab Nat := []
  deriving DecidableEq, Repr

/-- First round for one choice (R176). -/
def admitOne (quota : Nat → Nat) (st : Admission) (row k e : Nat) : Admission :=
  let n := st.used.get 0 e
  if n < quota e then
    { st with adm := st.adm ++ [⟨row, k, e, n, false⟩], used := st.used.set e (n + 1) }
  else { st with rej := st.rej ++ [(row, k)] }

/-- Second round for one rejected choice under the spill policy (R177). -/
def spillOne (quota : Nat → Nat) (cands : Nat → List Nat) (st : Admission) (p : Nat × Nat) : Admission :=
  let taken := (st.adm.filter fun a => a.row = p.1 && a.spilled).map Adm.expert
  match (cands p.1).find? fun e => !taken.contains e && st.used.get 0 e < quota e with
  | some e =>
    let n := st.used.get 0 e
    { st with adm := st.adm ++ [⟨p.1, p.2, e, n, true⟩], used := st.used.set e (n + 1) }
  | none => st

/-- Both rounds over rows given as (row, ranked experts) in admission order (R176, R177). -/
def admitRows (quota : Nat → Nat) (k : Nat) (spill : Bool) (rows : List (Nat × List Nat)) : Admission :=
  let st := rows.foldl (fun st r =>
    ((r.2.take k).mapIdx fun i e => (i, e)).foldl (fun st p => admitOne quota st r.1 p.1 p.2) st) ({} : Admission)
  if spill then
    let cands := fun row => match rows.find? fun r => r.1 = row with | some r => (r.2.drop k).take k | none => []
    st.rej.foldl (spillOne quota cands) st
  else st

/-- Combine tag (R187). -/
def combineTag (pos row : Nat) : Word := BitVec.ofNat 32 (putBits pos 31 28 + putBits row 23 0)

/-- Update the routing counts of a layer in this steep (R193). -/
def State.onRoute (s : State) (layer : Nat) (f : RouteAcc → RouteAcc) : State :=
  let rs := s.steep.routes
  let rs := if rs.any fun a => a.layer = layer then rs else rs ++ [{ layer := layer }]
  s.setSteep { s.steep with routes := updateIf rs (fun a => a.layer = layer) f }

/-- A row that reaches the router: its row number, batch line, logits and router input line (R169, R181). -/
structure RouteRow where
  row : Nat
  line : OpLine
  logits : List Word
  input : List Word
  deriving DecidableEq, Repr

/-- Rows of a layer in admission order: the lines of the batch whose sequences still run, with what the ROUTER record
wrote at OUT and read at IN (R35, R169, R170). -/
def State.routeRows (s : State) (m : Model) (i : Nat) (r : List Byte) : List RouteRow :=
  let lines := s.areaLines m false
  (s.mainLines.mapIdx fun k l => (k, l)).filterMap fun p =>
    if s.gone p.2.seq then none
    else some { row := p.1, line := p.2, input := (s.inOperand m false i r lines p.1).vals
                logits := (s.storedAt ((fmtOf (lpwOut (rLpw r))).getD .fp32) (rTscale r) lines (rN r) (rOut r) p.1).vals }

/-- Selection keys of a row (R170). -/
def selectionKeys (bias logits : List Word) : List Word :=
  if bias.isEmpty then logits.map fun l => fAdd l 0 else List.zipWith fAdd logits bias

/-- A row with a logit or selection key that is not finite (R170). -/
def badRow (bias logits : List Word) : Bool := (logits ++ selectionKeys bias logits).any fun x => !(num x).isFin

/-- What stops a row's reads: status and address (R264, R272). -/
def State.routeFault (s : State) (m : Model) (r : List Byte) (row : Nat) : Option (Nat × Nat) :=
  let lines := s.areaLines m false
  (lineRanges ((fmtOf (lpwOut (rLpw r))).getD .fp32) lines (rN r) (rOut r) row ++
    lineRanges (actFmt r) lines (rK r) (rIn r) row ++ (if rBias2 r = 0 then [] else [(rBias2 r, 4 * s.nexp)])).findSome?
    fun p => (s.readFault p).map fun e => (e, p.1)

/-- Rows that cannot be read, or that hold a value that is not finite, fail their sequences (R170, R272). -/
def State.failRows (s : State) (m : Model) (r : List Byte) (bias : List Word) (rows : List RouteRow) : State :=
  rows.foldl (fun s w =>
    if s.gone w.line.seq then s
    else match s.routeFault m r w.row with
    | some e => s.readError w.line.seq (e.1, e.2, 0)
    | none => if badRow bias w.logits then s.dataError 0x0540 [w.line.seq] 8 0 1 0 0 else s) s

/-- The choices of the admitted rows, with slots, tags and gate weights, by row and position (R179, R180, R187). -/
def State.choicesOf (s : State) (layer : Nat) (rows : List RouteRow) (st : Admission) : List Choice :=
  rows.flatMap fun w =>
    let mine := sortBy (fun a b : Adm => a.k ≤ b.k) (st.adm.filter fun a => a.row = w.row)
    let g := softProb (mine.map fun a => fMul 0x3F800000 (w.logits.getD a.expert 0))
    mine.mapIdx fun i a =>
      { layer := layer, row := w.row, seq := w.line.seq, pos := w.line.pos, k := a.k, expert := a.expert, slot := a.slot
        node := ((s.rte.table.entry s.nexp layer a.expert).map HomeEntry.homeNode).getD 0
        tag := if rtTags s.routing then combineTag a.k w.row else 0, gate := g.getD i 0 }

/-- Send the dispatch of one admitted choice (R181). -/
def State.sendDispatch (s : State) (layer : Nat) (input : List Word) (c : Choice) : State :=
  let (scale, payload) := dispPayload s.routing s.wire input
  s.routeSend c.node { s.routePkt layer s.dom.node 1 with
    slot := c.slot, expert := c.expert, elems := input.length, tag := c.tag
    localExpert := ((s.rte.table.entry s.nexp layer c.expert).map HomeEntry.homeLocal).getD 0
    fmt := rtDisp s.routing, rowScale := scale, payload := payload }

/-- Admission of the rows of a layer, with its counts, choices, pass-through lines, dispatches and DISP_END
(R176 to R182). -/
def State.admitLayer (s : State) (m : Model) (layer : Nat) (r : List Byte) (bias : List Word) (rows : List RouteRow) : State :=
  let k := rtK m.routing
  let st := admitRows (fun e => s.quota layer e s.dom.node) k (rtSpill m.routing)
    (rows.map fun w => (w.row, (rankExperts (selectionKeys bias w.logits)).take (2 * k)))
  let choices := s.choicesOf layer rows st
  let empty := rows.filter fun w => !choices.any fun c => c.row = w.row
  let spilled := (st.adm.filter Adm.spilled).length
  let s := s.onRoute layer fun a => { a with
    admitted := a.admitted + (st.adm.length - spilled), spilled := a.spilled + spilled
    dropped := a.dropped + (st.rej.length - spilled), passthrough := a.passthrough + empty.length }
  let width := match m.lastExpert layer with | some p => rN p.2 | none => rK r
  let s := s.setRte { s.rte with
    choices := s.rte.choices ++ choices
    combined := s.rte.combined ++ empty.map fun w => ⟨layer, w.row, List.replicate width 0⟩ }
  let s := choices.foldl (fun s c => match rows.find? fun w => w.row = c.row with
    | some w => s.sendDispatch layer w.input c
    | none => s) s
  s.sendDispEnds layer

/-- Index of the ROUTER record of a layer. -/
def Model.routerOf (m : Model) (layer : Nat) : Option Nat :=
  (List.range m.mainOps.length).find? fun i => rKind (m.mainOps.getD i []) = 4 && rLayer (m.mainOps.getD i []) = layer

/-- ROUTING_ADMISSION: once the ROUTER record's lines are out and every earlier routed layer is combined, experts are
ranked, choices admitted in two rounds, gate weights formed, dispatches and DISP_END sent (R169 to R184). -/
def execRoutingAdmission (layer : Nat) (s : State) : Host.Outcome State Fault Refusal :=
  .next (match s.model with
    | none => s
    | some m =>
      match m.routerOf layer with
      | none => s
      | some i =>
        if !(s.live && s.steep.running && s.opDone false i && s.layersBefore layer && !s.rte.dispSent.contains layer) then s
        else
          let r := s.record_ m false i
          let bias := if rBias2 r = 0 then [] else s.f32s (rBias2 r) s.nexp
          let rows := s.routeRows m i r
          let s := s.failRows m r bias rows
          (s.admitLayer m layer r bias (rows.filter fun w => !s.gone w.line.seq)).settleRoutes)

/-! ## Arrivals at a destination (R182 to R186, R190) -/

/-- A dispatch of the current steep: into the receive area, or discarded and counted (R183, R190). -/
def State.takeDispatch (s : State) (p : RoutePkt) : State :=
  if s.quota p.layer p.expert p.src ≤ p.slot then s.discardInvalid
  else if s.rte.lines.any fun l => l.src = p.src && l.layer = p.layer && l.expert = p.expert && l.slot = p.slot then
    s.discardDup
  else
    let stride := dispStride s.routing s.wire s.hidden
    let a := s.rte.recvBase.toNat + stride * s.recvLine p.layer p.expert p.src p.slot
    let s := s.storeOk a (bytesAt p.payload 0 (min stride (ceilDiv p.payload.length 64 * 64)))
    let l : HeldLine := { src := p.src, expert := p.expert, slot := p.slot, layer := p.layer, homeNode := p.homeNode
                          tag := p.tag, steep := p.steep, rowScale := p.rowScale }
    (s.setRte { s.rte with lines := s.rte.lines ++ [l] }).settleLayer p.layer

/-- An end marker of the current steep (R182, R190). -/
def State.takeDispEnd (s : State) (p : RoutePkt) : State :=
  if s.rte.dispEnds.any fun d => d.layer = p.layer && d.node = p.src then s.discardDup
  else (s.setRte { s.rte with dispEnds := s.rte.dispEnds ++ [⟨p.layer, p.src, p.count, p.steep⟩] }).settleLayer p.layer

/-- DISPATCH: accepted into the receive area, held for the next steep, or discarded and counted (R183, R185, R190). -/
def execDispatch (p : RoutePkt) (s : State) : Host.Outcome State Fault Refusal :=
  .next (s.routeIn p 1 true fun s => (s.takeDispatch p).settleRoutes)

/-- DISP_END: a source's count for a layer (R182, R185, R190). -/
def execDispEnd (p : RoutePkt) (s : State) : Host.Outcome State Fault Refusal :=
  .next (s.routeIn p 2 true fun s => (s.takeDispEnd p).settleRoutes)

/-- Held packets are processed once their steep is adopted (R185). -/
def State.runHeld (s : State) : State :=
  let ps := s.rte.held
  ps.foldl (fun s p =>
    if p.ptype = 1 then s.routeIn p 1 true fun s => s.takeDispatch p
    else s.routeIn p 2 true fun s => s.takeDispEnd p) (s.setRte { s.rte with held := [] })

/-- Send the pour, or the failed pour, of a held line, once (R187, R256, R449). -/
def State.pourLine (s : State) (l : HeldLine) (line : Option (List Word)) : State :=
  if l.pourSent || !s.rte.lines.contains l then s else
  let localIx := ((s.rte.table.entry s.nexp l.layer l.expert).map HomeEntry.homeLocal).getD 0
  let f : Format := if rtPour s.routing = 1 then .bf16 else .fp32
  let payload := match line with | some x => (convLine f 0 none x).bytes f | none => []
  let s := s.routeSend l.homeNode { s.routePkt l.layer l.homeNode 3 with
    slot := l.slot, expert := l.expert, localExpert := localIx, tag := l.tag
    elems := match line with | some x => x.length | none => 0
    fmt := rtPour s.routing, payload := payload }
  (s.setRte { s.rte with lines := updateIf s.rte.lines (· = l) fun l => { l with pourSent := true } }).sendPourEnds l.layer

/-- A received line that no pour has answered. -/
def State.openLine (s : State) (src expert slot : Nat) : Option HeldLine :=
  s.rte.lines.find? fun l => l.src = src && l.expert = expert && l.slot = slot && !l.pourSent

/-- The steep program stopped at or before the expert operations of a layer, at one of such (R192). -/
def State.expertStopped (s : State) (layer : Nat) : Bool :=
  match s.steep.stopped, s.model with
  | some (false, i), some m => let r := m.mainOps.getD i []; rKind r = 5 && rLayer r ≤ layer
  | _, _ => false

/-- POUR_SEND: the last expert operation's output of a received line goes to its home; a failed pour where the program
stopped at the layer's expert list or before (R187, R192). -/
def execPourSend (src expert slot : Nat) (s : State) : Host.Outcome State Fault Refusal :=
  .next (match s.openLine src expert slot with
    | none => s
    | some l =>
      if !s.live || !s.steep.running || !s.rte.shaped.contains l.layer then s
      else if s.expertStopped l.layer then (s.pourLine l none).settleRoutes
      else match l.out with
        | some x => (s.pourLine l (some x)).settleRoutes
        | none => s)

/-! ## Pours at home (R188 to R190) -/

/-- The choice that a pour answers (R188). -/
def State.pourChoice (s : State) (p : RoutePkt) : Option Choice :=
  s.rte.choices.find? fun c => c.layer = p.layer && c.node = p.src &&
    (if rtTags s.routing then c.row = bits p.tag.toNat 23 0 && c.k = bits p.tag.toNat 31 28
     else c.expert = p.expert && c.slot = p.slot)

/-- Combine a row whose pours are all held: the sum in position order (R189). -/
def State.combineRow (s : State) (layer row : Nat) : State :=
  let cs := sortBy (fun a b : Choice => a.k ≤ b.k) (s.rte.choices.filter fun c => c.layer = layer && c.row = row)
  if cs.isEmpty || cs.any (fun c => c.pour.isNone) || s.rte.combined.any (fun c => c.layer = layer && c.row = row) then s
  else
    let n := ((cs.head?.bind Choice.pour).getD []).length
    let line := cs.foldl (fun acc c => List.zipWith (fun y a => fFma c.gate y a) (c.pour.getD []) acc) (List.replicate n (0 : Word))
    s.setRte { s.rte with combined := s.rte.combined ++ [⟨layer, row, line⟩] }

/-- POUR: held for combining, or discarded and counted; a failed pour fails the row's sequence (R188 to R190, R257). -/
def execPour (p : RoutePkt) (s : State) : Host.Outcome State Fault Refusal :=
  .next (s.routeIn p 3 false fun s =>
    match s.pourChoice p with
    | none => s
    | some c =>
      let mark := fun (s : State) (f : Choice → Choice) => s.setRte { s.rte with choices := updateIf s.rte.choices (· = c) f }
      if s.endedSeq c.seq then
        (mark (s.setRte { s.rte with discClosed := s.rte.discClosed + 1 }) fun c => { c with arrived := true }).settleRoutes
      else if s.steep.failed.contains c.seq then
        (mark (s.setRte { s.rte with discFailed := s.rte.discFailed + 1 }) fun c => { c with arrived := true }).settleRoutes
      else if c.pour.isSome then s.discardDup
      else if p.elems = 0 then
        -- The failure lies at the sender: no unit of this package is named (notes/assumptions/121.md).
        ((mark s fun c => { c with arrived := true }).raise
          { status := 0x0410, cls := 1, seqs := [c.seq], until_ := .steep }).settleRoutes
      else
        let f : Format := if rtPour s.routing = 1 then .bf16 else .fp32
        let y := readLine f 0 p.elems p.payload []
        ((mark s fun c => { c with arrived := true, pour := some y }).combineRow c.layer c.row).settleRoutes)

/-- POUR_END: a member's count of pours for a layer (R184, R190). -/
def execPourEnd (p : RoutePkt) (s : State) : Host.Outcome State Fault Refusal :=
  .next (s.routeIn p 4 false fun s =>
    if s.rte.pourEnds.any fun d => d.layer = p.layer && d.node = p.src then s.discardDup
    else (s.setRte { s.rte with pourEnds := s.rte.pourEnds ++ [⟨p.layer, p.src, p.count, p.steep⟩] }).settleRoutes)

/-! ## Home table revisions (R173) -/

/-- Receive-area bytes that a revision needs at this package: its largest layer (R183). -/
def State.recvNeed (s : State) (t : HomeTable) : Nat :=
  let layers := s.routedList
  let stride := dispStride s.routing s.wire s.hidden
  (layers.map fun l => stride * ((List.range s.nexp).foldl (fun k e =>
    match t.entry s.nexp l e with
    | some h => if h.homeNode = s.dom.node then k + h.capacity else k
    | none => k) 0)).foldl max 0

/-- The package holds an expert of a layer at a local index (R172, R173). -/
def State.holds (s : State) (layer e i : Nat) : Bool :=
  match s.model with
  | none => false
  | some m =>
    let x := s.localExpert m.header i
    i < hLocals m.header && x.layer = layer && x.expert = e

/-- First entry of a revision that this package refuses: a home that is no member, or an entry that names this package, as
home or as a valid shadow, for an expert it does not hold at that index (R173). -/
def State.badEntry (s : State) (r : HomeRev) : Option Nat :=
  let t : HomeTable := ⟨r.rev, r.members, r.entries⟩
  let cells := s.routedList.flatMap fun l => (List.range s.nexp).map fun e => (l, e)
  (cells.find? fun c =>
    match t.entry s.nexp c.1 c.2 with
    | none => true
    | some h =>
      !r.members.contains h.homeNode ||
      (h.homeNode = s.dom.node && !s.holds c.1 c.2 h.homeLocal) ||
      (h.shadowValid && h.shadowNode = s.dom.node && !s.holds c.1 c.2 h.shadowLocal)).map fun c => c.1 * s.nexp + c.2

/-- A member's check of a revision: none where it is accepted, else whether the receive area falls short, with the entry
index or the shortfall in bytes (R173). -/
def State.checkRevision (s : State) (r : HomeRev) : Option (Bool × Nat) :=
  match s.badEntry r with
  | some i => some (false, i)
  | none =>
    let need := s.recvNeed ⟨r.rev, r.members, r.entries⟩
    if s.rte.recvSize.toNat < need then some (true, need - s.rte.recvSize.toNat) else none

/-- HOME_TABLE_CHECK: the revision is accepted and waits for a release, or refused and logged; the manager hears which, with
the entry index or the shortfall (R173). -/
def execHomeTableCheck (r : HomeRev) (s : State) : Host.Outcome State Fault Refusal :=
  act (s.live && s.disc.inDomain) s fun s =>
    match s.checkRevision r with
    | none =>
      (s.setRte { s.rte with next := some ⟨r.rev, r.members, r.entries⟩ }).emit (.member s.dom.manager 2 [BitVec.ofNat 64 r.rev.toNat, 0])
    | some d =>
      (s.raise { status := 0x0541, cls := 0, unit := 8, die := 0, pos := 1, detail := d.2 }).emit
        (.member s.dom.manager 2 [BitVec.ofNat 64 r.rev.toNat, 1, BitVec.ofNat 64 (b2n d.1), BitVec.ofNat 64 d.2])

end Sys2Proof.Machine
end

