-- ==== Sys2Proof/Machine/Tiles.lean ====
section
/-! DEFINITION. Matrix tiles and feeders: work items and their passes, leaf checks tier by tier, cosy, beat stalls,
calibration (spec 04, spec 10 R251 to R257, spec 02 R55 to R57, spec 18 R449 to R451). -/

namespace Sys2Proof.Machine

/-- Position of a tile in error records: core × 2 + tile (R443). -/
def TileAt_pos (t : TileAt) : Nat := 2 * t.core + t.tile
/-- The tile exists and is not mapped out (R107). -/
def State.tileUsable (s : State) (t : TileAt) : Bool :=
  t.die < 4 && t.core < 64 && t.tile < 2 && !s.tileLost t.die (TileAt_pos t)
/-- A droop detector holds the feeders of a tile's core: four adjacent positions each (R472). -/
def State.drooped (s : State) (t : TileAt) : Bool := s.pwr.droop.contains (t.die, t.core / 4)
/-- Fronts of a tile are withheld: droop, or an allowance of none (R109, R472, R475). -/
def State.withheld (s : State) (t : TileAt) : Bool := s.drooped t || s.pwr.allowance.getD t.die 0 = 0
/-- A tile by its position. -/
def State.tileOf (s : State) (t : TileAt) : Tile := s.tile t.die (TileAt_pos t)
/-- Update a tile. -/
def State.onTile (s : State) (t : TileAt) (f : Tile → Tile) : State := s.setTile t.die (TileAt_pos t) (f (s.tileOf t))

/-- A corrected error of a unit; should it escalate to contained, the sequences that used the unit fail (R446). -/
def State.corrected (s : State) (e : ErrIn) (seqs : List Nat) : State :=
  if (s.judge e).cls = 0 then s.note e else s.raise { e with seqs := seqs, until_ := .steep }

/-! ## Work items (R99, R100, R113, R449) -/

/-- The run that a work item belongs to. -/
def State.itemRun (s : State) (w : WorkItem) : Option OpRun := s.runOf w.draft w.index (w.expert.getD 0)

/-- Rows of an operation that a work item carries: at most 512 (R99, R100). -/
def itemRows (t : OpRun) (w : WorkItem) : List Nat :=
  (List.range (min 512 (t.lines - 512 * w.group))).map fun i => 512 * w.group + i

/-- Received lines of a local expert in a layer, in line-list order (R186). -/
def State.localLines (s : State) (layer i : Nat) : List HeldLine :=
  match s.expertAt layer i with
  | some e => s.expertLines layer e
  | none => []

/-- The record of a work item's operation, as it stands (R82). -/
def State.itemRecord (s : State) (w : WorkItem) : List Byte :=
  match s.model with | some m => s.record_ m w.draft w.index | none => []

/-- Received lines that a work item carries (R186). -/
def State.itemHeld (s : State) (w : WorkItem) : List HeldLine :=
  let r := s.itemRecord w
  if rKind r != 5 then [] else
  match s.itemRun w with
  | some t => (itemRows t w).filterMap fun i => (s.localLines (rLayer r) (w.expert.getD 0))[i]?
  | none => []

/-- Sequences of the package whose lines a work item carries. -/
def State.itemSeqs (s : State) (w : WorkItem) : List Nat :=
  if rKind (s.itemRecord w) = 5 then [] else
  match s.itemRun w with
  | some t => (itemRows t w).foldl (fun l i => match (s.ownLines w.draft)[i]? with | some x => addNew l x.seq | none => l) []
  | none => []

/-- Output columns of a work item: padding columns give nothing (R94, R113). -/
def itemCols (r : List Byte) (w : WorkItem) : List Nat :=
  (List.range (min 128 (rN r - 128 * w.block))).map fun i => 128 * w.block + i

/-- A work item that some tile has taken or that waits to be reissued. -/
def State.itemTaken (s : State) (w : WorkItem) : Bool :=
  (s.comp.tiles.any fun p => p.2.items.contains w || p.2.hold.any fun h => h.1 = w) || s.comp.reissue.any fun r => r.2.1 = w

/-- A work item of an issued operation with lines to run, not taken and not finished (R94, R99, R100, R114). -/
def State.itemOk (s : State) (w : WorkItem) : Bool :=
  match s.itemRun w with
  | none => false
  | some t =>
    let r := s.itemRecord w
    isMatrix r && !t.done && 512 * w.group < t.lines && w.block < opBlocks r && !s.itemTaken w &&
    !(t.sums.any fun x => x.1 / 512 = w.group && x.2.1 = w.block)

/-! ## Completion of reissued work (R446, R449; notes/assumptions/28.md) -/

/-- The item taken last by a tile completes: its error leaves handling when it was the last reissued for it. -/
def State.completeItem (s : State) (t : TileAt) : State :=
  match (s.tileOf t).forErr with
  | none => s
  | some i =>
    let s := s.onTile t fun k => { k with forErr := none }
    (s.setErr { s.err with handling := updateIf s.err.handling (fun h => h.index = i) fun h =>
      { h with items := h.items - 1
               carriers := (h.carriers.erase (1, t.die, TileAt_pos t)).erase (2, t.die, t.core) } }).settleItems

/-- The vector unit reads the accumulation region of a tile that has finished its item, and the item completes (R99,
R118). -/
def State.flushTile (s : State) (t : TileAt) : State :=
  match (s.tileOf t).items with
  | [] => s
  | w :: _ =>
    let acc := (s.tileOf t).acc
    let s := s.onRun w.draft w.index (w.expert.getD 0) fun k => { k with
      sums := k.sums ++ acc.map fun p => (512 * w.group + p.1, w.block, p.2) }
    (s.onTile t fun k => { k with items := [], acc := [] }).completeItem t

/-- Every finished item is read and completes. -/
def State.completeAll (s : State) : State :=
  s.comp.tiles.foldl (fun s p => s.flushTile ⟨p.1 / 128, p.1 % 128 / 2, p.1 % 2⟩) s

/-- The tile and its core carry a work item reissued for an error (R446). -/
def State.carry (s : State) (t : TileAt) (i : Word) : State :=
  s.setErr { s.err with handling := updateIf s.err.handling (fun h => h.index = i) fun h =>
    { h with carriers := h.carriers ++ [(1, t.die, TileAt_pos t), (2, t.die, t.core)] } }

/-! ## Checked pieces of a work item (R84, R103, R251 to R256) -/

/-- Pieces of a work item that carry a check, in the order the feeder reads them: the weight scale, the leaves of its
columns, the leaves of compressed received lines (R84, R103, R261). -/
def State.itemPieces (s : State) (w : WorkItem) : List Piece :=
  match s.model with
  | none => []
  | some m =>
    let r := s.itemRecord w
    let g := s.opWgt m r (w.expert.getD 0)
    let wire := rKind r = 5 && (s.expertIn m w.index) = (.ib4, true) && bit s.wire.toNat 3
    g.scalePiece :: (itemCols r w).flatMap (s.linePieces g) ++ (if wire then (s.itemHeld w).flatMap s.wirePieces else [])

/-- The bytes a feeder uses of a piece: first read, or second, with a mark; none where both fail (R105). -/
def State.readPiece (s : State) (reads : List CoreRead) (ps : List Piece) (p : Piece) : Option (Bool × List Byte) :=
  let r := reads.find? fun c => c.piece = (ps.findIdx? (· = p)).getD 0
  let first := (r.bind CoreRead.first).getD (s.pieceBytes p)
  let second := (r.bind CoreRead.second).getD (s.pieceBytes p)
  if s.pieceOk p first then some (false, first) else if s.pieceOk p second then some (true, second) else none

/-- First piece of an item that fails both its reads. -/
def State.badPiece (s : State) (w : WorkItem) (reads : List CoreRead) : Option Piece :=
  let ps := s.itemPieces w
  ps.find? fun p => (s.readPiece reads ps p).isNone

/-- LEAF_RECOVERED: the unit is of the tier that supplied the leaf (R105, R254; notes/assumptions/24.md). -/
def State.leafRecovered (s : State) (r : Piece) (unit die pos : Nat) (seqs : List Nat) : State :=
  s.corrected { status := 0x0413, cls := 0, unit := unit, die := die, pos := pos, addr := r.tensor, detail := r.index } seqs

/-- Lines dispatched from other packages answer with failed pours (R256). -/
def State.failReceived (s : State) (w : WorkItem) : State :=
  (s.itemHeld w).foldl (fun s l => match s.openLine l.src l.expert l.slot with | some l => s.pourLine l none | none => s) s

/-- A tile's work item ends without its results. -/
def State.dropItem (s : State) (t : TileAt) (w : WorkItem) : State :=
  (s.onTile t fun k => { k with items := k.items.erase w, hold := none, acc := [], shadow := none }).completeItem t

/-- A work item ends with a contained error of its sequences, and failed pours for the lines of others. -/
def State.failItem (s : State) (t : TileAt) (w : WorkItem) (e : ErrIn) : State :=
  let s := s.raise { e with cls := 1, seqs := s.itemSeqs w, until_ := .steep }
  if s.tileLost t.die (TileAt_pos t) then s else (s.failReceived w).dropItem t w

/-- Lowest-tier failure of a leaf, or of a tensor scale (R84, R105, R256); a failing caddy tier is reported as its segment
too. -/
def State.leafFailure (s : State) (t : TileAt) (w : WorkItem) (r : Piece) (noHost : Bool) : State :=
  let seqs := s.itemSeqs w
  let s := s.failItem t w { status := if r.scale then 0x0521 else 0x0410, cls := 1, unit := 1, die := t.die, pos := TileAt_pos t
                            addr := r.tensor, detail := if r.scale then 0 else r.index }
  match windowOf r.addr with
  | some .caddy =>
    if s.caddy.active = 3 then s else
    let p := s.caddy.place s.caddy.active (r.addr - Window.caddy.base)
    s.raise { status := 0x0435, cls := 2, unit := 5, die := p.1, pos := p.2, addr := r.addr }
  | some .host =>
    if noHost then s.raise { status := 0x0423, cls := 1, seqs := seqs, addr := r.addr, until_ := .steep } else s
  | _ => s

/-! ## Passes (R94 to R101) -/

/-- Device memory that a work item's operands lie in: weight lines and activation lines (R103). -/
def State.itemRanges (s : State) (w : WorkItem) : List (Nat × Nat) :=
  match s.model, s.itemRun w with
  | some m, some t =>
    let r := s.itemRecord w
    let g := s.opWgt m r (w.expert.getD 0)
    (itemCols r w).flatMap (s.wgtRanges g) ++
    (if rKind r = 5 then
      let p := s.record_ m false (w.index - 1)
      (s.itemHeld w).map fun l =>
        if (s.expertIn m w.index).2 then (s.recvAddr (s.heldAt l), dispSize s.routing s.wire s.hidden)
        else
          let f := (s.expertIn m w.index).1
          (rOut p + expertStride f (rN p) * s.heldAt l, lineSize f (rN p) + scaleSize f (rN p))
     else (itemRows t w).flatMap fun i => lineRanges (actFmt r) t.lines (rK r) (rIn r) i)
  | _, _ => []

/-- Results of a work item, by line of its group: for each line and column, its contraction (R97, R99, R113). -/
def State.itemResults (s : State) (w : WorkItem) (reads : List CoreRead) : List (List Word) :=
  match s.model, s.itemRun w with
  | some m, some t =>
    let r := s.itemRecord w
    let g := s.opWgt m r (w.expert.getD 0)
    let ps := s.itemPieces w
    let bytes := fun p => match s.readPiece reads ps p with | some b => b.2 | none => []
    let cols := (itemCols r w).map (s.wgtLine g bytes)
    let lines := if rKind r = 5 then (s.itemHeld w).map (s.expertOperand m w.index bytes)
      else (itemRows t w).map (s.inOperand m w.draft w.index r t.lines)
    lines.map fun a => cols.map (contract g.k a)
  | _, _ => []

/-- Core reads of device memory bring its 128-byte lines into the die's store (R270). -/
def State.dieRead (s : State) (die : Nat) (ranges : List (Nat × Nat)) : State :=
  ranges.foldl (fun s p =>
    if p.2 = 0 then s else
    (List.range ((p.1 + p.2 - 1) / 128 - p.1 / 128 + 1)).foldl (fun s i => s.dieTouch die (p.1 / 128 * 128 + 128 * i)) s) s

/-- Contraction chunks of a work item (R99, R113). -/
def State.itemChunks (s : State) (w : WorkItem) : Nat :=
  match s.model with | some m => ceilDiv (s.opWgt m (s.itemRecord w) (w.expert.getD 0)).k 128 | none => 0

/-- Run an item that its tile holds in `items`: check every piece, then its passes, the last block left in the active
registers; the tile holds for a piece that fails both reads (R101 to R105). -/
def State.feed (s : State) (t : TileAt) (w : WorkItem) (reads : List CoreRead) : State :=
  let s := s.onTile t fun k => { k with shadow := some (w, 0), gap := 0 }
  match (s.itemRanges w).findSome? fun p => (s.readFault p).map fun e => (e, p.1) with
  | some e =>
    let u := s.faultUnit e.1 e.2
    s.failItem t w { status := e.1, cls := 1, unit := u.1, die := u.2.1, pos := u.2.2, addr := e.2 }
  | none =>
    match s.badPiece w reads with
    | some _ => s.onTile t fun k => { k with items := k.items.erase w, hold := some (w, reads) }
    | none =>
      let ps := s.itemPieces w
      let again := ps.filter fun p => match s.readPiece reads ps p with | some b => b.1 | none => false
      let seqs := s.itemSeqs w
      let s := again.foldl (fun s p => s.leafRecovered p 1 t.die (TileAt_pos t) seqs) s
      if !s.tileUsable t then s
      else
        let rows := s.itemResults w reads
        let s := s.dieRead t.die (s.itemRanges w)
        s.onTile t fun k => { k with
          hold := none, shadow := none, active := some (w, s.itemChunks w - 1), acc := rows.mapIdx fun i x => (i, x) }

/-- Uncorrectable core-store data under an item, a failed residue check, or an uncorrectable die-store line, which is discarded
and read again (R272, R451). -/
def State.coreFault (s : State) (t : TileAt) (w : WorkItem) (reads : List CoreRead) (f : CoreFault) : State :=
  let lost : ErrIn := { status := 0x0F06, cls := 2, unit := 2, die := t.die, pos := t.core, until_ := .item }
  match f with
  | .storeUncorr bank =>
    let k := (t.die, t.core, bank)
    if s.comp.storeErrs.contains k then s.raise lost
    else
      let s := { s with comp := { s.comp with storeErrs := s.comp.storeErrs ++ [k] } }
      s.failItem t w { status := 0x0420, cls := 1, unit := 2, die := t.die, pos := t.core }
  | .residue =>
    let k := (t.die, t.core)
    if s.comp.residueErrs.contains k then s.raise lost
    else
      -- The failed arithmetic is done again: notes/assumptions/23.md.
      let s := { s with comp := { s.comp with residueErrs := s.comp.residueErrs ++ [k] } }
      s.feed t w reads
  | .dieLine a =>
    let line := (s.storeAddr a).map (· / 128)
    State.feed { s with mem := { s.mem with dieStore := s.mem.dieStore.filter fun p => !(p.1 = t.die && some p.2 = line) } } t w reads

/-- A core's store has 64 banks of 64 KiB (R3, R451). -/
def faultOk : Option CoreFault → Bool
  | some (.storeUncorr bank) => bank < 64
  | _ => true

/-- A tile can take a work item: no hold, no ramp to undo, fronts not withheld, not parked (R105, R109, R111, R450). -/
def State.tileFree (s : State) (t : TileAt) : Bool :=
  s.tileUsable t && !s.withheld t && !(s.tileOf t).parked && (s.tileOf t).hold.isNone && (s.tileOf t).ramp = 0

/-- FEEDER_WORK_ITEM: a tile takes the reissued item that waits first on its die, else the unstarted one, and runs it
(R103, R107, R449). -/
def execFeederWorkItem (t : TileAt) (item : WorkItem) (reads : List CoreRead) (fault : Option CoreFault) (s : State) :
    Host.Outcome State Fault Refusal :=
  act (s.live && s.steep.running && !s.steep.staged8 && s.tileFree t && faultOk fault &&
      ((s.comp.reissue.any fun r => r.1 = t.die) || s.itemOk item)) s fun s =>
    let s := s.flushTile t
    let head := s.comp.reissue.find? fun r => r.1 = t.die
    let w := match head with | some r => r.2.1 | none => item
    let s := match head with
      | some r =>
        let s := { s with comp := { s.comp with reissue := s.comp.reissue.erase r } }
        (s.onTile t fun k => { k with forErr := some r.2.2 }).carry t r.2.2
      | none => s
    let s := s.onTile t fun k => { k with items := [w] }
    match fault with
    | some f => s.coreFault t w reads f
    | none => s.feed t w reads

/-! ## Leaves from lower tiers (R252 to R256) -/

/-- What core store returns for a piece from now on. -/
def setRead (reads : List CoreRead) (k : Nat) (b : List Byte) : List CoreRead :=
  ⟨k, some b, none⟩ :: reads.filter fun c => c.piece != k

/-- A held item goes on with a piece that passed; while fronts are withheld the tile holds on (R105, R109). -/
def State.resume (s : State) (t : TileAt) (w : WorkItem) (reads : List CoreRead) (r : Piece) (b : List Byte) : State :=
  let reads := setRead reads (((s.itemPieces w).findIdx? (· = r)).getD 0) b
  if s.withheld t then s.onTile t fun k => { k with hold := some (w, reads) }
  else (s.onTile t fun k => { k with items := [w], hold := none }).feed t w reads

/-- An address has a tier below HBM (R254). -/
def belowHbm (a : Nat) : Bool :=
  match windowOf a with | some .caddy => true | some .host => true | _ => false

/-- LEAF_REFETCH: the piece from its device address, read once more where it fails; then from the next tier down, or a
lowest-tier failure where HBM is the lowest (R254). A tile whose hold is over goes on (R109). -/
def execLeafRefetch (t : TileAt) (first second : Option (List Byte)) (s : State) : Host.Outcome State Fault Refusal :=
  .next (match (s.tileOf t).hold with
    | none => s
    | some (w, reads) =>
      match s.badPiece w reads with
      | none =>
        if s.live && s.tileUsable t && !s.withheld t then (s.onTile t fun k => { k with items := [w], hold := none }).feed t w reads
        else s
      | some r =>
        let g := r.addr / 0x10000
        if !s.live || !s.tileUsable t || s.comp.refetch.contains g then s
        else
          let a := first.getD (s.pieceBytes r)
          let b := second.getD (s.pieceBytes r)
          let good := if s.pieceOk r a then some a else if s.pieceOk r b then some b else none
          match good with
          | some b =>
            let ch := match s.place r.addr with | some p => p.1 | none => 0
            let s := s.leafRecovered r 3 0 ch (s.itemSeqs w)
            if s.tileUsable t then s.resume t w reads r b else s
          | none =>
            if belowHbm r.addr then { s with comp := { s.comp with refetch := s.comp.refetch ++ [g] } }
            else s.leafFailure t w r false)

/-- Bytes of a granule as a read of its tier returns them: the active bank's, or host memory's through the object; none
where the read failed (R277, R285). -/
def State.tierRead (s : State) (g : Nat) (f : FillIn) : Option (List Byte) :=
  if f.failed then none
  else match f.bytes with
  | some b => some (bytesAt b 0 0x10000)
  | none =>
    some ((List.range 0x10000).map (State.devByte { s with mem := { s.mem with granules := [] } } <| g * 0x10000 + ·))

/-- Bytes of a piece with a granule taken from a copy of it. -/
def State.pieceWith (s : State) (g : Nat) (bs : List Byte) (p : Piece) : List Byte :=
  (List.range p.size).map fun i => let a := p.addr + i; if a / 0x10000 = g then bs.getD (a % 0x10000) 0 else s.devByte a

/-- Compressed tensors that the loaded model names (R249). -/
def State.tensors (s : State) : List Wgt :=
  match s.model with
  | none => []
  | some m => (((m.draftOps ++ m.mainOps).flatMap fun r => (s.recWeights m.header r).map fun a =>
      s.wgtAt (lpwWgt (rLpw r)) a 0 0).filter fun w => Config.compressedAt w.addr).eraseDups

/-- Leaves of those tensors that lie in a granule (R252). -/
def State.granulePieces (s : State) (g : Nat) : List Piece :=
  s.tensors.flatMap fun w =>
    ((List.range (s.devNum (w.addr + 8) 4 * s.leavesPerLine w.addr)).map (s.leafPiece w)).filter fun p =>
      p.addr / 0x10000 = g && (p.addr + p.size - 1) / 0x10000 = g

/-- The first leaf in a copy of a granule that fails its check at the base die (R252). -/
def State.granuleBad (s : State) (g : Nat) (bs : List Byte) : Option Piece :=
  (s.granulePieces g).find? fun p => !s.pieceOk p (s.pieceWith g bs p)

/-- The granule's HBM copy takes the bytes of the copy that passed (R254). -/
def State.rewriteGranule (s : State) (g : Nat) (bs : List Byte) : State :=
  match s.resident g with
  | some e => s.devWrite (s.poolAddr e.pool) (bs.take 0x10000)
  | none => s

/-- Requests that waited for a re-fetch are served (R255). -/
def State.serveWaiters (s : State) (g : Nat) : State :=
  match s.resident g with
  | some e =>
    let s := { s with mem := { s.mem with granules := s.mem.granules.map fun x => if x = e then { e with waiters := [] } else x } }
    e.waiters.foldl (fun s r => s.emit (.served r (g * 0x10000))) s
  | none => s

/-- Every tile that holds for a piece of a rewritten granule reads it and checks again: a further failure is one of the same
leaf, which no lower copy can mend (R255). -/
def State.feedWaiters (s : State) (g : Nat) (bs : List Byte) (unit die pos : Nat) : State :=
  s.comp.tiles.foldl (fun s p =>
    let t : TileAt := ⟨p.1 / 128, p.1 % 128 / 2, p.1 % 2⟩
    match (s.tileOf t).hold with
    | none => s
    | some (w, reads) =>
      match s.badPiece w reads with
      | none => s
      | some r =>
        if r.addr / 0x10000 != g then s
        else
          let b := s.pieceWith g bs r
          if !s.pieceOk r b then s.leafFailure t w r false
          else
            let s := s.leafRecovered r unit die pos (s.itemSeqs w)
            if s.tileUsable t then s.resume t w reads r b else s) s

/-- Unit of a tier in error records: the caddy segment, or the package for host memory (R443). -/
def State.tierUnit (s : State) (a : Nat) : Nat × Nat × Nat :=
  match windowOf a with
  | some .caddy => if s.caddy.active = 3 then (5, 0, 0) else
      let p := s.caddy.place s.caddy.active (a - Window.caddy.base); (5, p.1, p.2)
  | _ => (0, 0, 0)

/-- GRANULE_REFETCH: the granule from the caddy or host, read once more where it fails, rewritten in HBM from the copy of which
every leaf passes; a lowest-tier failure where neither copy does (R252, R254 to R256). -/
def execGranuleRefetch (t : TileAt) (first second : FillIn) (s : State) : Host.Outcome State Fault Refusal :=
  .next (match (s.tileOf t).hold with
    | none => s
    | some (w, reads) =>
      match s.badPiece w reads with
      | none => s
      | some r =>
        let g := r.addr / 0x10000
        if !s.live || !s.comp.refetch.contains g then s
        else
          let copy := fun (f : FillIn) => (s.tierRead g f).filter fun bs =>
            s.pieceOk r (s.pieceWith g bs r) && (s.granuleBad g bs).isNone
          let s := { s with comp := { s.comp with refetch := s.comp.refetch.erase g } }
          match (match copy first with | some b => some b | none => copy second) with
          | some bs =>
            let u := s.tierUnit r.addr
            ((s.rewriteGranule g bs).serveWaiters g).feedWaiters g bs u.1 u.2.1 u.2.2
          | none => (s.leafFailure t w r second.failed).serveWaiters g)

/-! ## Cosy (R108 to R112) -/

/-- Cosy is enabled for the loaded steep program (R108). -/
def State.cosy (s : State) : Bool := match s.model with | some m => hCosy m.header | none => false

/-- COSY_RAMP_DOWN: a gap of the running steep that has reached 48 beats, holds left out, filled with filler fronts; then as
many of 16 steps as pass before a line is ready (R108 to R111). -/
def execCosyRampDown (t : TileAt) (gapBeats steps : Nat) (s : State) : Host.Outcome State Fault Refusal :=
  act (s.live && s.steep.running && s.cosy && s.tileUsable t && !s.withheld t && (s.tileOf t).ramp = 0 && gapBeats = 48 &&
      1 ≤ steps && steps ≤ 16) s fun s =>
    s.onTile t fun k => { k with gap := gapBeats, ramp := steps }

/-- COSY_RAMP_UP: as many steps up as were taken down; then the line enters (R111). -/
def execCosyRampUp (t : TileAt) (s : State) : Host.Outcome State Fault Refusal :=
  act (s.live && s.steep.running && s.cosy && s.tileUsable t && !s.withheld t && (s.tileOf t).ramp != 0) s fun s =>
    s.onTile t fun k => { k with gap := 0, ramp := 0 }

/-! ## Beat stalls and calibration (R55 to R57, R450) -/

/-- A firing of a tile's detector: the first is contained and its items go elsewhere; the second maps the tile out
(R57, R446, R449, R450). -/
def State.stallTile (s : State) (t : TileAt) : State :=
  let pos := TileAt_pos t
  let n := (s.tileOf t).firings + 1
  let s := s.onTile t fun k => { k with firings := n }
  if 2 ≤ n then s.raise { status := 0x0F07, cls := 2, unit := 1, die := t.die, pos := pos, until_ := .item }
  else
    let index := s.err.total
    let s := s.raise { status := 0x0F04, cls := 1, unit := 1, die := t.die, pos := pos, until_ := .item }
    if s.tileLost t.die pos || s.err.fatal then s
    else ((s.onTile t fun k => { k with parked := s.steep.running }).reissueTile t.die pos index).settleItems

/-- A request of the tile waits: it has an item that its vector unit has not read, it does not wait for a leaf, it is not
ramped down, and it does not wait for the barrier (R55, R56, R102, R105). -/
def State.requestPending (s : State) (t : TileAt) : Bool :=
  s.steep.running && !s.steep.staged8 && !(s.tileOf t).items.isEmpty && (s.tileOf t).hold.isNone && (s.tileOf t).ramp < 16

/-- BEAT_STALL. -/
def execBeatStall (t : TileAt) (s : State) : Host.Outcome State Fault Refusal :=
  act (s.live && s.tileUsable t && !(s.tileOf t).parked && s.requestPending t) s fun s => s.stallTile t

/-- DELAY_LINE_CALIBRATION: at start, and each time the core rail has changed by more than 25 mV (R56). -/
def execDelayLineCalibration (die : Nat) (s : State) : Host.Outcome State Fault Refusal :=
  let v := s.pwr.vcore.getD die 0
  let c := s.time.calMv.getD die 0
  act (s.powered && die < 4 && 25 < (v - c) + (c - v)) s fun s =>
    { s with time := { s.time with calMv := s.time.calMv.set die v } }

end Sys2Proof.Machine
end

