-- ==== Sys2Proof/Machine/Passes.lean ====
section
/-! DEFINITION. The steep sequencer: issue of operations, their output path, escalation (spec 01 R37, spec 03 R82 to R91,
spec 05 R124 to R126, spec 07 R186 to R192). -/

namespace Sys2Proof.Machine

/-! ## Issue (R37, R82, R113, R186, R192) -/

/-- Draft passes of the steep: E of the sequence with most, and pass 1 always (R231). -/
def State.draftTop (s : State) : Nat := s.steep.batch.foldl (fun k b => max k b.draft) 1

/-- Every draft pass has proposed its tokens, so that the main list may start (R37, R231). -/
def State.draftsDone (s : State) (m : Model) : Bool := !m.hasDraft || s.draftTop ≤ s.steep.draftPasses

/-- The operation before has taken the output path whole: every line of a routed layer is combined, or every line of the
package's own batch is out (R90, R139, R189). -/
def State.prevDone (s : State) (m : Model) (draft : Bool) (index : Nat) : Bool :=
  if index = 0 then (if draft then s.steep.draftPasses < s.draftTop else s.draftsDone m)
  else
    let p := (m.ops draft).getD (index - 1) []
    if rKind p = 5 then s.rte.layersDone.contains (rLayer p) else s.opDone draft (index - 1)

/-- An EXPERT record may run for a home local expert: the layer's shape words are written, the record before it in the
expert operation list has run for that expert, and the program stopped at no record of the layer's list or before
(R186, R192). -/
def State.expertReady (s : State) (m : Model) (index e : Nat) (r : List Byte) : Bool :=
  s.rte.shaped.contains (rLayer r) && (s.expertAt (rLayer r) e).isSome && !s.expertStopped (rLayer r) &&
  (rKind ((m.ops false).getD (index - 1) []) != 5 ||
    match s.runOf false (index - 1) e with | some t => t.done | none => false)

/-- The sequencer may issue an operation now (R37, R82, R90, R192). -/
def State.issueReady (s : State) (m : Model) (draft : Bool) (index : Nat) (expert : Option Nat) : Bool :=
  let r := (m.ops draft).getD index []
  s.live && s.steep.running && !s.steep.staged8 && index < (m.ops draft).length && (s.runOf draft index (expert.getD 0)).isNone &&
  match expert with
  | some e => rKind r = 5 && !draft && s.expertReady m index e r
  | none => rKind r != 5 && s.steep.stopped.isNone && s.prevDone m draft index

/-- Line count M of an operation: the shape word of its local expert, or the lines of the batch area (R34, R113, R186). -/
def State.issueLines (s : State) (m : Model) (draft : Bool) (expert : Option Nat) : Nat :=
  match expert with
  | some e => s.devNum (hShape m.header + 4 * e) 4
  | none => s.areaLines m draft

/-- Record detail of a floor breach: layer index, operation index (R82; notes/assumptions/122.md). -/
def breachDetail (r : List Byte) : Nat := rLayer r * 256 + rOpidx r

/-- OPERATION_ISSUE: the record is read afresh and checked against its floor; a breach or an unreadable record stops the
program for the steep. An operation of no lines is done at once (R82, R114). -/
def execOperationIssue (draft : Bool) (index : Nat) (expert : Option Nat) (readFails : Bool) (s : State) :
    Host.Outcome State Fault Refusal :=
  .next (match s.model with
    | none => s
    | some m =>
      if !s.issueReady m draft index expert then s
      else
        let addr := (hList m.header draft).1 + 128 * index
        let r := s.record_ m draft index
        if readFails || !s.readable addr 128 then (s.stopProgram draft index 0x0420 addr 0).settleRoutes
        else if !draft && !meetsFloor m.floor (rLpw r) then (s.stopProgram draft index 0x0520 0 (breachDetail r)).settleRoutes
        else
          let n := s.issueLines m draft expert
          let t : OpRun := { draft := draft, index := index, expert := expert.getD 0, lines := n, done := n = 0 }
          s.setSteep { s.steep with issued := s.steep.issued ++ [t] })

/-! ## Output of the package's own batch (R124 to R126) -/

/-- Lines of a run whose sequences still run, with their rows. -/
def State.liveRows (s : State) (t : OpRun) : List (Nat × OpLine) :=
  (List.range t.lines).filterMap fun i =>
    match (s.ownLines t.draft)[i]? with
    | some l => if s.gone l.seq then none else some (i, l)
    | none => none

/-- Every line that still runs has its results (R99, R118). -/
def State.resultsIn (s : State) (t : OpRun) (r : List Byte) : Bool :=
  !isMatrix r || (s.liveRows t).all fun p => (t.line p.1 (opBlocks r) (rN r)).isSome

/-- Keys that an attention line asks its mask object about; none without a bitmap mode (R158, R160). -/
def State.askedKeys (s : State) (m : Model) (draft : Bool) (r : List Byte) (l : OpLine) : List Nat :=
  let mode := bits (rAow r) 31 30
  if mode < 2 then []
  else (s.keySet (layerRegion m.attnGeom draft (rLayer r)) l.seq).filter fun k => mode = 2 || k ≤ l.pos

/-- The mask object of an attention line cannot be read (R161). -/
def State.maskStops (s : State) (m : Model) (draft : Bool) (r : List Byte) (l : OpLine) : Bool :=
  rKind r = 3 && 2 ≤ bits (rAow r) 31 30 && s.maskBad (s.seq l.seq).maskAddr.toNat l.pos (s.askedKeys m draft r l)

/-- KV slots that an attention line reads pass through its die's store (R152, R270). -/
def State.readSlots (s : State) (m : Model) (draft : Bool) (r : List Byte) (l : OpLine) : State :=
  match s.item l.seq with
  | some b =>
    if rKind r = 3 then
      s.dieRead (s.attnDie b) ((s.includedKeys m draft r l).filterMap fun k =>
        (s.keySlot m draft r l.seq k).map fun a => (a, geoTS m.attnGeom))
    else s
  | none => s

/-- Steps 1 to 5 of a line: kept for steps 6 to 8, and for escalation where it jumps (R87, R89, R124, R126). A mask object
that cannot be read is reported with UNIT 0 and its address (notes/assumptions/123.md). -/
def State.formLine (s : State) (m : Model) (t : OpRun) (r : List Byte) (p : Nat × OpLine) : State :=
  let q := p.2.seq
  if s.gone q then s
  else if s.maskStops m t.draft r p.2 then s.dataError 0x0532 [q] 0 0 0 (s.seq q).maskAddr.toNat 0
  else match s.rowFault m t.draft t r p.1 p.2 with
  | some e => s.readError q e
  | none =>
    let x := s.steps2to4 m r p.1 (s.step1 m t.draft t r p.1 p.2 false)
    let s := s.readSlots m t.draft r p.2
    let s := s.onRun t.draft t.index 0 fun k => { k with kept := k.kept ++ [(p.1, x)] }
    if t.draft || lpwNact (rLpw r) = 0 then s
    else if escalates (rLpw r) && s.jumps m t.index (rLpw r) (lineNorm x) then
      s.onRun t.draft t.index 0 fun k => { k with jumped := k.jumped ++ [p.1] }
    else s.normCheck m t.index r q x

/-- Steps 6 to 8 of every kept line that still runs; the operation's output is released (R90, R126). -/
def State.finishRun (s : State) (m : Model) (draft : Bool) (index : Nat) (r : List Byte) : State :=
  match s.runOf draft index 0 with
  | none => s
  | some t =>
    let s := t.kept.foldl (fun s p =>
      match (s.ownLines draft)[p.1]? with
      | some l => if s.gone l.seq then s else s.steps6to8 m draft index r t.lines p.1 l p.2
      | none => s) s
    s.onRun draft index 0 fun k => { k with kept := [], jumped := [], done := true }

/-- Jumped lines of a run whose sequences still run (R89, R91). -/
def State.liveJumps (s : State) (t : OpRun) : List (Nat × OpLine) :=
  (s.liveRows t).filter fun p => t.jumped.contains p.1

/-- The output lines of an operation of the package's own batch (R124, R126). -/
def State.ownOutput (s : State) (m : Model) (t : OpRun) (r : List Byte) : State :=
  let s := if t.kept.isEmpty then (s.liveRows t).foldl (fun s p => s.formLine m t r p) s else s
  match s.runOf t.draft t.index 0 with
  | some k => if (s.liveJumps k).isEmpty then s.finishRun m t.draft t.index r else s
  | none => s

/-! ## Output of a local expert (R186, R187, R256) -/

/-- The line of an EXPERT operation for a received line: step 1's results, then steps 2 to 4; the last operation's stays for
its pour, any other's is converted and stored, laid out like the receive area (R35, R124, R187). -/
def State.expertLine (s : State) (m : Model) (t : OpRun) (r : List Byte) (p : Nat × HeldLine) : State :=
  let row := s.heldAt p.2
  let fail := fun (s : State) (e : Nat × Nat × Nat) =>
    let u := s.faultUnit e.1 e.2.1
    (s.dataError e.1 [] u.1 u.2.1 u.2.2 e.2.1 e.2.2).pourLine p.2 none
  match (s.sideRanges m false t.index r t.lines row).findSome? fun g => (s.readFault g).map fun e => (e, g.1, 0) with
  | some e => fail s e
  | none =>
    let x := s.steps2to4 m r row ((t.line p.1 (opBlocks r) (rN r)).getD [])
    if (m.lastExpert (rLayer r)).map Prod.fst = some t.index then
      s.setRte { s.rte with lines := updateIf s.rte.lines (· = p.2) fun l => { l with out := some x } }
    else
      let f := (fmtOf (lpwOut (rLpw r))).getD .fp32
      let ids := Config.receivedIds p.2.src p.2.expert p.2.slot
      let y := convOut m r ids.1 ids.2 x
      let bs := y.bytes f ++ y.scaleBytes
      let a := rOut r + expertStride f (rN r) * row
      match s.checkWrite a bs.length with
      | some e => fail s (e, a, 0)
      | none => s.store a bs

/-- Received lines of a run that no pour has answered, with their places in the line list. -/
def State.openLines (s : State) (t : OpRun) (r : List Byte) : List (Nat × HeldLine) :=
  ((s.localLines (rLayer r) t.expert).mapIdx fun i l => (i, l)).filter fun p => !p.2.pourSent

/-- The output lines of a local expert's operation (R186, R187). -/
def State.expertOutput (s : State) (m : Model) (t : OpRun) (r : List Byte) : State :=
  let s := (s.openLines t r).foldl (fun s p => s.expertLine m t r p) s
  s.onRun false t.index t.expert fun k => { k with done := true }

/-- Every open line of a local expert's operation has its results. -/
def State.expertIn_ (s : State) (t : OpRun) (r : List Byte) : Bool :=
  (s.openLines t r).all fun p => (t.line p.1 (opBlocks r) (rN r)).isSome

/-- OPERATION_OUTPUT: once every line's results are in, the lines of an issued operation take the output path (R124 to R126,
R187). -/
def execOperationOutput (draft : Bool) (index : Nat) (expert : Option Nat) (s : State) : Host.Outcome State Fault Refusal :=
  .next (match s.model with
    | none => s
    | some m =>
      if !(s.live && s.steep.running && !s.steep.staged8) then s
      else
        let s' := s.completeAll
        match s'.runOf draft index (expert.getD 0) with
        | none => s
        | some t =>
          let r := s'.record_ m draft index
          if t.done then s
          else match expert with
          | some _ => if rKind r = 5 && s'.expertIn_ t r then (s'.expertOutput m t r).settleRoutes else s
          | none => if rKind r != 5 && s'.resultsIn t r then (s'.ownOutput m t r).settleRoutes else s)

/-! ## Escalation (R86, R89 to R91) -/

/-- What stops the recomputation of a row: status, address and detail (R84, R264, R272). -/
def State.escFault (s : State) (m : Model) (t : OpRun) (r : List Byte) (p : Nat × OpLine) : Option (Nat × Nat × Nat) :=
  let n := inWidth m.attnGeom r
  let source := if rEsc r then lineRanges .bf16 t.lines n (rEscBuf r) p.1 else lineRanges (actFmt r) t.lines n (rIn r) p.1
  let weights := if isMatrix r then s.weightRanges m.header m.attnGeom r (rWgt r) else []
  match (source ++ weights).findSome? fun g => (s.readFault g).map fun e => (e, g.1, 0) with
  | some e => some e
  | none =>
    match s.rowFault m t.draft t r p.1 p.2 with
    | some e => some e
    | none => if isMatrix r then (List.range (rN r)).findSome? fun i => s.wgtFault (s.opWgt m r 0) i else none

/-- One jumped line, recomputed from the source of R86 and checked once more; it is flagged where it still jumps (R89,
R91). -/
def State.escalateLine (s : State) (m : Model) (t : OpRun) (r : List Byte) (p : Nat × OpLine) : State :=
  let q := p.2.seq
  if s.gone q then s
  else match s.escFault m t r p with
  | some e => s.readError q e
  | none =>
    let s := s.setSteep { s.steep with escalated := addNew s.steep.escalated q }
    let s := s.onNorm t.index fun a => { a with escLines := a.escLines + 1 }
    let x := s.steps2to4 m r p.1 (s.step1 m false t r p.1 p.2 true)
    let s := s.onRun false t.index 0 fun k => { k with kept := updateIf k.kept (fun y => y.1 = p.1) fun y => (y.1, x) }
    if s.jumps m t.index (rLpw r) (lineNorm x) then s.flagLine t.index q (lineNorm x) else s

/-- NORM_ESCALATION: all jumped lines of an operation are recomputed together, once; then every line of the operation takes
steps 6 to 8 (R89, R90, R126). -/
def execNormEscalation (index : Nat) (s : State) : Host.Outcome State Fault Refusal :=
  .next (match s.model, s.runOf false index 0 with
    | some m, some t =>
      if !(s.live && s.steep.running && !t.done) || t.jumped.isEmpty then s
      else
        let r := s.record_ m false index
        let rows := s.liveJumps t
        let s := rows.foldl (fun s p => s.escalateLine m t r p) s
        let s := if rows.isEmpty then s else s.onNorm index fun a => { a with escalations := a.escalations + 1 }
        (s.finishRun m false index r).settleRoutes
    | _, _ => s)

end Sys2Proof.Machine
end

