-- ==== Sys2Proof/Machine/Serve.lean ====
section
/-! DEFINITION. The sequence engine: commit, adaptive drafts, norm and routing tables, adoption, batch forming,
drafting, verification, staging, failover and rebuild (spec 01 R19 to R29, spec 08, spec 09, spec 18 R453). -/

namespace Sys2Proof.Machine

/-! ## Sequence records in HBM (R195, R197, R200) -/

/-- Code of a sequence state (R200). -/
def seqStateCode : SeqState → Nat
  | .free => 0 | .idle => 1 | .prefill => 2 | .decode => 3 | .finished => 4 | .lost => 5

/-- The 128 bytes of a record (R200); a free record is all 0. -/
def seqBytes (q : Nat) (r : SeqRec) : List Byte :=
  if r.state = .free then List.replicate 128 0 else
  leBytes 128 (packAt [
    (0, 4, putBits (seqStateCode r.state) 31 29 + putBits (b2n r.paused) 28 28 + putBits (b2n r.held) 27 27
        + putBits (b2n r.suspended) 26 26 + putBits r.priority 25 24 + putBits r.cls 23 20 + putBits q 19 0),
    (4, 4, putBits r.tenant 31 20 + putBits r.goal 15 0),
    (8, 4, r.committed), (12, 4, r.dirBlock.toNat), (16, 8, r.maskAddr.toNat), (24, 8, r.promptAddr.toNat),
    (32, 4, r.promptRemain), (36, 4, r.newMax), (40, 4, r.newCount), (44, 4, r.stop0.toNat), (48, 4, r.stop1.toNat),
    (52, 4, putBits r.ring 12 0), (56, 8, r.userTag.toNat), (64, 8, r.sampleSeed.toNat), (72, 4, r.temp.toNat),
    (76, 4, putBits r.topk 31 16 + putBits (b2n r.normF) 1 1 + putBits (b2n r.normE) 0 0),
    (80, 4, putBits r.draftLen 31 28 + putBits r.zeroRun 27 23 + putBits r.probeCnt 22 17 + putBits (b2n r.draftOff) 0 0),
    (84, 4, r.pauseSteep.toNat), (88, 4, r.lastCommit.toNat), (92, 4, r.opHandle.toNat)])

/-- Write a record to both copies (R195). -/
def State.putSeq (s : State) (q : Nat) : State :=
  let b := seqBytes q (s.seq q)
  (s.devWrite (seqAddr s.mem.copy0 q) b).devWrite (seqAddr s.mem.copy1 q) b

/-- Write every open record to both copies (R197). -/
def State.writeBack (s : State) : State := s.eng.seqs.foldl (fun s p => s.putSeq p.1) s

/-! ## Commit (R22, R204, R237, R335, R336) -/

/-- Effective draft length and its value before the clamps (R230). -/
def State.effDraft (s : State) (r : SeqRec) : Nat × Nat :=
  let has := match s.model with | some m => m.hasDraft | none => false
  let dmax := s.serve.inForce.draftMax
  let base := if !has || dmax = 0 then 0
    else if r.draftOff then (if r.probeCnt = 63 then 1 else 0)
    else min r.draftLen dmax
  let e := if r.newMax = 0 then base else min base (r.newMax - r.newCount - 1)
  (min e (1048575 - r.committed), base)

/-- The draft fields after a GO; PROBE_CNT stays at 63, its highest value (R200, R237, notes/assumptions/125.md). -/
def adapt (dmax e a : Nat) (probe : Bool) (r : SeqRec) : SeqRec :=
  if probe then
    if a = 1 then { r with draftOff := false, draftLen := min 2 dmax, zeroRun := 0 } else { r with probeCnt := 0 }
  else if r.draftOff then { r with probeCnt := min 63 (r.probeCnt + 1) }
  else if 1 ≤ e && a = 0 then
    let r := { r with draftLen := max 1 (r.draftLen / 2), zeroRun := r.zeroRun + 1 }
    if r.zeroRun = 16 then { r with draftOff := true, draftLen := 0, probeCnt := 0 } else r
  else if 1 ≤ e && a = e then { r with draftLen := min (2 * r.draftLen) dmax, zeroRun := 0 }
  else if 1 ≤ e then { r with zeroRun := 0 }
  else r

/-- Tokens committed of those staged: up to a stop token, and up to NEW_MAX (R204). -/
def cutTokens (r : SeqRec) (ts : List (Word × Bool)) : List (Word × Bool) :=
  let stop := fun (t : Word) => (r.stop0 != 0xFFFFFFFF && t = r.stop0) || (r.stop1 != 0xFFFFFFFF && t = r.stop1)
  let upTo := match ts.findIdx? fun p => stop p.1 with | some i => ts.take (i + 1) | none => ts
  if r.newMax = 0 then upTo else upTo.take (r.newMax - r.newCount)

/-- Finish code of a record after its tokens: 1 STOP, 2 LENGTH, 3 CONTEXT, 0 none (R203, R335). -/
def finishCode (r : SeqRec) (ts : List (Word × Bool)) (newCount committed : Nat) : Nat :=
  if ts.any fun p => (r.stop0 != 0xFFFFFFFF && p.1 = r.stop0) || (r.stop1 != 0xFFFFFFFF && p.1 = r.stop1) then 1
  else if r.newMax != 0 && newCount = r.newMax then 2
  else if 1048576 ≤ committed then 3 else 0

/-- Token output records of one release: three tokens a record (R335, R336). -/
def State.tokenRecords (s : State) (q : Nat) (r : SeqRec) (pos : Nat) (ts : List (Word × Bool)) (first : Bool) (fin : Nat) : State :=
  let ps := pieces 3 ts.length ts
  (ps.mapIdx fun i p => (i, p)).foldl (fun s x =>
    let i := x.1
    let last := i + 1 = ps.length && fin != 0
    let marks := (x.2.mapIdx fun j t => if t.2 then 2 ^ j else 0).foldl (· + ·) 0
    let tok := fun j => match x.2[j]? with | some t => t.1.toNat | none => 0xFFFFFFFF
    let detail := bits (putBits (if last then fin else 0) 28 26 + putBits marks 25 23 + putBits (b2n (i = 0 && r.normF)) 22 22
      + putBits (b2n (i = 0 && r.normE)) 21 21 + putBits (b2n (i = 0 && first)) 20 20 + putBits x.2.length 19 18) 28 16
    s.loose r.ring .token (mkRecord (r.userTag.setWidth 32) last false detail 0x0002
      [(8, 4, r.userTag.toNat / 2 ^ 32), (12, 4, q), (16, 4, pos + 3 * i), (20, 4, tok 0), (24, 4, tok 1), (28, 4, tok 2)])) s

/-- A tenant's completed jobs advance (R221). -/
def State.jobDone (s : State) (q : Nat) : State :=
  let t := (s.seq q).tenant
  s.setTenant t { s.tenant t with jobs := (s.tenant t).jobs + 1 }

/-- A sequence is finished because its appends would pass the last position (R148). -/
def State.contextFull (s : State) (q : Nat) : State :=
  ((s.endPrefill q 0x0531).onSeq q fun r => { r with state := .finished, paused := false, held := false }).note
    { status := 0x0531, cls := 0, unit := 6, seqs := [q] }

/-- What one sequence staged becomes current (R22, R201, R204, R237, R239). -/
def State.commitSeq (s : State) (b : BatchItem) (g : Staged) : State :=
  let q := b.seq
  let r := s.seq q
  let r := { r with normF := r.normF || s.steep.flagged.contains q, normE := r.normE || s.steep.escalated.contains q }
  let ts := cutTokens r g.tokens
  let newCount := r.newCount + ts.length
  let committed := r.committed + if b.prefill then b.lines else ts.length
  let first := b.prefill && b.final
  -- The long prefill reports the chunk, or ends, before the turn's first token (R209, R336).
  let h := r.opHandle.toNat
  let s := match s.longOps.find? h with
    | some o =>
      let o := { o with done := o.done + b.lines }
      let s := { s with longOps := s.longOps.set h o }
      if !b.prefill then s else if b.final then s.endOp h 0 0x0605 false else s.opNote h o 0x0003
    | none => s
  let r := if b.prefill then
      { r with promptAddr := r.promptAddr + BitVec.ofNat 64 (4 * b.lines), promptRemain := r.promptRemain - b.lines
               state := if b.final then .decode else r.state, opHandle := if b.final then 0 else r.opHandle }
    else r
  let eff := s.effDraft r
  let r' := if b.prefill || eff.1 < eff.2 then r else adapt s.serve.inForce.draftMax b.draft g.accepted b.probe r
  let v := s.serve
  let s := if b.prefill then s else { s with serve := { v with
    draftProposed := v.draftProposed + BitVec.ofNat 64 g.proposed
    draftAccepted := v.draftAccepted + BitVec.ofNat 64 g.accepted
    draftSteeps := v.draftSteeps + if 1 ≤ b.draft then 1 else 0
    draftOffs := v.draftOffs + if r'.draftOff && !r.draftOff then 1 else 0
    draftProbes := v.draftProbes + if b.probe then 1 else 0
    draftProbeWins := v.draftProbeWins + if b.probe && r.draftOff && !r'.draftOff then 1 else 0 } }
  let fin := if ts.isEmpty then 0 else finishCode r ts newCount committed
  let s := s.setSeq q { r' with
    committed := committed, newCount := newCount
    lastToken := match ts.getLast? with | some t => t.1 | none => r'.lastToken
    prevToken := if b.prefill then b.tokens.getLast?.getD r'.prevToken
      else match ts.reverse with | _ :: p :: _ => p.1 | [_] => r'.lastToken | [] => r'.prevToken
    lastCommit := if ts.isEmpty then r'.lastCommit else s.now.setWidth 32
    normF := r.normF && ts.isEmpty, normE := r.normE && ts.isEmpty
    state := if fin = 0 then r'.state else .finished }
  let s := s.tokenRecords q r (if b.prefill then committed else b.firstPos + 1) ts first fin
  let s := if fin = 0 then s else s.jobDone q
  if fin = 3 then s.contextFull q else s

/-- Commit in batch-list order (R22). -/
def State.commitAll (s : State) : State :=
  s.steep.batch.foldl (fun s b =>
    match s.steep.staged.find? fun g => g.seq = b.seq with
    | some g => if s.gone b.seq then s else s.commitSeq b g
    | none => s) s

/-! ## Norm-watch and routing count tables (R88, R93, R193) -/

/-- One operation's entry at a GO release: norms are added in line order, every sum, the mean and the update rounded once
(R88, notes/assumptions/126.md). -/
def State.normUpdate (s : State) (m : Model) (a : NormAcc) : State :=
  match normAddr m a.op with
  | none => s
  | some p =>
    let ns := (a.norms.filter fun x => !s.endedSeq x.1).map Prod.snd
    let lines := s.devNum (p + 4) 4
    let mean : Word := BitVec.ofNat 32 (s.devNum p 4)
    let avg := fDivNat (ns.foldl fAdd 0) ns.length
    let k := lpwShift (rLpw (s.record_ m false a.op))
    let mean' := if ns.isEmpty then mean else if lines = 0 then avg
      else fAdd mean (rnd ((num (fSub avg mean)).mul (.fin false 1 (-(k : Int)))))
    s.storeOk p (leBytes 32 (packAt [
      (0, 4, mean'.toNat), (4, 4, min 0xFFFFFFFF (lines + ns.length)),
      (8, 4, s.devNum (p + 8) 4 + a.escalations), (12, 4, s.devNum (p + 12) 4 + a.nonfinite),
      (16, 8, s.devNum (p + 16) 8 + a.escLines), (24, 8, s.devNum (p + 24) 8 + a.flagLines)]))

/-- One routed layer's entry at a GO release. -/
def State.routeUpdate (s : State) (m : Model) (a : RouteAcc) : State :=
  match (routedLayers m.mainOps).findIdx? (· = a.layer) with
  | none => s
  | some i =>
    let p := hRoute m.header + 32 * i
    s.storeOk p (leBytes 32 (packAt [
      (0, 8, s.devNum p 8 + a.admitted), (8, 8, s.devNum (p + 8) 8 + a.spilled),
      (16, 8, s.devNum (p + 16) 8 + a.dropped), (24, 8, s.devNum (p + 24) 8 + a.passthrough)]))

/-- The routing count entries are reset. -/
def State.routeReset (s : State) (m : Model) : State :=
  (List.range (routedLayers m.mainOps).length).foldl (fun s i =>
    if hRoute m.header = 0 then s else s.storeOk (hRoute m.header + 32 * i) (List.replicate 32 0)) s

/-- The tables of the loaded model at a GO release. -/
def State.tablesUpdate (s : State) : State :=
  match s.model with
  | none => s
  | some m => s.steep.routes.foldl (fun s a => s.routeUpdate m a) (s.steep.norms.foldl (fun s a => s.normUpdate m a) s)

/-! ## Release records (R425) -/

/-- A release record from its bytes. -/
def relOf (b : List Byte) : RelRec :=
  let w := leAt b 20 4
  { closed := BitVec.ofNat 32 (leAt b 0 4), next := BitVec.ofNat 32 (leAt b 4 4), htRev := BitVec.ofNat 32 (leAt b 8 4)
    quotaRev := BitVec.ofNat 32 (leAt b 12 4), memberRev := BitVec.ofNat 32 (leAt b 16 4)
    state := match bits w 7 6 with | 0 => .bringup | 1 => .test | 2 => .service | _ => .recovery
    adopt := bit w 3, open_ := bit w 2, bankSwitch := bit w 1, repeat_ := bit w 0 }

/-- Code of a domain state (R357). -/
def domCode : DomState → Nat
  | .bringup => 0 | .test => 1 | .service => 2 | .recovery => 3

/-- The 32 bytes of a release record. -/
def relBytes (r : RelRec) : List Byte :=
  leBytes 32 (packAt [
    (0, 4, r.closed.toNat), (4, 4, r.next.toNat), (8, 4, r.htRev.toNat), (12, 4, r.quotaRev.toNat), (16, 4, r.memberRev.toNat),
    (20, 4, putBits (domCode r.state) 7 6 + putBits (b2n r.adopt) 3 3 + putBits (b2n r.open_) 2 2
        + putBits (b2n r.bankSwitch) 1 1 + putBits (b2n r.repeat_) 0 0)])

/-! ## Steps 3 and 4 of the boundary (R25, R29, R279, R306) -/

/-- The bank switch: the new generation is in force and ACTIVATE is written (R279, R306). -/
def State.switchBank (s : State) (closed : Word) : State :=
  match s.caddy.armed with
  | none => s
  | some g =>
    let s := s.takeBank g
    let s := { s with dom := { s.dom with arm := none } }
    (s.waiting.filter fun w => w.what = .arm).foldl (fun s w => (s.unwait w).finish w.ring w.desc 0 [(8, 4, closed.toNat)]) s

/-- Adopt the revisions a release names (R29, R173, R174). -/
def State.adoptRevs (s : State) (r : RelRec) : State :=
  let s := match s.rte.next with
    | some t => if t.rev = r.htRev then s.setRte { s.rte with table := t, next := none } else s
    | none => s
  let s := if r.quotaRev = s.rte.quotaRev then s else s.setRte { s.rte with quotaRev := r.quotaRev, quotaMembers := s.memberList }
  { s with dom := { s.dom with memberRev := r.memberRev } }

/-- The domain state a release names; entering SERVICE clears TRUSTED_EN, entering BRINGUP keeps the last membership
(R358, R388, R418, R419). -/
def State.enterState (s : State) (d : DomState) : State :=
  let s := if d = .bringup then s.setDisc { s.disc with lastMembership := some s.dom.members } else s
  s.setDom { s.dom with state := d, trustedEn := s.dom.trustedEn && d != .service }

/-! ## Step 6: the batch (R208 to R216) -/

/-- Lines a sequence would contribute (R208). -/
def State.linesOf_ (s : State) (r : SeqRec) : Nat :=
  if r.state = .prefill then min r.promptRemain s.serve.inForce.chunkLen else 1 + (s.effDraft r).1

/-- A ring pair exists (R207). -/
def State.pairExists (s : State) (n : Nat) : Bool := (s.ring n).enable && !(s.ring n).draining

/-- Before in batch-list order (R212). -/
def batchLe (a b : Nat × SeqRec) : Bool :=
  let d := fun (r : SeqRec) => if r.state = .decode then 0 else 1
  let k := fun (x : Nat × SeqRec) => ((3 - x.2.priority) * 2 + d x.2) * 2 ^ 20 + x.1
  k a ≤ k b

/-- Candidates in batch-list order (R212). -/
def State.candidates (s : State) : List Nat :=
  let c := s.eng.seqs.filter fun p =>
    (p.2.state = .prefill || p.2.state = .decode) && !p.2.suspended && !p.2.closing && s.pairExists p.2.ring
  (sortBy batchLe c).map Prod.fst

/-- Lines of a batch. -/
def State.sumLines (s : State) (b : List Nat) : Nat := b.foldl (fun k q => k + s.linesOf_ (s.seq q)) 0

/-- Predicted steep time in nanoseconds (R214). -/
def State.predict (s : State) (b : List Nat) : Nat :=
  let l := s.serve.inForce
  let qk := b.foldl (fun k q => let n := s.linesOf_ (s.seq q); k + n * ((s.seq q).committed + n)) 0
  wrap64 (l.predBase * 1000 + wrap64 (s.sumLines b * l.predLine) + wrap64 (qk * l.predKey) / 1000)

/-- Latency goal in nanoseconds; none is +∞ (R200, R213). -/
def State.goalOf (s : State) (q : Nat) : Option Nat := let g := (s.seq q).goal; if g = 0 then none else some (g * 10000)

/-- Smaller of two goals. -/
def minGoal : Option Nat → Option Nat → Option Nat
  | none, b => b
  | a, none => a
  | some a, some b => some (min a b)

/-- Tightest goal of a batch. -/
def State.tightest (s : State) (b : List Nat) : Option Nat := b.foldl (fun g q => minGoal g (s.goalOf q)) none

/-- A prediction is above a goal. -/
def above (p : Nat) (g : Option Nat) : Bool := match g with | none => false | some g => g < p

/-- The pause victim (R215). -/
def State.victim (s : State) (b : List Nat) (g : Option Nat) : Option Nat :=
  let top := (b.filter fun q => s.goalOf q = g).foldl (fun m q => max m (s.seq q).priority) 0
  let k := fun q => ((s.seq q).priority * 2 + (if (s.seq q).state = .prefill then 0 else 1)) * 2 ^ 20 + (2 ^ 20 - q)
  (sortBy (fun a b => k a ≤ k b) (b.filter fun q => (s.seq q).priority < top)).head?

/-- Pause victims until the prediction meets the goal (R213). -/
def State.pauseLoop : Nat → State → List Nat → Word → State × List Nat
  | 0, s, b, _ => (s, b)
  | n + 1, s, b, next =>
    let g := s.tightest b
    if above (s.predict b) g then
      match s.victim b g with
      | some v =>
        let s := (s.onSeq v fun r => { r with paused := true, pauseSteep := next }).event v 0x0550
        State.pauseLoop n s (b.erase v) next
      | none => (s, b)
    else (s, b)

/-- Insert into a batch in batch-list order. -/
def State.insertSeq (s : State) (b : List Nat) (q : Nat) : List Nat :=
  insertBy (fun x y => batchLe (x, s.seq x) (y, s.seq y)) q b

/-- Resume tests in resume order (R213, R216). -/
def State.resumeLoop (s : State) (b : List Nat) (ps : List Nat) : State × List Nat :=
  ps.foldl (fun (s, b) p =>
    let gp := minGoal (s.tightest b) (s.goalOf p)
    let fits := match gp with | none => true | some g => s.predict (b ++ [p]) ≤ g - g / 16
    if b.length < 16384 && s.sumLines (b ++ [p]) ≤ s.serve.inForce.lineBudget && fits then
      ((s.onSeq p fun r => { r with paused := false }).event p 0x0551, s.insertSeq b p)
    else (s, b)) (s, b)

/-- Resume order (R216). -/
def State.resumeOrder (s : State) (ps : List Nat) : List Nat :=
  sortBy (fun a b =>
    let x := s.seq a; let y := s.seq b
    if x.priority != y.priority then y.priority < x.priority
    else if x.pauseSteep != y.pauseSteep then older x.pauseSteep y.pauseSteep
    else a ≤ b) ps

/-- Reserve for each sequence in order; what a class cannot meet is held (R146, R147). -/
def State.reserveAll (s : State) (b : List Nat) : State × List Nat :=
  b.foldl (fun (s, l) q =>
    let r := s.seq q
    match s.reserve q (r.committed + s.linesOf_ r) with
    | some s => (s.onSeq q fun r => { r with held := false }, l ++ [q])
    | none => (if r.held then s else (s.onSeq q fun r => { r with held := true }).event q 0x0530, l)) (s, [])

/-- Admission, pauses, resumptions and reservation; the batch, and the goal G in force, which held sequences do not change
(R148, R213, R214). -/
def State.formBatch (s : State) (next : Word) (go : Bool) : State × List Nat × Option Nat :=
  -- A sequence whose appends would pass position 1,048,575 is finished, not admitted (R148).
  let full := s.candidates.filter fun q =>
    let r := s.seq q; 1048575 < r.committed + (if r.state = .prefill then s.linesOf_ r else 1) - 1
  let s := full.foldl (fun s q => let s := s.contextFull q; if go then s.jobDone q else s) s
  let cs := s.candidates
  let (b, k) := (cs.filter fun q => !(s.seq q).paused).foldl (fun (b, k) q =>
    if b.length < 16384 && s.sumLines (b ++ [q]) ≤ s.serve.inForce.lineBudget then (b ++ [q], k) else (b, k + 1)) (([] : List Nat), 0)
  let ps := s.resumeOrder (cs.filter fun q => (s.seq q).paused)
  let s := { s with serve := { s.serve with deferred := s.serve.deferred + BitVec.ofNat 64 k } }
  let (s, b) := State.pauseLoop b.length s b next
  let (s, b) := s.resumeLoop b ps
  let r := s.reserveAll b
  (r.1, r.2, s.tightest b)

/-- Tokens of a prompt chunk: device memory, or the host array as read; none where the read failed (R210, R334). -/
def State.chunkTokens (s : State) (inp : BoundaryIn) (q n : Nat) : Option (List Word) :=
  let r := s.seq q
  if r.tokDev then
    let a := r.promptAddr.toNat
    if (s.checkRead a (4 * n)).isNone && s.readable a (4 * n) then some (s.f32s a n) else none
  else match inp.prompts.find? fun p => p.1 = q with
    | some (_, some ts) => if ts.length = n then some ts else none
    | _ => none

/-- The batch entries, in batch-list order. -/
def State.batchItems (s : State) (inp : BoundaryIn) (b : List Nat) : List BatchItem :=
  let dies := s.placeDies (b.map fun q => (s.seq q).committed + s.linesOf_ (s.seq q))
  (b.foldl (fun (acc : List BatchItem × Nat) q =>
    let r := s.seq q
    let n := s.linesOf_ r
    let pre := r.state = .prefill
    let e := if pre then 0 else (s.effDraft r).1
    let it : BatchItem := { seq := q, lines := n, firstPos := r.committed, firstRow := acc.2, prefill := pre
                            final := pre && n = r.promptRemain, draft := e, probe := !pre && r.draftOff && e = 1
                            tokens := if pre then (s.chunkTokens inp q n).getD [] else [r.lastToken], prev := r.prevToken
                            die := dies.getD acc.1.length 0 }
    (acc.1 ++ [it], acc.2 + n)) (([] : List BatchItem), 0)).1

/-- Lines of a draft pass (R231). -/
def draftLines (b : List BatchItem) (pass : Nat) : Nat :=
  if pass = 1 then b.foldl (fun k i => k + if i.prefill then i.lines else 2) 0
  else (b.filter fun i => !i.prefill && pass ≤ i.draft).length

/-- The batch area (R34). -/
def State.writeBatch (s : State) (b : List BatchItem) : State :=
  match s.model with
  | none => s
  | some m =>
    let head := leBytes 64 (packAt [(0, 4, b.foldl (fun k i => k + i.lines) 0),
      (4, 4, if m.hasDraft then draftLines b 1 else 0), (8, 4, b.length)])
    let ents := b.flatMap fun i => leBytes 16 (packAt [(0, 4, i.seq), (4, 4, i.lines), (8, 4, i.firstPos), (12, 4, i.firstRow)])
    s.storeOk (hBatch m.header) (head ++ ents)

/-- The sequence of a cancelled long prefill (R209). -/
def State.cancelPrefill (s : State) (q : Nat) : State :=
  s.onSeq q fun r =>
    let r := { r with promptRemain := 0, opHandle := 0, suspended := false, paused := false, held := false }
    if r.promptStart = 0 then { r with state := .idle, committed := 0 } else { r with state := .finished }

/-- Suspensions, resumptions and cancels of long prefills take effect at the batch forming (R209, R341). -/
def State.prefillControls (s : State) : State :=
  s.longOps.foldl (fun s p =>
    let o := p.2
    match o.kind with
    | .prefill q =>
      let ok := fun (s : State) => o.waiters.foldl (fun s c => s.finishControl c 0) s
      match o.state with
      | .suspendPending =>
        let o' := { o with state := .suspended, waiters := [] }
        let s := (s.onSeq q fun r => { r with suspended := true })
        ok (({ s with longOps := s.longOps.set p.1 o' }).opNote p.1 o' 0x0601)
      | .resumePending =>
        let o' := { o with state := .running, waiters := [] }
        let s := (s.onSeq q fun r => { r with suspended := false })
        ok (({ s with longOps := s.longOps.set p.1 o' }).opNote p.1 o' 0x0603)
      | .cancelPending => (s.cancelPrefill q).endOp p.1 0x0602 0 false
      | _ => s
    | _ => s) s

/-- Step 6: the batch of the next steep, which starts (R25, R213). -/
def State.startSteep (s : State) (inp : BoundaryIn) (next : Word) (go : Bool) : State :=
  let s := s.prefillControls
  -- A record one copy of which cannot be read comes from the other (R195, R197).
  let s := s.candidates.foldl (fun s q => s.readRecord q (inp.badCopy.contains q)) s
  let (s, b, goal) := s.formBatch next go
  let s := s.setSteep { ({} : Steep) with running := true, number := next, held := true, releasedAt := some s.now, goal := goal }
  let items := s.batchItems inp b
  let s := s.setSteep { s.steep with batch := items }
  let s := s.writeBatch items
  let s := s.candidates.foldl (fun s q => s.cacheTouch q) s
  let bad := items.filter fun i => i.prefill && (s.chunkTokens inp i.seq i.lines).isNone
  let s := bad.foldl (fun s i =>
    if (s.seq i.seq).tokDev && (s.checkRead (s.seq i.seq).promptAddr.toNat (4 * i.lines)).isNone then
      s.dataError 0x0420 [i.seq] 0 0 0 (s.seq i.seq).promptAddr.toNat 0
    else s.dataError 0x0203 [i.seq] 9 0 1 0 0) s
  if s.noGroup then s.fatal { status := 0x0F06, cls := 3, unit := 2 } else s.runHeld.settleRoutes

/-! ## Taking release records (R25, R420, R422, R426) -/

/-- The oldest release record waiting. -/
def State.relHead (s : State) : Option RelRec := (s.notice 63).map fun n => relOf n.1

/-- Apply the verdict: step 1 (R22, R23, R149, R286). -/
def State.applyVerdict (s : State) (go : Bool) : State :=
  let per := match s.steep.releasedAt with | some t => s.since t | none => 0
  let late := go && (match s.steep.goal with | some g => g < per * 40 | none => false)
  let s := { s with serve := { s.serve with
    steepTime := BitVec.ofNat 32 per, goalMiss := s.serve.goalMiss + if late then 1 else 0 } }
  let s := if go then (s.commitAll.tablesUpdate).endHandling false else s
  ((s.abandon.rehashAll).freeClosed).writeBack

/-- A release that closes the steep in progress: the steps of R25 in order. -/
def State.applyRelease (s : State) (inp : BoundaryIn) (r : RelRec) : State :=
  let stays := r.state = .test || r.state = .service
  let go := !r.repeat_ && stays
  let s := s.applyVerdict go
  let s := if go then s else s.abortSwap
  let s := if go && r.bankSwitch then s.switchBank r.closed else s
  let s := (s.adoptRevs r).enterState r.state
  let s := s.cut
  if stays then s.startSteep inp r.next go
  else
    let s := s.setRte { s.rte with held := [] }
    -- Entering BRINGUP starts a full discovery round (R388, R419).
    if r.state = .bringup && s.dom.role = .manager then s.enterBringup.startRound else s

/-- RELEASE: the record at the head of mailbox 63 is applied, or discarded and logged (R25, R426). -/
def execRelease (inp : BoundaryIn) (s : State) : Host.Outcome State Fault Refusal :=
  .next (match s.relHead with
    | none => s
    | some r =>
      if !s.serving || !s.requestsIn || (!s.steep.running && (r.open_ || r.adopt)) then s
      else
        let s := s.take 63
        if s.steep.running && !r.open_ && !r.adopt && r.closed = s.steep.number then s.applyRelease inp r
        else s.raise { status := 0x0319, cls := 0, unit := 6 })

/-- OPENING_RELEASE: a member that runs no steep adopts NEXT (R420, R426). -/
def execOpeningRelease (inp : BoundaryIn) (s : State) : Host.Outcome State Fault Refusal :=
  .next (match s.relHead with
    | none => s
    | some r =>
      if !s.serving || !s.requestsIn || s.steep.running || !r.open_ then s
      else
        let s := ((s.take 63).rehashAll.freeClosed).writeBack
        let s := ((s.adoptRevs r).enterState r.state).cut
        s.startSteep inp r.next true)

/-- ADOPTION_RECORD: step 4 of the boundary alone; a revision for the membership in force clears
MEMBERSHIP_CHANGED (R388, R422). -/
def execAdoptionRecord (s : State) : Host.Outcome State Fault Refusal :=
  .next (match s.relHead with
    | none => s
    | some r =>
      if !s.serving || s.steep.running || !r.adopt || r.open_ then s
      else
        let s := ((s.take 63).adoptRevs r).adoptTaken s.dom.node
        if sortBy (· ≤ ·) s.rte.table.members = s.memberList && s.rte.table.rev = r.htRev then
          { s with dom := { s.dom with membershipChanged := false } }
        else s)

/-! ## Drafting (R231, R232) -/

/-- A sequence's draft token at a position (R232, R233); none where its draft is absent. -/
def draftToken (r : SeqRec) (pos : Nat) (logits : List Word) : Option Word :=
  (sample r.temp r.topk r.sampleSeed pos 1 logits).map fun t => BitVec.ofNat 32 t

/-- Index of a list's HEAD record, its last (R37). -/
def Model.headAt (m : Model) (draft : Bool) : Nat := (m.ops draft).length - 1

/-- Range of the logits that a list's HEAD record wrote for a row (R35, R202). -/
def State.logitRanges (s : State) (m : Model) (draft : Bool) (row : Nat) : List (Nat × Nat) :=
  let r := s.record_ m draft (m.headAt draft)
  lineRanges ((fmtOf (lpwOut (rLpw r))).getD .fp32) (s.areaLines m draft) (rN r) (rOut r) row

/-- Logits of a row. -/
def State.logits (s : State) (m : Model) (draft : Bool) (row : Nat) : List Word :=
  let r := s.record_ m draft (m.headAt draft)
  (s.storedAt ((fmtOf (lpwOut (rLpw r))).getD .fp32) (rTscale r) (s.areaLines m draft) (rN r) (rOut r) row).vals

/-- What stops the reading of some rows' logits: status, address and detail (R264, R272). -/
def State.logitFault (s : State) (m : Model) (draft : Bool) (rows : List Nat) : Option (Nat × Nat × Nat) :=
  (rows.flatMap (s.logitRanges m draft)).findSome? fun p => (s.readFault p).map fun e => (e, p.1, 0)

/-- Row of the line from which the pass in progress proposes a sequence's token: its line at L, or its one line (R231). -/
def State.draftRow (s : State) (b : BatchItem) : Option Nat :=
  s.draftRows.findIdx? fun l => l.seq = b.seq && l.pos = b.firstPos + s.steep.draftPasses

/-- One sequence's proposal of the pass in progress; absent where an earlier one was (R232). -/
def State.propose (s : State) (m : Model) (b : BatchItem) : State :=
  match s.draftRow b with
  | none => s
  | some row =>
    match s.logitFault m true [row] with
    | some e => s.readError b.seq e
    | none =>
      let prev := s.steep.drafts.get [] b.seq
      let x := s.logits m true row
      let i := s.steep.draftPasses + 1
      let d := if prev.all fun p => p.1.isSome then draftToken (s.seq b.seq) (b.firstPos + i) x else none
      s.setSteep { s.steep with drafts := s.steep.drafts.set b.seq (prev ++ [(d, x)]) }

/-- DRAFT_PASS: once the draft list has run over the lines of pass i, the i-th draft token of each drafting sequence is
proposed from the logits that the draft HEAD record wrote (R231, R232). -/
def execDraftPass (s : State) : Host.Outcome State Fault Refusal :=
  .next (match s.model with
    | none => s
    | some m =>
      let i := s.steep.draftPasses + 1
      if !(s.live && s.steep.running && !s.steep.staged8 && s.steep.stopped.isNone && m.hasDraft && i ≤ s.draftTop &&
           s.opDone true (m.headAt true)) then s
      else
        let want := s.steep.batch.filter fun b => !b.prefill && i ≤ b.draft && !s.gone b.seq
        let s := want.foldl (fun s b => s.propose m b) s
        let s := s.setSteep { s.steep with draftPasses := i, issued := s.steep.issued.filter fun t => !t.draft }
        (if i < s.draftTop then s.storeOk (hBatch m.header + 4) (leBytes 4 (draftLines s.steep.batch (i + 1))) else s).settleRoutes)

/-! ## Verification and sampling (R202, R234 to R236) -/

/-- Tokens of a decode sequence: accepted drafts and the main token; none where a logit leaves it undefined. -/
def verify (r : SeqRec) (pos : Nat) : List (Option Word × List Word) → List (List Word) → Option (List (Word × Bool))
  | [], rows =>
    (sample r.temp r.topk r.sampleSeed pos 0 (rows.headD [])).map fun t => [(BitVec.ofNat 32 t, false)]
  | (d, ql) :: ds, rows =>
    let p := rows.headD []
    if r.temp = 0 then
      match sample r.temp r.topk r.sampleSeed pos 0 p with
      | none => none
      | some g =>
        if d = some (BitVec.ofNat 32 g) then (verify r (pos + 1) ds (rows.drop 1)).map fun l => (BitVec.ofNat 32 g, true) :: l
        else some [(BitVec.ofNat 32 g, false)]
    else
      match distOf r.temp r.topk p with
      | none => none
      | some dp =>
        match d, distOf r.temp r.topk ql with
        | some t, some dq =>
          if acceptDraft dp dq t.toNat (draw r.sampleSeed pos 2) then
            (verify r (pos + 1) ds (rows.drop 1)).map fun l => (t, true) :: l
          else some [(BitVec.ofNat 32 (drawResidual dp dq p.length (draw r.sampleSeed pos 0)), false)]
        | _, _ => some [(BitVec.ofNat 32 (drawToken dp (draw r.sampleSeed pos 0)), false)]

/-- Rows whose logits a batch entry is sampled from: the last line of a final chunk, or every line of a decode sequence
(R202, R208, R236). -/
def BatchItem_rows (b : BatchItem) : List Nat :=
  if b.prefill then [b.firstRow + b.lines - 1] else (List.range (1 + b.draft)).map fun j => b.firstRow + j

/-- One sequence's verification; what it stages (R202, R236). -/
def State.verifySeq (s : State) (m : Model) (b : BatchItem) : State :=
  let q := b.seq
  let ds := (s.steep.drafts.get [] q).take b.draft
  if s.gone q || (b.prefill && !b.final) || ds.length != b.draft || s.steep.staged.any (fun g => g.seq = q) then s
  else match s.logitFault m false (BatchItem_rows b) with
  | some e => s.readError q e
  | none =>
    match verify (s.seq q) (b.firstPos + if b.prefill then b.lines else 1) ds ((BatchItem_rows b).map (s.logits m false)) with
    | none => s.dataError 0x055B [q] 0 0 0 0 0
    | some ts =>
      let g : Staged := { seq := q, tokens := ts, proposed := b.draft, accepted := (ts.filter Prod.snd).length
                          normF := s.steep.flagged.contains q, normE := s.steep.escalated.contains q }
      s.setSteep { s.steep with staged := s.steep.staged ++ [g] }

/-- VERIFY_AND_SAMPLE: once HEAD has written its logits, draft tokens are verified and the main token sampled (R202, R234 to
R236). -/
def execVerifyAndSample (s : State) : Host.Outcome State Fault Refusal :=
  .next (match s.model with
    | none => s
    | some m =>
      if s.live && s.steep.running && !s.steep.staged8 && s.opDone false (m.headAt false) then
        (s.steep.batch.foldl (fun s b => s.verifySeq m b) s).settleRoutes
      else s)

/-! ## Staging (R19, R20, R192, R423) -/

/-- Every operation of the main list has taken the output path, its KV appends with it (R19, R20). -/
def State.mainDone (s : State) (m : Model) : Bool :=
  (List.range m.mainOps.length).all fun i =>
    let r := m.mainOps.getD i []
    if rKind r = 5 then s.rte.layersDone.contains (rLayer r) else s.opDone false i

/-- Stage 8 may complete: every sequence that runs has its outputs and its KV appends, and the duties of every routed layer
are done; a package whose own sequences all failed has its duties left (R19, R20, R192). -/
def State.stageReady (s : State) : Bool :=
  let outs := s.steep.batch.all fun b =>
    s.gone b.seq || s.steep.staged.any (fun g => g.seq = b.seq) || (b.prefill && !b.final)
  let work := match s.model with | some m => s.allFailed || (s.mainDone m && s.draftsDone m) | none => true
  outs && work && s.routedList.all (fun l => s.rte.pourSent.contains l && (s.allFailed || s.rte.layersDone.contains l)) && !s.mem.rebuild

/-- STAGE_OUTPUTS: stage 8 completes and the barrier is signalled (R19, R20, R423). -/
def execStageOutputs (s : State) : Host.Outcome State Fault Refusal :=
  act (s.serving && s.steep.running && !s.steep.staged8 && s.stageReady) s fun s =>
    let s := s.completeAll
    let chunks := (s.steep.batch.filter fun b => b.prefill && !b.final && !s.gone b.seq).map fun b =>
      ({ seq := b.seq, tokens := [], proposed := 0, accepted := 0, normF := false, normE := false } : Staged)
    let s := s.setSteep { s.steep with staged := s.steep.staged ++ chunks, staged8 := true, signalled := true }
    s.barrierSwap s.steep.number.toNat

/-! ## Engine loss and rebuild (R198, R453) -/

/-- ENGINE_FAILOVER: the mirror takes over, or the primary goes on alone; with one engine left, the loss is
package-fatal (R198, R455). -/
def execEngineFailover (primaryLost : Bool) (s : State) : Host.Outcome State Fault Refusal :=
  act (s.live && (if primaryLost then s.eng.primary else s.eng.mirror)) s fun s =>
    (s.raise { status := 0x0F05, cls := 2, unit := 6, die := if primaryLost then 0 else 1, detail := b2n primaryLost }).settleRoutes

/-- Backlogged records of a pair are discarded and counted, OVERFLOW set (R453). -/
def State.dropBacklog (s : State) (n : Nat) : State :=
  let r := s.ring n
  if r.backlog.isEmpty then s else
  let k := r.backlog.length
  let s := s.setRing n { r with backlog := [], drop := r.drop + BitVec.ofNat 64 k, overflow := true }
  if r.overflow then s else s.note { status := 0x0104, cls := 0, unit := 9, pos := 1, detail := n }

/-- SEQ_TABLE_REBUILD: what the package owns is written again after a channel loss; records not cached come from the copy
that remains (R195, R453). -/
def execSeqTableRebuild (s : State) : Host.Outcome State Fault Refusal :=
  act (s.live && s.mem.rebuild) s fun s =>
    let s := s.eng.seqs.foldl (fun s p => s.readRecord p.1 false) s
    let s := s.writeBack
    let s := { s with eng := { s.eng with copy0 := true, copy1 := true }, mem := { s.mem with rebuild := false } }
    let s := match s.model with | some m => (s.normReset m true).routeReset m | none => s
    let s := { s with eng := { s.eng with tenants := s.eng.tenants.mapVals fun _ t =>
      { t with steerDir := 0, steerVer := t.steerVer + 1 } } }
    let s := s.rings.keys.foldl (fun s n => s.dropBacklog n) s
    s.setErr { s.err with handling := s.err.handling.filter fun h => h.until_ != .channel }

end Sys2Proof.Machine
end

