-- ==== Sys2Proof/Machine/Domain.lean ====
section
/-! DEFINITION. The domain manager, its standby, the step barrier, loss of members, message retry, the
management processor's watchdog and loss of TCLK (spec 01 R33, spec 02 R47, spec 17 R417 to R430, spec 18
R457 to R461). -/

namespace Sys2Proof.Machine

/-! ## Domain requests (R421) -/

/-- A well-formed domain request: code, reply object and node, HT_ADDR. -/
def parseReq (b : List Byte) : Option (DomReq × Nat) :=
  let w := leAt b 0 4
  let v := leAt b 4 4
  let obj := bits v 31 16
  if b.length = 16 && bits w 31 8 = 0 && 1 ≤ w && w ≤ 4 && bits v 15 8 = 0 && 0xFF00 ≤ obj && obj ≤ 0xFF3F then
    some ({ code := w, replyObj := obj, replyNode := bits v 7 0 }, leAt b 8 8)
  else none

/-- The condition of the transition fails. -/
def State.failReq (s : State) (q : DomReq) : State := s.replyTo q 0x100000000

/-- A request waits, its release is on its way, or its adoption record is not yet taken (R421, R422). -/
def State.reqPending (s : State) : Bool :=
  s.dom.request.isSome || s.dom.adopting.isSome || (match s.dom.outRelease with | some o => o.reply.isSome | none => false)

/-- The active manager's management processor works. -/
def State.manages (s : State) : Bool := s.mgmtUp && s.dom.role = .manager

/-- Take the request at the head of mailbox 60: malformed ones are discarded and logged, one that finds another
pending is answered so, one of the command's code is acted on (R421). -/
def State.domainReq (s : State) (code : Nat) (f : DomReq → Nat → State → State) : State :=
  if !s.manages then s else
  match s.notice 60 with
  | none => s
  | some n =>
    match parseReq n.1 with
    | none => (s.take 60).raise { status := 0x0318, cls := 0 }
    | some (q, a) =>
      if q.code != code then s
      else
        let s := s.take 60
        if s.reqPending then s.replyTo q 0x200000000 else f q a s

/-! ## Release and replication records (R420, R425 to R428) -/

/-- The newer of two steep numbers, where there is one (R12). -/
def newer (a b : Option Word) : Option Word :=
  match a, b with
  | some x, some y => some (if older x y then y else x)
  | none, b => b
  | a, none => a

/-- NEXT of an opening release (R420). -/
def State.openingNext (s : State) : Word :=
  let rel := s.dom.lastRelease.map RelRec.closed
  let heard := if s.disc.lsValid then some s.disc.lastSteep else none
  let own := if s.steep.held then some s.steep.number else none
  match newer (newer rel heard) own with
  | some n => n + 1
  | none => 0

/-- State a request asks for, coded as STATE; 0xFF for none (R428). -/
def pendState : Option DomReq → Nat
  | some q => match q.code with | 1 => 1 | 2 => 2 | 3 => 0 | _ => 0xFF
  | none => 0xFF

/-- The 128 bytes of a replication record (R428). -/
def State.repBytes (s : State) (o : OutRel) : List Byte :=
  let q := match o.reply with | some r => some r | none => s.dom.request
  let w := pendState q
  let named := fun (f : DomReq → Nat) => match q with | some r => if w = 0xFF then 0 else f r | none => 0
  let arm := match s.dom.arm with | some a => if a.armed then (a.gen.toNat, a.rev.rev.toNat) else (0, 0) | none => (0, 0)
  relBytes o.rel ++ leBytes 96 (packAt [
    (0, 32, o.members.toNat),
    (32, 4, putBits w 31 24 + putBits (named DomReq.replyNode) 23 16 + putBits s.disc.epoch 15 0),
    (36, 4, putBits (named DomReq.replyObj) 31 16),
    (40, 4, arm.1), (44, 4, arm.2), (48, 4, s.dom.planeRev.toNat)])

/-- A replication record from its bytes (R428). -/
def replicaOf (b : List Byte) : Replica :=
  let w := leAt b 64 4
  let code := match bits w 31 24 with | 0 => 3 | 1 => 1 | 2 => 2 | _ => 0
  { rel := relOf b, members := BitVec.ofNat 256 (leAt b 32 32), epoch := bits w 15 0
    request := if code = 0 then none else some { code := code, replyObj := bits (leAt b 68 4) 31 16, replyNode := bits w 23 16 }
    armGen := BitVec.ofNat 32 (leAt b 72 4), armRev := BitVec.ofNat 32 (leAt b 76 4), planeRev := BitVec.ofNat 32 (leAt b 80 4) }

/-- Keep a release until the standby has acknowledged its replication record; with no standby eligible nothing
is waited for (R427). -/
def State.replicate (s : State) (o : OutRel) : State :=
  let to_ := s.disc.standby
  let s := s.setDom { s.dom with outRelease := some { o with waiting := to_ != 0xFF } }
  if to_ = 0xFF then s else s.sendOwn to_ 62 (s.repBytes o)

/-- The standby is treated as lost: another is named, and the release goes to that one (R427). -/
def State.standbyFailed (s : State) (n : Nat) : State :=
  let s := (s.setDisc { s.disc with prio := s.disc.prio.set n 0 }).nameStandby
  match s.dom.outRelease with
  | some o => if o.waiting then s.replicate o else s
  | none => s

/-- MESSAGE_RETRY: 200 µs without an acknowledgement; four retries (R415, R427). -/
def execMessageRetry (i : Nat) (s : State) : Host.Outcome State Fault Refusal :=
  .next (match s.fab.msgOut[i]? with
    | none => s
    | some m =>
      if !(s.live && 5000 ≤ s.since m.sentAt) then s
      else if m.retries < 4 then
        let m' := { m with retries := m.retries + 1, sentAt := s.now }
        (s.setFab { s.fab with msgOut := s.fab.msgOut.set i m' }).sendFragments m.port m.dest m.number m.bytes
      else
        let s := s.endMessage m 0x0308
        if m.ring.isNone && bits m.dest.toNat 5 0 = 62 && s.dom.role = .manager then s.standbyFailed (bits m.dest.toNat 31 24)
        else s)

/-! ## Opening and adopting (R419, R420, R422) -/

/-- Conditions common to leaving BRINGUP or RECOVERY: no conflict, no changed membership, the synchronisation
area and both copies of the sequence table present, clearing over (R196, R264, R419, R431). -/
def State.canOpen (s : State) (othersReady : Bool) : Bool :=
  othersReady && !s.dom.conflictFlag && !s.dom.membershipChanged && s.syncPresent && !s.start.clearing && s.start.seqPlaced &&
  0x08000000 ≤ s.localSize s.mem.copy0 && 0x08000000 ≤ s.localSize s.mem.copy1

/-- Quota revision that a release names: a new one where the members change, or the table named gives another capacity
(R175). -/
def State.nextQuota (s : State) (members : List Nat) (htRev : Word) : Word :=
  let cap := fun (t : HomeTable) => t.entries.map HomeEntry.capacity
  let moved := match s.rte.next with | some t => t.rev = htRev && cap t != cap s.rte.table | none => false
  if sortBy (· ≤ ·) s.rte.quotaMembers = members && !moved then s.rte.quotaRev else s.rte.quotaRev + 1

/-- The release record of an opening or an adoption (R420, R422). -/
def State.openRec (s : State) (st : DomState) (adopt : Bool) (htRev : Word) : RelRec :=
  let next := s.openingNext
  { closed := next - 1, next := next, htRev := htRev, quotaRev := s.nextQuota s.memberList htRev
    memberRev := s.dom.memberRev, state := st, adopt := adopt, open_ := !adopt, bankSwitch := false, repeat_ := false }

/-- An opening release goes out (R420). -/
def State.openDomain (s : State) (q : DomReq) (st : DomState) : State :=
  s.replicate { rel := s.openRec st false s.rte.table.rev, members := s.dom.members, reply := some q, waiting := true }

/-- ENTER_TEST: domain request 1 (R419, R421). -/
def execEnterTest (othersReady : Bool) (s : State) : Host.Outcome State Fault Refusal :=
  .next (s.domainReq 1 fun q _ s =>
    match s.dom.state with
    | .bringup => if s.disc.inDomain && s.canOpen othersReady then s.openDomain q .test else s.failReq q
    | .service => s.setDom { s.dom with request := some q }
    | _ => s.failReq q)

/-- ENTER_SERVICE: domain request 2 (R419, R421). -/
def execEnterService (othersReady : Bool) (s : State) : Host.Outcome State Fault Refusal :=
  .next (s.domainReq 2 fun q _ s =>
    let loaded := s.model.isSome && othersReady
    let tableFits := sortBy (· ≤ ·) s.rte.table.members = s.memberList
    match s.dom.state with
    | .test => if loaded then s.setDom { s.dom with request := some q } else s.failReq q
    | .service => s.failReq q
    | _ =>
      if s.disc.inDomain && loaded && tableFits && s.canOpen othersReady then s.openDomain q .service else s.failReq q)

/-- RETURN_TO_BRINGUP: domain request 3, at the next release, or at once where no steeps run (R388, R419, R421). -/
def execReturnToBringup (s : State) : Host.Outcome State Fault Refusal :=
  .next (s.domainReq 3 fun q _ s =>
    if s.noSteeps then (s.enterBringup.startRound).replyTo q 1 else s.setDom { s.dom with request := some q })

/-- An expert home table entry from its 16 bytes; none where a reserved bit is set (R171). -/
def homeEntryOf (b : List Byte) : Option HomeEntry :=
  let w := leAt b 0 4
  let v := leAt b 4 4
  let c := leAt b 8 4
  if bits w 31 24 != 0 || bits v 30 24 != 0 || bits c 31 16 != 0 || leAt b 12 4 != 0 then none
  else some {
    homeNode := bits w 23 16, homeLocal := bits w 15 0, shadowValid := bit v 31, shadowNode := bits v 23 16
    shadowLocal := bits v 15 0, capacity := bits c 15 0 }

/-- The prepared revision at an address of the manager's device memory; entries of layers that are not routed are ignored
(R171, R422). -/
def State.readHomeTable (s : State) (a : Nat) : Option (List HomeEntry) :=
  match s.model with
  | none => none
  | some m =>
    let n := geoLayers m.attnGeom * s.nexp
    if (s.checkRead a (16 * n)).isSome || !s.readable a (16 * n) then none
    else ((List.range n).map fun i =>
        if s.routed (i / s.nexp) then homeEntryOf (s.devRead (a + 16 * i) 16)
        else some ({ homeNode := 0, homeLocal := 0, shadowValid := false, shadowNode := 0, shadowLocal := 0, capacity := 0 } : HomeEntry)).foldr
      (fun e l => match e, l with | some e, some l => some (e :: l) | _, _ => none) (some [])

/-- The words by which the manager hands a revision to a member. -/
def revWords (t : HomeTable) : List DWord := [BitVec.ofNat 64 t.rev.toNat]

/-- The manager sends a revision to the other members of a list and keeps it for the release that names it (R173). -/
def State.sendRev (s : State) (t : HomeTable) (ns : List Nat) : State :=
  let s := s.setRte { s.rte with next := some t }
  (ns.filter (· != s.dom.node)).foldl (fun s n => s.emit (.member n 3 (revWords t))) s

/-- A member refuses a revision: the manager reports it with the entry index or the shortfall (R173). -/
def State.refuseRev (s : State) (d : Nat) : State :=
  s.raise { status := 0x0541, cls := 0, unit := 8, die := 0, pos := 1, detail := d }

/-- Refusals that other members answered: reported each (R173). -/
def State.refusals (s : State) (refused : List (Nat × Nat)) : State :=
  (refused.filter fun p => s.isMember p.1).foldl (fun s p => s.refuseRev p.2) s

/-- ADOPT_HOME_TABLE: domain request 4 (R422). `refused` names the other members that refuse the revision, each with the entry
index or the shortfall. -/
def execAdoptHomeTable (refused : List (Nat × Nat)) (s : State) : Host.Outcome State Fault Refusal :=
  .next (s.domainReq 4 fun q a s =>
    if !s.noSteeps || !s.disc.inDomain then s.failReq q
    else match s.readHomeTable a with
    | none => s.failReq q
    | some es =>
      let t : HomeTable := { rev := s.rte.table.rev + 1, members := s.memberList, entries := es }
      match s.checkRevision ⟨t.rev, t.members, t.entries⟩ with
      | some d => (s.refuseRev d.2).failReq q
      | none =>
        let s := s.sendRev t s.memberList
        if refused.any fun p => s.isMember p.1 then ((s.setRte { s.rte with next := none }).refusals refused).failReq q
        else s.replicate { rel := s.openRec s.dom.state true t.rev, members := s.dom.members, reply := some q, waiting := true })

/-! ## The step barrier (R423, R424, R459 to R461) -/

/-- Arrival slot of a node at the manager (R423). -/
def State.slot (s : State) (n : Nat) : Nat := s.objGet (0xFE00 + n)
/-- A node has arrived at, or signalled a miss for, the steep in progress (R424). -/
def State.arrived (s : State) (n : Nat) : Bool := s.slot n % 2 ^ 32 = s.steep.number.toNat
/-- A node signalled a miss for it (R459). -/
def State.missedAt (s : State) (n : Nat) : Bool := s.arrived n && bit (s.slot n) 63
/-- Every member has arrived, missed or is lost (R424). -/
def State.closable (s : State) : Bool :=
  s.memberList.all fun n => s.arrived n || s.dom.lost.contains n || s.dom.missed.contains n

/-- Successive misses of each member (R459). -/
def State.countMisses (s : State) : State :=
  s.setDom { s.dom with missRuns := (s.memberList.filter s.missedAt).map fun n => (n, s.dom.missRuns.get 0 n + 1) }

/-- The revision that promotes the shadows of experts homed on lost nodes (R173). -/
def promote (t : HomeTable) (lost : List Nat) : HomeTable :=
  { rev := t.rev + 1
    members := t.members.filter fun n => !lost.contains n
    entries := t.entries.map fun e =>
      if lost.contains e.homeNode then { e with homeNode := e.shadowNode, homeLocal := e.shadowLocal, shadowValid := false } else e }

/-- An expert of a routed layer loses its home and has no valid shadow (R419, R461). -/
def State.unshadowed (s : State) (lost : List Nat) : Bool :=
  let t := s.rte.table
  let layers := match s.model with | some m => routedLayers m.mainOps | none => []
  layers.any fun l => (List.range s.nexp).any fun e =>
    match t.entry s.nexp l e with
    | some h => lost.contains h.homeNode &&
        (!h.shadowValid || lost.contains h.shadowNode || !t.members.contains h.shadowNode)
    | none => false

/-- What a close names besides the verdict: domain state, table, membership, and the request it answers. -/
structure Closing where
  state : DomState
  htRev : Word
  members : List Nat
  bankSwitch : Bool
  reply : Option DomReq
  deriving DecidableEq, Repr

/-- State after a close without loss (R419): the pending request's, where the table of transitions has it. -/
def State.requested (s : State) : DomState × Option DomReq :=
  match s.dom.request with
  | some q =>
    match q.code, s.dom.state with
    | 3, _ => (.bringup, some q)
    | 1, .service => (.test, some q)
    | 2, .test => (.service, some q)
    | _, st => (st, none)
  | none => (s.dom.state, none)

/-- The close of the steep in progress: who leaves, which revision and state the release names (R419, R424, R461). -/
def State.closing (s : State) (refused : List (Nat × Nat)) : State × Closing :=
  let lost := s.memberList.filter s.dom.lost.contains
  let rest := s.memberList.filter fun n => !lost.contains n
  let req := s.requested
  if !lost.isEmpty then
    let t := promote s.rte.table lost
    let own := s.checkRevision ⟨t.rev, t.members, t.entries⟩
    let fails := s.unshadowed lost || rest.length < 2 || own.isSome || !refused.isEmpty
    let s := match own with | some d => if s.unshadowed lost then s else s.refuseRev d.2 | none => s
    let s := s.refusals refused
    let st := if req.1 = .bringup then DomState.bringup else if fails then .recovery else req.1
    let s := if fails then s else s.sendRev t rest
    (s, { state := st, htRev := if fails then s.rte.table.rev else t.rev, members := rest, bankSwitch := false
          reply := if st = req.1 then req.2 else none })
  else
    let repeats := s.memberList.any fun n => s.dom.missed.contains n || s.missedAt n
    let stays := req.1 = .test || req.1 = .service
    match s.dom.arm with
    | some a =>
      if a.armed && !repeats && stays then
        (s, { state := req.1, htRev := a.rev.rev, members := rest, bankSwitch := true, reply := req.2 })
      else (s, { state := req.1, htRev := s.rte.table.rev, members := rest, bankSwitch := false, reply := req.2 })
    | none =>
      -- A joiner enters with a revision that lists it (R31, notes/assumptions/30.md).
      let t := match s.rte.next with | some t => t | none => s.rte.table
      let joins := s.dom.joining.filter t.members.contains
      (s, { state := req.1, htRev := t.rev, members := rest ++ joins, bankSwitch := false, reply := req.2 })

/-- The release that closes the steep in progress is posted already; there is one for each steep number (R21). -/
def State.released (s : State) : Bool := s.dom.lastRelease.any fun r => r.closed = s.steep.number && !r.open_ && !r.adopt

/-- STEEP_CLOSE: every member has arrived, missed or is lost; the release is formed and replicated (R424, R427,
R459, R460, R461). `refused` names members that refuse the promoting revision, with the entry index or the shortfall. -/
def execSteepClose (refused : List (Nat × Nat)) (s : State) : Host.Outcome State Fault Refusal :=
  act (s.manages && s.steep.running && s.dom.outRelease.isNone && !s.released && s.closable) s fun s =>
    let missed := s.memberList.any fun n => s.dom.missed.contains n || s.missedAt n
    let s := s.countMisses
    -- The third successive miss takes the member as lost (R459 cause 4).
    let s := ((s.dom.missRuns.filter fun p => 3 ≤ p.2).map Prod.fst).foldl (fun s n => s.memberLost n 4) s
    let verdict := missed || s.memberList.any s.dom.lost.contains
    let r := s.closing refused
    let s := r.1
    let c := r.2
    let mask := maskOf c.members
    let changed := mask != s.dom.members
    let rel : RelRec := {
      closed := s.steep.number, next := s.steep.number + 1, htRev := c.htRev
      quotaRev := s.nextQuota (nodesOf mask) c.htRev
      memberRev := if changed then s.dom.memberRev + 1 else s.dom.memberRev
      state := c.state, adopt := false, open_ := false, bankSwitch := c.bankSwitch, repeat_ := verdict }
    -- A pending request whose transition the release forecloses is answered as failed (R421).
    let drop := match s.dom.request with
      | some q => if c.reply.isNone && (c.state = .recovery || c.state = .bringup) then some q else none
      | none => none
    let s := s.setDom { s.dom with
      missed := [], firstArrival := none, request := if c.reply.isSome || drop.isSome then none else s.dom.request }
    let s := match drop with | some q => s.failReq q | none => s
    s.replicate { rel := rel, members := mask, reply := c.reply, waiting := true }

/-- RELEASE_POST: the standby holds the record; membership, record and slots go out, and the request is answered
(R405, R421 to R424, R427, R460). -/
def execReleasePost (s : State) : Host.Outcome State Fault Refusal :=
  .next (match s.dom.outRelease with
    | none => s
    | some o =>
      if !s.manages || o.waiting then s
      else
        let before := if o.rel.open_ then [] else s.memberList
        let s := s.setDom { s.dom with outRelease := none, lastRelease := some o.rel }
        let s := if o.members = s.dom.members then s
                 else s.distribute o.members (s.disc.planes.filter fun e => o.members.getLsbD e.node)
        let s := s.setDom { s.dom with
          lost := s.dom.lost.filter s.isMember, joining := s.dom.joining.filter fun n => !s.isMember n }
        -- Slots of members that the release admits (R423).
        let new := if o.rel.adopt then [] else s.memberList.filter fun n => !before.contains n
        let s := new.foldl (fun s n => s.objSet (0xFE00 + n) o.rel.closed.toNat) s
        let s := s.memberList.foldl (fun s n => s.sendOwn n 63 (relBytes o.rel)) s
        match o.reply with
        | some q => if o.rel.adopt then s.setDom { s.dom with adopting := some (q, s.memberList) } else s.replyTo q 1
        | none => s)

/-- REPLICATION_RECORD: the standby takes a record and keeps it (R427, R428). -/
def execReplicationRecord (s : State) : Host.Outcome State Fault Refusal :=
  .next (match s.notice 62 with
    | none => s
    | some n =>
      if s.mgmtUp && s.dom.role = .standby && n.1.length = 128 then
        let s := s.take 62
        s.setDom { s.dom with replica := some (replicaOf n.1) }
      else s)

/-- A manager-lost notice is at the head of mailbox 62: any message that is no replication record (R429). -/
def State.managerLostNotice (s : State) : Bool :=
  match s.notice 62 with | some n => n.1.length != 128 | none => false

/-- The manager's claims as an elected one (R381, R429). -/
def State.claimElected (s : State) : State :=
  let s := s.setDisc { s.disc with elected := true, candidate := false, lastClaim := some s.now }
  s.domainLinks.foldl (fun s l => s.sendFrame l { s.frame l 2 with elected := true, count := s.memberList.length }) s

/-- Resend the release of the latest replication record to every member (R426, R429). -/
def State.resendRelease (s : State) (r : Replica) : State :=
  let s := s.setDisc { s.disc with epoch := r.epoch }
  let s := s.setDom { s.dom with lastRelease := some r.rel, planeRev := r.planeRev }
  let s := if r.members = s.dom.members then s
           else s.distribute r.members (s.disc.planes.filter fun e => r.members.getLsbD e.node)
  let s := s.memberList.foldl (fun s n => s.sendOwn n 63 (relBytes r.rel)) s
  match r.request with
  | some q =>
    -- A request whose state the record's release enters is answered with it (R421).
    if pendState (some q) = domCode r.rel.state then s.replyTo q 1 else s.setDom { s.dom with request := some q }
  | none => s

/-- STANDBY_TAKEOVER: on a manager that no domain link reaches, or on its notice (R429, R430). -/
def execStandbyTakeover (s : State) : Host.Outcome State Fault Refusal :=
  let cut := (s.linkFor s.dom.manager 0).isNone
  act (s.mgmtUp && s.dom.role = .standby && (cut || s.managerLostNotice)) s fun s =>
    let former := s.dom.manager
    let s := if s.managerLostNotice then s.take 62 else s
    let replica := s.dom.replica
    let s := s.setDom { s.dom with role := .manager, manager := s.dom.node, replica := none }
    let s := s.claimElected
    let s := s.abortSwap
    let s := match replica with | some r => s.resendRelease r | none => s
    let s := s.nameStandby
    let s := if s.steep.running && s.steep.signalled then s.barrierSwap s.steep.number.toNat else s
    if cut then s.memberLost former 2 else s

/-- BARRIER_ARRIVAL_TIMEOUT: no arrival within 2 s of the first (R459 cause 3). -/
def execBarrierArrivalTimeout (node : Nat) (s : State) : Host.Outcome State Fault Refusal :=
  .next (match s.dom.firstArrival with
    | none => s
    | some t =>
      if s.manages && s.steep.running && 50000000 ≤ s.since t && !s.arrived node then s.memberLost node 3 else s)

/-- LEAVE_NOTICE: the notice at the head of mailbox 61 names a lost member (R459 cause 1). -/
def execLeaveNotice (s : State) : Host.Outcome State Fault Refusal :=
  .next (match s.notice 61 with
    | none => s
    | some n => if s.manages then (s.take 61).memberLost n.2 1 else s)

/-! ## Management processor and TCLK (R33, R47, R457) -/

/-- The sequence engine posts a manager-lost notice to the standby (R429). -/
def State.postManagerLost (s : State) : State :=
  if s.disc.standby = 0xFF then s else
  let r := s.drawByte
  r.2.sendOwn s.disc.standby 62 [r.1]

/-- MGMT_WATCHDOG_EXPIRY: no earlier than 2 s after the last service, 76,800 periods of the fastest oscillator, the processor
is reset; the third expiry in an hour holds it (R33, R53, R429, R457). -/
def execMgmtWatchdogExpiry (s : State) : Host.Outcome State Fault Refusal :=
  act (s.live && s.hif.mgmtRun && !s.start.mgmtReset && 50000000 ≤ s.since s.start.served) s fun s =>
    let recent := s.start.expiries.filter (fun t => s.since t < 90000000000) ++ [s.now]
    let held := 3 ≤ recent.length
    let was := s.dom.role
    let s := { s with start := { s.start with expiries := recent, mgmtReset := true }, hif := { s.hif with mgmtRun := false } }
    let s := if was = .manager then s.postManagerLost else s
    let s := s.setDom { s.dom with role := if was = .manager || held then .worker else was }
    s.raise { status := 0x0F02, cls := if held then 2 else 0, unit := 7, detail := recent.length }

/-- MANAGEMENT_PROCESSOR_RESET_END: the reset ends unless the processor is held (R33, R457). -/
def execManagementProcessorResetEnd (s : State) : Host.Outcome State Fault Refusal :=
  act (s.live && s.start.mgmtReset && !s.start.mgmtHeld) s fun s =>
    { s with start := { s.start with mgmtReset := false, served := s.now }, hif := { s.hif with mgmtRun := true } }

/-- 10 ms have passed since the last switch of clock (R47). -/
def State.maySwitch (s : State) : Bool := s.start.vaon && s.elapsed s.time.switchedAt 250000

/-- TCLK_LOST: the timers go to the internal oscillator (R47). -/
def execTclkLost (s : State) : Host.Outcome State Fault Refusal :=
  act (s.maySwitch && !s.time.tclkLost) s fun s =>
    { s with time := { s.time with tclkLost := true, switchedAt := some s.now } }.raise { status := 0x0F03, cls := 0 }

/-- TCLK_RESTORE: the timers go back to TCLK; the counter goes on (R47). -/
def execTclkRestore (s : State) : Host.Outcome State Fault Refusal :=
  act (s.maySwitch && s.time.tclkLost) s fun s =>
    { s with time := { s.time with tclkLost := false, switchedAt := some s.now } }

end Sys2Proof.Machine
end

