-- ==== Sys2Proof/Machine/Tiers.lean ====
section
/-! DEFINITION. The migration pool, scrub, local atomics and channel loss (spec 11 R272 to R287, spec 18 R452). -/

namespace Sys2Proof.Machine

/-- Granules of the migration pool (R278). -/
def State.poolGranules (s : State) : Nat := s.mem.poolSize.toNat / 0x10000
/-- Pool granules outside the stream buffer (R267). -/
def State.mainGranules (s : State) : Nat := s.poolGranules - s.mem.streamGranules
/-- Entries outside the stream buffer. -/
def State.mainEntries (s : State) : List Granule := s.mem.granules.filter (·.place != 2)
/-- Entries of the stream buffer. -/
def State.streamEntries (s : State) : List Granule := s.mem.granules.filter (·.place = 2)
/-- A main pool granule is free. -/
def State.mainRoom (s : State) : Bool := s.mainEntries.length < s.mainGranules
/-- A stream-buffer granule is free. -/
def State.streamRoom (s : State) : Bool := 0 < s.poolGranules && s.streamEntries.length < s.mem.streamGranules
/-- Replace the granule entries. -/
def State.setGranules (s : State) (l : List Granule) : State := { s with mem := { s.mem with granules := l } }

/-- A granule the engine may evict: first touch, no request in flight, no re-fetch of it under way (R255, R283). -/
def State.evictable (s : State) (e : Granule) : Bool :=
  e.place = 0 && !e.filling && !e.prefill && !e.drop && e.waiters.isEmpty && !s.comp.refetch.contains e.num

/-- Evict in clock order: the first not read since the clock last passed it; those it passes are marked so (R283). -/
def State.evict (s : State) : Option State :=
  let n := s.mainGranules
  let order := sortBy (fun a b : Granule => (a.pool + n - s.mem.clockHand) % n ≤ (b.pool + n - s.mem.clockHand) % n)
    (s.mem.granules.filter s.evictable)
  let i := (order.findIdx? fun e => !e.readSince)
  let passed := match i with | some k => order.take k | none => order
  match (match i with | some k => order[k]? | none => order.head?) with
  | none => none
  | some v =>
    let keep := (s.mem.granules.filter (· != v)).map fun e => if passed.contains e then { e with readSince := false } else e
    some { s with mem := { s.mem with granules := keep, clockHand := (v.pool + 1) % n } }

/-- Placement of an address: pinned where it holds draft weights of the loaded model, else its object's, or first touch in the
caddy window (R228, R282). -/
def State.placeOf (s : State) (a : Nat) : Nat :=
  if s.draftGranule (a / 0x10000) then 1 else match s.objectAt a with | some (_, o) => o.place | none => 0
/-- Generation an entry of an address is filled under (R279). -/
def State.genOf (s : State) (a : Nat) : Option Word :=
  match windowOf a with | some .caddy => some s.mem.genCurrent | _ => none

/-- Put a new entry into a free pool granule of its part of the pool (R278, R282). -/
def State.newGranule (s : State) (e : Granule) : State :=
  let stream := e.place = 2
  let used := ((if stream then s.streamEntries else s.mainEntries).map Granule.pool).map fun p => if stream then p - s.mainGranules else p
  let (k, s) := s.pickFree used (if stream then s.mem.streamGranules else s.mainGranules)
  s.setGranules (s.mem.granules ++ [{ e with pool := if stream then s.mainGranules + k else k }])

/-- Start a fill where its placement finds room; a first-touch miss without any goes through the stream buffer
(R278, R282, R283). -/
def State.startFill (s : State) (a : Nat) (waiters : List Nat) : Option State :=
  let place := s.placeOf a
  let e : Granule := { num := a / 0x10000, gen := s.genOf a, pool := 0, place := place, filling := true, waiters := waiters }
  if place = 2 then (if s.streamRoom then some (s.newGranule e) else none)
  else if s.mainRoom then some (s.newGranule e)
  else match s.evict with
    | some s => some (s.newGranule e)
    | none => if place = 0 && s.streamRoom then some (s.newGranule { e with place := 2 }) else none

/-- A fill of a granule in progress that will serve requests. -/
def State.fillingOf (s : State) (g : Nat) : Option Granule := s.mem.granules.find? fun e => e.num = g && e.filling

/-- A caddy or host address that exists (R264, R283). -/
def State.lowTier (s : State) (a : Nat) : Bool :=
  match s.inWindow a 1 with
  | some (.caddy, _) => true
  | some (.host, _) => (s.objectAt a).isSome
  | _ => false

/-- GRANULE_MISS: a read of the caddy or host window is a hit, joins a fill or a re-fetch, or starts a fill (R255, R278, R282,
R283). -/
def execGranuleMiss (addr requester : Nat) (s : State) : Host.Outcome State Fault Refusal :=
  act (s.live && s.lowTier addr) s fun s =>
    let g := addr / 0x10000
    match s.resident g with
    | some e =>
      if s.comp.refetch.contains g then
        s.setGranules (s.mem.granules.map fun x => if x = e then { e with waiters := e.waiters ++ [requester] } else x)
      else (s.setGranules (s.mem.granules.map fun x => if x = e then { e with readSince := true } else x)).emit (.served requester addr)
    | none =>
      match s.mem.granules.find? fun e => e.num = g && e.filling && !e.drop && e.gen = s.genOf addr with
      | some e => s.setGranules (s.mem.granules.map fun x => if x = e then { e with waiters := e.waiters ++ [requester] } else x)
      | none => (s.startFill addr [requester]).getD s

/-- Resident granules take the placement that is in force now (R228, R284). -/
def State.replace (s : State) : State :=
  s.setGranules (s.mem.granules.map fun e => if e.filling || e.place = 2 then e else { e with place := s.placeOf (e.num * 0x10000) })

/-- Every granule of an object is resident (R282). -/
def State.objectResident (s : State) (o : ObjEntry) : Bool :=
  let inObj := fun (e : Granule) => o.base.toNat ≤ e.num * 0x10000 && e.num * 0x10000 < o.base.toNat + o.length.toNat
  (s.mem.granules.filter fun e => inObj e && s.resident e.num = some e).length = o.length.toNat / 0x10000

/-- The object a pin waits for. -/
def WaitFor.pinned : WaitFor → Option Nat
  | .pin o => some o
  | _ => none

/-- Pin settings whose granules are all resident complete (R282). -/
def State.settlePins (s : State) : State :=
  (s.waiting.filter fun w => match w.what.pinned with | some i => s.objectResident (s.mem.objects.get {} i) | none => false).foldl
    (fun s w => (s.unwait w).finish w.ring w.desc 0 [(8, 4, w.what.pinned.getD 0)]) s

/-- A copy of a granule passes: no failed sector or host error, and every leaf passes its check (R252, R285, R292). -/
def State.fillOk (s : State) (g : Nat) (f : FillIn) : Option (List Byte) :=
  (s.tierRead g f).filter fun bs => (s.granuleBad g bs).isNone

/-- The first leaf of a copy that fails, as tensor header and leaf index. -/
def State.fillBad (s : State) (g : Nat) (f : FillIn) : Nat × Nat :=
  match (s.tierRead g f).bind (s.granuleBad g) with
  | some p => (p.tensor, p.index)
  | none => (0, 0)

/-- Work items that hold for a leaf of a granule end with its lowest-tier failure (R256). -/
def State.failHolders (s : State) (g : Nat) (noHost : Bool) : State :=
  s.comp.tiles.foldl (fun s p =>
    let t : TileAt := ⟨p.1 / 128, p.1 % 128 / 2, p.1 % 2⟩
    match (s.tileOf t).hold with
    | none => s
    | some (w, reads) =>
      match s.badPiece w reads with
      | some r => if r.addr / 0x10000 = g then s.leafFailure t w r noHost else s
      | none => s) s

/-- A fill whose second read fails too: a lowest-tier failure for the sequences that wait and for the items that hold, and one
of the caddy's segment (R254, R256, R285). -/
def State.fillFailed (s : State) (e : Granule) (second : FillIn) : State :=
  let a := e.num * 0x10000
  let seqs := e.waiters.filter fun q => (s.item q).isSome
  let u := s.tierUnit a
  let bad := s.fillBad e.num second
  let s := s.setGranules (s.mem.granules.filter (· != e))
  let s := if second.failed && u.1 != 5 then s.raise { status := 0x0423, cls := 1, seqs := seqs, addr := a, until_ := .steep }
    else s.raise { status := 0x0410, cls := 1, seqs := seqs, addr := bad.1, detail := bad.2, until_ := .steep }
  let s := if u.1 = 5 then s.raise { status := 0x0435, cls := 2, unit := 5, die := u.2.1, pos := u.2.2, addr := a } else s
  s.failHolders e.num second.failed

/-- The granule is written to its pool granule, waiting requests are served, and it is kept or freed as its placement
says (R278, R279, R282, R284). -/
def State.fillDone (s : State) (e : Granule) (bs : List Byte) (corrected : Bool) (recovered : Option (Nat × Nat)) : State :=
  let a := e.num * 0x10000
  let u := s.tierUnit a
  let s := match recovered with
    | some l => s.note { status := 0x0413, cls := 0, unit := u.1, die := u.2.1, pos := u.2.2, addr := l.1, detail := l.2 }
    | none => s
  let s := if corrected && u.1 = 5 then s.note { status := 0x0438, cls := 0, unit := 5, die := u.2.1, pos := u.2.2, addr := a } else s
  if e.drop || (e.gen.isSome && e.gen != some s.mem.genCurrent) then s.setGranules (s.mem.granules.filter (· != e))
  else
    let s := s.devWrite (s.poolAddr e.pool) bs
    let s := e.waiters.foldl (fun s r => s.emit (.served r a)) s
    let s := if e.place = 2 then s.setGranules (s.mem.granules.filter (· != e))
      else s.setGranules (s.mem.granules.map fun x =>
        if x = e then { e with filling := false, waiters := [], failed := none, place := s.placeOf a } else x)
    s.settlePins

/-- The engine may take a pinned granule untouched: those of its object below it are resident or filling (R282). -/
def State.pinTurn (s : State) (a : Nat) : Bool :=
  s.placeOf a = 1 && match s.objectAt a with
    | some (_, o) =>
      let below := fun (e : Granule) => o.base.toNat ≤ e.num * 0x10000 && e.num < a / 0x10000
      (s.mem.granules.filter fun e => below e && (s.resident e.num = some e || (e.filling && !e.drop))).length =
        a / 0x10000 - o.base.toNat / 0x10000
    | none => true

/-- GRANULE_FILL_COMPLETE: a fill in progress ends; with none, it is the engine's own fill of a pinned granule that
is not resident (R252, R254, R278 to R285, R292). -/
def execGranuleFillComplete (addr : Nat) (first second : FillIn) (s : State) : Host.Outcome State Fault Refusal :=
  act (s.live && s.lowTier addr) s fun s =>
    let g := addr / 0x10000
    let s := if (s.fillingOf g).isNone && (s.resident g).isNone && s.pinTurn addr then (s.startFill addr []).getD s else s
    match s.fillingOf g with
    | none => s
    | some e =>
      match s.fillOk g first with
      | some bs => s.fillDone e bs first.corrected e.failed
      | none =>
        match s.fillOk g second with
        | some bs => s.fillDone e bs second.corrected (some (e.failed.getD (s.fillBad g first)))
        | none => s.fillFailed e second

/-- The caddy window as the idle bank would show it: the bank that a prefill reads and checks (R280). -/
def State.asIdle (s : State) : State :=
  { s with
    caddy := { s.caddy with active := s.caddy.idle }
    mem := { s.mem with granules := [], genCurrent := (s.caddy.bank s.caddy.idle).gen } }

/-- The granule that prefill takes next: the lowest of the pinned caddy objects that it has not taken yet (R280). -/
def State.prefillNext (s : State) : Option Nat :=
  let of_ := fun (o : ObjEntry) =>
    let g := max (o.base.toNat / 0x10000) s.caddy.prefillAt
    if o.valid && o.place = 1 && windowOf o.base.toNat = some .caddy && g < (o.base.toNat + o.length.toNat) / 0x10000 then some g else none
  (s.mem.objects.filterMap fun p => of_ p.2).foldl (fun m g => some (match m with | some k => min k g | none => g)) none

/-- Prefill goes on from a granule. -/
def State.prefillFrom (s : State) (g : Nat) : State := s.setCaddy { s.caddy with prefillAt := g }

/-- SWAP_PREFILL: the next granule of the pinned caddy objects, in ascending order, from the idle bank into a free pool granule; a
granule whose leaves fail is passed over, and with no free granule prefill stops (R252, R280, notes/assumptions/131.md). -/
def execSwapPrefill (granule : Nat) (fill : FillIn) (s : State) : Host.Outcome State Fault Refusal :=
  .next (match s.caddy.armed with
    | none => s
    | some g =>
      if s.live && !s.start.quiesced && s.prefillNext = some granule then
        if !s.mainRoom then s.prefillFrom (2 ^ 32)
        else match s.asIdle.fillOk granule fill with
        | some bs =>
          let s := (s.prefillFrom (granule + 1)).newGranule
            { num := granule, gen := some g, pool := 0, place := 1, prefill := true }
          match s.mem.granules.getLast? with
          | some e => s.devWrite (s.poolAddr e.pool) bs
          | none => s
        | none => s.prefillFrom (granule + 1)
      else s)

/-! ## Scrub (R252, R273, R274) -/

/-- A burst of a channel read uncorrectable: the sixteenth different one within 1 s maps the channel out (R452). -/
def State.badRead (s : State) (b ch : Nat) : State :=
  let old := s.mem.badReads.filter fun r => s.since r.2.2 < 25000000 && !(r.1 = ch && r.2.1 = b)
  let s := { s with mem := { s.mem with badReads := old ++ [(ch, b, s.now)] } }
  if 16 ≤ (s.mem.badReads.filter fun r => r.1 = ch).length then
    s.raise { status := 0x0425, cls := 2, unit := 3, pos := ch, addr := b * 64, until_ := .channel }
  else s

/-- The leaf that ends in a burst that the scrub reads, checked by the base die: the first that fails (R252). -/
def State.scrubBad (s : State) (b : Nat) : Option Piece :=
  let ends := fun (p : Piece) => match s.storeAddr (p.addr + p.size - 1) with | some h => h / 64 = b | none => false
  (s.tensors.flatMap fun w => (List.range (s.devNum (w.addr + 8) 4 * s.leavesPerLine w.addr)).map (s.leafPiece w)).find?
    fun p => ends p && !s.pieceOk p (s.pieceBytes p)

/-- A leaf fails its check in a scrub: its granule is filled again from the tier below, or the failure is one of the lowest
tier (R252, R254, R256). -/
def State.scrubLeaf (s : State) (b : Nat) : State :=
  match s.scrubBad b with
  | none => s
  | some p =>
    let g := p.addr / 0x10000
    if belowHbm p.addr then
      match s.resident g with
      | some e => if s.comp.refetch.contains g then s else
          s.setGranules (s.mem.granules.map fun x => if x = e then { e with filling := true, failed := some (p.tensor, p.index) } else x)
      | none => s
    else s.raise { status := 0x0410, cls := 1, addr := p.tensor, detail := p.index, until_ := .steep }

/-- PATROL_SCRUB: one burst read, its leaves checked; a resident granule with an uncorrectable burst is marked not resident
(R252, R272, R273). -/
def execPatrolScrub (addr : Nat) (r : BurstResult) (s : State) : Host.Outcome State Fault Refusal :=
  .next (match s.place addr with
    | none => s
    | some (ch, _) =>
      let b := addr / 64
      let holds := fun (e : Granule) => s.poolAddr e.pool ≤ b * 64 && b * 64 < s.poolAddr e.pool + 0x10000
      if !s.live || s.chLost.getLsbD ch || s.mem.granules.any fun e => e.filling && holds e then s
      else match r with
      | .clean => s.scrubLeaf b
      | .corrected => (s.note { status := 0x0427, cls := 0, unit := 3, pos := ch, addr := b * 64 }).scrubLeaf b
      | .uncorrectable =>
        let s' := if s.mem.granules.any holds then s.setGranules (s.mem.granules.filter fun e => !holds e)
          else { s with mem := { s.mem with badBursts := addNew s.mem.badBursts b } }.note
            { status := 0x0428, cls := 0, unit := 3, pos := ch, addr := b * 64 }
        s'.badRead b ch)

/-- CLEARING_SCRUB: zeros in every burst of every usable channel; SCRUB_REQUIRED clears once it is complete (R274,
R497). -/
def execClearingScrub (s : State) : Host.Outcome State Fault Refusal :=
  act (s.powered && s.start.clearing) s fun s =>
    { s with
      mem := { s.mem with hbm := [], badBursts := [], dieStore := [] }
      caddy := { s.caddy with scrubRequired := false }
      start := { s.start with clearing := false } }

/-- LOCAL_ATOMIC: executed by the base die, die-store copies removed first (R271, R275, R276, R432). -/
def execLocalAtomic (op : AtomicOp) (wide : Bool) (addr : Nat) (operand compare : DWord) (s : State) :
    Host.Outcome State Fault Refusal :=
  let n := if wide then 8 else 4
  act s.live s fun s =>
    if addr % n != 0 then s.emit (.atomic 0x0242 0)
    else match s.checkWrite addr n with
      | some st => s.emit (.atomic st 0)
      | none =>
        if !s.readable addr n then s.emit (.atomic 0x0420 0)
        else
          let r := s.atomicOp op n addr operand.toNat compare.toNat
          r.2.emit (.atomic 0 (BitVec.ofNat 64 r.1))

/-- CHANNEL_LOSS: a channel's PHY loses training and does not retrain, and the channel is mapped out (R286, R287,
R452 to R454). -/
def execChannelLoss (channel : Nat) (s : State) : Host.Outcome State Fault Refusal :=
  act (s.live && channel < s.part.channels && !s.chLost.getLsbD channel) s fun s =>
    s.raise { status := 0x0425, cls := 2, unit := 3, pos := channel, until_ := .channel }

end Sys2Proof.Machine
end

