-- ==== Sys2Proof/Machine/LongOps.lean ====
section
/-! DEFINITION. Long operations: safe points, controls, bulk copy, convert and compress (spec 13 R338 to R341, R330,
R331; spec 10 R258, R259; spec 12 R310). -/

namespace Sys2Proof.Machine

/-- 64 MiB, the step between safe points of a copy, a convert and a scrub (R340). -/
def opStep : Nat := 0x4000000

/-- Replace a long operation. -/
def State.setOp (s : State) (h : Nat) (o : LongOp) : State := { s with longOps := s.longOps.set h o }

/-- The controls that wait for an operation complete (R341). -/
def State.answer (s : State) (cs : List OpControl) (status : Nat) : State := cs.foldl (fun s c => s.finishControl c status) s

/-- A safe point is passed: PROGRESS, then a pending suspend or cancel takes effect (R339 to R341). -/
def State.passPoint (s : State) (h done : Nat) (cancel : State → State) : State :=
  match s.longOps.find? h with
  | none => s
  | some o =>
    let o := { o with done := done }
    let s := (s.setOp h o).opNote h o 0x0003
    match o.state with
    | .suspendPending =>
      let o' := { o with state := .suspended, waiters := [] }
      ((s.setOp h o').opNote h o' 0x0601).answer o.waiters 0
    | .cancelPending => (cancel s).endOp h 0x0602 0 false
    | _ => s

/-! ## Fields of a bulk copy (R330, R331) -/

/-- FUNC: 0 copy, 1 convert, 2 compress. -/
def bcFunc (d : W512) : Nat := bits (dField d 8 4) 31 28
/-- DST_HOST. -/
def bcDstHost (d : W512) : Bool := bit (dField d 8 4) 1
/-- SRC_HOST. -/
def bcSrcHost (d : W512) : Bool := bit (dField d 8 4) 0
/-- SRC. -/
def bcSrc (d : W512) : Nat := dField d 16 8
/-- DST. -/
def bcDst (d : W512) : Nat := dField d 24 8
/-- LENGTH. -/
def bcLen (d : W512) : Nat := dField d 32 8
/-- PARAM. -/
def bcParam (d : W512) : Nat := dField d 40 8

/-- SRC_FMT. -/
def bpSrcFmt (p : List Byte) : Nat := bits (leAt p 0 4) 31 28
/-- DST_FMT. -/
def bpDstFmt (p : List Byte) : Nat := bits (leAt p 0 4) 27 24
/-- RATE_MASK. -/
def bpRates (p : List Byte) : Nat := bits (leAt p 0 4) 23 19
/-- SROUND. -/
def bpSround (p : List Byte) : Bool := bit (leAt p 0 4) 18
/-- SRC_TSCALE. -/
def bpSrcT (p : List Byte) : Word := BitVec.ofNat 32 (leAt p 4 4)
/-- DST_TSCALE. -/
def bpDstT (p : List Byte) : Word := BitVec.ofNat 32 (leAt p 8 4)
/-- ERR_MAX. -/
def bpErr (p : List Byte) : Word := BitVec.ofNat 32 (leAt p 12 4)
/-- LINES. -/
def bpLines (p : List Byte) : Nat := leAt p 16 4
/-- K. -/
def bpK (p : List Byte) : Nat := leAt p 20 4
/-- SRC_SCALES. -/
def bpSrcScales (p : List Byte) : Nat := leAt p 24 8
/-- DST_AUX. -/
def bpAux (p : List Byte) : Nat := leAt p 32 8
/-- DST_DATA. -/
def bpData (p : List Byte) : Nat := leAt p 40 8
/-- DST_DATA_SIZE. -/
def bpDataSize (p : List Byte) : Nat := leAt p 48 8
/-- SEED. -/
def bpSeed (p : List Byte) : DWord := BitVec.ofNat 64 (leAt p 56 8)

/-- Source format. -/
def bpSrc (p : List Byte) : Format := (fmtOf (bpSrcFmt p)).getD .fp32
/-- Destination format. -/
def bpDst (p : List Byte) : Format := (fmtOf (bpDstFmt p)).getD .fp32
/-- Leaves per line (R242). -/
def bpLpl (p : List Byte) : Nat := ceilDiv (bpK p) 256
/-- Segments of the compressed tensor (R249). -/
def bpSegs (p : List Byte) : Nat := ceilDiv (bpLines p * bpLpl p) 64

/-- Device ranges that a bulk copy reads, with the offset of the field that names them: SRC, then SRC_SCALES. -/
def bulkReads (d : W512) (p : List Byte) : List (Nat × Nat × Nat) :=
  if bcFunc d = 0 then (if bcSrcHost d then [] else [(bcSrc d, bcLen d, 16)])
  else (bcSrc d, bpLines p * lineSize (bpSrc p) (bpK p), 16) ::
    (if fmtBlock (bpSrc p) then [(bpSrcScales p, bpLines p * scaleSize (bpSrc p) (bpK p), 40)] else [])

/-- Device ranges that it writes, the tensor header of a compress left out. -/
def bulkWrites (d : W512) (p : List Byte) : List (Nat × Nat × Nat) :=
  match bcFunc d with
  | 0 => if bcDstHost d then [] else [(bcDst d, bcLen d, 24)]
  | 1 => (bcDst d, bpLines p * lineSize (bpDst p) (bpK p), 24) ::
    (if fmtBlock (bpDst p) then [(bpAux p, bpLines p * scaleSize (bpDst p) (bpK p), 40)] else [])
  | _ => [(bpAux p, 8 * bpSegs p, 40), (bpData p, bpDataSize p, 40)]

/-- The tensor header of a compress. -/
def bulkHeader (d : W512) : List (Nat × Nat × Nat) := if bcFunc d = 2 then [(bcDst d, 64, 24)] else []

/-- Source and destination overlap. -/
def bulkOverlap (d : W512) (p : List Byte) : Bool :=
  (bulkReads d p).any fun r => (bulkWrites d p ++ bulkHeader d).any fun w => meets r.1 r.2.1 w.1 w.2.1

/-- Source bytes of a convert or compress: elements and block scales. -/
def bulkSource (d : W512) (p : List Byte) : Nat := (bulkReads d p).foldl (fun k r => k + r.2.1) 0

/-- Units of the whole operation: source bytes read, which a compress reads in each of its two passes (R258, R340,
notes/assumptions/31.md). -/
def bulkTotal (d : W512) (p : List Byte) : Nat :=
  match bcFunc d with
  | 0 => bcLen d
  | 1 => bulkSource d p
  | _ => 2 * bulkSource d p

/-- Free bytes where the specification leaves memory undefined. -/
def State.scramble (s : State) (a n : Nat) : State :=
  if n = 0 || (s.checkWrite a n).isSome then s
  else { s.store a ((List.range n).map fun i => BitVec.ofNat 8 (Config.freeNat (s.free + i))) with free := s.free + n }

/-- What a cancelled or failed bulk copy leaves: the destination undefined where it wrote (R259, R330, R340). -/
def State.bulkUndefined (s : State) (o : LongOp) (upto : Nat) : State :=
  match o.kind with
  | .copy => if bcDstHost o.desc then s else s.scramble (bcDst o.desc) upto
  | .convert | .compress => (bulkWrites o.desc o.param).foldl (fun s w => s.scramble w.1 w.2.1) s
  | _ => s

/-- The effect of a cancel on what the operation wrote (R209, R301, R340). -/
def State.cancelOp (s : State) (o : LongOp) : State :=
  match o.kind with
  | .prefill q => s.cancelPrefill q
  | .install | .build => s.setCaddy { s.caddy with build := none }
  | .copy | .convert | .compress => s.bulkUndefined o o.done
  | .scrub => s

/-! ## Failures while it runs -/

/-- A range met while the operation runs: no longer mapped or writable, or unreadable; its status (R328, R272). -/
def State.bulkFault (s : State) (rs ws : List (Nat × Nat × Nat)) : Option Nat :=
  match rs.findSome? fun r => s.checkRead r.1 r.2.1 with
  | some e => some e
  | none =>
    match ws.findSome? fun w => s.checkWrite w.1 w.2.1 with
    | some e => some e
    | none => if rs.all fun r => s.readable r.1 r.2.1 then none else some 0x0420

/-- Caddy segments with uncorrectable sectors are lost; corrected ones are logged (R292, R310, R311). -/
def State.takeSegs (s : State) (inp : OpIn) (covers : Nat → Nat → Bool) : State :=
  let s := (inp.fixedSegs.filter fun p => covers p.1 p.2).foldl
    (fun s p => s.note { status := 0x0438, cls := 0, unit := 5, die := p.1, pos := p.2 }) s
  (inp.lostSegs.filter fun p => covers p.1 p.2).foldl
    (fun s p => s.raise { status := 0x0435, cls := 2, unit := 5, die := p.1, pos := p.2 }) s

/-- A segment of the active bank, which reads of the caddy window meet. -/
def State.activeSeg (s : State) (die seg : Nat) : Bool := die < 2 && s.caddy.active != 3 && bankOfSeg seg = some s.caddy.active

/-- A read of the source fails outside HBM: the host does not answer, or a caddy sector cannot be corrected (R311, R343). -/
def State.sourceFault (s : State) (o : LongOp) (inp : OpIn) : Option Nat :=
  let inWin := fun w => (bulkReads o.desc o.param).any fun r => windowOf r.1 = some w
  if inp.hostFail && bcFunc o.desc = 0 && bcSrcHost o.desc then some 0x0203
  else if inp.hostFail && inWin .host then some 0x0423
  else if inWin .caddy && inp.lostSegs.any fun p => s.activeSeg p.1 p.2 then some 0x0435
  else none

/-- The source lies in the caddy window, and its failing and corrected segments are taken (R292, R311). -/
def State.sourceSegs (s : State) (o : LongOp) (inp : OpIn) : State :=
  if (bulkReads o.desc o.param).any fun r => windowOf r.1 = some .caddy then s.takeSegs inp s.activeSeg else s

/-! ## Copy -/

/-- Bytes `k` to `n` of a copy's source: what the host returned, or device memory. -/
def State.copyBytes (s : State) (o : LongOp) (inp : OpIn) (k n : Nat) : List Byte :=
  if bcSrcHost o.desc then bytesAt inp.hostData 0 (n - k) else s.devRead (bcSrc o.desc + k) (n - k)

/-- Bytes `k` to `n` of a copy go to its destination, or the status of its failure (R330, R539). -/
def State.copyStep (s : State) (o : LongOp) (inp : OpIn) (k n : Nat) : Option Nat × State :=
  let rs := if bcSrcHost o.desc then [] else [(bcSrc o.desc + k, n - k, 16)]
  let ws := if bcDstHost o.desc then [] else [(bcDst o.desc + k, n - k, 24)]
  match s.sourceFault o inp with
  | some e => (some e, s)
  | none =>
    match s.bulkFault rs ws with
    | some e => (some e, s)
    | none =>
      let bs := s.copyBytes o inp k n
      (none, if bcDstHost o.desc then
          s.emit (.hostWrite (s.ring o.ring).tagPasid (BitVec.ofNat 64 (bcDst o.desc + k)) bs)
        else s.store (bcDst o.desc + k) bs)

/-! ## Convert (R66, R71 to R78) -/

/-- A source line expanded to FP32. -/
def State.bulkLine (s : State) (d : W512) (p : List Byte) (r : Nat) : List Word :=
  let f := bpSrc p
  let k := bpK p
  readLine f (bpSrcT p) k (s.devRead (bcSrc d + r * lineSize f k) (lineSize f k))
    (s.devRead (bpSrcScales p + r * scaleSize f k) (scaleSize f k))

/-- The converted lines: element array and block-scale array. `w` is counter word 0 of stochastic rounding, which the
specification does not state for a bulk copy (R78, notes/assumptions/32.md). -/
def State.convertAll (s : State) (d : W512) (p : List Byte) (w : Nat) : List Byte × List Byte :=
  let f := bpDst p
  let t := if fmtIb f then bpDstT p else 0
  let lines := (List.range (bpLines p)).map fun r =>
    convLine f t (if bpSround p then some (srDraw (bpSeed p) w (w / 256) 0x000FFFFF r) else none) (s.bulkLine d p r)
  (lines.flatMap fun l => l.bytes f, lines.flatMap Line.scaleBytes)

/-! ## Compress (R258, R259) -/

/-- a / b, rounded once. -/
def fDiv (a b : Word) : Word :=
  match num a, num b with
  | .fin s m e, .fin t n g =>
    if n = 0 then (if m = 0 then fNaN else rnd (.inf (s != t)))
    else let q := quo m e n g; f32Of (s != t) q.1 q.2.1 q.2.2
  | .inf s, .fin t _ _ => rnd (.inf (s != t))
  | .fin s _ _, .inf t => rnd (.zero (s != t))
  | _, _ => fNaN

/-- The leaf of a source line: values, codes and scales (R247). -/
def State.leafSrc (s : State) (d : W512) (p : List Byte) (n : Nat) : LeafSrc :=
  let f := bpSrc p
  let k := bpK p
  let r := n / bpLpl p
  let c := n % bpLpl p
  let codes := unpackBits (fmtBits f) k (s.devRead (bcSrc d + r * lineSize f k) (lineSize f k))
  let scales := (s.devRead (bpSrcScales p + r * scaleSize f k) (scaleSize f k)).map BitVec.toNat
  { vals := ((s.bulkLine d p r).drop (256 * c)).take 256, fmt := f, codes := (codes.drop (256 * c)).take 256
    scales := (scales.drop (8 * c)).take 8 }

/-- Error of a segment at a rate: sqrt(Σ(x − x̂)²) / sqrt(Σx²) in FP32, 0 for a segment of zeros (R258). -/
def segError (f : Format) (t : Word) (srcs : List LeafSrc) (leaves : List (List Byte)) : Word :=
  let xs := srcs.flatMap fun l => l.vals ++ List.replicate (256 - l.vals.length) 0
  let ys := leaves.flatMap (leafVals f t)
  let sq := fun (vs : List Word) => vs.foldl (fun (a : Word) v => fAdd a (fMul v v)) 0
  if xs.all fun x => (num x).isZero then 0
  else fDiv (fSqrt (sq (List.zipWith fSub xs ys))) (fSqrt (sq xs))

/-- x ≤ y; false where either is not a number. -/
def fLe (x y : Word) : Bool := num x != .nan && num y != .nan && !(num y).lt (num x)

/-- The sources of a segment's leaves (R242). -/
def State.segSrcs (s : State) (d : W512) (p : List Byte) (g : Nat) : List LeafSrc :=
  (List.range 64).map (64 * g + ·) |>.filter (· < bpLines p * bpLpl p) |>.map fun n => s.leafSrc d p n

/-- The leaves of a segment at a rate (R247). -/
def State.encodeSeg (s : State) (d : W512) (p : List Byte) (g rate : Nat) : List (List Byte) :=
  (s.segSrcs d p g).mapIdx fun i l => encodeLeaf (bpDst p) (bpDstT p) rate g i l

/-- One segment: the first allowed rate whose error is within the bound, else the highest; its leaves (R258). -/
def State.compressSeg (s : State) (d : W512) (p : List Byte) (g : Nat) : Nat × List (List Byte) :=
  let f := bpDst p
  let t := bpDstT p
  let srcs := s.segSrcs d p g
  let enc := s.encodeSeg d p g
  let rates := (List.range 5).filter fun c => bit (bpRates p) c
  let rate := match rates.find? fun c => fLe (segError f t srcs (enc c)) (bpErr p) with
    | some c => c
    | none => rates.getLastD 0
  (rate, enc rate)

/-- Leaves of segment `g` (R242). -/
def segLeaves (p : List Byte) (g : Nat) : Nat := min 64 (bpLines p * bpLpl p - 64 * g)

/-- Source bytes that one pass has read at the end of segment `g`: whole lines, then the leaves of the line it ends in. -/
def segEnd (p : List Byte) (g : Nat) : Nat :=
  let f := bpSrc p
  let n := 64 * g + segLeaves p g
  let c := n % bpLpl p
  let sc := fun k => if fmtBlock f then k else 0
  n / bpLpl p * (lineSize f (bpK p) + sc (scaleSize f (bpK p))) + ceilDiv (256 * c * fmtBits f) 8 + sc (8 * c)

/-- Segments that a pass has finished once it has read `k` bytes of the source. -/
def segsBy (p : List Byte) (k : Nat) : Nat := ((List.range (bpSegs p)).filter fun g => segEnd p g ≤ k).length

/-- Bytes of leaf data before segment `g`: offsets run in segment order from 0 (R258). -/
def segOffset (p : List Byte) (rates : List Nat) (g : Nat) : Nat :=
  (List.range g).foldl (fun k i => k + segLeaves p i * leafSize (rates.getD i 0)) 0

/-- Pass 1 of one segment: its rate is chosen, and its index entry and the CHECK of each of its leaves are written, or
the build ends for want of space (R258, R259). -/
def State.passOne (s : State) (d : W512) (p : List Byte) (rates : List Nat) (g : Nat) : Nat × List Nat × State :=
  let r := s.compressSeg d p g
  let off := segOffset p rates g
  if bpDataSize p < off + segLeaves p g * leafSize r.1 then (0x0411, rates, s)
  else
    let s := s.store (bpAux p + 8 * g) (leBytes 8 (off + putBits r.1 50 48))
    (0, rates ++ [r.1], (r.2.mapIdx fun i l => (bpData p + off + i * leafSize r.1, l.take 2)).foldl
      (fun s w => s.store w.1 w.2) s)

/-- Pass 2 of one segment: every leaf is encoded again and written but for CHECK, which must be the one that pass 1
wrote (R258, R259). -/
def State.passTwo (s : State) (d : W512) (p : List Byte) (rates : List Nat) (g : Nat) : Nat × State :=
  let rate := rates.getD g 0
  let a := bpData p + segOffset p rates g
  (s.encodeSeg d p g rate).zipIdx.foldl (fun (acc : Nat × State) x =>
    let at_ := a + x.2 * leafSize rate
    if acc.1 != 0 then acc
    else if acc.2.devRead at_ 2 != x.1.take 2 then (0x0412, acc.2)
    else (0, acc.2.store (at_ + 2) (x.1.drop 2))) (0, s)

/-- A compress runs until it has read `upto` bytes of its source over both passes: its status, the rates of the
segments of pass 1, and the state (R258, R259). -/
def State.compressTo (s : State) (o : LongOp) (upto : Nat) : Nat × List Nat × State :=
  let d := o.desc
  let p := o.param
  let src := bulkSource d p
  let span := fun (i j : Nat) => (List.range (j - i)).map (i + ·)
  let one := (span o.rates.length (segsBy p (min upto src))).foldl (fun (acc : Nat × List Nat × State) g =>
    if acc.1 != 0 then acc else acc.2.2.passOne d p acc.2.1 g) (0, o.rates, s)
  if one.1 != 0 then one
  else
    let two := (span (if o.done ≤ src then 0 else segsBy p (o.done - src)) (if upto ≤ src then 0 else segsBy p (upto - src))).foldl
      (fun (acc : Nat × State) g => if acc.1 != 0 then acc else acc.2.passTwo d p one.2.1 g) (0, one.2.2)
    (two.1, one.2.1, two.2)

/-- The compressed tensor header (R249). -/
def tensorHeader (p : List Byte) (size : Nat) : List Byte :=
  leBytes 64 (packAt [(0, 4, putBits (bpDstFmt p) 31 28), (4, 4, (bpDstT p).toNat), (8, 4, bpLines p), (12, 4, bpK p),
    (16, 8, bpAux p), (24, 8, bpData p), (32, 8, size), (40, 4, bpSegs p)])

/-! ## Completion -/

/-- A status from a free choice of two. -/
def State.either (s : State) (a b : Nat) : Nat × State := s.anyOf [a, b]

/-- What a bulk copy does at its end: its status, and the state (R258, R259, R330). -/
def State.bulkEnd (s : State) (o : LongOp) (inp : OpIn) : Nat × State :=
  let d := o.desc
  let p := o.param
  let s := s.sourceSegs o inp
  match o.kind with
  | .copy =>
    let r := s.copyStep o inp (if bulkOverlap d p then 0 else o.done) o.total
    match r.1 with
    | some e => (e, r.2.bulkUndefined o (if bulkOverlap d p then 0 else o.done))
    | none => (0, r.2)
  | .convert | .compress =>
    match s.sourceFault o inp with
    | some e => (e, s.bulkUndefined o o.total)
    | none =>
      match s.bulkFault (bulkReads d p) (bulkWrites d p ++ bulkHeader d) with
      | some e => (e, s.bulkUndefined o o.total)
      | none =>
        if o.kind = .convert then
          if bulkOverlap d p then (0, s.bulkUndefined o o.total)
          else
            let r := s.convertAll d p (Config.freeNat s.free)
            let s := if bpSround p then { s with free := s.free + 1 } else s
            let s := s.store (bcDst d) r.1
            (0, if fmtBlock (bpDst p) then s.store (bpAux p) r.2 else s)
        else if bulkOverlap d p then
          -- The destination is undefined, and the pass-2 check may end the build (R330).
          let r := (s.bulkUndefined o o.total).either 0 0x0412
          (r.1, if r.1 = 0 then r.2.scramble (bcDst d) 64 else r.2)
        else
          let r := s.compressTo o o.total
          if r.1 != 0 then (r.1, r.2.2.bulkUndefined o o.total)
          else (0, r.2.2.store (bcDst d) (tensorHeader p (segOffset p r.2.1 (bpSegs p))))
  | _ => (0, s)

/-- Segments that a caddy scrub covers: those of its banks, the journal and the maps (R310). -/
def scrubCovers (d : W512) (die seg : Nat) : Bool :=
  die < 2 && seg < 3072 && match bankOfSeg seg with
    | none => true
    | some b => bit (dField d 8 4) b

/-- The operation works: it is neither suspended nor about to resume. -/
def LongOp.working (o : LongOp) : Bool := o.state != .suspended && o.state != .resumePending

/-- The count at which the next safe point stands: every 64 MiB of source read, and for a compress the end of the
segment that completes it (R259, R340). -/
def LongOp.nextPoint (o : LongOp) : Nat :=
  let b := (o.done / opStep + 1) * opStep
  match o.kind with
  | .compress =>
    let src := bulkSource o.desc o.param
    let base := if b ≤ src then 0 else src
    match (List.range (bpSegs o.param)).find? fun g => b ≤ base + segEnd o.param g with
    | some g => base + segEnd o.param g
    | none => o.total
  | _ => b

/-- A safe point stands at this count. -/
def LongOp.pointAt (o : LongOp) (done : Nat) : Bool := done < o.total && done = o.nextPoint

/-- A step of a convert or compress up to a safe point: a compress builds its segments, and may fail (R258, R259). -/
def State.buildTo (s : State) (h : Nat) (o : LongOp) (inp : OpIn) (done : Nat) : State :=
  let s := s.sourceSegs o inp
  let fault := match s.sourceFault o inp with
    | some e => some e
    | none => s.bulkFault (bulkReads o.desc o.param) (bulkWrites o.desc o.param ++ bulkHeader o.desc)
  match fault with
  | some e => (s.bulkUndefined o done).endOp h e 0x0605 false
  | none =>
    if o.kind = .convert || bulkOverlap o.desc o.param then s.passPoint h done fun s => s.cancelOp { o with done := done }
    else
      let r := s.compressTo o done
      if r.1 != 0 then (r.2.2.bulkUndefined o done).endOp h r.1 0x0605 false
      else
        let o := { o with rates := r.2.1 }
        (r.2.2.setOp h o).passPoint h done fun s => s.cancelOp { o with done := done }

/-- LONG_OP_SAFE_POINT: a copy, convert, compress or scrub passes a safe point; those of builds and long prefills
lie in BUILD_CHUNK and RELEASE (R339 to R341). -/
def execLongOpSafePoint (h done : Nat) (inp : OpIn) (s : State) : Host.Outcome State Fault Refusal :=
  .next (match s.longOps.find? h with
    | none => s
    | some o =>
      if !(s.live && o.working && o.pointAt done) then s
      else match o.kind with
      | .copy =>
        let s := s.sourceSegs o inp
        let r := if bulkOverlap o.desc o.param then (none, s) else s.copyStep o inp o.done done
        match r.1 with
        | some e => (r.2.bulkUndefined o o.done).endOp h e 0x0605 false
        | none => r.2.passPoint h done fun s => s.cancelOp { o with done := done }
      | .convert | .compress => s.buildTo h o inp done
      | .scrub => (s.takeSegs inp (scrubCovers o.desc)).passPoint h done fun s => s
      | _ => s)

end Sys2Proof.Machine
end

