-- ==== Sys2Proof/Machine/Caddy.lean ====
section
/-! DEFINITION. The caddy: opening, builds, arming a swap and quick quiesce (spec 12 R293 to R312, spec 20 R491, R492). -/

namespace Sys2Proof.Machine

/-! ## Opening (R302, R304, R312) -/

/-- A TYPE that the table of journal records lists. -/
def jKnown (r : JRec) : Bool := 1 ≤ r.type && r.type ≤ 5

/-- Every record that passes its CRC on either die, in order (R304). -/
def Caddy.journal (c : Caddy) : List JRec :=
  let a := c.journal0.filter (·.crcOk)
  sortBy (fun x y : JRec => x.seq.toNat ≤ y.seq.toNat) (a ++ (c.journal1.filter (·.crcOk)).filter fun r => !a.contains r)

/-- A bank as its latest BUILT record gives it (R304). -/
def Bank.opened (k : Bank) (l : List JRec) (b : Nat) : Bank :=
  match builtBy l b with
  | some r => { k with built := true, gen := r.gen, geom := r.geom, digest := r.digest }
  | none => { k with built := false, gen := 0, geom := 0, digest := 0 }

/-- Open the caddy: the journals decide the banks; an erased key leaves ERASED for both (R302, R304, R312). -/
def State.openCaddy (s : State) : State :=
  let c := s.caddy
  let read := c.journal
  let s := ((c.journal0.filter fun r => r.crcOk && !jKnown r).map fun _ => 0).foldl
    (fun s d => s.note { status := 0x0439, cls := 0, unit := 5, die := d, pos := 0 }) s
  let s := ((c.journal1.filter fun r => r.crcOk && !jKnown r).map fun _ => 1).foldl
    (fun s d => s.note { status := 0x0439, cls := 0, unit := 5, die := d, pos := 0 }) s
  -- A record of die 0 missing on die 1 is rewritten there.
  let s := s.setCaddy { s.caddy with journal1 := read, opened := true, key := if c.keyValid then some c.wrappedKey else none }
  let s := if c.erased && !c.keyValid then (s.jnl 5 0 0 0 0 0).jnl 5 1 0 0 0 0 else s
  let l := s.caddy.journal.filter jKnown
  let s := s.setCaddy { s.caddy with bankA := s.caddy.bankA.opened l 0, bankB := s.caddy.bankB.opened l 1 }
  State.passGate <| match committed l with
  | some r =>
    let s := s.setCaddy ({ s.caddy with active := r.bank }.setBank r.bank
      { s.caddy.bank r.bank with built := true, gen := r.gen, geom := r.geom, digest := r.digest })
    { s with mem := { s.mem with genCurrent := r.gen } }
  | none => (s.setCaddy { s.caddy with active := 3 }).note { status := 0x0437, cls := 0 }

/-! ## Weight images (R294 to R298, R492) -/

/-- Bytes 0 to 31 of an image header. -/
def imgHead (h : ImageHdr) : List Byte :=
  leBytes 32 (packAt [(0, 4, h.formatVer.toNat), (4, 4, h.generation.toNat), (8, 8, h.attnGeom.toNat), (16, 8, h.winBytes), (24, 4, h.chunks)])

/-- The 64 bytes of a chunk header. -/
def chunkHead (h : ChunkHdr) : List Byte :=
  leBytes 64 (packAt [(0, 8, putBits h.winOffset 47 0), (8, 4, h.length), (12, 4, putBits h.kind 3 0), (16, 16, h.tag.toNat),
    (32, 8, putBits h.copyFrom 47 0)])

/-- Bytes of ASCII text. -/
def ascii (t : String) : List Byte := t.toList.map fun c => BitVec.ofNat 8 c.toNat

/-- Generation of a bank; 0 when not built (R313). -/
def Bank.shown (k : Bank) : Word := if k.built then k.gen else 0

/-- Header fields as R294 states them. -/
def State.imageOk (s : State) (b : Build) (h : ImageHdr) : Bool :=
  h.formatVer = 1 && h.generation != 0 && h.generation != b.prevGen && h.generation != (s.caddy.bank (1 - b.bank)).shown &&
  h.winBytes % 65536 = 0 && h.winBytes ≤ 184 * 2 ^ 30 && 1 ≤ h.chunks && h.rsvdOk

/-- The weight key of a key block, unwrapped (R492); with the device secret failed there is none (R487). -/
def State.unwrapKey (s : State) (h : ImageHdr) : Option W256 :=
  let k := h.keyBlock
  let secret := s.part.secret
  let ss := Config.kemDecaps secret (bytesAt k 16 1568)
  let wk := Config.shake256 (leBytes 32 ss.toNat ++ ascii "TQ-WK" ++ leBytes 4 h.generation.toNat)
  let aad := imgHead h ++ bytesAt k 0 16
  let ct := bytesAt k 1584 32
  if s.sec.restrict.contains .secret || leAt k 0 4 != 1 || leAt k 4 4 != 0 ||
     leAt k 8 8 != (Config.shake256 (Config.kemPublic secret)).toNat % 2 ^ 64 ||
     (Config.gcmTag wk 0 aad ct).toNat != leAt k 1616 16 then none
  else some (BitVec.ofNat 256 (ofLe (Config.gcmOpen wk 0 aad ct)))

/-- A chunk header as R294 to R296 state it, after what earlier chunks covered. -/
def chunkOk (b : Build) (i : ImageHdr) (h : ChunkHdr) : Bool :=
  let kinds := [0, 1, 2, 4, 5, 6]
  let units := h.kind = 2 || h.kind = 6
  h.rsvdOk && kinds.contains h.kind && h.winOffset % 16 = 0 && h.length % 16 = 0 && 16 ≤ h.length && h.length ≤ opStep &&
  (4 ≤ h.kind || h.copyFrom = 0) && b.covered ≤ h.winOffset && h.winOffset + h.length ≤ i.winBytes &&
  (!units || (h.winOffset % 512 = 0 && h.length % 512 = 0))

/-- A run of plaintext leaves cut by their RATE; none where a leaf has a RATE above 4 or does not end the run (R296). -/
def cutLeaves : Nat → List Byte → Option (List (List Byte))
  | 0, bs => if bs.isEmpty then some [] else none
  | n + 1, bs =>
    if bs.isEmpty then some []
    else
      let k := leafSize (bits (leAt bs 0 4) 23 21)
      if k = 0 || bs.length < k then none else (cutLeaves n (bs.drop k)).map (bs.take k :: ·)

/-- A run of sealed leaves opened: the first cipher block of a leaf alone gives its RATE (R243, R293,
notes/assumptions/33.md). -/
def openRun (key : W512) (gen : Word) : Nat → Nat → List Byte → Option (List (List Byte))
  | 0, _, bs => if bs.isEmpty then some [] else none
  | n + 1, o, bs =>
    if bs.isEmpty then some []
    else
      let t := leafTweak (Window.caddy.base + o) gen
      let k := leafSize (bits (leAt (Config.xtsOpen key t ((bs.drop 2).take 16)) 0 1) 7 5)
      if k = 0 || bs.length < k then none
      else (openRun key gen n (o + k) (bs.drop k)).map ((bs.take 2 ++ Config.xtsOpen key t ((bs.take k).drop 2)) :: ·)

/-- Leaves sealed from a window offset, CHECK over the ciphertext (R293, R296). -/
def sealRun (key : W512) (gen : Word) : Nat → List (List Byte) → List Byte
  | _, [] => []
  | o, l :: t =>
    let ct := Config.xtsSeal key (leafTweak (Window.caddy.base + o) gen) (l.drop 2)
    leBytes 2 (crc16 ct) ++ ct ++ sealRun key gen (o + l.length) t

/-- A plain sealed area in units of 512 bytes, by a cipher of one unit. -/
def sealUnits (f : BitVec 128 → List Byte → List Byte) (gen : Word) (o : Nat) (bs : List Byte) : List Byte :=
  ((pieces 512 bs.length bs).mapIdx fun i u => f (leafTweak (Window.caddy.base + o + 512 * i) gen) u).flatten

/-- Nonce of a chunk (R295). -/
def chunkNonce (i : Nat) (gen : Word) : BitVec 96 := BitVec.ofNat 96 (i % 2 ^ 32 + gen.toNat * 2 ^ 32)

/-- Additional data of a chunk (R295). -/
def chunkAad (i : ImageHdr) (h : ChunkHdr) : List Byte := imgHead i ++ (chunkHead h).take 16 ++ (chunkHead h).drop 32

/-- The plain run that a chunk carries or copies: clear bytes or plain units; leaves are cut apart (R296). -/
def State.chunkRun (s : State) (b : Build) (i : ImageHdr) (h : ChunkHdr) (payload : List Byte) : Option (List (List Byte)) :=
  let key := s.caddy.key.getD 0
  let from_ := s.caddy.bank (1 - b.bank)
  let plain := Config.gcmOpen (b.weightKey.getD 0) (chunkNonce b.chunksDone i.generation) (chunkAad i h) payload
  let old := Memory.read from_.data h.copyFrom h.length
  match h.kind with
  | 0 => some [plain]
  | 1 => cutLeaves h.length plain
  | 2 => some [plain]
  | 4 => some [old]
  | 5 => if h.copyFrom % 16 = 0 then openRun key from_.gen h.length h.copyFrom old else none
  | _ => if h.copyFrom % 512 = 0 then some [sealUnits (Config.xtsOpen key) from_.gen h.copyFrom old] else none

/-- The bytes written into the target bank (R293, R296). -/
def State.chunkBytes (s : State) (i : ImageHdr) (h : ChunkHdr) (run : List (List Byte)) : List Byte :=
  let key := s.caddy.key.getD 0
  match h.kind % 4 with
  | 1 => sealRun key i.generation h.winOffset run
  | 2 => sealUnits (Config.xtsSeal key) i.generation h.winOffset run.flatten
  | _ => run.flatten

/-! ## Builds (R299 to R301, R311) -/

/-- Replace the build in progress. -/
def State.setBuild (s : State) (b : Option Build) : State := s.setCaddy { s.caddy with build := b }

/-- A build ends: the weight key is zeroised and the final record written; a control that waits gets OP_STATE
(R297, R341, R493). -/
def State.endBuild (s : State) (h status : Nat) : State := (s.setBuild none).endOp h status 0x0605 false

/-- The next spare of a bank on a die that is not itself lost, and the spares then used (R290, R311). -/
def Caddy.spare (c : Caddy) (b die : Nat) : Option (Nat × Nat) :=
  let used := ((c.bank b).map_ die).sparesUsed
  (List.range (63 - used)).findSome? fun i =>
    let p := bankFirst b + 1472 + used + i
    if c.lostSegs.contains (die, p) then none else some (p, used + i + 1)

/-- Map the data segment on a lost physical segment to a spare with a SEG_MAP record; none where no spare is left (R311). -/
def State.mapSegment (s : State) (b die seg : Nat) : Option State :=
  let m := (s.caddy.bank b).map_ die
  match (List.range 1472).find? fun d => m.phys b d = seg with
  | none => some s
  | some d =>
    match s.caddy.spare b die with
    | none => none
    | some (p, used) =>
      let m' : SegMap := { remap := m.remap.filter (fun x => x.1 != d) ++ [(d, p)], sparesUsed := used }
      some ((s.setCaddy (s.caddy.setBank b ((s.caddy.bank b).setMap die m'))).jnl 4 b 0 0 0 (segRef die d p))

/-- Map every lost segment that the target bank still uses. -/
def State.mapLost (s : State) (b : Nat) : Option State :=
  (s.caddy.lostSegs.filter fun p => bankOfSeg p.2 = some b).foldl
    (fun o p => o.bind fun s => s.mapSegment b p.1 p.2) (some s)

/-- The image header of a build: fields, key, spares (R294, R297, R311, R492). -/
def State.buildHeader (s : State) (b : Build) (i : ImageHdr) : State :=
  if !s.imageOk b i then s.endBuild b.handle 0x0430
  else match s.unwrapKey i with
  | none => s.endBuild b.handle 0x0431
  | some k =>
    match s.mapLost b.bank with
    | none => s.endBuild b.handle 0x0436
    | some s => s.setBuild (some { b with hdr := some i, weightKey := some k, heads := imgHead i })

/-- Image bytes up to the end of the next chunk (R294, R340). -/
def State.imageDone (s : State) (b : Build) (payload : Nat) : Nat :=
  (match s.longOps.find? b.handle with | some o => max o.done 1664 | none => 0) + 64 + payload

/-- One chunk: its bytes are written as they are decrypted, then its tag is checked; its end is a safe point (R295 to
R297, R301). -/
def State.buildChunk (s : State) (b : Build) (i : ImageHdr) (h : ChunkHdr) (payload : List Byte) (bad : List Nat) : State :=
  let from_ := s.caddy.bank (1 - b.bank)
  let copy := 4 ≤ h.kind
  if !chunkOk b i h || (copy && (s.caddy.active = 3 || from_.winBytes < h.copyFrom + h.length)) then s.endBuild b.handle 0x0430
  else
    let hit := bad.filter fun k => copy && h.copyFrom < (k + 1) * 512 && k * 512 < h.copyFrom + h.length
    if !hit.isEmpty then
      let s := hit.foldl (fun s k => let p := s.caddy.place (1 - b.bank) (k * 512)
        s.raise { status := 0x0435, cls := 2, unit := 5, die := p.1, pos := p.2 }) s
      s.endBuild b.handle 0x0435
    else
      let run := s.chunkRun b i h payload
      let tagOk := Config.gcmTag (b.weightKey.getD 0) (chunkNonce b.chunksDone i.generation) (chunkAad i h) payload = h.tag
      let s := match run with
        | some r => s.setCaddy (s.caddy.setBank b.bank { s.caddy.bank b.bank with
            data := Memory.write (s.caddy.bank b.bank).data h.winOffset (s.chunkBytes i h r)
            sealedRuns := (s.caddy.bank b.bank).sealedRuns ++
              (if h.kind % 4 = 0 then [] else [(h.winOffset, h.length, h.kind % 4)]) })
        | none => s
      let r := s.anyOf ((if run.isNone then [0x0430] else []) ++ (if tagOk then [] else [0x0431]))
      if r.1 != 0 then r.2.endBuild b.handle r.1
      else
        let b' := { b with
          chunksDone := b.chunksDone + 1
          covered := h.winOffset + h.length
          heads := b.heads ++ chunkHead h }
        let done := s.imageDone b payload.length
        -- Window bytes between chunks that no chunk covers are zero (R296).
        let k := s.caddy.bank b.bank
        let s := s.setCaddy (s.caddy.setBank b.bank { k with data := Memory.clear k.data b.covered (h.winOffset - b.covered) })
        (s.setBuild (some b')).passPoint b.handle done fun s => s.setBuild none

/-- BUILD_CHUNK: the image header, or the next chunk, of a build that is not suspended (R294 to R301). -/
def execBuildChunk (handle : Nat) (inp : BuildIn) (s : State) : Host.Outcome State Fault Refusal :=
  .next (match s.caddy.build, s.longOps.find? handle with
    | some b, some o =>
      if !(s.live && !s.start.quiesced && b.handle = handle && o.working) then s
      else match inp, b.hdr with
      | .hostFail, _ => s.endBuild handle 0x0203
      | .header i, none => if i.keyBlock.length = 1632 then s.buildHeader b i else s
      | .chunk h payload bad, some i =>
        if b.chunksDone < i.chunks && payload.length = (if 4 ≤ h.kind then 0 else h.length) then s.buildChunk b i h payload bad else s
      | _, _ => s
    | _, _ => s)

/-- A package that builds: at most one build (R300). -/
def State.building (s : State) : Bool := s.caddy.build.isSome

/-- A caddy scrub of a bank that is not finished (R300, R310). -/
def State.scrubOf (s : State) (b : Nat) : Bool :=
  s.longOps.any fun p => p.2.kind = .scrub && bit (dField p.2.desc 8 4) b

/-- An accepted build begins: with no valid key, a new one is drawn first; then BUILD_START (R303, R491). -/
def State.startBuild (s : State) (handle : Nat) : State :=
  let b := s.caddy.idle
  let k := s.caddy.bank b
  let s := if s.caddy.keyValid then s else
    let key : W512 := (Config.freeKey s.free ++ Config.freeKey (s.free + 1)).cast (by rfl)
    { s.setCaddy { s.caddy with keyValid := true, wrappedKey := key, key := some key } with free := s.free + 2 }
  let s := s.jnl 1 b 0 0 0 0
  s.setCaddy ({ s.caddy with build := some { handle := handle, bank := b, prevGen := k.shown } }.setBank b
    { s.caddy.bank b with built := false, sealedRuns := [] })

/-- A successful build: the rest of the window is zero, BUILT is written, and an install activates its bank at once
(R296, R298, R299, R303, R491). -/
def State.buildDone (s : State) (b : Build) (i : ImageHdr) (install : Bool) : State :=
  let k := s.caddy.bank b.bank
  let digest := Config.shake256 b.heads
  let k' : Bank := { k with
    data := Memory.clear k.data b.covered (184 * 2 ^ 30 - b.covered)
    built := true, gen := i.generation, geom := i.attnGeom, winBytes := i.winBytes, digest := digest }
  let s := (s.setCaddy (s.caddy.setBank b.bank k')).jnl 2 b.bank i.generation i.attnGeom digest 0
  if install then
    let s := s.jnlActivate b.bank
    let s := s.setCaddy { s.caddy with active := b.bank, erased := false }
    let s := { s with mem := { s.mem with genCurrent := i.generation, granules := switchGranules i.generation s.mem.granules } }
    match s.model with
    | some m => s.normReset m false
    | none => s
  else s

/-- LONG_OP_COMPLETE: the work of an operation ends and its final record is written (R298, R310, R339). -/
def execLongOpComplete (h : Nat) (inp : OpIn) (s : State) : Host.Outcome State Fault Refusal :=
  .next (match s.longOps.find? h with
    | none => s
    | some o =>
      let last := o.total ≤ o.nextPoint
      let full := fun (s : State) => s.setOp h { o with done := o.total }
      if !(s.live && o.working) then s
      else match o.kind with
      | .prefill _ => s
      | .install | .build =>
        match s.caddy.build with
        | some b =>
          match b.hdr with
          | some i =>
            if b.handle = h && b.chunksDone = i.chunks && !s.start.quiesced then
              ((full s).buildDone b i (o.kind = .install)).endBuild h 0
            else s
          | none => s
        | none => s
      | .scrub => if last then (full (s.takeSegs inp (scrubCovers o.desc))).endOp h 0 0x0605 false else s
      | .copy | .convert | .compress =>
        if last then
          let r := s.bulkEnd o inp
          (if r.1 = 0 then full r.2 else r.2).endOp h r.1 0x0605 false
        else s)

/-! ## Arming a swap (R305 to R307) -/

/-- A member's check of an arm: 0, or the failed condition, 1 to 4 in the order of R305. The revision is checked against
the local expert table as the idle bank holds it. -/
def State.armCheck (s : State) (g : Word) (r : HomeRev) : Nat :=
  let b := s.caddy.idle
  let k := s.caddy.bank b
  if s.caddy.active = 3 || !k.built || k.gen != g then 1
  else if (match s.model with | some m => k.geom != m.attnGeom | none => true) then 2
  else if s.building then 3
  else if ((s.setCaddy { s.caddy with active := b }).checkRevision r).isSome then 4
  else 0

/-- Arm the idle bank and keep the revision for the switch (R280, R305, R306). -/
def State.armSelf (s : State) (g : Word) (r : HomeRev) : State :=
  (s.setCaddy { s.caddy with armed := some g, armedRev := r.rev, prefillAt := 0 }).setRte { s.rte with next := some ⟨r.rev, r.members, r.entries⟩ }

/-- SWAP_ARM_RECEIVE: a member accepts or refuses an arm, and answers the manager (R305). -/
def execSwapArmReceive (g : Word) (r : HomeRev) (s : State) : Host.Outcome State Fault Refusal :=
  act (s.live && !s.start.quiesced && s.disc.inDomain && s.dom.role != .manager) s fun s =>
    let c := s.armCheck g r
    let s := if c = 0 then s.armSelf g r else s
    s.emit (.member s.dom.manager 6 [g.setWidth 64, BitVec.ofNat 64 c])

/-- The manager tells the other members to disarm. -/
def State.sendDisarm (s : State) : State :=
  (s.memberList.filter (· != s.dom.node)).foldl (fun s n => s.emit (.member n 5 [])) s

/-- The first refusal: every member disarms and the request completes with SWAP_REFUSED (R305, R333). -/
def State.armRefused (s : State) (node cond : Nat) : State :=
  (s.endArm 0x0433 [(8, 4, putBits node 7 0 + putBits cond 11 8)]).sendDisarm

/-- A member has accepted; all of them make the swap ready for the next GO release (R306). -/
def State.armAccepted (s : State) (a : Arming) (node : Nat) : State :=
  let acc := addNew a.accepted node
  s.setDom { s.dom with arm := some { a with accepted := acc, armed := s.memberList.all acc.contains } }

/-- An answer or a silence concerns an arm in progress. -/
def State.armWaits (s : State) (node : Nat) : Bool :=
  s.live && s.dom.role = .manager && s.isMember node && match s.dom.arm with
    | some a => !a.armed && !a.accepted.contains node
    | none => false

/-- SWAP_ARM_REPLY: a member's answer at the manager; `failed` is 0 or its failed condition (R305, R306). -/
def execSwapArmReply (node failed : Nat) (s : State) : Host.Outcome State Fault Refusal :=
  .next (match s.dom.arm with
    | some a => if s.armWaits node then (if failed = 0 then s.armAccepted a node else s.armRefused node failed) else s
    | none => s)

/-- SWAP_ARM_TIMEOUT: 100 ms without an answer count as a refusal with condition 5 (R305). -/
def execSwapArmTimeout (node : Nat) (s : State) : Host.Outcome State Fault Refusal :=
  .next (match s.dom.arm with
    | some a => if s.armWaits node && 2500000 ≤ s.since a.sentAt then s.armRefused node 5 else s
    | none => s)

/-! ## Quick quiesce (R309) -/

/-- QUICK_QUIESCE: work stops, a build ends, the manager is notified. The status of the ended build is left open
(notes/assumptions/34.md). -/
def execQuickQuiesce (s : State) : Host.Outcome State Fault Refusal :=
  act (s.live && s.start.trayPin && s.start.gatePassed && !s.start.quiesced) s fun s =>
    let s := match s.caddy.build with
      | some b => ({ s with free := s.free + 1 }).endBuild b.handle (1 + Config.freeNat s.free % 0xFFFF)
      | none => s
    let s := { s with start := { s.start with quiesced := true } }
    if s.dom.manager = 0xFF then s else s.leave

end Sys2Proof.Machine
end

