-- ==== Sys2Proof/Machine/DescCheck.lean ====
section
/-! DEFINITION. The checks of a descriptor, in the order of R328 (spec 13 R320, R327 to R331, and the rules of each
field). A check answers the status of the refusal and the byte offset of the first offending field. -/

namespace Sys2Proof.Machine

/-- A refusal: status and byte offset. -/
abbrev Check := Option (Nat × Nat)

/-- All ones in the low `n` bits. -/
def ones (n : Nat) : Nat := 2 ^ n - 1

/-- Body fields of an opcode, as (byte offset, mask) pairs; none for an unknown opcode (R329, R330). Bits 23:6 and
63:48 of a destination word are reserved (R414). -/
def opFields : Nat → Option (List (Nat × Nat))
  | 0x00 => some []
  | 0x01 => some [(8, ones 64), (16, ones 64), (24, ones 64), (32, ones 32), (36, ones 32)]
  | 0x02 => some []
  | 0x03 => some [(8, ones 32), (16, ones 64), (24, ones 32)]
  | 0x04 => some []
  | 0x08 => some [(16, ones 64)]
  | 0x09 => some []
  | 0x0A => some [(16, ones 64)]
  | 0x0B => some [(16, ones 64)]
  | 0x10 => some [(8, ones 18), (12, 0xFFFF0000), (16, ones 32), (20, ones 32), (24, ones 32), (32, ones 64), (40, ones 64)]
  | 0x11 => some [(8, ones 20), (12, 1), (16, ones 64), (24, ones 32), (28, ones 32), (32, ones 64)]
  | 0x12 => some [(8, ones 18), (12, 0xFFFF0000), (16, ones 32), (20, ones 32), (24, ones 32), (28, 0x0F0FFFFF), (40, ones 64)]
  | 0x13 => some [(8, ones 20)]
  | 0x14 => some [(8, ones 20)]
  | 0x15 => some [(8, ones 20), (16, ones 64)]
  | 0x20 => some [(8, ones 14), (16, ones 256)]
  | 0x21 => some [(8, 0xF0000003), (16, ones 64), (24, ones 64), (32, ones 64), (40, ones 64)]
  | 0x28 => some [(16, ones 64), (24, ones 64)]
  | 0x29 => some [(16, ones 64), (24, ones 64)]
  | 0x2A => some [(8, 3)]
  | 0x30 => some [(8, ones 32)]
  | 0x31 => some [(8, ones 32)]
  | 0x32 => some [(8, ones 32)]
  | 0x33 => some [(8, ones 32)]
  | 0x38 => some [(8, ones 16), (16, ones 64)]
  | 0x39 => some [(8, ones 16), (16, ones 64), (24, ones 32)]
  | 0x3A => some [(8, 0xF), (16, 0x0000FFFFFF00003F), (24, ones 64), (32, ones 32)]
  | _ => none

/-- The first 32-bit word of a descriptor with a reserved bit set (R10, R327, R330). -/
def reservedAt (d : W512) (fields : List (Nat × Nat)) : Option Nat :=
  let allowed := fields.foldl (fun m f => m ||| f.2 * 2 ^ (8 * f.1)) (0xFFFF03FF + 0xFFFFFFFF * 2 ^ 32)
  ((List.range 16).find? fun w =>
    (bits d.toNat (32 * w + 31) (32 * w)) &&& (ones 32 - bits allowed (32 * w + 31) (32 * w)) != 0).map (4 * ·)

/-- Opcodes marked privileged (table "Descriptor opcodes"). -/
def privOps : List Nat := [0x01, 0x02, 0x03, 0x04, 0x08, 0x09, 0x20, 0x28, 0x29, 0x2A, 0x3A]

/-! ## Step 4: tenant and addresses (R320, R434) -/

/-- Device ranges that a descriptor names itself, with the offset of the naming field; a bulk copy's are those of its
parameter block as well. -/
def namedRanges (d : W512) (p : List Byte) : List (Nat × Nat × Nat) :=
  match dOpcode d with
  | 0x0B => if dField d 16 8 = 0 then [] else [(dField d 16 8, 4096, 16)]
  | 0x11 => (if bit (dField d 12 4) 0 then [(dField d 16 8, 4 * dField d 24 4, 16)] else []) ++
      (if dField d 32 8 = 0 then [] else [(dField d 32 8, 32, 32)])
  | 0x21 => (if bcFunc d = 0 then [] else [(bcParam d, 64, 40)]) ++ bulkReads d p ++ bulkWrites d p ++ bulkHeader d
  | _ => []

/-- A range lies in the region of a class. -/
def inClass (c a n : Nat) : Bool := windowOf a = some (.cls c) && windowOf (a + (n - 1)) = some (.cls c)

/-- Class of a tenant that exists. -/
def State.tenantClass (s : State) (t : Nat) : Option Nat := if (s.tenant t).valid then some (s.tenant t).cls else none

/-- An object that a descriptor names is allowed on a pair (table "Object ranges"). -/
def State.objectAllowed (s : State) (priv add : Bool) (i : Nat) : Bool :=
  if i < 0x8000 then true
  else if i < 0xFE00 then priv
  else if i < 0xFF00 then priv && !add
  else if i < 0xFF40 then priv
  else if i < 0xFF80 then false
  else if !add then priv
  else
    let m := (i - 0xFF80) / 2
    priv && i % 2 = 1 && m < 56 && Memory.num s.mem.hbm (syncBase + 0x080000 + m * 16) 16 = 2

/-- The parameter block of a convert or compress as it stands. -/
def State.bulkBlock (s : State) (d : W512) : List Byte :=
  if dOpcode d = 0x21 && bcFunc d != 0 then s.devRead (bcParam d) 64 else []

/-- Step 4 (R328). -/
def State.checkTenant (s : State) (r : RingPair) (d : W512) (p : List Byte) : Check :=
  if r.priv then none
  else if dTenant d != r.tenant then some (0x0202, 0)
  else
    let sync := (dOpcode d = 0x38 || dOpcode d = 0x39) && s.syncPresent && !s.objectAllowed false (dOpcode d = 0x38) (dField d 8 2)
    if sync then some (0x0202, 8)
    else ((namedRanges d p).find? fun x => match s.tenantClass r.tenant with
      | some c => !inClass c x.1 x.2.1
      | none => true).map fun x => (0x0202, x.2.2)

/-! ## Step 5: fields taken on their own -/

/-- The first status of a list of tests. -/
def firstOf (l : List (Bool × Nat × Nat)) : Check := (l.find? Prod.fst).map Prod.snd

/-- TEMP is +0.0, or positive and finite (R330). -/
def tempOk (w : Nat) : Bool := w < 0x7F800000

/-- Fields of a bulk copy and of its parameter block (R330, R331, R65, R249). -/
def bulkFields (d : W512) (p : List Byte) : List (Bool × Nat × Nat) :=
  let f := bcFunc d
  let sf := bpSrcFmt p
  let df := bpDstFmt p
  let block := fun (k : Nat) => k = 5 || k = 6 || k = 7 || k = 8 || k = 9 || k = 10 || k = 11
  let e := fun (b : Bool) => (b, 0x0103, 40)
  let head : List (Bool × Nat × Nat) := [(2 < f, 0x0103, 8), (f != 0 && (bcSrcHost d || bcDstHost d), 0x0103, 8),
   (if f = 0 then bcLen d = 0 || 2 ^ 40 < bcLen d else bcLen d != 0, 0x0103, 32),
   (if f = 0 then bcParam d != 0 else bcParam d % 64 != 0, 0x0103, 40)]
  head ++ (if f = 0 then [] else
    [e (bits (leAt p 0 4) 17 0 != 0), e (11 < sf || 11 < df), e (bpLines p = 0 || bpK p = 0),
     e (if sf = 3 || sf = 4 || sf = 10 || sf = 11 then !scaleValid (bpSrcT p) else bpSrcT p != 0x3F800000),
     e (!block sf && bpSrcScales p != 0)]) ++
  (if f = 1 then
    [e (bpSround p && df != 10 && df != 9), e (bpRates p != 0), e ((df = 10 || df = 11) && !scaleValid (bpDstT p)),
     e (bpData p != 0 || bpDataSize p != 0)]
  else if f = 2 then
    [(bcDst d % 64 != 0, 0x0103, 24), e (df < 7), e (bpSround p),
     e (bpRates p = 0 || (List.range 5).any fun c => bit (bpRates p) c && !rateOk (bpDst p) c),
     e (if df = 10 || df = 11 then !scaleValid (bpDstT p) else bpDstT p != 0x3F800000),
     e (bpAux p % 8 != 0), e (bpData p % 64 != 0)]
  else [])

/-- The new entry of an OBJECT_SET (R281). -/
def objOf (d : W512) : ObjEntry :=
  let w := dField d 40 4
  { base := BitVec.ofNat 64 (dField d 16 8), length := BitVec.ofNat 64 (dField d 24 8), hostAddr := BitVec.ofNat 64 (dField d 32 8)
    place := bits w 31 30, pasid := bits w 27 8, valid := bit w 0 }

/-- Pinned granules of valid objects. -/
def pinnedGranules (t : Tab ObjEntry) : Nat :=
  t.foldl (fun k p => if p.2.valid && p.2.place = 1 then k + p.2.length.toNat / 0x10000 else k) 0

/-- The entry is refused (R281, R282): its window, overlap and caddy fields matter only while it is valid
(notes/assumptions/35.md). -/
def State.objectFields (s : State) (d : W512) : List (Bool × Nat × Nat) :=
  let i := dField d 8 2
  let o := objOf d
  let b := o.base.toNat
  let n := o.length.toNat
  let w := dField d 40 4
  let caddy := windowOf b = some .caddy
  let inWin := match s.inWindow b n with | some (.caddy, _) => true | some (.host, _) => true | _ => false
  let others := s.mem.objects.filter fun p => p.1 != i && p.2.valid
  [(b % 0x10000 != 0, 0x0422, 16), (n % 0x10000 != 0, 0x0422, 24), (o.valid && n = 0, 0x0422, 24), (o.valid && !inWin, 0x0422, 16),
   (o.valid && others.any fun p => meets b n p.2.base.toNat p.2.length.toNat, 0x0422, 16),
   (o.place = 3 || bits w 29 28 != 0 || bits w 7 1 != 0, 0x0422, 40),
   (o.valid && caddy && o.hostAddr != 0, 0x0422, 32), (o.valid && caddy && o.pasid != 0, 0x0422, 40), (dField d 44 4 != 0, 0x0422, 44),
   (o.valid && o.place = 1 && s.mainGranules < pinnedGranules (s.mem.objects.set i o), 0x0421, 40)]

/-- The bank that a build writes is armed, or is being scrubbed (R300). -/
def State.buildBlocked (s : State) : Bool := s.building || s.caddy.armed.isSome || s.scrubOf s.caddy.idle

/-- A handle is known to a pair: it started the operation or is privileged (R338). -/
def State.opVisible (s : State) (n h : Nat) : Bool :=
  match s.longOps.find? h with
  | some o => o.ring = n || (s.ring n).priv
  | none => false

/-- Load fields in the order of the descriptor: the field that a load's refusal names (R80, R140, R167, R260). -/
def loadField (geom routing : DWord) (floor wire : Word) (status : Nat) : Nat :=
  if status = 0x0112 && !geomOk geom then 16
  else if status = 0x0112 && !routingOk routing then 24
  else if status = 0x0112 && !floorOk floor then 32
  else if status = 0x0112 && !wireOk wire routing then 36
  else 8

/-- Step 5 with the refusals that a rule gives for the state of the package (R328, R329). -/
def State.checkFields (s : State) (n : Nat) (d : W512) (p : List Byte) : Check :=
  let priv := (s.ring n).priv
  let sync := fun add => !s.syncPresent || !s.objectAllowed priv add (dField d 8 2)
  let steer := fun (a : Nat) => match s.steerCheck a with | some e => (true, e, 16) | none => (false, 0, 0)
  match dOpcode d with
  | 0x01 => firstOf [(s.model.isSome || (s.disc.inDomain && (s.dom.state = .service || s.dom.state = .recovery)), 0x0510, 0)]
  | 0x02 => firstOf [(s.model.isNone, 0x0511, 0), (!s.eng.seqs.isEmpty, 0x0510, 0),
      (s.disc.inDomain && (s.dom.state = .service || s.dom.state = .recovery), 0x0510, 0)]
  | 0x03 => firstOf [(s.dom.role != .manager, 0x0313, 0), (s.model.isNone, 0x0511, 0)]
  | 0x04 => firstOf [(s.dom.role != .manager, 0x0313, 0)]
  | 0x08 => firstOf [steer (dField d 16 8)]
  | 0x0B => firstOf [steer (dField d 16 8)]
  | 0x10 => firstOf [(!tempOk (dField d 16 4), 0x0103, 16), (s.model.isNone, 0x0511, 0), (!(s.tenant (dTenant d)).valid, 0x0557, 0),
      ((s.tenant (dTenant d)).cls != dClass d, 0x0558, 0), (2 ^ 20 ≤ s.eng.seqs.length, 0x0552, 0)]
  | 0x11 => firstOf [(dField d 24 4 = 0, 0x0103, 24)]
  | 0x12 => firstOf [(bits (dField d 28 4) 27 24 = 0, 0x0103, 28), (!tempOk (dField d 16 4), 0x0103, 16)]
  | 0x20 => firstOf (s.objectFields d)
  | 0x21 =>
    let head := firstOf ((bulkFields d []).take 4)
    if head.isSome || bcFunc d = 0 then head
    else match s.checkRead (bcParam d) 64 with
    | some e => some (e, 40)
    | none => if s.readable (bcParam d) 64 then firstOf (bulkFields d p) else some (0x0420, 40)
  | 0x28 => firstOf [(s.disc.inDomain && (s.dom.state = .service || s.dom.state = .recovery), 0x0432, 0), (s.buildBlocked, 0x0432, 0)]
  | 0x29 => firstOf [(s.caddy.active = 3, 0x0437, 0), (s.buildBlocked, 0x0432, 0)]
  | 0x2A => firstOf [(bits (dField d 8 4) 1 0 = 0, 0x0103, 8), (s.caddy.active = 3, 0x0437, 0),
      (match s.caddy.build with | some b => bit (dField d 8 4) b.bank | none => false, 0x0432, 8)]
  | 0x30 => firstOf [(!s.opVisible n (dField d 8 4), 0x0604, 8)]
  | 0x31 => firstOf [(!s.opVisible n (dField d 8 4), 0x0604, 8)]
  | 0x32 => firstOf [(!s.opVisible n (dField d 8 4), 0x0604, 8)]
  | 0x33 => firstOf [(!s.opVisible n (dField d 8 4), 0x0604, 8)]
  | 0x38 => firstOf [(sync true, 0x0103, 8)]
  | 0x39 => firstOf [(sync false, 0x0103, 8)]
  | 0x3A =>
    let w := dField d 16 8
    let domain := s.portKind (bits (dField d 8 4) 3 0) = 1
    firstOf [(domain && (bits w 47 32 != 0 || !s.isMember (bits w 31 24)), 0x0103, 16), (!s.syncPresent, 0x0103, 0),
      (dField d 32 4 = 0 || 1048576 < dField d 32 4, 0x0103, 32)]
  | _ => none

/-! ## Step 6: device ranges -/

/-- Ranges that are read and written, in the order of their fields (R328). -/
def descReads (d : W512) (p : List Byte) : List (Nat × Nat × Nat) :=
  match dOpcode d with
  | 0x01 => [(dField d 8 8, 256, 8)]
  | 0x03 => [(dField d 16 8, 16, 16)]
  | 0x11 => namedRanges d p
  | 0x21 => bulkReads d p
  | 0x3A => [(dField d 24 8, dField d 32 4, 24)]
  | _ => []

/-- Step 6 (R264, R276, R283). -/
def State.checkRanges (s : State) (d : W512) (p : List Byte) : Check :=
  match (descReads d p).findSome? fun x => (s.checkRead x.1 x.2.1).map fun e => (e, x.2.2) with
  | some e => some e
  | none =>
    if dOpcode d = 0x21 then (bulkWrites d p ++ bulkHeader d).findSome? fun x => (s.checkWrite x.1 x.2.1).map fun e => (e, x.2.2)
    else none

/-! ## Steps 7 to 9: the sequence -/

/-- The sequence that a descriptor names, with the offset of its field. -/
def descSeq (d : W512) : Option (Nat × Nat) :=
  match dOpcode d with
  | 0x11 => some (dField d 8 4 % 2 ^ 20, 8)
  | 0x12 => some (dField d 28 4 % 2 ^ 20, 28)
  | 0x13 => some (dField d 8 4 % 2 ^ 20, 8)
  | 0x14 => some (dField d 8 4 % 2 ^ 20, 8)
  | 0x15 => some (dField d 8 4 % 2 ^ 20, 8)
  | _ => none

/-- Position from which a prompt prefills (R203). -/
def promptFrom (r : SeqRec) : Nat := if r.state = .finished then r.committed else 0

/-- Steps 7 to 9 (R203, R206). -/
def State.checkSeq (s : State) (n : Nat) (d : W512) : Check :=
  match descSeq d with
  | none => none
  | some (q, off) =>
    let r := s.seq q
    if r.state = .free || r.closing || s.closeIn q || r.ring != n || r.tenant != dTenant d || r.cls != dClass d then some (0x0553, off)
    else if dOpcode d != 0x11 then none
    else if r.state = .prefill || r.state = .decode then some (0x0554, off)
    else if 1048576 - promptFrom r < dField d 24 4 then some (0x0103, 24)
    else none

/-- Every check of a descriptor, in order (R328, R338): none where it is to be acted on. -/
def State.checkDesc (s : State) (n : Nat) (d : W512) : Check :=
  let r := s.ring n
  let p := s.bulkBlock d
  match opFields (dOpcode d) with
  | none => some (0x0101, 0)
  | some fields =>
    match reservedAt d fields with
    | some off => some (0x0102, off)
    | none =>
      if !r.priv && privOps.contains (dOpcode d) then some (0x0201, 0)
      else
        (([s.checkTenant r d p, s.checkFields n d p, s.checkRanges d p, s.checkSeq n d,
          if dLong d && 4096 ≤ s.longOps.length then some (0x0606, 0) else none]).findSome? id)

end Sys2Proof.Machine
end

