-- ==== Sys2Proof/Machine/Descriptors.lean ====
section
/-! DEFINITION. Doorbells, acceptance of descriptors, and what every opcode does (spec 13 R321 to R341, spec 08 R199 to
R223, spec 11 R281, R282, spec 12 R299 to R307, spec 17 R431 to R435, spec 16 R414, R415). -/

namespace Sys2Proof.Machine

/-! ## Doorbells (R321, R322, R326) -/

/-- SQ_TAIL: the tail is taken modulo the ring size; a ring stopped by a failed read is read again (R321, R322). -/
def execSqTail (n : Nat) (tail : BitVec 16) (s : State) : Host.Outcome State Fault Refusal :=
  act (s.hostUp && n < 8192 && (s.ring n).enable) s fun s =>
    s.onRing n fun r => { r with sqTail := tail.toNat % 2 ^ r.sqLog2, stopped := false }

/-- Records that a CQ_HEAD consumes; none where it names more than are written and not consumed (R321). -/
def RingPair.consume (r : RingPair) (head : Nat) : RingPair :=
  let size := 2 ^ r.cqLog2
  let k := (head % size + size - r.cqHead) % size
  if k ≤ r.unread.length then { r with cqHead := head % size, unread := r.unread.drop k } else r

/-- Arm a pair: with records unacknowledged its message is sent at once (R326). -/
def State.armRing (s : State) (n : Nat) : State :=
  let r := s.ring n
  if r.unread.isEmpty then s.setRing n { r with armed := true } else (s.setRing n { r with armed := false }).emit (.msix r.vector)

/-- CQ_HEAD: records are consumed, the pair armed, and backlogged records take the freed entries (R321, R326, R337). -/
def execCqHead (n : Nat) (arm : Bool) (head : BitVec 20) (s : State) : Host.Outcome State Fault Refusal :=
  act (s.hostUp && n < 8192 && (s.ring n).enable) s fun s =>
    let s := s.onRing n fun r => r.consume head.toNat
    let s := if arm then s.armRing n else s
    (s.drain n).settleCloses

/-- MODERATION_TIMEOUT: the oldest unacknowledged record of an armed pair has waited (R326). -/
def execModerationTimeout (n : Nat) (s : State) : Host.Outcome State Fault Refusal :=
  act (s.hostUp && n < 8192 && (s.ring n).enable) s fun s => s.interrupt n

/-! ## Acceptance (R322 to R324, R328) -/

/-- SYNC_WAIT waiters in use. -/
def State.syncWaiters (s : State) : Nat := (s.waiting.filter fun w => w.what.object.isSome).length

/-- A ring that is read: enabled, not draining, not stopped, with a descriptor before its tail (R319, R322). -/
def State.ringReads (s : State) (n : Nat) : Bool :=
  let r := s.ring n
  s.serving && s.hostUp && n < 8192 && r.enable && !r.draining && !r.stopped && r.sqHead != r.sqTail

/-- A descriptor can be accepted: its entries are free, a FENCE finds every earlier descriptor complete, a SYNC_WAIT a
free waiter (R323, R324, R433). -/
def State.canAccept (s : State) (n : Nat) (d : W512) : Bool :=
  let r := s.ring n
  dEntries d ≤ r.free && (!dFence d || r.open_ = 0) && (dOpcode d != 0x39 || s.syncWaiters < 16384)

/-- The pair after acceptance: head, entries reserved, head shadow written (R322, R323). -/
def State.accept (s : State) (n : Nat) (d : W512) : State :=
  let r := s.ring n
  let h := (r.sqHead + 1) % 2 ^ r.sqLog2
  (s.setRing n { r with sqHead := h, reserved := r.reserved + dEntries d, open_ := r.open_ + 1 }).emit
    (.hostWrite r.tagPasid r.shadow (leBytes 8 h))

/-- DESCRIPTOR_READ: the next descriptor of a ring, none where the read failed (R322, R328). -/
def execDescriptorRead (n : Nat) (desc : Option W512) (s : State) : Host.Outcome State Fault Refusal :=
  act (s.ringReads n) s fun s =>
    match desc with
    | none => (s.onRing n fun r => { r with stopped := true }).note { status := 0x0203, cls := 0, unit := 9, pos := 1, detail := n }
    | some d =>
      if !s.canAccept n d then s
      else
        let s := s.accept n d
        match s.checkDesc n d with
        | some e => s.refuse n d e.1 e.2
        | none => { s with accepted := s.accepted ++ [{ ring := n, desc := d }] }

/-- A control of a long operation that was accepted before another of the same handle and has not been acted on (R324). -/
def State.controlBefore (s : State) (a : Accepted) : Bool :=
  let ctl := fun (x : Accepted) => 0x30 ≤ dOpcode x.desc && dOpcode x.desc ≤ 0x33
  ctl a && (s.accepted.takeWhile (· != a)).any fun b => ctl b && dField b.desc 8 4 = dField a.desc 8 4

/-- The oldest accepted descriptor of a ring is acted on where it has the row's opcode (notes/assumptions/15.md); controls of
one handle go in acceptance order (R324). Its checks are made on the state it acts on; a close accepted after it does not
count. -/
def State.row (s : State) (n op : Nat) (sel : W512 → Bool) (f : W512 → State → State) : Host.Outcome State Fault Refusal :=
  .next (match s.accepted.find? fun a => a.ring = n with
    | none => s
    | some a =>
      if s.live && dOpcode a.desc = op && sel a.desc && !s.controlBefore a then
        let s := { s with accepted := s.accepted.erase a }
        match State.checkDesc { s with accepted := [] } n a.desc with
        | some e => s.refuse n a.desc e.1 e.2
        | none => (f a.desc s).settleCloses
      else s)

/-- A descriptor waits. -/
def State.hold (s : State) (n : Nat) (d : W512) (w : WaitFor) : State :=
  { s with waiting := s.waiting ++ [{ ring := n, desc := d, what := w }] }

/-- Any descriptor of the opcode. -/
def anyDesc : W512 → Bool := fun _ => true

/-! ## Package and model (R34, R329) -/

/-- NOP (R329). -/
def execNop (n : Nat) (s : State) : Host.Outcome State Fault Refusal := s.row n 0x00 anyDesc fun d s => s.finish n d 0 []

/-- The words of a MODEL_LOAD are checked and the model is loaded, its norm-watch and routing tables reset (R34 to
R37, R80, R88, R140, R167, R193, R228, R260). -/
def State.loadModel (s : State) (n : Nat) (d : W512) : State :=
  let prog := dField d 8 8
  let geom : DWord := BitVec.ofNat 64 (dField d 16 8)
  let routing : DWord := BitVec.ofNat 64 (dField d 24 8)
  let floor : Word := BitVec.ofNat 32 (dField d 32 4)
  let wire : Word := BitVec.ofNat 32 (dField d 36 4)
  if prog % 64 != 0 then s.refuse n d 0x0112 8
  else if !s.readable prog 256 then s.refuse n d 0x0420 8
  else
    let c := s.loadCheck prog geom routing floor wire
    let e := s.anyOf c.1
    if e.1 != 0 then e.2.refuse n d e.1 (loadField geom routing floor wire e.1)
    else
      let s := State.replace { s with model := some c.2 }
      ((s.normReset c.2 true).routeReset c.2).finish n d 0 [(8, 4, s.mem.genCurrent.toNat)]

/-- MODEL_LOAD. -/
def execModelLoad (n : Nat) (s : State) : Host.Outcome State Fault Refusal := s.row n 0x01 anyDesc fun d s => s.loadModel n d

/-- MODEL_UNLOAD: steering of every tenant ends and the KV pools are reset (R222, R329, R353). -/
def execModelUnload (n : Nat) (s : State) : Host.Outcome State Fault Refusal :=
  s.row n 0x02 anyDesc fun d s =>
    let eng := { s.eng with tenants := s.eng.tenants.mapVals fun _ t => { t with steerDir := 0, steerVer := t.steerVer + 1 }, kv := [] }
    (State.replace { s with model := none, eng := eng }).finish n d 0 []

/-! ## Swaps (R305, R307) -/

/-- SWAP_ARM at the manager: its own check, then the arm goes to every other member (R305). -/
def State.armSwap (s : State) (n : Nat) (d : W512) : State :=
  let gen : Word := BitVec.ofNat 32 (dField d 8 4)
  let s := if s.dom.arm.isSome then s.abortSwap else s
  let s := s.hold n d .arm
  match s.readHomeTable (dField d 16 8) with
  | none => s.armRefused s.dom.node 4
  | some es =>
    let r : HomeRev := ⟨BitVec.ofNat 32 (dField d 24 4), s.memberList, es⟩
    let c := s.armCheck gen r
    if c != 0 then s.armRefused s.dom.node c
    else
      let s := s.armSelf gen r
      let s := (s.memberList.filter (· != s.dom.node)).foldl
        (fun s m => s.emit (.member m 4 [gen.setWidth 64, r.rev.setWidth 64])) s
      s.armAccepted { gen := gen, rev := ⟨r.rev, r.members, r.entries⟩, accepted := [], sentAt := s.now, armed := false } s.dom.node

/-- SWAP_ARM. -/
def execSwapArm (n : Nat) (s : State) : Host.Outcome State Fault Refusal := s.row n 0x03 anyDesc fun d s => s.armSwap n d

/-- SWAP_DISARM: an arm in progress ends with SWAP_ABORTED, and the members disarm (R307). -/
def execSwapDisarm (n : Nat) (s : State) : Host.Outcome State Fault Refusal :=
  s.row n 0x04 anyDesc fun d s => (s.abortSwap.sendDisarm).finish n d 0 []

/-! ## Tenants (R219, R220, R223) -/

/-- TENANT_SET takes effect at the next cut. -/
def execTenantSet (n : Nat) (s : State) : Host.Outcome State Fault Refusal := s.row n 0x08 anyDesc fun d s => s.atCut n d

/-- TENANT_REMOVE takes effect at the next cut. -/
def execTenantRemove (n : Nat) (s : State) : Host.Outcome State Fault Refusal := s.row n 0x09 anyDesc fun d s => s.atCut n d

/-- The 32 bytes of a tenant entry (R219). -/
def tenantBytes (t : Tenant) : List Byte :=
  leBytes 32 (packAt [(0, 4, putBits (b2n t.valid) 31 31 + putBits t.openSeqs 20 0), (4, 4, putBits t.cls 3 0), (8, 8, t.steerDir.toNat),
    (16, 8, t.jobs.toNat), (24, 4, t.steerVer.toNat)])

/-- Write a query's result to host memory under the pair's PASID (R320, R330). -/
def State.queryResult (s : State) (n : Nat) (d : W512) (bs : List Byte) : State :=
  (s.emit (.hostWrite (s.ring n).tagPasid (BitVec.ofNat 64 (dField d 16 8)) bs)).finish n d 0 []

/-- TENANT_QUERY. -/
def execTenantQuery (n : Nat) (s : State) : Host.Outcome State Fault Refusal :=
  s.row n 0x0A anyDesc fun d s => s.queryResult n d (tenantBytes (s.tenant (dTenant d)))

/-- STEER_SET takes effect at the next cut. -/
def execSteerSet (n : Nat) (s : State) : Host.Outcome State Fault Refusal := s.row n 0x0B anyDesc fun d s => s.atCut n d

/-! ## Sequences (R199, R203 to R209, R238) -/

/-- SEQ_OPEN: the lowest free sequence ID, IDLE (R199, R203, R238). -/
def State.openSeq (s : State) (n : Nat) (d : W512) : State :=
  let q := lowestFree s.eng.seqs.keys (2 ^ 20)
  let t := s.tenant (dTenant d)
  let draft := match s.model with | some m => m.hasDraft | none => false
  let r : SeqRec := {
    state := .idle, priority := bits (dField d 8 4) 17 16, cls := t.cls, tenant := dTenant d, goal := dField d 8 2
    stop0 := BitVec.ofNat 32 (dField d 20 4), stop1 := BitVec.ofNat 32 (dField d 24 4), ring := n
    userTag := BitVec.ofNat 64 (dField d 32 8), sampleSeed := BitVec.ofNat 64 (dField d 40 8)
    temp := BitVec.ofNat 32 (dField d 16 4), topk := dField d 14 2
    draftLen := if draft then s.serve.inForce.draftMax else 0, draftOff := !draft }
  let s := (s.setSeq q r).setTenant (dTenant d) { t with openSeqs := t.openSeqs + 1 }
  (s.cacheTouch q).finish n d 0 [(8, 4, q)]

/-- SEQ_OPEN. -/
def execSeqOpen (n : Nat) (s : State) : Host.Outcome State Fault Refusal := s.row n 0x10 anyDesc fun d s => s.openSeq n d

/-- SEQ_PROMPT: the sequence prefills from where its state says; above 32,768 tokens as a long operation (R203, R209). -/
def State.promptSeq (s : State) (n : Nat) (d : W512) : State :=
  let q := dField d 8 4 % 2 ^ 20
  let len := dField d 24 4
  let r := s.seq q
  let from_ := promptFrom r
  let r' := { r with
    state := .prefill, committed := from_, promptStart := from_, promptAddr := BitVec.ofNat 64 (dField d 16 8), promptRemain := len
    newMax := dField d 28 4, newCount := 0, maskAddr := BitVec.ofNat 64 (dField d 32 8), tokDev := bit (dField d 12 4) 0
    freePages := r.freePages || r.state = .lost }
  let s := ((s.readRecord q false).cacheTouch q).setSeq q r'
  if 32768 < len then
    let x := s.startOp n d (.prefill q) len
    x.1.onSeq q fun r => { r with opHandle := BitVec.ofNat 32 x.2 }
  else s.finish n d 0 [(8, 4, q), (12, 4, from_)]

/-- SEQ_PROMPT. -/
def execSeqPrompt (n : Nat) (s : State) : Host.Outcome State Fault Refusal := s.row n 0x11 anyDesc fun d s => s.promptSeq n d

/-- SEQ_SET takes effect at the next cut. -/
def execSeqSet (n : Nat) (s : State) : Host.Outcome State Fault Refusal := s.row n 0x12 anyDesc fun d s => s.atCut n d

/-- Close or cancel: the sequence stages nothing more, a long prefill ends with CANCELLED, and the record frees at the
next release, or at once while no steeps run (R27, R199, R205, R336). -/
def State.closeSeq (s : State) (n : Nat) (d : W512) : State :=
  let q := dField d 8 4 % 2 ^ 20
  let r := s.seq q
  let s := s.setSeq q { r with closing := true }
  let s := s.setSteep { s.steep with
    ended := if (s.item q).isSome then addNew s.steep.ended q else s.steep.ended
    staged := s.steep.staged.filter fun g => g.seq != q }
  let s := if r.opHandle = 0 then s else s.endOp r.opHandle.toNat 0x0602 0x0605 false
  let s := if s.noSteeps then s.freeSeq q else s
  if (s.ring n).backlog.any (recordOf q) then
    s.hold n d (.records q r.committed)
  else s.endClose n d q r.committed

/-- SEQ_CLOSE. -/
def execSeqClose (n : Nat) (s : State) : Host.Outcome State Fault Refusal := s.row n 0x13 anyDesc fun d s => s.closeSeq n d

/-- SEQ_CANCEL. -/
def execSeqCancel (n : Nat) (s : State) : Host.Outcome State Fault Refusal := s.row n 0x14 anyDesc fun d s => s.closeSeq n d

/-- SEQ_QUERY: the record as it stands (R200, R330). -/
def execSeqQuery (n : Nat) (s : State) : Host.Outcome State Fault Refusal :=
  s.row n 0x15 anyDesc fun d s =>
    let q := dField d 8 4 % 2 ^ 20
    (s.readRecord q false).queryResult n d (seqBytes q (s.seq q))

/-! ## Objects (R281, R282, R284) -/

/-- An entry lies in the range of an object. -/
def ObjEntry.holds (o : ObjEntry) (e : Granule) : Bool :=
  o.valid && o.base.toNat ≤ e.num * 0x10000 && e.num * 0x10000 < o.base.toNat + o.length.toNat

/-- Granules after a change of an object: those of an object no longer valid, of another host range, or of a host range
uncovered, are freed once no request is in flight; the others take the new placement (R282, R284). -/
def State.regranule (s : State) (old new : ObjEntry) : State :=
  s.setGranules (s.mem.granules.filterMap fun e =>
    let gone := old.holds e && !s.draftGranule e.num && (!new.holds e || new.hostAddr != old.hostAddr || new.pasid != old.pasid || new.base != old.base)
    let place := s.placeOf (e.num * 0x10000)
    if gone then (if e.filling then some { e with drop := true } else none)
    else if !(old.holds e || new.holds e) || e.filling then some e
    else if place = 2 then none
    else some { e with place := place })

/-- OBJECT_SET: the entry is in force; a pin completes when every granule is resident (R282, R284). -/
def State.setObject (s : State) (n : Nat) (d : W512) : State :=
  let i := dField d 8 2 % 2 ^ 14
  let old := s.mem.objects.get {} i
  let new := objOf d
  let s := { s with mem := { s.mem with objects := s.mem.objects.set i new } }
  let s := s.regranule old new
  if new.valid && new.place = 1 then
    (s.hold n d (.pin i)).settlePins
  else (s.settlePins).finish n d 0 [(8, 4, i)]

/-- OBJECT_SET. -/
def execObjectSet (n : Nat) (s : State) : Host.Outcome State Fault Refusal := s.row n 0x20 anyDesc fun d s => s.setObject n d

/-! ## Long operations (R330, R338) -/

/-- A bulk copy of any function starts, its parameter block kept. -/
def State.startBulk (s : State) (n : Nat) (d : W512) (k : OpKind) : State :=
  let p := s.bulkBlock d
  let x := s.startOp n d k (bulkTotal d p)
  match x.1.longOps.find? x.2 with
  | some o => x.1.setOp x.2 { o with param := p }
  | none => x.1

/-- BULK_COPY: FUNC 0. -/
def execBulkCopy (n : Nat) (s : State) : Host.Outcome State Fault Refusal :=
  s.row n 0x21 (fun d => bcFunc d = 0) fun d s => s.startBulk n d .copy

/-- BULK_CONVERT: FUNC 1. -/
def execBulkConvert (n : Nat) (s : State) : Host.Outcome State Fault Refusal :=
  s.row n 0x21 (fun d => bcFunc d = 1) fun d s => s.startBulk n d .convert

/-- BULK_COMPRESS: FUNC 2. -/
def execBulkCompress (n : Nat) (s : State) : Host.Outcome State Fault Refusal :=
  s.row n 0x21 (fun d => bcFunc d = 2) fun d s => s.startBulk n d .compress

/-- WEIGHT_INSTALL (R299, R491). -/
def execWeightInstall (n : Nat) (s : State) : Host.Outcome State Fault Refusal :=
  s.row n 0x28 anyDesc fun d s => let x := s.startOp n d .install (dField d 24 8); x.1.startBuild x.2

/-- SWAP_BUILD (R299). -/
def execSwapBuild (n : Nat) (s : State) : Host.Outcome State Fault Refusal :=
  s.row n 0x29 anyDesc fun d s => let x := s.startOp n d .build (dField d 24 8); x.1.startBuild x.2

/-- CADDY_SCRUB: TOTAL is the bytes of the named banks (R310, R340). -/
def execCaddyScrub (n : Nat) (s : State) : Host.Outcome State Fault Refusal :=
  s.row n 0x2A anyDesc fun d s =>
    (s.startOp n d .scrub ((b2n (bit (dField d 8 4) 0) + b2n (bit (dField d 8 4) 1)) * (184 * 2 ^ 30))).1

/-! ## Controls (R341) -/

/-- The control of a descriptor. -/
def controlOf (n : Nat) (d : W512) : OpControl := { ring := n, tag := dTag d, quiet := dQuiet d }

/-- The handle, its operation and the control's own descriptor. -/
def State.control (s : State) (d : W512) (f : Nat → LongOp → State → State) : State :=
  let h := dField d 8 4
  match s.longOps.find? h with
  | some o => f h o s
  | none => s

/-- OP_SUSPEND (table "Control of a long operation"). -/
def State.suspendOp (s : State) (n : Nat) (d : W512) : State :=
  s.control d fun h o s =>
    match o.state with
    | .running => s.setOp h { o with state := .suspendPending, waiters := [controlOf n d] }
    | .suspendPending => s.setOp h { o with waiters := o.waiters ++ [controlOf n d] }
    | .suspended => s.finish n d 0 []
    | .cancelPending => s.finish n d 0x0605 []
    | .resumePending => ((s.setOp h { o with state := .suspended, waiters := [] }).answer o.waiters 0x0605).finish n d 0 []

/-- OP_SUSPEND. -/
def execOpSuspend (n : Nat) (s : State) : Host.Outcome State Fault Refusal := s.row n 0x30 anyDesc fun d s => s.suspendOp n d

/-- OP_RESUME: a long prefill resumes at the next batch forming, any other operation at once (R341). -/
def State.resumeOp (s : State) (n : Nat) (d : W512) : State :=
  s.control d fun h o s =>
    match o.state with
    | .running => s.finish n d 0x0605 []
    | .suspendPending => ((s.setOp h { o with state := .running, waiters := [] }).answer o.waiters 0x0605).finish n d 0 []
    | .suspended =>
      match o.kind with
      | .prefill _ => s.setOp h { o with state := .resumePending, waiters := [controlOf n d] }
      | _ =>
        let o' := { o with state := .running, waiters := [] }
        ((s.setOp h o').opNote h o' 0x0603).finish n d 0 []
    | .cancelPending => s.finish n d 0x0605 []
    | .resumePending => s.setOp h { o with waiters := o.waiters ++ [controlOf n d] }

/-- OP_RESUME. -/
def execOpResume (n : Nat) (s : State) : Host.Outcome State Fault Refusal := s.row n 0x31 anyDesc fun d s => s.resumeOp n d

/-- A suspended operation is cancelled at once: its effect, the final CANCELLED, then SUCCESS (R341). -/
def State.cancelNow (s : State) (n : Nat) (d : W512) (h : Nat) (o : LongOp) : State :=
  let s := (s.setOp h { o with state := .suspended, waiters := [] }).answer o.waiters 0x0605
  ((s.cancelOp o).endOp h 0x0602 0x0605 false).finish n d 0 []

/-- OP_CANCEL. -/
def State.cancelCtl (s : State) (n : Nat) (d : W512) : State :=
  s.control d fun h o s =>
    match o.state with
    | .running => s.setOp h { o with state := .cancelPending, waiters := [controlOf n d] }
    | .suspendPending => (s.setOp h { o with state := .cancelPending, waiters := [controlOf n d] }).answer o.waiters 0x0605
    | .suspended => s.cancelNow n d h o
    | .cancelPending => s.setOp h { o with waiters := o.waiters ++ [controlOf n d] }
    | .resumePending => s.cancelNow n d h o

/-- OP_CANCEL. -/
def execOpCancel (n : Nat) (s : State) : Host.Outcome State Fault Refusal := s.row n 0x32 anyDesc fun d s => s.cancelCtl n d

/-- Code of a state of a long operation (R333, R341). -/
def opStateCode : OpState → Nat
  | .running => 0 | .suspendPending => 1 | .suspended => 2 | .cancelPending => 3 | .resumePending => 4

/-- OP_QUERY (R333). -/
def execOpQuery (n : Nat) (s : State) : Host.Outcome State Fault Refusal :=
  s.row n 0x33 anyDesc fun d s => s.control d fun h o s =>
    s.finish n d 0 [(8, 4, h), (12, 4, opStateCode o.state), (16, 8, o.done), (24, 8, o.total)]

/-! ## Synchronisation and messages (R415, R431 to R434) -/

/-- SYNC_ADD: the add executes and waiters are evaluated (R432). -/
def execSyncAdd (n : Nat) (s : State) : Host.Outcome State Fault Refusal :=
  s.row n 0x38 anyDesc fun d s =>
    let i := dField d 8 2
    let v := (s.objGet i + dField d 16 8) % 2 ^ 64
    (s.objAdd i (dField d 16 8)).finish n d 0 [(16, 8, v)]

/-- SYNC_WAIT: completes at once where the threshold is met, else waits (R433). -/
def execSyncWait (n : Nat) (s : State) : Host.Outcome State Fault Refusal :=
  s.row n 0x39 anyDesc fun d s =>
    let w : Waiting := { ring := n, desc := d, what := .sync (dField d 8 2) (BitVec.ofNat 64 (dField d 16 8)) s.now (dField d 24 4) }
    let s := { s with waiting := s.waiting ++ [w] }
    if s.waiterMet w then s.endWait w 0 else s

/-- A wait with a TIMEOUT has reached it: microseconds on the package's timer (R330, R433). -/
def State.waitOver (s : State) (w : Waiting) : Bool :=
  match w.what with
  | .sync _ _ t0 us => us != 0 && us * 25 ≤ s.since t0
  | _ => false

/-- SYNC_TIMEOUT: the wait of an index in the list of waiting descriptors (R433). -/
def execSyncTimeout (i : Nat) (s : State) : Host.Outcome State Fault Refusal :=
  .next (match s.waiting[i]? with
    | some w => if s.live && s.waitOver w then s.endWait w 0x0560 else s
    | none => s)

/-- A link of the port reaches the destination (R415). -/
def State.messageRoute (s : State) (port : Nat) (dest : DWord) : Bool :=
  s.loopsBack port dest || (s.messageLink port (bits dest.toNat 31 24)).isSome

/-- MSG_SEND: the buffer goes out in fragments, or no link reaches the destination (R414, R415). -/
def State.sendMsg (s : State) (n : Nat) (d : W512) : State :=
  let port := bits (dField d 8 4) 3 0
  let dest : DWord := BitVec.ofNat 64 (dField d 16 8)
  let a := dField d 24 8
  let len := dField d 32 4
  if !s.readable a len then s.finish n d 0x0420 []
  else if !s.messageRoute port dest then s.finish n d 0x0308 []
  else
    let number := s.fab.msgNumber.get 1 (msgKey port dest)
    let s := s.hold n d (.message number port dest)
    s.sendMessage (some n) port dest (s.devRead a len)

/-- MSG_SEND. -/
def execMsgSend (n : Nat) (s : State) : Host.Outcome State Fault Refusal := s.row n 0x3A anyDesc fun d s => s.sendMsg n d

end Sys2Proof.Machine
end

