-- ==== Sys2Proof/Machine/Limits.lean ====
section
/-! DEFINITION. The limit in force and its source (spec 14 R361, spec 19 R464, R473, R477), and the fuse profile
as the package reads it (spec 20 R486, R487). -/

namespace Sys2Proof.Machine

/-! ## Limits (R361) -/

/-- The brake floor in watts (R477). -/
def brakeFloor : Nat := 1200

/-- The variant maximum in force (R464). -/
def State.variantMax (s : State) : Nat := min s.part.maxWatts (s.pwr.vinCap.getD s.part.maxWatts)

/-- Sources of the limit in the order of their codes; brake only while BRAKE is 1 (R361). -/
def State.limitSources (s : State) : List (Nat × Nat) :=
  [(s.pwr.cap, 0), (s.pwr.rackCap, 1)] ++ (if s.pwr.brake then [(brakeFloor, 2)] else []) ++
  [(s.pwr.thermalLimit, 3), (s.variantMax, 4)]

/-- The lowest source, and on a tie the lowest code (R361). -/
def lowestSource : List (Nat × Nat) → Nat × Nat
  | [] => (0, 4)
  | a :: t => t.foldl (fun m x => if x.1 < m.1 then x else m) a

/-- Replace the power block. -/
def State.setPwr (s : State) (p : Power) : State := { s with pwr := p }

/-- The limit in force follows its sources; the brake floor and the thermal limit hold E at once, and a lag that is
over clears (R361, R473, R482). -/
def State.relimit (s : State) : State :=
  let l := lowestSource s.limitSources
  let e := min (if s.pwr.brake then min s.pwr.enforced brakeFloor else s.pwr.enforced) s.pwr.thermalLimit
  s.setPwr { s.pwr with
    limit := l.1
    source := l.2
    enforced := e
    capLag := s.pwr.capLag && l.1 < e
    thermal := s.pwr.thermalLimit < s.variantMax }

/-- A cap from either source: below 1,000 W it is stored as 1,000 W, with CAP_CLAMPED and its record (R361, R481). -/
def State.storeCap (s : State) (w : Nat) (put : Power → Nat → Power) : State :=
  let s1 := (s.setPwr { put s.pwr (max w 1000) with clamped := s.pwr.clamped || w < 1000 }).relimit
  if w < 1000 && !s.pwr.clamped then s1.note { status := 0x0702, cls := 0 } else s1

/-! ## The fuse profile (R486, R487) -/

/-- DEBUG_LOCK as read. -/
def State.debugLock (s : State) : Bool := s.part.debugLock || s.sec.restrict.contains .debugLock
/-- TRUSTED_OK as read. -/
def State.trustedOk (s : State) : Bool := s.part.trustedOk && !s.sec.restrict.contains .trustedOk
/-- The higher of the two copies' codes of a failed ALARM_ACTION. -/
def restrictAction : FuseField → Option Nat
  | .alarmAction a b => some (max a b)
  | _ => none
/-- ALARM_ACTION as read. -/
def State.alarmAction (s : State) : Nat := (s.sec.restrict.findSome? restrictAction).getD s.part.alarmAction
/-- A failed START_MODE. -/
def isStartMode : FuseField → Bool
  | .startMode _ _ => true
  | _ => false
/-- START_MODE as read: sequenced, the more restrictive start, where the field fails (notes/assumptions/38.md). -/
def State.startMode (s : State) : Nat := if s.sec.restrict.any isStartMode then 2 else s.part.startMode
/-- KEY_VALID of a slot as read: 0 where the field or the slot's key hash fails. -/
def State.slotValid (s : State) (i : Nat) : Bool :=
  s.part.keyValid.getLsbD i && !s.sec.restrict.contains (.keyValid i) && !s.sec.restrict.contains (.fwkeyHash i)
/-- Hash of a firmware key slot. -/
def State.keyHash (s : State) (i : Nat) : W256 := if i = 0 then s.part.fwHash0 else s.part.fwHash1

end Sys2Proof.Machine
end

