-- ==== Sys2Proof/Machine/Flags.lean ====
section
/-! DEFINITION. The status and control words of the set-up registers, flag by flag (spec 14 R349 to R364). -/

namespace Sys2Proof.Machine

/-- HIF_STATUS (R349). -/
def State.hifStatus (s : State) : Nat :=
  putBits (b2n s.hif.mgmtRun) 31 31 + putBits (b2n s.time.tclkLost) 30 30 + putBits (b2n s.hif.bootWait) 29 29

/-- HIF_RING_CTRL (R350). -/
def RingPair.ctrl (r : RingPair) : Nat :=
  putBits (b2n r.enable) 31 31 + putBits (b2n r.priv) 30 30 + putBits (b2n r.pasidEn) 29 29 + putBits (b2n r.overflow) 28 28 +
  putBits (b2n r.draining) 27 27 + putBits r.cqLog2 24 20 + putBits r.sqLog2 19 15 + putBits r.tenant 11 0

/-- CAD_STATE (R356). -/
def State.cadState (s : State) : Nat :=
  let c := s.caddy
  let scrub := s.longOps.any fun p => p.2.kind = .scrub
  let idle := if c.armed.isSome then 2 else if (c.bank c.idle).built then 1 else 0
  putBits (b2n scrub) 5 5 + putBits (b2n s.building) 4 4 + putBits idle 3 2 + putBits c.active 1 0

/-- Code of a role (R357). -/
def roleCode : Role → Nat
  | .worker => 0 | .manager => 1 | .standby => 2

/-- FAB_DOMAIN (R357). -/
def Domain.stateWord (d : Domain) : Nat :=
  putBits (domCode d.state) 31 30 + putBits (roleCode d.role) 29 28 + putBits (b2n d.conflictFlag) 27 27 +
  putBits (b2n d.membershipChanged) 26 26 + putBits d.mgrPrio 25 24 + putBits d.manager 23 16 + putBits d.node 15 8

/-- LNK_CTRL (R359). -/
def Link.ctrl (k : Link) : Nat := putBits (b2n k.enable) 31 31 + putBits k.port 27 24 + putBits k.classAllow.toNat 18 16

/-- LNK_STATUS (R359). -/
def Link.status (k : Link) : Nat :=
  putBits (b2n k.isUp) 31 31 + putBits k.cls 29 28 + putBits k.lanes 27 24 + putBits k.peerNode 23 16 + putBits k.peerLink 15 8

/-- PWR_LIMIT (R360). -/
def Power.limitWord (p : Power) : Nat := putBits p.source 18 16 + putBits p.limit 15 0

/-- PWR_STATUS (R360). -/
def Power.status (p : Power) : Nat :=
  putBits (b2n p.thermal) 4 4 + putBits (b2n p.brakeHeld) 3 3 + putBits (b2n p.brake) 2 2 +
  putBits (b2n p.clamped) 1 1 + putBits (b2n p.capLag) 0 0

/-- SEC_FUSE (R362). -/
def State.secFuse (s : State) : Nat :=
  putBits (b2n s.debugLock) 31 31 + putBits (b2n s.trustedOk) 30 30 + putBits s.alarmAction 29 28 + putBits s.startMode 27 26 +
  putBits (b2n (s.slotValid 1)) 25 25 + putBits (b2n (s.slotValid 0)) 24 24 + putBits s.part.rollback 5 0

/-- SEC_ALARM (R362). -/
def State.secAlarm (s : State) : Nat :=
  putBits (b2n s.caddy.erased) 9 9 + putBits (b2n s.sec.locked) 8 8 + putBits s.sec.sources.toNat 4 0

/-- ERR_RING_CTRL (R364). -/
def Err.ringCtrl (e : Err) : Nat :=
  putBits (b2n e.ringEn) 31 31 + putBits (b2n e.ringPasidEn) 30 30 + putBits e.ringLog2 24 20 + putBits e.ringVector 10 0

end Sys2Proof.Machine
end

