-- ==== Sys2Proof/Machine/RegMap.lean ====
section
/-! DEFINITION. The BAR0 map: what every set-up register reads as, and reads of wide registers (spec 14 R344 to
R364, spec 02 R49). -/

namespace Sys2Proof.Machine

/-- Highest junction temperature in degrees Celsius; 0 before the first reading (R360). -/
def topTemp (t : TempMeas) : Nat := (((t.compute ++ t.io ++ t.base ++ t.caddy).flatten.max?).getD 0).toNat


/-- A register: offset of its lowest word, its words, and its value in force. -/
structure Reg where
  base : Nat
  words : Nat
  value : Nat
  deriving DecidableEq, Repr

/-- A 32-bit register. -/
def r32 (off v : Nat) : Reg := ⟨off, 1, v⟩
/-- The register of `n` words that holds an offset, whose base is a multiple of its size from `b`. -/
def rWide (off b n v : Nat) : Reg := ⟨b + (off - b) / (4 * n) * (4 * n), n, v⟩

/-! ## Identification and rings (R349, R350) -/

/-- The first page of BAR0 (R349). -/
def State.hifReg (s : State) (off : Nat) : Reg :=
  let h := s.hif
  if off = 0x00 then r32 off 0x1F4C0A48
  else if off = 0x04 then r32 off (putBits s.part.links 23 16 + putBits s.part.stacks 15 8 + putBits s.part.ioDies 7 4 + putBits s.part.variant 3 0)
  else if off = 0x08 then r32 off (putBits s.part.stepMajor 15 8 + putBits s.part.stepMinor 7 0)
  else if off = 0x0C then r32 off h.fwVer.toNat
  else if off = 0x10 then r32 off s.hifStatus
  else if 0x18 ≤ off && off < 0x20 then ⟨0x18, 2, s.now.toNat⟩
  else if off = 0x20 then r32 off (putBits h.refReason 31 28 + putBits h.refOffset 23 0)
  else if off = 0x24 then r32 off h.refCnt.toNat
  else if 0x28 ≤ off && off < 0x30 then ⟨0x28, 2, h.backlogBase.toNat⟩
  else if 0x30 ≤ off && off < 0x38 then ⟨0x30, 2, h.backlogSize.toNat⟩
  else if off = 0x38 then r32 off h.bootLength
  else r32 off 0

/-- A ring pair's registers, by offset from their base (R350). -/
def State.ringReg (s : State) (off : Nat) : Reg :=
  let n := (off - 0x10000) / 0x40
  let o := (off - 0x10000) % 0x40
  let r := s.ring n
  if o = 0x00 then r32 off r.ctrl
  else if o = 0x04 then r32 off r.pasid
  else if 0x08 ≤ o && o < 0x10 then rWide off 0x10000 2 r.sqBase.toNat
  else if 0x10 ≤ o && o < 0x18 then rWide off 0x10000 2 r.cqBase.toNat
  else if 0x18 ≤ o && o < 0x20 then rWide off 0x10000 2 r.shadow.toNat
  else if o = 0x20 then r32 off (putBits r.vector 26 16 + putBits r.modCount 8 0)
  else if o = 0x24 then r32 off r.modTime
  else if o = 0x28 then r32 off r.sqHead
  else if o = 0x2C then r32 off r.cqTail
  else if 0x30 ≤ o && o < 0x38 then rWide off 0x10000 2 r.drop.toNat
  else r32 off 0

/-! ## Serving and routing (R352, R353) -/

/-- Serving registers (R352). -/
def State.serveReg (s : State) (off : Nat) : Reg :=
  let v := s.serve
  let w := v.written
  let o := off - 0x100000
  if o = 0x00 then r32 off w.lineBudget
  else if o = 0x04 then r32 off w.chunkLen
  else if o = 0x08 then r32 off w.predBase
  else if o = 0x0C then r32 off w.predLine
  else if o = 0x10 then r32 off w.predKey
  else if o = 0x14 then r32 off w.draftMax
  else if o = 0x18 then r32 off v.steepTime.toNat
  else if 0x20 ≤ o && o < 0x60 then
    rWide off 0x100000 2 (([v.goalMiss, v.deferred, v.draftProposed, v.draftAccepted, v.draftSteeps, v.draftOffs, v.draftProbes,
      v.draftProbeWins].getD ((o - 0x20) / 8) 0).toNat)
  else r32 off 0

/-- KV pool registers of a class (R353). -/
def State.kvReg (s : State) (off : Nat) : Reg :=
  let c := (off - 0x101000) / 0x40
  let o := (off - 0x101000) % 0x40
  let p := s.pool c
  if o < 0x08 then rWide off 0x101000 2 p.frameBase.toNat
  else if o = 0x08 then r32 off p.setFrames
  else if o = 0x0C then r32 off p.frames
  else if 0x10 ≤ o && o < 0x18 then rWide off 0x101000 2 p.listBase.toNat
  else if o = 0x18 then r32 off p.setBlocks
  else if o = 0x1C then r32 off p.blocks
  else if o = 0x20 then r32 off (s.freeFrames c)
  else if o = 0x24 then r32 off (s.freeBlocks c)
  else r32 off 0

/-- Routing registers (R352). -/
def State.rteReg (s : State) (off : Nat) : Reg :=
  let r := s.rte
  rWide off 0x110000 2 (([r.recvBase, r.recvSize, r.discOld, r.discClosed, r.discFailed, r.discInvalid, r.discDup].getD
    ((off - 0x110000) / 8) 0).toNat)

/-! ## Memory and caddy (R354 to R356) -/

/-- Memory registers (R354). -/
def State.memReg (s : State) (off : Nat) : Reg :=
  let m := s.mem
  let o := off - 0x120000
  let w := fun v => rWide off 0x120000 2 v
  if o = 0x00 then r32 off m.sliceShared
  else if o = 0x04 then r32 off m.sliceLocal
  else if o = 0x08 then r32 off m.sliceSpare
  else if o = 0x0C then r32 off m.streamGranules
  else if 0x10 ≤ o && o < 0x18 then w m.poolBase.toNat
  else if 0x18 ≤ o && o < 0x20 then w m.poolSize.toNat
  else if o = 0x20 then r32 off m.scrubPeriod
  else if o = 0x24 then r32 off m.genCurrent.toNat
  else if o = 0x28 then r32 off (putBits m.copy1 7 4 + putBits m.copy0 3 0)
  else if 0x40 ≤ o && o < 0x48 then w m.sharedWays.toNat
  else if 0x48 ≤ o && o < 0x50 then w s.sharedSize
  else if o = 0x50 then r32 off s.sharedChans.length
  else if 0x80 ≤ o && o < 0xC0 then ⟨0x120080, 16, s.chLost.toNat⟩
  else if 0x100 ≤ o && o < 0x180 then w (s.localSize ((o - 0x100) / 8))
  else if 0x200 ≤ o && o < 0x280 then w (s.classSize ((o - 0x200) / 8))
  else if 0x280 ≤ o && o < 0x300 then w (m.classWays.get 0 ((o - 0x280) / 8)).toNat
  else if 0x400 ≤ o && o < 0x800 then rWide off 0x120000 16 (m.classCh.get 0 ((o - 0x400) / 0x40)).toNat
  else r32 off 0

/-- Free spares of a bank on a die (R356). -/
def Caddy.freeSpares (c : Caddy) (b die : Nat) : Nat :=
  let used := ((c.bank b).map_ die).sparesUsed
  ((List.range (63 - used)).filter fun i => !c.lostSegs.contains (die, bankFirst b + 1472 + used + i)).length

/-- Caddy registers (R356). -/
def State.cadReg (s : State) (off : Nat) : Reg :=
  let c := s.caddy
  let o := off - 0x130000
  if o = 0x00 then r32 off s.cadState
  else if o = 0x04 then r32 off c.bankA.shown.toNat
  else if o = 0x08 then r32 off c.bankB.shown.toNat
  else if o = 0x0C then r32 off c.buildRate
  else if o = 0x10 then r32 off c.scrubRate
  else if o = 0x14 then r32 off (putBits (c.freeSpares 1 1) 29 24 + putBits (c.freeSpares 1 0) 21 16 +
    putBits (c.freeSpares 0 1) 13 8 + putBits (c.freeSpares 0 0) 5 0)
  else if o = 0x18 then r32 off c.lostSegs.length
  else if 0x20 ≤ o && o < 0x28 then ⟨0x130020, 2, c.lastSeq.getD 0⟩
  else if 0x40 ≤ o && o < 0x60 then ⟨0x130040, 8, c.bankA.digest.toNat⟩
  else if 0x60 ≤ o && o < 0x80 then ⟨0x130060, 8, c.bankB.digest.toNat⟩
  else r32 off 0

/-! ## Domain, links, power, security, debug, errors (R357 to R364) -/

/-- Domain and fabric registers (R357). -/
def State.fabReg (s : State) (off : Nat) : Reg :=
  let d := s.dom
  let o := off - 0x140000
  if o = 0x00 then r32 off d.stateWord
  else if o = 0x04 then r32 off (nodesOf d.members).length
  else if o = 0x08 then r32 off (b2n d.trustedEn)
  else if 0x20 ≤ o && o < 0x40 then ⟨0x140020, 8, d.members.toNat⟩
  else if o = 0x40 then r32 off d.exportSel
  else if 0x60 ≤ o && o < 0x80 then ⟨0x140060, 8, d.exportData.toNat⟩
  else r32 off 0

/-- Link registers (R359). -/
def State.lnkReg (s : State) (off : Nat) : Reg :=
  let l := (off - 0x150000) / 0x20
  let o := (off - 0x150000) % 0x20
  let k := s.link l
  if s.part.links ≤ l then r32 off 0
  else if o = 0x00 then r32 off k.ctrl
  else if o = 0x04 then r32 off k.status
  else if 0x08 ≤ o && o < 0x10 then rWide off 0x150000 2 k.retries.toNat
  else if o = 0x10 then r32 off k.downs.toNat
  else r32 off 0

/-- SYN_MBOX_PENDING (R359). -/
def State.mboxPending (s : State) : Nat :=
  (List.range 64).foldl (fun v m => if s.syncPresent && s.mailPending m then v + 2 ^ m else v) 0

/-- Power registers (R360). -/
def State.pwrReg (s : State) (off : Nat) : Reg :=
  let p := s.pwr
  let o := off - 0x170000
  let c := fun i => putBits (p.chatter.getD i 0) (8 * i + 7) (8 * i)
  r32 off <|
    if o = 0x00 then p.cap
    else if o = 0x04 then p.rackCap
    else if o = 0x08 then p.limitWord
    else if o = 0x0C then p.status
    else if o = 0x10 then putBits p.input 15 0
    else if o = 0x14 then putBits (topTemp p.temps) 7 0
    else if o = 0x18 then c 3 + c 2 + c 1 + c 0
    else if 0x20 ≤ o && o < 0x30 then putBits (p.beatRate.getD ((o - 0x20) / 4) 0) 15 0
    else 0

/-- Security registers (R362). -/
def State.secReg (s : State) (off : Nat) : Reg :=
  let o := off - 0x180000
  if o = 0x00 then r32 off s.secFuse
  else if o = 0x04 then r32 off s.secAlarm
  else if 0x20 ≤ o && o < 0x40 then ⟨0x180020, 8, s.part.fwHash0.toNat⟩
  else if 0x40 ≤ o && o < 0x60 then ⟨0x180040, 8, s.part.fwHash1.toNat⟩
  else r32 off 0

/-- Error ring and log registers (R364). -/
def State.errReg (s : State) (off : Nat) : Reg :=
  let e := s.err
  let o := off - 0x190000
  if o < 0x08 then ⟨0x190000, 2, e.ringBase.toNat⟩
  else if o = 0x08 then r32 off e.ringCtrl
  else if o = 0x0C then r32 off e.ringPasid
  else if o = 0x14 then r32 off e.ringLost.toNat
  else if o = 0x18 then r32 off (e.total.toNat % 256)
  else if o = 0x1C then r32 off e.total.toNat
  else if 0x40 ≤ o && o < 0x80 then ⟨0x190040, 16, e.data.toNat⟩
  else r32 off 0

/-- Debug registers (R363). -/
def State.dbgReg (s : State) (off : Nat) : Reg :=
  let o := off - 0x1A0000
  if o = 0x00 then r32 off (b2n s.start.jtagEn)
  else if 0x40 ≤ o && o < 0x60 then rWide off 0x1A0040 2 (s.comp.coreLost.get 0 ((o - 0x40) / 8)).toNat
  else if 0x60 ≤ o && o < 0xA0 then rWide off 0x1A0060 4 (s.comp.tileLost.get 0 ((o - 0x60) / 16)).toNat
  else r32 off 0

/-- The register that holds a word of BAR0; an unimplemented offset reads 0 (R317, R348). -/
def State.regAt (s : State) (off : Nat) : Reg :=
  if off < 0x1000 then s.hifReg off
  else if 0x10000 ≤ off && off < 0x90000 then s.ringReg off
  else if 0x100000 ≤ off && off < 0x101000 then s.serveReg off
  else if 0x101000 ≤ off && off < 0x101400 then s.kvReg off
  else if 0x110000 ≤ off && off < 0x110038 then s.rteReg off
  else if 0x120000 ≤ off && off < 0x120800 then s.memReg off
  else if 0x130000 ≤ off && off < 0x130100 then s.cadReg off
  else if 0x140000 ≤ off && off < 0x140100 then s.fabReg off
  else if 0x150000 ≤ off && off < 0x150900 then s.lnkReg off
  else if 0x160000 ≤ off && off < 0x160008 then ⟨0x160000, 2, s.mboxPending⟩
  else if 0x170000 ≤ off && off < 0x170100 then s.pwrReg off
  else if 0x180000 ≤ off && off < 0x180100 then s.secReg off
  else if 0x190000 ≤ off && off < 0x190100 then s.errReg off
  else if 0x1A0000 ≤ off && off < 0x1A0100 then s.dbgReg off
  else if 0x800000 ≤ off && off < 0x1000000 then r32 off (Memory.num s.hif.bootWin (off - 0x800000) 4)
  else r32 off 0

/-- Word `i` of a register. -/
def Reg.word (r : Reg) (i : Nat) : Word := BitVec.ofNat 32 (r.value / 2 ^ (32 * i))

/-! ## Reads (R49, R344) -/

/-- What the latch of a word holds before a read of its lowest word: its reset value, which start-up keeps for
the registers that it sets (R344). -/
def State.latched (s : State) (off : Nat) : Word :=
  match s.hif.latch.find? off with
  | some w => w
  | none =>
    if off = 0x120044 then 0xFFFFFFFF
    else if 0x180020 ≤ off && off < 0x180060 then (s.regAt off).word ((off - (s.regAt off).base) / 4)
    else 0

/-- Latch the words of a register above word `k`. -/
def State.latchAbove (s : State) (r : Reg) (k : Nat) : State :=
  { s with hif := { s.hif with latch := (List.range r.words).foldl (fun t i =>
      if k < i then t.set (r.base + 4 * i) (r.word i) else t) s.hif.latch } }

/-- The words of registers that start-up has set are latched as their reset values. -/
def State.latchStart (s : State) (offs : List Nat) : State := offs.foldl (fun s o => s.latchAbove (s.regAt o) 0) s

/-- One 32-bit word of BAR0 as a read of `n` words from its own offset returns it: in force where the read covers the
register's lowest word, else latched. -/
def State.readWord (s : State) (first off : Nat) : Word :=
  let r := s.regAt off
  if r.words = 1 || first ≤ r.base then r.word ((off - r.base) / 4) else s.latched off

/-- An access that R317 ignores: not 32 or 64 bits, or not aligned to its size. -/
def badAccess (off size : Nat) : Bool := !((size = 4 || size = 8) && off % size = 0)

/-- The corrected record of an ignored access (R317). -/
def State.barAccess (s : State) : State := s.note { status := 0x0204, cls := 0, unit := 9, pos := 1 }

/-- A read of BAR0: the value, and the words above latched where it covers the lowest word of a wide register. -/
def State.barRead (s : State) (off size : Nat) : DWord × State :=
  let lo := s.readWord off off
  let hi := if size = 8 then s.readWord off (off + 4) else 0
  let r := s.regAt off
  let s := if off = r.base && 1 < r.words then s.latchAbove r (size / 4 - 1) else s
  (BitVec.ofNat 64 (lo.toNat + hi.toNat * 2 ^ 32), s)

/-- LOW_WORD_READ: a host read of BAR0 is answered, with the latching of R344 and R49; an ignored one returns 0. -/
def execLowWordRead (off size : Nat) (s : State) : Host.Outcome State Fault Refusal :=
  act s.hostUp s fun s =>
    if badAccess off size then s.barAccess.emit (.readData 0)
    else
      let r := s.barRead off size
      r.2.emit (.readData r.1)

end Sys2Proof.Machine
end

