-- ==== Sys2Proof/Machine/Boot.lean ====
section
/-! DEFINITION. Firmware images and the boot ROM's verdict on them (spec 20 R499 to R501, spec 21 R526, R528). -/

namespace Sys2Proof.Machine

/-- Bytes of the header; the body follows (R499). -/
def fwHeader : Nat := 3200
/-- The whole image: header and BODY_LENGTH bytes (R499). -/
def fwLength (b : List Byte) : Nat := fwHeader + leAt b 16 8
/-- Every reserved field of the header is 0 (R499). -/
def fwRsvdOk (b : List Byte) : Bool :=
  bits (leAt b 8 4) 31 9 = 0 && bits (leAt b 8 4) 7 6 = 0 && bits (leAt b 12 4) 31 1 = 0 &&
  leAt b 24 40 = 0 && leAt b 1857 63 = 0
/-- COMMIT_SVN, SVN and KEY_SLOT of the header (R499). -/
def fwCommit (b : List Byte) : Bool := bit (leAt b 8 4) 8
def fwSvn (b : List Byte) : Nat := bits (leAt b 8 4) 5 0
def fwSlot (b : List Byte) : Nat := bits (leAt b 12 4) 0 0
/-- Header bytes 0 to 1,919 and the body: what is signed and measured (R500, R505). -/
def fwSigned (b : List Byte) : List Byte := bytesAt b 0 1920 ++ bytesAt b fwHeader (leAt b 16 8)

/-- Every check of R500 but the last. The whole image is there and at most 8 MiB. -/
def State.fwAuthentic (s : State) (b : List Byte) : Bool :=
  leAt b 0 4 = 0x57465154 && fwRsvdOk b && fwLength b ≤ 0x800000 && fwLength b ≤ b.length &&
  s.slotValid (fwSlot b) && Config.shake256 (bytesAt b 64 1793) = s.keyHash (fwSlot b) &&
  Config.falconVerify (bytesAt b 64 1793) (Config.shake512 (fwSigned b)) (bytesAt b 1920 1280)

/-- Status that a source reports: 0 where its image may run; an absent source counts as SEC_IMAGE_SIG (R500, R526). -/
def State.fwStatus (s : State) (image : Option (List Byte)) : Nat :=
  match image with
  | none => 0x0804
  | some b => if !s.fwAuthentic b then 0x0804 else if fwSvn b < s.part.rollback then 0x0805 else 0

/-- Run an image: ROLLBACK advances first where it asks for it (R501); the processor runs, enabled links train and
the package's tests and caddy open follow (R349, R369, R525). -/
def State.runImage (s : State) (b : List Byte) : State :=
  let svn := fwSvn b
  let s := if fwCommit b && s.part.rollback < svn then { s with part := { s.part with rollback := svn } } else s
  let h := s.hif
  let s := { s with hif := { h with
    mgmtRun := true
    bootWait := false
    fwVer := BitVec.ofNat 32 (leAt b 4 4)
    fwDigest := Config.shake256 (fwSigned b) } }
  let s := { s with start := { s.start with served := s.now } }
  { s with links := s.linkList.foldl (fun t l =>
      let k := t.get ({} : Link) l
      t.set l { k with train := if k.enable then .training else k.train }) s.links }

/-- A refused image: its record, and the next source; after the SPI sources the boot ROM waits (R526). -/
def State.refuseImage (s : State) (status : Nat) : State :=
  let next := s.start.bootSource + 1
  let s := s.note { status := status, cls := 0, unit := 9, pos := 2 }
  if 2 ≤ next then { s with start := { s.start with bootSource := 2 }, hif := { s.hif with bootWait := true } }
  else { s with start := { s.start with bootSource := next } }

/-- A source is read: its image runs or is refused. -/
def State.tryImage (s : State) (image : Option (List Byte)) : State :=
  let st := s.fwStatus image
  if st = 0 then s.runImage (image.getD []) else s.refuseImage st

/-- The boot ROM runs: rails up, no firmware, no lock. -/
def State.booting (s : State) : Bool := s.powered && !s.sec.locked && !s.hif.mgmtRun && !s.start.mgmtReset && !s.start.mgmtHeld

/-- A GO of HIF_BOOT: the first LENGTH bytes of the window are the image (R526, R528). -/
def State.bootGo (s : State) (v : Word) : State :=
  let n := bits v.toNat 23 0
  s.regWrite 0x38 (!s.hif.bootWait) false (0x800000 < n) fun s =>
    let s := { s with hif := { s.hif with bootLength := n, bootWait := false } }
    s.tryImage (some (Memory.read s.hif.bootWin 0 n))

end Sys2Proof.Machine
end

