-- ==== Sys2Proof/Machine/SetUp.lean ====
section
/-! DEFINITION. Writes of set-up registers: refusals, staging, commits and what each write does (spec 14). -/

namespace Sys2Proof.Machine

/-! ## Staging of 64-bit registers (R344) -/

/-- Discard a staged word. -/
def State.unstage (s : State) (off : Nat) : State := { s with hif := { s.hif with staged := s.hif.staged.erase off } }
/-- Stage a word. -/
def State.stage (s : State) (off : Nat) (v : Word) : State := { s with hif := { s.hif with staged := s.hif.staged.set off v } }

/-- A write of a 64-bit register: whole, its low word staged, or its high word applied with the low word staged or in
force. Refusals for the state and for use come at every write, for the value at the one that applies it. -/
def State.write64 (s : State) (off size : Nat) (v : DWord) (state busy : Bool) (range : DWord → Bool) (put : DWord → State → State) :
    State :=
  let r := s.regAt off
  if size = 8 then s.regWrite off state busy (range v) fun s => (put v s).unstage r.base
  else if off = r.base then s.regWrite off state busy false fun s => s.stage off (v.setWidth 32)
  else
    let low := (s.hif.staged.find? r.base).getD (r.word 0)
    let full : DWord := BitVec.ofNat 64 (low.toNat + v.toNat % 2 ^ 32 * 2 ^ 32)
    (s.regWrite off state busy (range full) (put full)).unstage r.base

/-! ## Identification and host interface (R349) -/

/-- Some ring pair's ENABLE reads 1. -/
def State.anyRing (s : State) : Bool := s.rings.any fun p => p.2.enable

/-- A 64 KiB aligned backlog of whole 64 KiB units, at most 4 GiB, inside the shared region (R349). -/
def State.backlogBad (s : State) (base size : Nat) : Bool :=
  base % 0x10000 != 0 || size % 0x10000 != 0 || 0x100000000 < size || s.sharedSize < base + size

/-- Writes of the first page of BAR0 (R349). -/
def State.writeHif (s : State) (off size : Nat) (v : DWord) : State :=
  if 0x28 ≤ off && off < 0x30 then
    s.write64 off size v false s.anyRing (fun b => s.backlogBad b.toNat s.hif.backlogSize.toNat)
      fun b s => { s with hif := { s.hif with backlogBase := b } }
  else if 0x30 ≤ off && off < 0x38 then
    s.write64 off size v false s.anyRing (fun z => s.backlogBad s.hif.backlogBase.toNat z.toNat)
      fun z s => { s with hif := { s.hif with backlogSize := z } }
  else if off = 0x38 then
    if v.getLsbD 31 then s.bootGo (v.setWidth 32)
    else s.regWrite off (!s.hif.bootWait) false (0x800000 < bits v.toNat 23 0) fun s =>
      { s with hif := { s.hif with bootLength := bits v.toNat 23 0 } }
  else s

/-- Bytes of an image into the boot window (R349, R528). -/
def State.writeBoot (s : State) (off : Nat) (v : Word) : State :=
  s.regWrite off (!s.hif.bootWait) false false fun s =>
    { s with hif := { s.hif with bootWin := Memory.write s.hif.bootWin (off - 0x800000) (leBytes 4 v.toNat) } }

/-! ## Ring pairs (R319, R350, R351) -/

/-- The fields of HIF_RING_CTRL other than ENABLE, OVERFLOW and DRAINING as a write gives them. -/
def RingPair.withCtrl (r : RingPair) (v : Nat) : RingPair :=
  { r with
    priv := bit v 30
    pasidEn := bit v 29
    cqLog2 := bits v 24 20
    sqLog2 := bits v 19 15
    tenant := bits v 11 0 }

/-- A write of 1 to OVERFLOW clears it (R10, R350). -/
def RingPair.clearOverflow (r : RingPair) (v : Nat) : RingPair := { r with overflow := r.overflow && !bit v 28 }

/-- The fields that an enable checks are out of range or misaligned (R351). -/
def RingPair.badEnable (r : RingPair) : Bool :=
  !(6 ≤ r.cqLog2 && r.cqLog2 ≤ 20 && 4 ≤ r.sqLog2 && r.sqLog2 ≤ 16 && r.vector < 2048 && 1 ≤ r.modCount && r.modCount ≤ 256 &&
    r.sqBase.toNat % 4096 = 0 && r.cqBase.toNat % 4096 = 0 && r.shadow.toNat % 8 = 0)

/-- A pair just enabled: heads and tails 0, phase 1, armed (R319, R326). -/
def RingPair.started (r : RingPair) : RingPair :=
  { r with
    enable := true
    draining := false
    sqHead := 0
    sqTail := 0
    cqHead := 0
    cqTail := 0
    phase := true
    reserved := 0
    unread := []
    armed := true
    stopped := false
    backlog := [] }

/-- ENABLE written as 0: no further descriptor is read, and every SYNC_WAIT of the pair ends with SYNC_ABORTED (R319). -/
def State.disableRing (s : State) (n : Nat) : State :=
  let s := s.onRing n fun r => { r with draining := true }
  (s.waiting.filter fun w => w.ring = n && w.what.object.isSome).foldl (fun s w => s.endWait w 0x0561) s

/-- A write of HIF_RING_CTRL (R346, R350, R351, R515). -/
def State.writeRingCtrl (s : State) (n : Nat) (v : Nat) : State :=
  let off := 0x10000 + n * 0x40
  let r := s.ring n
  let on := bit v 31
  match s.blocked with
  | some k => s.refuseWrite k off
  | none =>
    if r.enable then
      if on && s.trayHeld then s.refuseWrite 2 off
      else if on && r.draining then s.refuseWrite 3 off
      else
        let differ := r.withCtrl v != r
        let s := s.setRing n (r.clearOverflow v)
        let s := if !on && !r.draining then s.disableRing n else s
        if differ then s.refuseWrite 3 off else s
    else
      let r' := (r.withCtrl v).clearOverflow v
      if !on then s.setRing n r'
      else if s.trayHeld then s.refuseWrite 2 off
      else if r'.overflow then s.refuseWrite 3 off
      else if r'.badEnable then s.refuseWrite 1 off
      else s.setRing n r'.started

/-- Writes of a ring pair's registers, by offset from their base (R350, R351). -/
def State.writeRing (s : State) (off size : Nat) (v : DWord) : State :=
  let n := (off - 0x10000) / 0x40
  let o := (off - 0x10000) % 0x40
  let busy := (s.ring n).enable
  let any : DWord → Bool := fun _ => false
  if o = 0x00 then s.writeRingCtrl n (v.toNat % 2 ^ 32)
  else if o = 0x04 then s.regWrite off false busy false fun s => s.onRing n fun r => { r with pasid := bits v.toNat 19 0 }
  else if 0x08 ≤ o && o < 0x10 then s.write64 off size v false busy any fun b s => s.onRing n fun r => { r with sqBase := b }
  else if 0x10 ≤ o && o < 0x18 then s.write64 off size v false busy any fun b s => s.onRing n fun r => { r with cqBase := b }
  else if 0x18 ≤ o && o < 0x20 then s.write64 off size v false busy any fun b s => s.onRing n fun r => { r with shadow := b }
  else if o = 0x20 then s.regWrite off false busy false fun s =>
    s.onRing n fun r => { r with vector := bits v.toNat 26 16, modCount := bits v.toNat 8 0 }
  else if o = 0x24 then s.regWrite off false busy (1000 < bits v.toNat 9 0) fun s =>
    s.onRing n fun r => { r with modTime := bits v.toNat 9 0 }
  else if busy && o < 0x38 then s.refuseWrite 3 off
  else s

/-- RING_ENABLE: HIF_RING_CTRL written with ENABLE 1. -/
def execRingEnable (n : Nat) (v : Word) (s : State) : Host.Outcome State Fault Refusal :=
  act (s.hostUp && n < 8192 && v.getLsbD 31) s fun s => s.writeRingCtrl n v.toNat

/-- RING_DISABLE: HIF_RING_CTRL written with ENABLE 0. -/
def execRingDisable (n : Nat) (v : Word) (s : State) : Host.Outcome State Fault Refusal :=
  act (s.hostUp && n < 8192 && !v.getLsbD 31) s fun s => s.writeRingCtrl n v.toNat

/-- OVERFLOW_CLEAR: HIF_RING_CTRL written with 1 in OVERFLOW. -/
def execOverflowClear (n : Nat) (v : Word) (s : State) : Host.Outcome State Fault Refusal :=
  act (s.hostUp && n < 8192 && v.getLsbD 28) s fun s => s.writeRingCtrl n v.toNat

/-- A pair whose ENABLE comes to read 0: what its backlog still holds is discarded and counted (R319). -/
def State.closeRing (s : State) (n : Nat) : State :=
  s.onRing n fun r => { r with
    enable := false
    draining := false
    backlog := []
    drop := r.drop + BitVec.ofNat 64 r.backlog.length }

/-- A ring pair index that no pair has: what goes on without a pair to report to keeps it. -/
def noRing : Nat := 8192

/-- Long operations of a pair that is gone go on, and their records are discarded (R319). -/
def State.orphanOps (s : State) (n : Nat) : State :=
  { s with longOps := s.longOps.mapVals fun _ o => if o.ring = n then { o with ring := noRing } else o }

/-- RING_DRAIN_COMPLETE: every accepted descriptor other than a long operation has completed (R319). -/
def execRingDrainComplete (n : Nat) (s : State) : Host.Outcome State Fault Refusal :=
  act (s.powered && n < 8192 && (s.ring n).draining && (s.ring n).open_ = 0) s fun s => ((s.orphanOps n).closeRing n).settleCloses

/-! ## Serving and routing (R211, R352, R353) -/

/-- A serving limit takes its value; it is in force from the next cut, at once where no steeps run (R26, R211). -/
def State.setLimits (s : State) (f : Limits → Limits) : State :=
  let w := f s.serve.written
  { s with serve := { s.serve with written := w, inForce := if s.noSteeps then w else s.serve.inForce } }

/-- Writes of the serving registers (R352). -/
def State.writeServe (s : State) (off : Nat) (v : Word) : State :=
  let o := off - 0x100000
  let w := v.toNat
  if o = 0x00 then s.regWrite off false false (!(1024 ≤ bits w 18 0 && bits w 18 0 ≤ 262144)) fun s =>
    s.setLimits fun l => { l with lineBudget := bits w 18 0 }
  else if o = 0x04 then
    s.regWrite off false false (!(128 ≤ bits w 14 0 && bits w 14 0 ≤ 16384 && bits w 14 0 % 128 = 0)) fun s =>
      s.setLimits fun l => { l with chunkLen := bits w 14 0 }
  else if o = 0x08 then s.regWrite off false false false fun s => s.setLimits fun l => { l with predBase := w }
  else if o = 0x0C then s.regWrite off false false false fun s => s.setLimits fun l => { l with predLine := w }
  else if o = 0x10 then s.regWrite off false false false fun s => s.setLimits fun l => { l with predKey := w }
  else if o = 0x14 then s.regWrite off false false (8 < bits w 3 0) fun s => s.setLimits fun l => { l with draftMax := bits w 3 0 }
  else s

/-- A tenant of the class has sequences open (R225, R353). -/
def State.classOpen (s : State) (c : Nat) : Bool := s.eng.tenants.any fun p => p.2.valid && p.2.cls = c && p.2.openSeqs != 0

/-- The frame or list area leaves the class region, is misaligned, or the two overlap (R353). An empty area lies
nowhere. -/
def State.poolBad (s : State) (c : Nat) (p : KvPool) : Bool :=
  let base := (Window.cls c).base
  let top := base + s.classSize c
  let ps := match s.model with | some m => geoPS m.attnGeom | none => 0
  let fb := p.frameBase.toNat
  let lb := p.listBase.toNat
  let fn := p.setFrames * ps
  let ln := p.setBlocks * 256
  fb % 0x10000 != 0 || lb % 256 != 0 || (fn != 0 && !(base ≤ fb && fb + fn ≤ top)) ||
  (ln != 0 && !(base ≤ lb && lb + ln ≤ top)) || meets fb fn lb ln

/-- Writes of a class's KV pool registers; the counts usable follow (R353). -/
def State.writeKv (s : State) (off size : Nat) (v : DWord) : State :=
  let c := (off - 0x101000) / 0x40
  let o := (off - 0x101000) % 0x40
  let p := s.pool c
  let bad := fun f : KvPool → KvPool => s.poolBad c (f p)
  let put := fun (f : KvPool → KvPool) (s : State) =>
    let q := f p
    { s with eng := { s.eng with kv := s.eng.kv.set c { q with frames := q.setFrames, blocks := q.setBlocks } } }
  let state := s.model.isNone
  let busy := s.classOpen c
  let setBase := fun (b : DWord) (q : KvPool) => { q with frameBase := b }
  let setList := fun (b : DWord) (q : KvPool) => { q with listBase := b }
  let setN := fun (q : KvPool) => { q with setFrames := v.toNat % 2 ^ 32 }
  let setB := fun (q : KvPool) => { q with setBlocks := v.toNat % 2 ^ 32 }
  if o < 0x08 then s.write64 off size v state busy (fun b => bad (setBase b)) fun b => put (setBase b)
  else if o = 0x08 then s.regWrite off state busy (bad setN) (put setN)
  else if 0x10 ≤ o && o < 0x18 then s.write64 off size v state busy (fun b => bad (setList b)) fun b => put (setList b)
  else if o = 0x18 then s.regWrite off state busy (bad setB) (put setB)
  else s

/-- A 64-byte aligned receive area inside the shared region (R352). -/
def State.recvBad (s : State) (base size : Nat) : Bool := base % 64 != 0 || size % 64 != 0 || s.sharedSize < base + size

/-- Writes of the routing registers (R352). -/
def State.writeRte (s : State) (off size : Nat) (v : DWord) : State :=
  if off < 0x110008 then
    s.write64 off size v (!s.setUpState) false (fun b => s.recvBad b.toNat s.rte.recvSize.toNat)
      fun b s => { s with rte := { s.rte with recvBase := b } }
  else if off < 0x110010 then
    s.write64 off size v (!s.setUpState) false (fun z => s.recvBad s.rte.recvBase.toNat z.toNat)
      fun z s => { s with rte := { s.rte with recvSize := z } }
  else s

/-! ## Memory (R196, R225, R267, R268, R354, R355) -/

/-- Some object is valid. -/
def State.anyObject (s : State) : Bool := s.mem.objects.any fun p => p.2.valid
/-- Some sequence is open. -/
def State.anySeq (s : State) : Bool := s.eng.seqs.any fun p => p.2.state != .free
/-- A SYNC_WAIT waits or a mailbox holds a notice (R435). -/
def State.syncBusy (s : State) : Bool :=
  (s.waiting.any fun w => w.what.object.isSome) || (s.syncPresent && (List.range 64).any s.mailPending)

/-- The memory block with a slice register's new value, by its offset (R354). -/
def Mem.withSlice (m : Mem) (off u : Nat) : Mem :=
  if off = 0x120000 then { m with sliceShared := u } else if off = 0x120004 then { m with sliceLocal := u } else { m with sliceSpare := u }

/-- What keeps the slices as they are (R268). -/
def State.layoutBusy (s : State) (m : Mem) : Bool :=
  s.model.isSome || s.anySeq || s.anyObject || s.hif.backlogSize != 0 || s.rte.recvSize != 0 ||
  (s.eng.kv.any fun p => p.2 != {}) ||
  (m.poolSize != 0 && State.sharedSize { s with mem := m } < m.poolBase.toNat + m.poolSize.toNat) || s.syncBusy

/-- The slice values are out of range, exceed a channel, or leave a sequence-table copy no room (R196, R267). -/
def State.layoutBad (s : State) (m : Mem) (isLocal : Bool) : Bool :=
  let t := { s with mem := m }
  !(128 ≤ m.sliceShared && m.sliceShared ≤ 1024 && m.sliceLocal ≤ 64 && m.sliceSpare ≤ 128 &&
    m.sliceShared + m.sliceLocal + m.sliceSpare ≤ 1024) ||
  (isLocal && (t.localSize m.copy0 < 0x8000000 || t.localSize m.copy1 < 0x8000000))

/-- Every region is sized and hashed afresh: areas of the package cleared, the rest undefined until written (R268). -/
def State.relayout (s : State) (m : Mem) : State :=
  { s with mem := { m with
      hbm := []
      badBursts := []
      dieStore := []
      granules := [] } }

/-- A write of a slice register (R267, R268). -/
def State.writeSlice (s : State) (off : Nat) (v : Word) : State :=
  let u := if off = 0x120000 then bits v.toNat 10 0 else if off = 0x120004 then bits v.toNat 6 0 else bits v.toNat 7 0
  let m := s.mem.withSlice off u
  s.regWrite off (!(s.dom.state = .bringup || s.dom.state = .test)) (s.layoutBusy m) (s.layoutBad m (off = 0x120004)) fun s => s.relayout m

/-- MEM_SLICE_WRITE: a write of MEM_SLICE_SHARED, MEM_SLICE_LOCAL or MEM_SLICE_SPARE. -/
def execMemSliceWrite (off : Nat) (v : Word) (s : State) : Host.Outcome State Fault Refusal :=
  act (s.hostUp && (off = 0x120000 || off = 0x120004 || off = 0x120008)) s fun s => s.writeSlice off v

/-- The pool is misaligned, below 160 MiB, outside the shared region, or not above the stream buffer (R267). -/
def State.poolAreaBad (s : State) (base size stream : Nat) : Bool :=
  base % 0x10000 != 0 || size % 0x10000 != 0 || s.sharedSize < base + size ||
  (size != 0 && (base < 0x0A000000 || size / 0x10000 ≤ stream))

/-- The migration pool changes; nothing is resident in the new one (R267, R278). -/
def State.setPool (s : State) (base size : DWord) : State :=
  { s with mem := { s.mem with
      poolBase := base
      poolSize := size
      granules := [] } }

/-- A class holds a way, on a die whose shared mask changes, outside the new mask (R267; notes/assumptions/39.md). -/
def State.waysHeld (s : State) (w : DWord) : Bool :=
  (List.range 4).any fun d =>
    let new := bits w.toNat (16 * d + 15) (16 * d)
    new != bits s.mem.sharedWays.toNat (16 * d + 15) (16 * d) &&
    s.mem.classWays.any fun p => bits p.2.toNat (16 * d + 15) (16 * d) &&& (0xFFFF - new) != 0

/-- MEM_SEQ_STACKS names a stack that cannot hold a copy (R196). -/
def State.stacksBad (s : State) (c0 c1 : Nat) : Bool :=
  c0 = 1 || c1 = 1 || c0 = c1 || s.part.stacks ≤ c0 || s.part.stacks ≤ c1 || s.localSize c0 < 0x8000000 || s.localSize c1 < 0x8000000

/-- Place the sequence-table copies, empty (R196). -/
def State.placeCopies (s : State) (c0 c1 : Nat) : State :=
  let clear := fun h c => Memory.clear h (Window.local_ c).base 0x8000000
  { s with
    mem := { s.mem with
      copy0 := c0
      copy1 := c1
      hbm := clear (clear s.mem.hbm c0) c1 }
    eng := { s.eng with
      copy0 := true
      copy1 := true } }

/-- Ways of other classes and, for a class, of the shared regions, meet a mask (R267). -/
def State.waysMeet (s : State) (c : Option Nat) (w : DWord) : Bool :=
  (s.mem.classWays.any fun p => some p.1 != c && p.2 &&& w != 0) || (c.isSome && s.mem.sharedWays &&& w != 0)

/-- Offset of MEM_CLASS_CH of a class (R354). -/
def classChOff (c : Nat) : Nat := 0x120400 + 0x40 * c

/-- The 16 words of a class set: staged words, and words in force where none is staged (R355). -/
def State.stagedSet (s : State) (c : Nat) : W512 :=
  let r := s.regAt (classChOff c)
  BitVec.ofNat 512 ((List.range 16).foldl (fun v i =>
    v + ((s.hif.staged.find? (r.base + 4 * i)).getD (r.word i)).toNat * 2 ^ (32 * i)) 0)

/-- Discard the staged words of a class set. -/
def State.unstageSet (s : State) (c : Nat) : State := (List.range 16).foldl (fun s i => s.unstage (classChOff c + 4 * i)) s

/-- A class set names a channel not usable, or one of another class (R267). -/
def State.setBad (s : State) (c : Nat) (m : W512) : Bool :=
  ((chansOf m).any fun ch => !s.chUsable ch) || s.mem.classCh.any fun p => p.1 != c && p.2 &&& m != 0

/-- A class takes its set: its region is hashed over the new set and undefined until written (R266, R269). -/
def State.setClassCh (s : State) (c : Nat) (m : W512) : State :=
  let b := (Window.cls c).base
  let k := s.mem
  { s with mem := { k with
      classCh := k.classCh.set c m
      hbm := Memory.clearIf k.hbm fun a => b ≤ a && a < b + 0x010000000000
      badBursts := k.badBursts.filter fun x => !(b ≤ x * 64 && x * 64 < b + 0x010000000000)
      dieStore := k.dieStore.filter fun p => !(b ≤ p.2 * 128 && p.2 * 128 < b + 0x010000000000) } }

/-- A write of a word of MEM_CLASS_CH: words 0 to 14 are staged, word 15 commits (R344, R355). -/
def State.writeClassCh (s : State) (off : Nat) (v : Word) : State :=
  let c := (off - 0x120400) / 0x40
  if (off - 0x120400) % 0x40 != 0x3C then s.regWrite off false false false fun s => s.stage off v
  else
    let t := s.stage off v
    let m := t.stagedSet c
    (s.regWrite off false (m != s.mem.classCh.get 0 c && s.classOpen c) (s.setBad c m) fun s =>
      if m = s.mem.classCh.get 0 c then s else s.setClassCh c m).unstageSet c

/-- MEM_CLASS_CH_COMMIT: a write of word 15 of a class set. -/
def execMemClassChCommit (c : Nat) (v : Word) (s : State) : Host.Outcome State Fault Refusal :=
  act (s.hostUp && c < 16) s fun s => s.writeClassCh (classChOff c + 0x3C) v

/-- Writes of the memory registers (R354). -/
def State.writeMem (s : State) (off size : Nat) (v : DWord) : State :=
  let o := off - 0x120000
  let m := s.mem
  let w := v.toNat % 2 ^ 32
  if o < 0x0C then s.writeSlice off (v.setWidth 32)
  else if o = 0x0C then
    let n := bits w 12 0
    s.regWrite off false s.anyObject (!(16 ≤ n && n ≤ 4096) || (m.poolSize != 0 && s.poolGranules ≤ n)) fun s =>
      { s with mem := { s.mem with streamGranules := n } }
  else if 0x10 ≤ o && o < 0x18 then
    s.write64 off size v false s.anyObject
      (fun b => b.toNat < 0x0A000000 || s.poolAreaBad b.toNat m.poolSize.toNat m.streamGranules) fun b s => s.setPool b s.mem.poolSize
  else if 0x18 ≤ o && o < 0x20 then
    s.write64 off size v false s.anyObject (fun z => s.poolAreaBad m.poolBase.toNat z.toNat m.streamGranules)
      fun z s => s.setPool s.mem.poolBase z
  else if o = 0x20 then s.regWrite off false false (!(1 ≤ bits w 7 0 && bits w 7 0 ≤ 168)) fun s =>
    { s with mem := { s.mem with scrubPeriod := bits w 7 0 } }
  else if o = 0x28 then
    s.regWrite off (!s.setUpState) s.anySeq (s.stacksBad (bits w 3 0) (bits w 7 4)) fun s => s.placeCopies (bits w 3 0) (bits w 7 4)
  else if 0x40 ≤ o && o < 0x48 then
    -- The use of ways by classes depends on the value: it is judged where the value applies.
    let r := s.regAt off
    let full : DWord := if size = 8 then v else BitVec.ofNat 64 (((s.hif.staged.find? r.base).getD (r.word 0)).toNat + w * 2 ^ 32)
    s.write64 off size v false ((size = 8 || off != r.base) && s.waysHeld full) (s.waysMeet none) fun x s =>
      let s := s.dropWays 16 s.mem.sharedWays x
      { s with mem := { s.mem with sharedWays := x } }
  else if 0x280 ≤ o && o < 0x300 then
    let c := (o - 0x280) / 8
    let r := s.regAt off
    let full : DWord := if size = 8 then v else BitVec.ofNat 64 (((s.hif.staged.find? r.base).getD (r.word 0)).toNat + w * 2 ^ 32)
    let changes := (size = 8 || off != r.base) && full != m.classWays.get 0 c
    s.write64 off size v false (changes && s.classOpen c) (s.waysMeet (some c)) fun x s =>
      let s := s.dropWays c (s.mem.classWays.get 0 c) x
      { s with mem := { s.mem with classWays := s.mem.classWays.set c x } }
  else if 0x400 ≤ o && o < 0x800 then s.writeClassCh off (v.setWidth 32)
  else s

/-- Writes of the caddy registers (R313, R356). -/
def State.writeCad (s : State) (off : Nat) (v : Word) : State :=
  let n := bits v.toNat 4 0
  if off = 0x13000C then s.regWrite off false false (!(1 ≤ n && n ≤ 20)) fun s => s.setCaddy { s.caddy with buildRate := n }
  else if off = 0x130010 then s.regWrite off false false (!(1 ≤ n && n ≤ 20)) fun s => s.setCaddy { s.caddy with scrubRate := n }
  else s

/-! ## Domain and fabric (R357, R358, R395, R434) -/

/-- A write of TRUSTED_EN (R358). -/
def State.writeTrusted (s : State) (v : Word) : State :=
  let on := v.getLsbD 0
  let off := 0x140008
  match s.blocked with
  | some r => s.refuseWrite r off
  | none =>
    if on && !s.trustedOk then s.refuseWrite 4 off
    else if on && s.dom.state = .service then s.refuseWrite 2 off
    else s.setDom { s.dom with trustedEn := on }

/-- TRUSTED_EN_WRITE. -/
def execTrustedEnWrite (v : Word) (s : State) : Host.Outcome State Fault Refusal := act s.hostUp s fun s => s.writeTrusted v

/-- An export entry breaks its table (R395). -/
def exportBad (e : W256) : Bool :=
  let w := fieldAt e.toNat 0 4
  bits w 26 16 != 0 || bits w 7 0 != 0 || fieldAt e.toNat 4 4 != 0 || fieldAt e.toNat 24 8 != 0 ||
  xBase e % 4096 != 0 || xLength e % 4096 != 0 || !(4096 ≤ xLength e && xLength e ≤ 2 ^ 44)

/-- The export data words: staged, and in force where none is staged (R344). -/
def State.exportWords (s : State) : W256 :=
  let r := s.regAt 0x140060
  BitVec.ofNat 256 ((List.range 8).foldl (fun v i =>
    v + ((s.hif.staged.find? (0x140060 + 4 * i)).getD (r.word i)).toNat * 2 ^ (32 * i)) 0)
/-- Discard the staged export data words. -/
def State.unstageExport (s : State) : State := (List.range 8).foldl (fun s i => s.unstage (0x140060 + 4 * i)) s

/-- A write of FAB_EXPORT_CMD (R358, R395, R434). -/
def State.writeExportCmd (s : State) (v : Word) : State :=
  let off := 0x140044
  let e := s.exportWords
  let j := s.dom.exportSel
  if v.getLsbD 1 then
    s.regWrite off false false (v.getLsbD 0 || j = 0xFFF || exportBad e) fun s =>
      (s.setDom { s.dom with exportData := e, exports := s.dom.exports.set j e }).unstageExport
  else if v.getLsbD 0 then
    s.regWrite off false false false fun s => (s.setDom { s.dom with exportData := s.export j }).unstageExport
  else s.regWrite off false false false id

/-- EXPORT_STORE: FAB_EXPORT_CMD written with STORE. -/
def execExportStore (v : Word) (s : State) : Host.Outcome State Fault Refusal :=
  act (s.hostUp && v.getLsbD 1) s fun s => s.writeExportCmd v

/-- EXPORT_LOAD: FAB_EXPORT_CMD written with LOAD alone. -/
def execExportLoad (v : Word) (s : State) : Host.Outcome State Fault Refusal :=
  act (s.hostUp && v.getLsbD 0 && !v.getLsbD 1) s fun s => s.writeExportCmd v

/-- Writes of the domain and fabric registers (R357). -/
def State.writeFab (s : State) (off : Nat) (v : Word) : State :=
  if off = 0x140008 then s.writeTrusted v
  else if off = 0x140040 then s.regWrite off false false false fun s => s.setDom { s.dom with exportSel := bits v.toNat 11 0 }
  else if off = 0x140044 then s.writeExportCmd v
  else if 0x140060 ≤ off && off < 0x140080 then s.regWrite off false false false fun s => s.stage off v
  else s

/-! ## Power, security, debug, errors (R360 to R364) -/

/-- PWR_CAP_WRITE: the host cap (R361). -/
def State.writeCap (s : State) (v : Word) : State :=
  s.regWrite 0x170000 false false false fun s => s.storeCap (bits v.toNat 15 0) fun p w => { p with cap := w }

/-- PWR_CAP_WRITE. -/
def execPwrCapWrite (v : Word) (s : State) : Host.Outcome State Fault Refusal := act s.hostUp s fun s => s.writeCap v

/-- Writes of the power registers: PWR_RACK_CAP cannot be written from BAR0 (R347, R360). -/
def State.writePwr (s : State) (off : Nat) (v : Word) : State :=
  if off = 0x170000 then s.writeCap v
  else if off = 0x17000C then s.regWrite off false false false fun s => s.setPwr { s.pwr with clamped := s.pwr.clamped && !v.getLsbD 1 }
  else s

/-- A W1C of SEC_ALARM: allowed under lock; the bit of an input still asserted stays set (R362, R513). -/
def State.writeAlarm (s : State) (v : Word) : State :=
  if s.start.mgmtReset || s.start.mgmtHeld then s.refuseWrite 5 0x180004
  else { s with sec := { s.sec with sources := s.sec.sources &&& (~~~(BitVec.ofNat 5 v.toNat) ||| s.sec.asserted) } }

/-- A write of a debug register: LOCKED where DEBUG_LOCK is 1 (R363, R502). -/
def State.dbgWrite (s : State) (off : Nat) (state range : Bool) (f : State → State) : State :=
  match s.blocked with
  | some r => s.refuseWrite r off
  | none => if s.debugLock then s.refuseWrite 4 off else s.regWrite off state false range f

/-- Draw a free number below `n`. -/
def State.drawBelow (s : State) (n : Nat) : Nat × State := (Config.freeNat s.free % n, { s with free := s.free + 1 })

/-- Sequences whose items a tile has taken. -/
def State.tileSeqs (s : State) (die pos : Nat) : List Nat :=
  let k := s.tile die pos
  (k.items ++ k.hold.toList.map Prod.fst).foldl (fun l w => (s.itemSeqs w).foldl addNew l) []

/-- Sequences whose work uses a unit in the steep: the items of a tile or core; of a channel, the batch, or its members of the
channel's class; of a link or a caddy segment none (R446, notes/assumptions/135.md). -/
def State.unitSeqs (s : State) (unit die pos : Nat) : List Nat :=
  match unit with
  | 0 => s.tileSeqs die pos
  | 1 => (s.tileSeqs die (2 * pos + 1)).foldl addNew (s.tileSeqs die (2 * pos))
  | 2 => match s.classOf pos with
    | some c => s.batchSeqs.filter fun q => (s.seq q).cls = c
    | none => s.batchSeqs
  | _ => []

/-- Statuses of real errors by unit and kind, 0 where no real one exists (R343). -/
def injected (unit kind : Nat) : Nat :=
  ([[0, 0x0F04, 0x0F07], [0x0427, 0x0420, 0x0F06], [0x0427, 0x0420, 0x0425], [0x0314, 0, 0x0310], [0x0438, 0, 0x0435]].getD unit []).getD (kind - 1) 0

/-- An injected error, handled as a real one of its kind and position (R363). POSITION names no die and the
specification no status: both are free where it leaves them open (notes/assumptions/40.md). -/
def State.inject (s : State) (kind unit pos : Nat) : State :=
  let (die, s) := if unit ≤ 1 then s.drawBelow 4 else if unit = 4 then s.drawBelow 2 else (if unit = 3 then linkDie pos else 0, s)
  let (status, s) := if injected unit kind = 0 then let r := s.drawBelow 0xFFFF; (r.1 + 1, r.2) else (injected unit kind, s)
  if kind = 1 then s.corrected { status := status, cls := 0, unit := unit + 1, die := die, pos := pos } (s.unitSeqs unit die pos)
  else if kind = 2 then
    if unit = 0 then s.stallTile ⟨die, pos / 2, pos % 2⟩
    else
      s.raise { status := status, cls := 1, unit := unit + 1, die := die, pos := pos, seqs := s.unitSeqs unit die pos, until_ := .steep }
  else
    s.raise { status := status, cls := 2, unit := unit + 1, die := die, pos := pos
              until_ := if unit ≤ 1 then .item else if unit = 2 then .channel else .atOnce }

/-- Positions of a unit that DBG_INJECT names (R363). -/
def State.injectTop (s : State) (unit : Nat) : Nat :=
  [128, 64, s.part.channels, s.part.links, 3072].getD unit 0

/-- A write of DBG_INJECT (R363). -/
def State.writeInject (s : State) (v : Word) : State :=
  let kind := bits v.toNat 27 24
  let unit := bits v.toNat 23 20
  let pos := bits v.toNat 15 0
  if !v.getLsbD 31 then s.dbgWrite 0x1A0008 (s.disc.inDomain && s.dom.state != .test) false id
  else s.dbgWrite 0x1A0008 (s.disc.inDomain && s.dom.state != .test)
    (!(1 ≤ kind && kind ≤ 3) || 4 < unit || s.injectTop unit ≤ pos) fun s => s.inject kind unit pos

/-- DBG_INJECT. -/
def execDbgInject (v : Word) (s : State) : Host.Outcome State Fault Refusal := act s.hostUp s fun s => s.writeInject v

/-- Writes of the debug registers (R363). -/
def State.writeDbg (s : State) (off : Nat) (v : Word) : State :=
  if off = 0x1A0000 then s.dbgWrite off false false fun s => { s with start := { s.start with jtagEn := v.getLsbD 0 } }
  else if off = 0x1A0008 then s.writeInject v
  else s

/-- ERR_LOG_SEL: the selected entry is copied whole (R364). -/
def State.writeLogSel (s : State) (v : Word) : State :=
  s.regWrite 0x190020 false false false fun s => s.setErr { s.err with data := s.err.log.get 0 (bits v.toNat 7 0) }

/-- ERR_LOG_SEL. -/
def execErrLogSel (v : Word) (s : State) : Host.Outcome State Fault Refusal := act s.hostUp s fun s => s.writeLogSel v

/-- Records of the error ring that a head consumes; none where it names more than are written and not consumed. -/
def Err.consume (e : Err) (head : Nat) : Err :=
  let size := 2 ^ e.ringLog2
  let k := (head % size + size - e.ringHead) % size
  if k ≤ e.ringUsed then { e with ringHead := head % size, ringUsed := e.ringUsed - k } else e

/-- A write of ERR_RING_HEAD, taken as R321 takes CQ_HEAD: ignored while the ring is not enabled (R364). -/
def State.writeErrHead (s : State) (v : Word) : State :=
  s.regWrite 0x190010 false false false fun s => if s.err.ringEn then s.setErr (s.err.consume (bits v.toNat 15 0)) else s

/-- ERR_RING_HEAD. -/
def execErrRingHead (v : Word) (s : State) : Host.Outcome State Fault Refusal := act s.hostUp s fun s => s.writeErrHead v

/-- The error block with the fields of ERR_RING_CTRL other than ENABLE. -/
def Err.withCtrl (e : Err) (v : Nat) : Err :=
  { e with
    ringPasidEn := bit v 30
    ringLog2 := bits v 24 20
    ringVector := bits v 10 0 }

/-- A write of ERR_RING_CTRL, under the checks of R351 (R364). -/
def State.writeErrCtrl (s : State) (v : Nat) : State :=
  let e := s.err
  let on := bit v 31
  let off := 0x190008
  match s.blocked with
  | some r => s.refuseWrite r off
  | none =>
    if e.ringEn then
      let s := s.setErr { e with ringEn := on }
      if e.withCtrl v != e then s.refuseWrite 3 off else s
    else
      let e' := e.withCtrl v
      if !on then s.setErr e'
      else if !(6 ≤ e'.ringLog2 && e'.ringLog2 ≤ 16 && e'.ringBase.toNat % 4096 = 0) then s.refuseWrite 1 off
      else s.setErr { e' with
        ringEn := true
        ringHead := 0
        ringTail := 0
        ringUsed := 0
        ringPhase := true }

/-- Writes of the error ring and log registers (R364). -/
def State.writeErr (s : State) (off size : Nat) (v : DWord) : State :=
  let o := off - 0x190000
  let w : Word := v.setWidth 32
  if o < 0x08 then s.write64 off size v false s.err.ringEn (fun _ => false) fun b s => s.setErr { s.err with ringBase := b }
  else if o = 0x08 then s.writeErrCtrl w.toNat
  else if o = 0x0C then s.regWrite off false s.err.ringEn false fun s => s.setErr { s.err with ringPasid := bits w.toNat 19 0 }
  else if o = 0x10 then s.writeErrHead w
  else if o = 0x20 then s.writeLogSel w
  else s

/-! ## The whole of BAR0 (R317, R344 to R348) -/

/-- One write of a register: a 64-bit register whole or in part, or one 32-bit word. A write of an unimplemented
offset or of a read-only register changes nothing (R317, R346). -/
def State.writeOne (s : State) (off size : Nat) (v : DWord) : State :=
  let w : Word := v.setWidth 32
  if off = 0x180004 then s.writeAlarm w
  else match s.blocked with
  | some r => s.refuseWrite r off
  | none =>
    if off < 0x1000 then s.writeHif off size v
    else if 0x10000 ≤ off && off < 0x90000 then s.writeRing off size v
    else if 0x100000 ≤ off && off < 0x101000 then s.writeServe off w
    else if 0x101000 ≤ off && off < 0x101400 then s.writeKv off size v
    else if 0x110000 ≤ off && off < 0x110038 then s.writeRte off size v
    else if 0x120000 ≤ off && off < 0x120800 then s.writeMem off size v
    else if 0x130000 ≤ off && off < 0x130100 then s.writeCad off w
    else if 0x140000 ≤ off && off < 0x140100 then s.writeFab off w
    else if 0x150000 ≤ off && off < 0x150900 then
      let l := (off - 0x150000) / 0x20
      if off % 0x20 = 0 && l < s.part.links then s.writeLnkCtrl l w else s
    else if 0x170000 ≤ off && off < 0x170100 then s.writePwr off w
    else if 0x190000 ≤ off && off < 0x190100 then s.writeErr off size v
    else if 0x1A0000 ≤ off && off < 0x1A0100 then s.writeDbg off w
    else if 0x800000 ≤ off && off < 0x1000000 then s.writeBoot off w
    else s

/-- A write of BAR0: a 64-bit write of a 64-bit register acts whole, any other on its words, low first. -/
def State.barWrite (s : State) (off size : Nat) (v : DWord) : State :=
  if badAccess off size then s.barAccess
  else if size = 4 then s.writeOne off 4 v
  else if (s.regAt off).words = 2 && (s.regAt off).base = off then s.writeOne off 8 v
  else (s.writeOne off 4 v).writeOne (off + 4) 4 (v >>> 32)

/-- REGISTER_WRITE: a host write of BAR0; rows of their own name some of the registers, and act the same. -/
def execRegisterWrite (off size : Nat) (v : DWord) (s : State) : Host.Outcome State Fault Refusal :=
  act (s.hostUp && off < 0x1000000) s fun s => s.barWrite off size v

/-- HIF_BOOT_GO: HIF_BOOT written with GO (R528). -/
def execHifBootGo (v : Word) (s : State) : Host.Outcome State Fault Refusal :=
  act (s.hostUp && v.getLsbD 31) s fun s => s.bootGo v

end Sys2Proof.Machine
end

