-- ==== Sys2Proof/Machine/Reset.lean ====
section
/-! DEFINITION. What resets and power losses leave (spec 19 R466, spec 20 R490, spec 21 R514 to R519, R524). -/

namespace Sys2Proof.Machine

/-- Drive a status pin. -/
def State.pin (s : State) (name : String) (high : Bool) : State := s.emit (.pin name high)

/-- What the caddy's dies and the key cells keep without power or through a reset; everything else as before an
open (R302, R490, R518). -/
def Caddy.kept (c : Caddy) : Caddy :=
  { bankA := { c.bankA with built := false }
    bankB := { c.bankB with built := false }
    journal0 := c.journal0
    journal1 := c.journal1
    keyValid := c.keyValid
    wrappedKey := c.wrappedKey
    scrubRequired := c.scrubRequired
    erased := c.erased
    lostSegs := c.lostSegs }

/-- Power registers at reset: caps and limits at the variant maximum (R360, R479). -/
def Part.power (p : Part) : Power :=
  { cap := p.maxWatts
    enforced := p.maxWatts
    limit := p.maxWatts
    thermalLimit := p.maxWatts }

/-- What the pins and the VAON domain keep through a reset or an opening of the first stage. -/
def Start.kept (t : Start) : Start :=
  { vaon := t.vaon
    firstStage := t.firstStage
    inReset := t.inReset
    faultHeld := t.faultHeld
    vinOpen := t.vinOpen
    eoffPin := t.eoffPin
    eoffLatch := t.eoffLatch
    trayPin := t.trayPin
    perst := t.perst
    brakePin := t.brakePin
    rackPg := t.rackPg
    straps := t.straps }

/-- Every die but the VAON domain at its start state (R518): what stays is the part, the queue, the VAON domain, the
caddy, the log, and the model's own fields. -/
def State.fresh (s : State) : State :=
  let p := s.part.power
  { pending := s.pending
    part := s.part
    time := s.time
    mem := { copy1 := s.part.stacks / 2 }
    caddy := s.caddy.kept
    dom := { mgrPrio := s.start.straps.mgrPrio }
    err := { log := s.err.log, total := s.err.total }
    pwr := { p with
      trip := s.pwr.trip
      railFault := s.pwr.railFault }
    sec := { asserted := s.sec.asserted, owed := s.sec.owed }
    start := s.start.kept
    out := s.out
    free := s.free }

/-- A reset of the package: the counter at 0 (R48, R518). -/
def State.resetAll (s : State) : State := State.fresh { s with time := {} }

/-- The log as the power-on reset and an opening of the first stage leave it (R364). -/
def State.dropLog (s : State) : State := s.setErr { s.err with log := [], total := 0 }

/-- The first stage opens: every rail but VAON falls, with all they hold; the rack cap and the counter stay
(R364, R466, R514, R516, R531). -/
def State.openStage (s : State) : State :=
  let t := s.fresh.dropLog
  let t := { t with
    pwr := { t.pwr with rackCap := s.pwr.rackCap, chatter := s.pwr.chatter }
    sec := { t.sec with sources := s.sec.sources }
    start := { t.start with firstStage := false } }
  if s.start.pkgPg then t.pin "PKG_PG" false else t

end Sys2Proof.Machine
end

