-- ==== Sys2Proof/Machine/Power.lean ====
section
/-! DEFINITION. The kettle: windows, the enforced limit, sharing, voltage, droop, brake, thermal limit and trip
(spec 19 R464 to R482). -/

namespace Sys2Proof.Machine

/-- One more chatter-caused assertion of an input, stopping at 255: 0 tamper, 1 brake, 2 emergency off, 3 tray (R512). -/
def State.chatter (s : State) (i : Nat) (yes : Bool) : State :=
  if yes then s.setPwr { s.pwr with chatter := s.pwr.chatter.set i (min 255 (s.pwr.chatter.getD i 0 + 1)) } else s

/-- The kettle works: VAON, the first stage closed, no reset. -/
def State.kettleOn (s : State) : Bool := s.start.vaon && s.start.firstStage && !s.start.inReset

/-! ## The enforced limit (R473) -/

/-- The enforced limit after a window, from the one before: `lcap` the lowest of the caps and the variant maximum,
`l` the limit in force, `tl` the thermal limit. -/
def nextE (e l lcap tl pLast : Nat) (brake : Bool) : Nat :=
  let e := if brake then min e brakeFloor else e
  let e := if tl < e then tl else e
  if lcap < e then
    let e := max lcap (min e pLast)
    if lcap < e then max lcap (e - 8) else e
  else if e < l then min l (e + 8)
  else e

/-- The lowest of PWR_CAP, PWR_RACK_CAP and the variant maximum (R473). -/
def State.lowCap (s : State) : Nat := min (min s.pwr.cap s.pwr.rackCap) s.variantMax

/-- The enforced limit follows at a window's end; CAP_LAG and its record (R473, R481). -/
def State.slew (s : State) (pIn : Nat) : State :=
  let p := s.pwr
  let e := nextE p.enforced p.limit s.lowCap p.thermalLimit pIn p.brake
  let lag := p.limit < e
  let t := s.setPwr { p with enforced := e, capLag := lag }
  if lag && !p.capLag then t.note { status := 0x0701, cls := 0 } else t

/-! ## Sharing (R475), in units of a watt times the input power -/

/-- What is left for compute of an enforced limit, and whether links or memory found less than their need. -/
def shareOf (e : Nat) (m : WindowMeas) : Int × Bool :=
  let r : Int := e * m.pRails
  let fixed : Int := (m.pVio + m.pVcaddy) * m.pIn
  let vl : Int := m.pVlink * m.pIn
  let vm : Int := m.pVmem * m.pIn
  let l := min vl (r - fixed)
  let mm := min vm (r - fixed - l)
  (r - fixed - l - mm, l < vl || mm < vm)

/-- The allowance before its clamp; none where the division has no value (R475, notes/assumptions/41.md). -/
def rawAllowance (e : Nat) (m : WindowMeas) : Option Int :=
  let den : Int := ((m.pVcore : Int) - m.pCoreMin) * m.demandFronts * m.pIn
  if m.pRails = 0 || m.frontsIssued = 0 || den = 0 then none
  else some ((256 * ((shareOf e m).1 - m.pCoreMin * m.pIn) * m.frontsIssued).fdiv den)

/-- The clamp of R475. -/
def clampA (prev : Nat) (a : Int) : Nat := max 1 (min a (min 256 (prev + 16))).toNat

/-- The allowance for an enforced limit: unchanged where the feeders held no front ready, free where the division has
no value. -/
def State.allowance (s : State) (e prev : Nat) (m : WindowMeas) : Nat × State :=
  if m.demandFronts = 0 then (prev, s)
  else match rawAllowance e m with
    | some a => (clampA prev a, s)
    | none => let r := s.drawBelow 257; (clampA prev r.1, r.2)

/-- Pacing after a window: free where the budget has no value (R475, R476). -/
def State.paceNext (s : State) (m : WindowMeas) : Bool × State :=
  if m.pIn = 0 || m.pRails = 0 then let r := s.drawBelow 2; (r.1 = 1, r.2)
  else
    let c := shareOf s.pwr.enforced m
    let low : Int := m.pCoreMin * m.pIn
    if c.1 < low || c.2 then (true, s)
    else if s.pwr.pace && (20 * low + s.pwr.enforced * m.pRails : Int) < 20 * c.1 then (false, s)
    else (s.pwr.pace, s)

/-- A complete window has passed since the brake was asserted (R477). -/
def State.brakeWindow (s : State) : Bool := match s.pwr.brakeStart with | some t => 200 ≤ s.since t | none => false

/-- Allowances, brake allowance and pacing of a window (R469, R475 to R477). -/
def State.shareLimit (s : State) (m : WindowMeas) : State :=
  let (a, s) := s.allowance s.pwr.enforced s.pwr.common m
  let (b, s) := s.allowance brakeFloor s.pwr.brakeAllow m
  let (pace, s) := s.paceNext m
  let p := s.pwr
  let lim := p.brakeLim.map fun k => if s.brakeWindow && brakeFloor < m.pIn then max 1 (k / 2) else k
  let die := fun d =>
    let x := min (min a (m.dieCap.getD d 256)) (p.allowance.getD d 256 + 16)
    max 1 (match lim with | some k => min x k | none => x)
  s.setPwr { p with
    common := a
    brakeAllow := b
    brakeLim := lim
    allowance := (List.range 4).map die
    pace := pace
    halvings := if pace then min 6 (p.halvings + 1) else p.halvings - 1 }

/-- The brake takes effect: the floor at once, the brake allowance in every limiter, pacing (R477). -/
def State.brakeOn (s : State) : State :=
  let p := s.pwr
  State.relimit (s.setPwr { p with
    brake := true
    brakeStart := some s.now
    brakeLim := some p.brakeAllow
    allowance := p.allowance.map fun a => min a p.brakeAllow
    pace := true })

/-- Kettle windows of a millisecond (R467). -/
def msWindows : Nat := 125

/-- A window has ended: what was in force during it joins the windows of the last millisecond (R467, R470, R479). -/
def State.keepWindow (s : State) (pIn : Nat) : State :=
  s.setPwr { s.pwr with
    windowAt := some s.now
    windows := ({ input := pIn, enforced := s.pwr.enforced, allowance := s.pwr.allowance } :: s.pwr.windows).take msWindows }

/-- KETTLE_WINDOW_END: once at every multiple of 200 periods the kettle measures, limits and shares (R464 to R477). -/
def execKettleWindowEnd (m : WindowMeas) (s : State) : Host.Outcome State Fault Refusal :=
  act (s.kettleOn && s.now.toNat % 200 = 0 && s.pwr.windowAt != some s.now) s fun s =>
    let s := s.keepWindow m.pIn
    let s := s.setPwr { s.pwr with
      input := m.pIn
      pLast := m.pIn
      temps := m.temps
      beatRate := (List.range 4).map fun d => m.beatRate.getD d 0
      vinCap := if m.vin_mV < 46000 then some (90 * m.vin_mV / 1000) else none }
    let s := s.relimit
    let s := if s.start.brakePin && !s.pwr.brake then s.brakeOn else s
    (s.slew m.pIn).shareLimit m

/-! ## Voltage, droop, brake (R470, R472, R477) -/

/-- The windows of a whole millisecond have passed. -/
def State.msPassed (s : State) : Bool := s.pwr.windows.length = msWindows

/-- Allowances of a die in the windows of the last millisecond. -/
def State.msAllowances (s : State) (d : Nat) : List Nat := s.pwr.windows.map fun w => w.allowance.getD d 256

/-- Input power was at least 3 % below the enforced limit in every window of the last millisecond (R470). -/
def State.below3 (s : State) : Bool := s.pwr.windows.all fun w => 100 * w.input ≤ 97 * w.enforced

/-- The voltage of a die after a millisecond: one step up, one step down or none (R470). -/
def nextV (v : Nat) (as : List Nat) (below3 : Bool) : Nat :=
  if as.all (· = 256) && below3 then min 850 (v + 5) else if as.sum < 192 * as.length then max 650 (v - 5) else v

/-- VCORE_STEP: once per millisecond each die's voltage rises, falls or stays (R42, R470). -/
def execVcoreStep (s : State) : Host.Outcome State Fault Refusal :=
  act (s.kettleOn && s.msPassed && s.elapsed s.pwr.vcoreAt 25000) s fun s => s.setPwr { s.pwr with
    vcoreAt := some s.now
    vcore := (List.range 4).map fun d => nextV (s.pwr.vcore.getD d 750) (s.msAllowances d) s.below3 }

/-- DROOP_TRIP: the detector's four cores launch no new front (R472). -/
def execDroopTrip (die det : Nat) (s : State) : Host.Outcome State Fault Refusal :=
  act (s.powered && die < 4 && det < 16 && !s.pwr.droop.contains (die, det)) s fun s =>
    s.setPwr { s.pwr with droop := s.pwr.droop ++ [(die, det)] }

/-- DROOP_RELEASE (R472). -/
def execDroopRelease (die det : Nat) (s : State) : Host.Outcome State Fault Refusal :=
  act (s.powered && s.pwr.droop.contains (die, det)) s fun s => s.setPwr { s.pwr with droop := s.pwr.droop.erase (die, det) }

/-- PWR_BRAKE_ASSERT: before the first stage closes it waits for the kettle's first window (R477, R511, R512, R533). -/
def execPwrBrakeAssert (chatter : Bool) (s : State) : Host.Outcome State Fault Refusal :=
  act (s.start.vaon && !s.start.brakePin) s fun s =>
    let s := { s with start := { s.start with brakePin := true } }.chatter 1 chatter
    if s.kettleOn then s.brakeOn else s

/-- PWR_BRAKE_RELEASE: the limit rises again window by window; BRAKE_HELD clears (R473, R477, R513). -/
def execPwrBrakeRelease (s : State) : Host.Outcome State Fault Refusal :=
  act (s.start.vaon && s.start.brakePin) s fun s =>
    State.relimit (State.setPwr { s with start := { s.start with brakePin := false } } { s.pwr with
      brake := false
      brakeHeld := false
      brakeStart := none
      brakeLim := none })

/-- The brake has been held for 10 s. -/
def State.brakeLong (s : State) : Bool := match s.pwr.brakeStart with | some t => 250000000 ≤ s.since t | none => false

/-- BRAKE_HELD: 10 s of an asserted brake set BRAKE_HELD and write its record (R477, R481, R513). -/
def execBrakeHeld (s : State) : Host.Outcome State Fault Refusal :=
  act (s.kettleOn && s.pwr.brake && !s.pwr.brakeHeld && s.brakeLong) s fun s =>
    (s.setPwr { s.pwr with brakeHeld := true }).note { status := 0x0703, cls := 0 }

/-! ## Temperature (R478 to R480) -/

/-- Readings minus thresholds of every sensor: 105 °C on compute and I/O dies, 95 °C on base dies, 85 °C on caddy dies
(R478). -/
def marginsOf (t : TempMeas) : List Int :=
  (t.compute ++ t.io).flatten.map (· - 105) ++ t.base.flatten.map (· - 95) ++ t.caddy.flatten.map (· - 85)

/-- The hot margin h: the largest of them (R478). -/
def hotMargin (t : TempMeas) : Option Int := (marginsOf t).max?

/-- The thermal limit after a millisecond (R479). -/
def nextTL (tl vmax : Nat) (h : Int) (p1ms : Nat) : Nat :=
  if 1 ≤ h then max 1000 (min tl p1ms - 40 * h.toNat)
  else if h ≤ -3 then min vmax (tl + 20)
  else tl

/-- Input power averaged over the last millisecond, in whole watts (R479, notes/assumptions/134.md). -/
def State.p1ms (s : State) : Nat := (s.pwr.windows.map KettleWindow.input).sum / msWindows

/-- THERMAL_LIMIT_UPDATE: once per millisecond, from the sensors' readings; the record at onset (R478, R479, R481). -/
def execThermalLimitUpdate (temps : TempMeas) (s : State) : Host.Outcome State Fault Refusal :=
  act (s.kettleOn && s.msPassed && (hotMargin temps).isSome && s.elapsed s.pwr.thermalAt 25000) s fun s =>
    let was := s.pwr.thermal
    let h := (hotMargin temps).getD 0
    let s := (s.setPwr { s.pwr with
      temps := temps, thermalAt := some s.now, thermalLimit := nextTL s.pwr.thermalLimit s.variantMax h s.p1ms }).relimit
    if s.pwr.thermal && !was then s.note { status := 0x0704, cls := 0 } else s

/-- THERMAL_TRIP: the trip flag names the die, THERMTRIP_N falls and the first stage opens until a package reset
(R466, R480, R516, R524). -/
def execThermalTrip (unit die position : Nat) (s : State) : Host.Outcome State Fault Refusal :=
  act (s.start.vaon && s.start.firstStage) s fun s =>
    let s := (s.setPwr { s.pwr with trip := some (unit, die, position) }).pin "THERMTRIP_N" false
    State.openStage { s with start := { s.start with faultHeld := true } }

/-- The state after the flag that a cause of an opening sets (R466, R524). -/
def State.openFlag (s : State) (cause : OpenCause) : State :=
  match cause with
  | .vinRange => { s with start := { s.start with vinOpen := true } }
  | .busCurrent => { s.setPwr { s.pwr with railFault := some 1 } with start := { s.start with faultHeld := true } }
  | .railCurrent r => { s.setPwr { s.pwr with railFault := some r } with start := { s.start with faultHeld := true } }

/-- FIRST_STAGE_OPEN: VIN out of range or a rail overcurrent (R466). -/
def execFirstStageOpen (cause : OpenCause) (s : State) : Host.Outcome State Fault Refusal :=
  act (s.start.vaon && s.start.firstStage) s fun s => (s.openFlag cause).openStage

end Sys2Proof.Machine
end

