-- ==== Sys2Proof/Machine/Security.lean ====
section
/-! DEFINITION. Alarms, fuse checks, IDE and the SPDM responder (spec 20 R486 to R507, spec 13 R316). Codes and bodies
that the SPDM and DOE standards fix are theirs, not the manual's (notes/assumptions/42.md). -/

namespace Sys2Proof.Machine

/-- Replace the security block. -/
def State.setSec (s : State) (k : Security) : State := { s with sec := k }

/-! ## Alarms (R494 to R498) -/

/-- SOURCES bit of a source (R494). -/
def sourceBit : AlarmSource → Nat
  | .tamperMesh => 0 | .enclosure => 1 | .supplyGlitch => 2 | .storageTemp => 3 | .fuseIntegrity => 4

/-- The alarm's record (R448, R495). -/
def State.alarmRecord (s : State) (cls : Nat) : ErrIn :=
  { status := 0x0801, cls := cls, unit := 9, pos := 2, detail := s.sec.sources.toNat, alarm := true }

/-- A build ends with its target bank not built and writes no final record (R498). -/
def State.dropBuild (s : State) : State :=
  match s.caddy.build with
  | some b => { s.setCaddy { s.caddy with build := none } with longOps := s.longOps.erase b.handle }
  | none => s

/-- The key cells after the first step of an erase, in one write (R495, R498). -/
def State.eraseCells (s : State) : State :=
  s.setCaddy { s.caddy with keyValid := false, scrubRequired := true, erased := true, wrappedKey := 0 }

/-- Every key that an erase zeroises (table "Keys"). -/
def State.zeroise (s : State) : State :=
  let s := s.eraseCells
  (s.setCaddy { s.caddy with key := none }).setSec { s.sec with session := none, ideKeys := [], ideSecure := false }

/-- The SRAM that an erase clears: core store, die store, remote read caches, engine caches and replay tables; nothing
reads the processor's data memory again before the reset (R496, R497). -/
def State.clearSram (s : State) : State :=
  { s with
    comp := { s.comp with
      tiles := s.comp.tiles.mapVals fun _ t => { t with items := [], hold := none, acc := [], active := none, shadow := none, forErr := none }
      reissue := [] }
    mem := { s.mem with dieStore := [] }
    fab := { s.fab with cache := [], replay := [] }
    eng := { s.eng with cache := [] } }

/-- Held under R496: no front, no ring, no flit, no further record. -/
def State.lockNow (s : State) (cls : Nat) : State :=
  let s := s.dropBuild.stopLinks
  let s := s.note (s.alarmRecord cls)
  (s.setErr { s.err with silent := true }).setSec { s.sec with locked := true }

/-- An alarm is raised and its fuse-selected action taken. A further source under lock writes no record and takes no
action; with the first stage open the key cells are erased on VAON, the record is owed, and a start goes on under the log
action only (R495, R498, R533). -/
def State.alarm (s : State) (src : AlarmSource) : State :=
  let s := s.setSec { s.sec with sources := s.sec.sources ||| ((1 : BitVec 5) <<< sourceBit src) }
  if s.sec.locked then s
  else if !s.start.firstStage then
    let s := s.setSec { s.sec with owed := true, locked := s.alarmAction != 0 }
    if 2 ≤ s.alarmAction then s.eraseCells else s
  else if s.alarmAction = 0 then s.note (s.alarmRecord 0)
  else if s.alarmAction = 1 then s.lockNow 3
  else (s.zeroise.clearSram).lockNow 3

/-- The alarm sources whose detectors are filtered pins, held in SOURCES while asserted (R513). -/
def isPinSource : AlarmSource → Bool
  | .tamperMesh => true | .enclosure => true | _ => false

/-- SEC_ALARM: a source is raised; a pin already asserted raises nothing more (R494, R495, R511 to R513). -/
def execSecAlarm (src : AlarmSource) (chatter : Bool) (s : State) : Host.Outcome State Fault Refusal :=
  act (s.start.vaon && !(isPinSource src && s.sec.asserted.getLsbD (sourceBit src))) s fun s =>
    let s := if isPinSource src then
        (s.setSec { s.sec with asserted := s.sec.asserted ||| ((1 : BitVec 5) <<< sourceBit src) }).chatter 0 chatter
      else s
    s.alarm src

/-- ALARM_INPUT_DEASSERT: a later W1C clears the bit (R513). -/
def execAlarmInputDeassert (src : AlarmSource) (s : State) : Host.Outcome State Fault Refusal :=
  act (s.start.vaon && s.sec.asserted.getLsbD (sourceBit src)) s fun s =>
    s.setSec { s.sec with asserted := s.sec.asserted &&& ~~~((1 : BitVec 5) <<< sourceBit src) }

/-- Fields that fail the fuse check read restrictively until the next package start, and the alarm is raised (R487). -/
def State.fuseCheck (s : State) (failed : List FuseField) : State :=
  if failed.isEmpty then s
  else (s.setSec { s.sec with restrict := s.sec.restrict ++ failed.filter fun f => !s.sec.restrict.contains f }).alarm .fuseIntegrity

/-- FUSE_CHECK: once every second (R487). -/
def execFuseCheck (failed : List FuseField) (s : State) : Host.Outcome State Fault Refusal :=
  act (s.powered && s.elapsed s.sec.fuseAt 25000000) s fun s =>
    State.fuseCheck (s.setSec { s.sec with fuseAt := some s.now }) failed

/-- IDE_INTEGRITY_FAILURE: the stream is insecure until it is keyed again (R506). -/
def execIdeIntegrityFailure (s : State) : Host.Outcome State Fault Refusal :=
  act (s.hostUp && s.sec.ideSecure) s fun s =>
    (s.setSec { s.sec with ideSecure := false }).note { status := 0x0806, cls := 0 }

/-! ## The SPDM responder (R504, R505, R507) -/

/-- The responder answers: also in lock and after an erase, never while the processor is in reset (R507). -/
def State.responder (s : State) : Bool := s.hostUp && s.hif.mgmtRun && !s.start.mgmtReset && !s.start.mgmtHeld

/-- Send a response of at most 4,096 bytes of body; a longer one is returned by CHUNK_GET. -/
def State.respond (s : State) (q : SpdmReq) (code p1 p2 : Nat) (body : List Byte) : State :=
  if body.length ≤ 4096 then s.emit (.spdm q.session code p1 p2 body)
  else (s.setSec { s.sec with chunkOut := some (code + 256 * p1 + 65536 * p2, 0, body) }).emit (.spdm q.session 0x7F 0x0F 0 [])

/-- ERROR with an error code. -/
def State.spdmError (s : State) (q : SpdmReq) (err data : Nat) : State := s.emit (.spdm q.session 0x7F err data [])

/-- Error codes of the standard: InvalidRequest, UnexpectedRequest, UnsupportedRequest, DecryptError. -/
def eInvalid : Nat := 0x01
def eUnexpected : Nat := 0x04
def eUnsupported : Nat := 0x07
def eDecrypt : Nat := 0x06

/-- A request meets a session and a handshake as they stand: in clear, or authentic in the session in force. -/
def State.sessionOk (s : State) (q : SpdmReq) : Bool :=
  match q.session, s.sec.session with
  | none, _ => true
  | some n, some k => n = k.1 && q.authentic
  | some _, none => false

/-- A request that the responder takes in its place: `step` requests of the opening in order. -/
def State.spdm (s : State) (q : SpdmReq) (step : Nat) (f : State → State) : Host.Outcome State Fault Refusal :=
  act s.responder s fun s =>
    if !s.sessionOk q then s.spdmError q eDecrypt 0
    else if s.sec.spdmStep < step then s.spdmError q eUnexpected 0
    else f s

/-- A request within the secured session, its handshake done. -/
def State.secured (s : State) (q : SpdmReq) (f : State → State) : Host.Outcome State Fault Refusal :=
  s.spdm q 3 fun s =>
    match q.session, s.sec.session with
    | some _, some (_, true) => f s
    | _, _ => s.spdmError q eUnexpected 0

/-- Body of a response that the standard fixes. -/
def bodyOf (code : Nat) (q : SpdmReq) : List Byte := Config.spdmBody code q.body

/-- GET_VERSION: 1.3 only; negotiation starts over (R504). -/
def execGetVersion (q : SpdmReq) (s : State) : Host.Outcome State Fault Refusal :=
  s.spdm q 0 fun s =>
    (s.setSec { s.sec with spdmStep := 1, session := none, ideKeys := [], ideSecure := false, chunkIn := none, chunkOut := none }).respond
      q 0x04 0 0 (leBytes 4 0x13000100)

/-- GET_CAPABILITIES (R504). -/
def execGetCapabilities (q : SpdmReq) (s : State) : Host.Outcome State Fault Refusal :=
  s.spdm q 1 fun s => (s.setSec { s.sec with spdmStep := max 2 s.sec.spdmStep }).respond q 0x61 0 0 (bodyOf 0x61 q)

/-- NEGOTIATE_ALGORITHMS: a requester that selects none of the package's ends negotiation with ERROR (R504). The list
holds the requester's choice for each of the four uses, 0 none. -/
def execNegotiateAlgorithms (q : SpdmReq) (selected : List Nat) (s : State) : Host.Outcome State Fault Refusal :=
  s.spdm q 2 fun s =>
    if selected.length = 4 && selected.take 3 = [1, 2, 3] && selected.getD 3 0 != 0 then
      (s.setSec { s.sec with spdmStep := 3 }).respond q 0x63 0 0 (bodyOf 0x63 q)
    else (s.setSec { s.sec with spdmStep := 0 }).spdmError q eInvalid 0

/-- Certificate chain of a slot: 0 and 1 are filled (R504). -/
def State.chain (s : State) (slot : Nat) : List Byte := if slot < 2 then Config.certChain slot s.part.secret else []

/-- A failed device secret cannot attest (R487). -/
def State.canAttest (s : State) : Bool := !s.sec.restrict.contains .secret

/-- The bytes of a 256-bit digest. -/
def digestBytes (d : W256) : List Byte := leBytes 32 d.toNat

/-- GET_DIGESTS: slots 0 and 1 (R504). -/
def execGetDigests (q : SpdmReq) (s : State) : Host.Outcome State Fault Refusal :=
  s.spdm q 3 fun s => s.respond q 0x01 0 3 (digestBytes (Config.shake256 (s.chain 0)) ++ digestBytes (Config.shake256 (s.chain 1)))

/-- GET_CERTIFICATE: a part of a slot's chain, and how much remains (R504). -/
def execGetCertificate (q : SpdmReq) (slot offset length : Nat) (s : State) : Host.Outcome State Fault Refusal :=
  s.spdm q 3 fun s =>
    let c := s.chain slot
    if 2 ≤ slot || c.length ≤ offset then s.spdmError q eInvalid 0
    else
      let part := (c.drop offset).take (min length 4088)
      s.respond q 0x02 slot 0 (leBytes 2 part.length ++ leBytes 2 (c.length - offset - part.length) ++ part)

/-- CHALLENGE: signed by the attestation key (R504, R507). -/
def execChallenge (q : SpdmReq) (slot : Nat) (s : State) : Host.Outcome State Fault Refusal :=
  s.spdm q 3 fun s =>
    if 2 ≤ slot || !s.canAttest then s.spdmError q eInvalid 0
    else
      let b := bodyOf 0x03 q ++ digestBytes (Config.shake256 (s.chain slot))
      s.respond q 0x03 slot (2 ^ slot) (b ++ Config.falconSign s.part.secret b)

/-- Value of a measurement block (R505). -/
def State.measurement (s : State) (i : Nat) : Option (List Byte) :=
  let c := s.caddy
  match i with
  | 1 => some (digestBytes (Config.shake256 Config.bootRom))
  | 2 => some (digestBytes s.hif.fwDigest)
  | 3 => some (digestBytes (Config.shake256 (leBytes 4 s.secFuse ++ digestBytes s.part.fwHash0 ++ digestBytes s.part.fwHash1)))
  | 4 => some (if c.active = 3 then List.replicate 32 0 else digestBytes (c.bank c.active).digest)
  | 5 => some (if (c.bank c.idle).built then digestBytes (c.bank c.idle).digest else List.replicate 32 0)
  | 6 => some (digestBytes (Config.shake256 (Config.kemPublic s.part.secret)))
  | 7 => some (leBytes 4 s.secAlarm ++ leBytes 4 s.cadState)
  | 8 => some (leBytes 4 (s.regAt 0x04).value ++ leBytes 4 (s.regAt 0x08).value)
  | _ => none

/-- Type of a measurement block in DMTF form: bit 7 raw (R505). -/
def measureType (i : Nat) : Nat := [0, 0x00, 0x01, 0x03, 0x01, 0x01, 0x02, 0x81, 0x82].getD i 0

/-- A measurement block: index, DMTF specification, sizes, type, value. -/
def measureBlock (i : Nat) (v : List Byte) : List Byte :=
  leBytes 1 i ++ leBytes 1 1 ++ leBytes 2 (v.length + 3) ++ leBytes 1 (measureType i) ++ leBytes 2 v.length ++ v

/-- The blocks that an index asks for: 0 none but their number, 0xFF all. -/
def State.blocksOf (s : State) (i : Nat) : List (List Byte) :=
  (if i = 0xFF then List.range 9 else if i = 0 then [] else [i]).filterMap fun k => (s.measurement k).map (measureBlock k)

/-- GET_MEASUREMENTS: as the state is when the response is formed (R505). -/
def execGetMeasurements (q : SpdmReq) (index : Nat) (sign : Bool) (s : State) : Host.Outcome State Fault Refusal :=
  s.spdm q 3 fun s =>
    let bs := s.blocksOf index
    if (index != 0 && bs.isEmpty) || (sign && !s.canAttest) then s.spdmError q eInvalid 0
    else
      let body := leBytes 1 bs.length ++ leBytes 3 bs.flatten.length ++ bs.flatten
      s.respond q 0x60 (if index = 0 then 8 else 0) 0 (if sign then body ++ Config.falconSign s.part.secret (q.body ++ body) else body)

/-- KEY_EXCHANGE: a session starts, its handshake open (R504). -/
def execKeyExchange (q : SpdmReq) (s : State) : Host.Outcome State Fault Refusal :=
  s.spdm q 3 fun s =>
    if s.sec.session.isSome || !s.canAttest then s.spdmError q eUnexpected 0
    else
      let b := bodyOf 0x64 q
      (s.setSec { s.sec with session := some (leAt q.body 0 2, false) }).respond q 0x64 0 0 (b ++ Config.falconSign s.part.secret b)

/-- FINISH: the handshake completes (R504). -/
def execFinish (q : SpdmReq) (s : State) : Host.Outcome State Fault Refusal :=
  s.spdm q 3 fun s =>
    match q.session, s.sec.session with
    | some _, some (n, false) => (s.setSec { s.sec with session := some (n, true) }).respond q 0x65 0 0 (bodyOf 0x65 q)
    | _, _ => s.spdmError q eUnexpected 0

/-- KEY_UPDATE: parameter 1 names the operation, parameter 2 its tag, both returned (R504). -/
def execKeyUpdate (q : SpdmReq) (s : State) : Host.Outcome State Fault Refusal :=
  s.secured q fun s => s.respond q 0x69 q.param1 q.param2 []

/-- HEARTBEAT (R504). -/
def execHeartbeat (q : SpdmReq) (s : State) : Host.Outcome State Fault Refusal := s.secured q fun s => s.respond q 0x68 0 0 []

/-- END_SESSION: the session ends and its IDE keys are zeroised (R506). -/
def execEndSession (q : SpdmReq) (s : State) : Host.Outcome State Fault Refusal :=
  s.secured q fun s =>
    State.setSec (s.respond q 0x6C 0 0 []) { s.sec with session := none, ideKeys := [], ideSecure := false }

/-- CHUNK_SEND: chunks of one large request in order, each acknowledged (R504). -/
def execChunkSend (q : SpdmReq) (handle seqNo : Nat) (last : Bool) (total : Nat) (s : State) : Host.Outcome State Fault Refusal :=
  s.spdm q 3 fun s =>
    let have_ := match s.sec.chunkIn with
      | some (h, n, b) => if h = handle && n = seqNo then some b else none
      | none => if seqNo = 0 then some [] else none
    match have_ with
    | none => (s.setSec { s.sec with chunkIn := none }).spdmError q eInvalid 0
    | some b =>
      let b := b ++ q.body
      let ack := leBytes 2 seqNo
      if last then
        if b.length = total then (s.setSec { s.sec with chunkIn := none }).respond q 0x05 0 handle (ack ++ Config.spdmBody 0x05 b)
        else (s.setSec { s.sec with chunkIn := none }).spdmError q eInvalid 0
      else (s.setSec { s.sec with chunkIn := some (handle, seqNo + 1, b) }).respond q 0x05 0 handle ack

/-- CHUNK_GET: the next part of a large response, at most 4,096 bytes (R504). -/
def execChunkGet (q : SpdmReq) (handle seqNo : Nat) (s : State) : Host.Outcome State Fault Refusal :=
  s.spdm q 3 fun s =>
    match s.sec.chunkOut with
    | none => s.spdmError q eUnexpected 0
    | some (code, n, b) =>
      if n != seqNo then s.spdmError q eInvalid 0
      else
        let part := b.take 4084
        let rest := b.drop 4084
        let out := leBytes 2 seqNo ++ leBytes 2 0 ++ leBytes 4 part.length ++ part
        let s := s.setSec { s.sec with chunkOut := if rest.isEmpty then none else some (code, n + 1, rest) }
        s.emit (.spdm q.session 0x06 (b2n rest.isEmpty) handle out)

/-- VENDOR_DEFINED_REQUEST: IDE_KM keys the stream, in a secured session only (R506). -/
def execVendorDefinedRequest (q : SpdmReq) (ideKm : Bool) (keySet : List Byte) (s : State) : Host.Outcome State Fault Refusal :=
  if !ideKm then s.spdm q 0 fun s => s.spdmError q eUnsupported 0xFE
  else s.secured q fun s =>
    (s.setSec { s.sec with ideKeys := keySet, ideSecure := !keySet.isEmpty }).respond q 0x7E 0 0 (bodyOf 0x7E q)

/-- SPDM_UNSUPPORTED_REQUEST: ERROR UnsupportedRequest names the request (R504). -/
def execSpdmUnsupportedRequest (q : SpdmReq) (code : Nat) (s : State) : Host.Outcome State Fault Refusal :=
  s.spdm q 0 fun s => s.spdmError q eUnsupported (code % 256)

/-- Protocols of the DOE mailbox: discovery, SPDM, secured SPDM (R316). -/
def execDoeDiscovery (index : Nat) (s : State) : Host.Outcome State Fault Refusal :=
  act s.hostUp s fun s =>
    let v := if index < 3 then putBits 0x0001 15 0 + putBits index 23 16 + putBits (if index < 2 then index + 1 else 0) 31 24
      else 0x0000FFFF
    s.emit (.doe (leBytes 4 v))

end Sys2Proof.Machine
end

