-- ==== Sys2Proof/Machine/StartUp.lean ====
section
/-! DEFINITION. Resets, pins, the start sequence, sideband and boundary scan (spec 21). -/

namespace Sys2Proof.Machine

/-- Replace the start block. -/
def State.setStart (s : State) (t : Start) : State := { s with start := t }

/-! ## Resets (R517 to R520) -/

/-- Alarm inputs still asserted raise their alarms again once the detectors run (R498). -/
def State.realarm (s : State) : State :=
  let s := if s.sec.asserted.getLsbD 0 then s.alarm .tamperMesh else s
  if s.sec.asserted.getLsbD 1 then s.alarm .enclosure else s

/-- POWER_ON_RESET: VAON arrives; nothing volatile is left of before (R364, R466, R518). -/
def execPowerOnReset (s : State) : Host.Outcome State Fault Refusal :=
  act (!s.start.vaon) s fun s => s.resetAll.dropLog.setStart { s.start.kept with vaon := true, inReset := true }

/-- PKG_RESET_N: the package is reset, whatever it does; a fault flag and a released emergency off no longer hold the
first stage open (R364, R514, R517, R518, R524). -/
def execPkgResetN (s : State) : Host.Outcome State Fault Refusal :=
  act (s.start.vaon && !s.start.inReset) s fun s =>
    let t := s.resetAll
    let t := t.setStart { t.start with inReset := true, faultHeld := false, eoffLatch := s.start.eoffPin }
    if s.start.pkgPg then t.pin "PKG_PG" false else t

/-- PACKAGE_RESET_RELEASE: the reset ends and the straps are sampled (R520). -/
def execPackageResetRelease (straps : Straps) (s : State) : Host.Outcome State Fault Refusal :=
  act (s.start.vaon && s.start.inReset) s fun s =>
    let s := s.setStart { s.start with inReset := false, straps := straps }
    (s.setDom { s.dom with mgrPrio := straps.mgrPrio }).realarm

/-- What a pair's waiting descriptors and long operations become when the pair goes at once (R319, R519). -/
def State.detach (s : State) (n : Nat) : State :=
  let s := (s.waiting.filter fun w => w.ring = n && w.what.object.isSome).foldl (fun s w => { s with waiting := s.waiting.erase w }) s
  let wait := fun w : Waiting => if w.ring = n then { w with ring := noRing } else w
  let msg := fun m : MsgOut => if m.ring = some n then { m with ring := some noRing } else m
  let ctl := fun c : OpControl => if c.ring = n then { c with ring := noRing } else c
  let s := { s with
    accepted := s.accepted.filter fun a => a.ring != n
    waiting := s.waiting.map wait
    fab := { s.fab with msgOut := s.fab.msgOut.map msg } }.orphanOps n
  { s with longOps := s.longOps.mapVals fun _ o => { o with waiters := o.waiters.map ctl } }

/-- A pair disabled and drained at once: its records are discarded, token and event records counted (R519). -/
def State.killRing (s : State) (n : Nat) : State :=
  if (s.ring n).enable then ((s.detach n).closeRing n).onRing n fun r => { r with reserved := 0, open_ := 0, unread := [] } else s

/-- PERST_N: the PCI Express controller, the IDE streams and every ring go; the rest of BAR0 stays (R511, R519). -/
def execPerstN (_chatter : Bool) (s : State) : Host.Outcome State Fault Refusal :=
  act (s.start.vaon && !s.start.perst) s fun s =>
    let s := s.setStart { s.start with perst := true }
    let s := s.rings.keys.foldl (fun s n => s.killRing n) s
    let s := s.setErr { s.err with ringEn := false }
    let s := s.setSec { s.sec with ideKeys := [], ideSecure := false }
    { s with hif := { s.hif with bootWin := [] } }

/-- PERST_N_DEASSERT: the function answers again (R519). -/
def execPerstNDeassert (s : State) : Host.Outcome State Fault Refusal :=
  act (s.start.vaon && s.start.perst) s fun s => s.setStart { s.start with perst := false }

/-! ## Power control (R514, R515, R522 to R524) -/

/-- EMERGENCY_OFF_N: the first stage opens; no error record (R511, R512, R514). -/
def execEmergencyOffN (chatter : Bool) (s : State) : Host.Outcome State Fault Refusal :=
  act (s.start.vaon && !s.start.eoffPin) s fun s =>
    let s := (s.setStart { s.start with eoffPin := true, eoffLatch := true }).chatter 2 chatter
    if s.start.firstStage then s.openStage else s

/-- EMERGENCY_OFF_DEASSERT: a package reset that begins from now on lets the first stage close again (R514). -/
def execEmergencyOffDeassert (s : State) : Host.Outcome State Fault Refusal :=
  act (s.start.vaon && s.start.eoffPin) s fun s => s.setStart { s.start with eoffPin := false }

/-- TRAY_SENSE_N: quick quiesce follows in service; start-up holds at the tray gate (R309, R511, R512, R515). -/
def execTraySenseN (chatter : Bool) (s : State) : Host.Outcome State Fault Refusal :=
  act (s.start.vaon && !s.start.trayPin) s fun s => (s.setStart { s.start with trayPin := true }).chatter 3 chatter

/-- TRAY_SENSE_DEASSERT: a start that holds goes on (R515). -/
def execTraySenseDeassert (s : State) : Host.Outcome State Fault Refusal :=
  act (s.start.vaon && s.start.trayPin) s fun s => (s.setStart { s.start with trayPin := false }).passGate

/-- RACK_PG_CHANGE: an input held for 1 ms; 0 MGMT, 1 COOL, 2 SW, 3 HOST, 4 ACC (R523). -/
def execRackPgChange (input : Nat) (high : Bool) (s : State) : Host.Outcome State Fault Refusal :=
  act (s.start.vaon && input < 5) s fun s => s.setStart { s.start with rackPg := s.start.rackPg.set input high }

/-- Sequenced start (R521). -/
def State.sequenced (s : State) : Bool := s.startMode = 2 || (s.startMode = 0 && s.start.straps.seqStart)

/-- The input that the sequenced start waits for: the first that is not asserted; 5 once every one is (R523). -/
def rackWait (pg : List Bool) : Nat := (pg.findIdx? fun b => !b).getD 5

/-- The start gate: VIN, PKG_RESET_N, emergency off, fault flags, and in sequenced mode the rack (R522 to R524). -/
def State.gateMet (s : State) (vinOk : Bool) : Bool :=
  s.start.vaon && !s.start.firstStage && vinOk && !s.start.inReset && !s.start.eoffPin && !s.start.eoffLatch && !s.start.faultHeld &&
  (!s.sequenced || 5 ≤ rackWait s.start.rackPg)

/-- START_GATE_MET: the first stage closes; after an opening for VIN that is a power-on reset (R518, R524). -/
def execStartGateMet (vinOk : Bool) (s : State) : Host.Outcome State Fault Refusal :=
  act (s.gateMet vinOk) s fun s =>
    let s := if s.start.vinOpen then s.resetAll.dropLog else s
    s.setStart { s.start with firstStage := true, vinOpen := false }

/-- VAON_LOSS: the first stage is open, and the counter, the trip flag and the fault flags are lost (R466, R480). -/
def execVaonLoss (s : State) : Host.Outcome State Fault Refusal :=
  act s.start.vaon s fun s =>
    let tripped := s.pwr.trip.isSome
    let s := if s.start.firstStage then s.openStage else s
    let s := s.setPwr { s.pwr with trip := none, railFault := none }
    let s := s.setSec { s.sec with owed := false, sources := 0 }
    let s := s.setStart { s.start with vaon := false, faultHeld := false, vinOpen := false }
    let s := { s with time := {} }
    if tripped then s.pin "THERMTRIP_N" true else s

/-! ## The start sequence (R525) -/

/-- A record of what an earlier run left owed: it stops nothing (R466, R480, R498). -/
def State.owedRecord (s : State) (e : ErrIn) : State := s.putRecord (s.errRecord e ⟨none, e.cls, false, 0⟩ 1)

/-- The records owed at a start, and the flags they clear: thermal trip, rail overcurrent, alarm (R466, R480, R498). -/
def State.payRecords (s : State) : State :=
  let s := match s.pwr.trip with
    | some (u, d, p) =>
      ((s.owedRecord { status := 0x0705, cls := 3, unit := u, die := d, pos := p }).setPwr { s.pwr with trip := none }).pin "THERMTRIP_N" true
    | none => s
  let s := match s.pwr.railFault with
    | some r => (s.owedRecord { status := 0x0F01, cls := 3, detail := r }).setPwr { s.pwr with railFault := none }
    | none => s
  if s.sec.owed then
    (s.owedRecord (s.alarmRecord (if s.alarmAction = 0 then 0 else 3))).setSec { s.sec with owed := false }
  else s

/-- PKG_PG_HIGH: the rails are in regulation; the boot ROM checks the fuses, records are paid, and the sources are
tried in the order of BOOT_HOST (R487, R516, R525, R526). -/
def execPkgPgHigh (failed : List FuseField) (s : State) : Host.Outcome State Fault Refusal :=
  act (s.start.vaon && s.start.firstStage && !s.start.inReset && !s.start.pkgPg) s fun s =>
    let host := s.start.straps.bootHost
    let s := (s.setStart { s.start with pkgPg := true, bootSource := if host then 2 else 0 }).pin "PKG_PG" true
    let s := { s with hif := { s.hif with bootWait := host } }
    let s := s.payRecords
    State.fuseCheck (s.setSec { s.sec with fuseAt := some s.now }) failed

/-- BOOT_IMAGE_VERIFY: an SPI copy as read, none where absent (R500, R501, R526). -/
def execBootImageVerify (image : Option (List Byte)) (s : State) : Host.Outcome State Fault Refusal :=
  act (s.booting && s.start.bootSource < 2) s fun s => s.tryImage image

/-- The list's tables by die, entries of 0 left out. -/
def tabOf {n : Nat} (l : List (BitVec n)) : Tab (BitVec n) :=
  ((List.range 4).zip l).filter fun p => p.2 != 0

/-- CORE_TILE_TEST: failing positions are mapped out; a core with both tiles out is out, and a die with no core stops
the package (R451, R525). -/
def execCoreTileTest (cores : List (BitVec 64)) (tiles : List (BitVec 128)) (s : State) : Host.Outcome State Fault Refusal :=
  act (s.mgmtUp && !s.start.coresTested) s fun s =>
    let whole := fun d => (List.range 64).foldl (fun (m : BitVec 64) c =>
      if (tiles.getD d 0).getLsbD (2 * c) && (tiles.getD d 0).getLsbD (2 * c + 1) then m ||| (1 <<< c) else m) (cores.getD d 0)
    let s := { s with comp := { s.comp with coreLost := tabOf ((List.range 4).map whole), tileLost := tabOf tiles } }
    let s := s.setStart { s.start with coresTested := true }
    let s := s.latchStart ([0, 1, 2, 3].flatMap fun d => [0x1A0040 + 8 * d, 0x1A0060 + 16 * d])
    match (List.range 4).find? fun d => (s.coresOf d).isEmpty with
    | some d => s.fatal { status := 0x0F06, cls := 3, unit := 2, die := d }
    | none => s

/-- The stack that holds a sequence-table copy at start: the one named, or the lowest that can in its place (R196). -/
def State.copyStack (s : State) (c other : Nat) : Option Nat :=
  if 0x8000000 ≤ s.localSize c then some c
  else (List.range s.part.stacks).find? fun st => st != 1 && st != other && 0x8000000 ≤ s.localSize st

/-- Place both copies at start, or log SEQ_TABLE_PLACE (R196). -/
def State.seqPlace (s : State) : State :=
  match s.copyStack s.mem.copy0 s.mem.copy1 with
  | none => (s.setStart { s.start with seqPlaced := false }).note { status := 0x055A, cls := 0 }
  | some c0 =>
    match s.copyStack s.mem.copy1 c0 with
    | none => (s.setStart { s.start with seqPlaced := false }).note { status := 0x055A, cls := 0 }
    | some c1 => s.placeCopies c0 c1

/-- HBM_TRAIN_TEST: failing channels are mapped out, regions sized, copies placed; a required clearing scrub follows
(R196, R264, R497, R525). -/
def execHbmTrainTest (lost : W512) (s : State) : Host.Outcome State Fault Refusal :=
  act (s.mgmtUp && !s.start.hbmTested) s fun s =>
    let fitted : W512 := BitVec.ofNat 512 (2 ^ s.part.channels - 1)
    let s := { s with mem := { s.mem with lostAtStart := lost &&& fitted } }
    let s := s.setStart { s.start with hbmTested := true, clearing := s.caddy.scrubRequired }
    s.seqPlace.latchStart ([0x120048, 0x120080] ++ (List.range 16).map fun i => 0x120100 + 8 * i)

/-- CADDY_OPEN: once the firmware runs (R304, R312, R525); start-up may then pass the tray gate (R515). -/
def execCaddyOpen (s : State) : Host.Outcome State Fault Refusal :=
  act (s.mgmtUp && !s.caddy.opened) s fun s => s.openCaddy.latchStart [0x130020, 0x130040, 0x130060]

/-! ## Sideband (R529 to R531) -/

/-- The static address (R529). -/
def State.i3cStatic (s : State) : Nat := 0x30 + s.start.straps.i3cSa

/-- SETDASA: a dynamic address for the target's static address, while it has none (R529). -/
def execSetdasa (addr : Nat) (s : State) : Host.Outcome State Fault Refusal :=
  act (s.powered && s.start.i3cAddr.isNone && addr < 128) s fun s => s.setStart { s.start with i3cAddr := some addr }

/-- SETAASA: the static address becomes the dynamic one, while it has none (R529). -/
def execSetaasa (s : State) : Host.Outcome State Fault Refusal :=
  act (s.powered && s.start.i3cAddr.isNone) s fun s => s.setStart { s.start with i3cAddr := some s.i3cStatic }

/-- The sideband is served: by a running processor, also under lock, over an addressed target (R496, R531). -/
def State.sideUp (s : State) : Bool :=
  s.powered && s.hif.mgmtRun && !s.start.mgmtReset && !s.start.mgmtHeld && s.start.i3cAddr.isSome

/-- SET_ENDPOINT_ID: 0 and 0xFF are no endpoint IDs (R529). -/
def execSetEndpointId (eid : Nat) (s : State) : Host.Outcome State Fault Refusal :=
  act s.sideUp s fun s =>
    if eid = 0 || 0xFF ≤ eid then s.emit (.mctp 2 [])
    else (s.setStart { s.start with eid := eid }).emit (.mctp 0 (leBytes 1 0 ++ leBytes 1 eid ++ leBytes 1 0))

/-- GET_ENDPOINT_ID (R529). -/
def execGetEndpointId (s : State) : Host.Outcome State Fault Refusal :=
  act s.sideUp s fun s => s.emit (.mctp 0 (leBytes 1 s.start.eid ++ leBytes 2 0))

/-- GET_MCTP_VERSION_SUPPORT (R529). -/
def execGetMctpVersionSupport (s : State) : Host.Outcome State Fault Refusal :=
  act s.sideUp s fun s => s.emit (.mctp 0 Config.mctpVersions)

/-- GET_MESSAGE_TYPE_SUPPORT: types 0x00 and 0x7E (R529). -/
def execGetMessageTypeSupport (s : State) : Host.Outcome State Fault Refusal :=
  act s.sideUp s fun s => s.emit (.mctp 0 [2, 0x00, 0x7E])

/-- GET_VENDOR_DEFINED_MESSAGE_SUPPORT: PCI vendor ID 0x1F4C (R529). -/
def execGetVendorDefinedMessageSupport (s : State) : Host.Outcome State Fault Refusal :=
  act s.sideUp s fun s => s.emit (.mctp 0 [0xFF, 0x00, 0x1F, 0x4C])

/-- Words read one after another, each under R344. -/
def State.readWords : Nat → State → Nat → List Word × State
  | 0, s, _ => ([], s)
  | n + 1, s, off =>
    let r := s.barRead off 4
    let t := State.readWords n r.2 (off + 4)
    (r.1.setWidth 32 :: t.1, t.2)

/-- READ: COUNT words of BAR0 from ARG (R344, R347, R530). -/
def execRead (count : Nat) (rsvd : BitVec 16) (arg : Word) (s : State) : Host.Outcome State Fault Refusal :=
  act s.sideUp s fun s =>
    if rsvd != 0 then s.emit (.sideband 0x0102 [])
    else if !(1 ≤ count && count ≤ 16) || arg.toNat % 4 != 0 || 0x1000000 < arg.toNat + 4 * count then s.emit (.sideband 0x0103 [])
    else
      let r := s.readWords count arg.toNat
      r.2.emit (.sideband 0 r.1)

/-- RACK_CAP: stored as R361 says; refused under lock (R361, R496, R530). -/
def execRackCap (rsvd : BitVec 16) (arg : Word) (s : State) : Host.Outcome State Fault Refusal :=
  act s.sideUp s fun s =>
    if s.sec.locked then s.emit (.sideband 0x0802 [])
    else if rsvd != 0 || bits arg.toNat 31 16 != 0 then s.emit (.sideband 0x0102 [])
    else (s.storeCap (bits arg.toNat 15 0) fun p w => { p with rackCap := w }).emit (.sideband 0 [])

/-- FACTORY_TEST: never done over the sideband (R502, R530). -/
def execFactoryTest (rsvd : BitVec 16) (s : State) : Host.Outcome State Fault Refusal :=
  act s.sideUp s fun s =>
    if s.sec.locked then s.emit (.sideband 0x0802 [])
    else if rsvd != 0 then s.emit (.sideband 0x0102 [])
    else s.emit (.sideband (if s.debugLock then 0x0803 else 0x0101) [])

/-! ## Boundary scan (R502, R532) -/

/-- The port offers boundary scan. -/
def State.scanOpen (s : State) : Bool := !s.debugLock && s.start.jtagEn

/-- Bits of a number, the lowest first. -/
def bitsOf (n v : Nat) : List Bool := (List.range n).map v.testBit

/-- IDCODE (R532). -/
def State.idcode (s : State) : Nat := putBits s.part.stepMajor 31 28 + putBits 0x0A48 27 12 + putBits 0x326 11 1 + 1

/-- Select an instruction: 0 IDCODE, 1 BYPASS, 2 SAMPLE/PRELOAD, 3 EXTEST. -/
def State.tap (s : State) (i : Nat) : State := s.setStart { s.start with tapReset := false, tapInstr := i }

/-- BYPASS: one bit of 0 (R532). -/
def execBypass (s : State) : Host.Outcome State Fault Refusal := act s.powered s fun s => (s.tap 1).emit (.tdo [false])

/-- IDCODE: 32 bits, the lowest first (R532). -/
def execIdcode (s : State) : Host.Outcome State Fault Refusal := act s.powered s fun s => (s.tap 0).emit (.tdo (bitsOf 32 s.idcode))

/-- SAMPLE/PRELOAD: the cells take the pins or what is shifted in; where the port does not offer it, BYPASS (R502, R532). -/
def execSamplePreload (sample : Bool) (cells : List Bool) (s : State) : Host.Outcome State Fault Refusal :=
  act s.powered s fun s =>
    if !s.scanOpen then (s.tap 1).emit (.tdo [false])
    else
      let old := s.start.tapCells
      let s := s.tap 2
      (s.setStart { s.start with tapCells := cells }).emit (.tdo (if sample then cells else old))

/-- EXTEST: the cells drive the pins (R502, R532). -/
def execExtest (cells : List Bool) (s : State) : Host.Outcome State Fault Refusal :=
  act s.powered s fun s =>
    if !s.scanOpen then (s.tap 1).emit (.tdo [false])
    else
      let old := s.start.tapCells
      let s := s.tap 3
      (s.setStart { s.start with tapCells := cells }).emit (.tdo old)

/-- TRST_N: the TAP in reset; IDCODE is the instruction of a TAP out of reset (R532). -/
def execTrstN (s : State) : Host.Outcome State Fault Refusal :=
  act s.powered s fun s => s.setStart { s.start with tapReset := true, tapInstr := 0 }

end Sys2Proof.Machine
end

