-- ==== Sys2Proof/Machine/Dispatch.lean ====
section
/-! DEFINITION. One arm for each command: the one call of its meaning. -/

namespace Sys2Proof.Machine

def exec (i : Instr) (s : State) : Host.Outcome State Fault Refusal :=
  match i with
  -- the steep
  | .release a0 => Sys2Proof.Machine.execRelease a0 s
  | .openingRelease a0 => Sys2Proof.Machine.execOpeningRelease a0 s
  | .adoptionRecord => Sys2Proof.Machine.execAdoptionRecord s
  | .draftPass => Sys2Proof.Machine.execDraftPass s
  | .operationIssue a0 a1 a2 a3 => Sys2Proof.Machine.execOperationIssue a0 a1 a2 a3 s
  | .operationOutput a0 a1 a2 => Sys2Proof.Machine.execOperationOutput a0 a1 a2 s
  | .normEscalation a0 => Sys2Proof.Machine.execNormEscalation a0 s
  | .verifyAndSample => Sys2Proof.Machine.execVerifyAndSample s
  | .stageOutputs => Sys2Proof.Machine.execStageOutputs s
  | .routingAdmission a0 => Sys2Proof.Machine.execRoutingAdmission a0 s
  | .dispatch a0 => Sys2Proof.Machine.execDispatch a0 s
  | .dispEnd a0 => Sys2Proof.Machine.execDispEnd a0 s
  | .pourSend a0 a1 a2 => Sys2Proof.Machine.execPourSend a0 a1 a2 s
  | .pour a0 => Sys2Proof.Machine.execPour a0 s
  | .pourEnd a0 => Sys2Proof.Machine.execPourEnd a0 s
  | .homeTableCheck a0 => Sys2Proof.Machine.execHomeTableCheck a0 s
  | .feederWorkItem a0 a1 a2 a3 => Sys2Proof.Machine.execFeederWorkItem a0 a1 a2 a3 s
  | .leafRefetch a0 a1 a2 => Sys2Proof.Machine.execLeafRefetch a0 a1 a2 s
  | .granuleRefetch a0 a1 a2 => Sys2Proof.Machine.execGranuleRefetch a0 a1 a2 s
  | .cosyRampDown a0 a1 a2 => Sys2Proof.Machine.execCosyRampDown a0 a1 a2 s
  | .cosyRampUp a0 => Sys2Proof.Machine.execCosyRampUp a0 s
  | .beatStall a0 => Sys2Proof.Machine.execBeatStall a0 s
  | .delayLineCalibration a0 => Sys2Proof.Machine.execDelayLineCalibration a0 s
  | .engineFailover a0 => Sys2Proof.Machine.execEngineFailover a0 s
  | .seqTableRebuild => Sys2Proof.Machine.execSeqTableRebuild s
  -- memory tiers; a requester below 2²⁰ is the sequence whose work reads
  | .granuleMiss a0 a1 => Sys2Proof.Machine.execGranuleMiss a0 a1 s
  | .granuleFillComplete a0 a1 a2 => Sys2Proof.Machine.execGranuleFillComplete a0 a1 a2 s
  | .swapPrefill a0 a1 => Sys2Proof.Machine.execSwapPrefill a0 a1 s
  | .patrolScrub a0 a1 => Sys2Proof.Machine.execPatrolScrub a0 a1 s
  | .clearingScrub => Sys2Proof.Machine.execClearingScrub s
  | .localAtomic a0 a1 a2 a3 a4 => Sys2Proof.Machine.execLocalAtomic a0 a1 a2 a3 a4 s
  | .channelLoss a0 => Sys2Proof.Machine.execChannelLoss a0 s
  -- caddy
  | .caddyOpen => Sys2Proof.Machine.execCaddyOpen s
  | .buildChunk a0 a1 => Sys2Proof.Machine.execBuildChunk a0 a1 s
  | .swapArmReceive a0 a1 => Sys2Proof.Machine.execSwapArmReceive a0 a1 s
  | .swapArmReply a0 a1 => Sys2Proof.Machine.execSwapArmReply a0 a1 s
  | .swapArmTimeout a0 => Sys2Proof.Machine.execSwapArmTimeout a0 s
  | .quickQuiesce => Sys2Proof.Machine.execQuickQuiesce s
  -- host rings
  | .sqTail a0 a1 => Sys2Proof.Machine.execSqTail a0 a1 s
  | .cqHead a0 a1 a2 => Sys2Proof.Machine.execCqHead a0 a1 a2 s
  | .descriptorRead a0 a1 => Sys2Proof.Machine.execDescriptorRead a0 a1 s
  | .nop a0 => Sys2Proof.Machine.execNop a0 s
  | .modelLoad a0 => Sys2Proof.Machine.execModelLoad a0 s
  | .modelUnload a0 => Sys2Proof.Machine.execModelUnload a0 s
  | .swapArm a0 => Sys2Proof.Machine.execSwapArm a0 s
  | .swapDisarm a0 => Sys2Proof.Machine.execSwapDisarm a0 s
  | .tenantSet a0 => Sys2Proof.Machine.execTenantSet a0 s
  | .tenantRemove a0 => Sys2Proof.Machine.execTenantRemove a0 s
  | .tenantQuery a0 => Sys2Proof.Machine.execTenantQuery a0 s
  | .steerSet a0 => Sys2Proof.Machine.execSteerSet a0 s
  | .seqOpen a0 => Sys2Proof.Machine.execSeqOpen a0 s
  | .seqPrompt a0 => Sys2Proof.Machine.execSeqPrompt a0 s
  | .seqSet a0 => Sys2Proof.Machine.execSeqSet a0 s
  | .seqClose a0 => Sys2Proof.Machine.execSeqClose a0 s
  | .seqCancel a0 => Sys2Proof.Machine.execSeqCancel a0 s
  | .seqQuery a0 => Sys2Proof.Machine.execSeqQuery a0 s
  | .objectSet a0 => Sys2Proof.Machine.execObjectSet a0 s
  | .bulkCopy a0 => Sys2Proof.Machine.execBulkCopy a0 s
  | .bulkConvert a0 => Sys2Proof.Machine.execBulkConvert a0 s
  | .bulkCompress a0 => Sys2Proof.Machine.execBulkCompress a0 s
  | .weightInstall a0 => Sys2Proof.Machine.execWeightInstall a0 s
  | .swapBuild a0 => Sys2Proof.Machine.execSwapBuild a0 s
  | .caddyScrub a0 => Sys2Proof.Machine.execCaddyScrub a0 s
  | .opSuspend a0 => Sys2Proof.Machine.execOpSuspend a0 s
  | .opResume a0 => Sys2Proof.Machine.execOpResume a0 s
  | .opCancel a0 => Sys2Proof.Machine.execOpCancel a0 s
  | .opQuery a0 => Sys2Proof.Machine.execOpQuery a0 s
  | .longOpSafePoint a0 a1 a2 => Sys2Proof.Machine.execLongOpSafePoint a0 a1 a2 s
  | .longOpComplete a0 a1 => Sys2Proof.Machine.execLongOpComplete a0 a1 s
  | .syncAdd a0 => Sys2Proof.Machine.execSyncAdd a0 s
  | .syncWait a0 => Sys2Proof.Machine.execSyncWait a0 s
  | .syncTimeout a0 => Sys2Proof.Machine.execSyncTimeout a0 s
  | .msgSend a0 => Sys2Proof.Machine.execMsgSend a0 s
  | .moderationTimeout a0 => Sys2Proof.Machine.execModerationTimeout a0 s
  -- set-up registers
  | .ringEnable a0 a1 => Sys2Proof.Machine.execRingEnable a0 a1 s
  | .ringDisable a0 a1 => Sys2Proof.Machine.execRingDisable a0 a1 s
  | .ringDrainComplete a0 => Sys2Proof.Machine.execRingDrainComplete a0 s
  | .overflowClear a0 a1 => Sys2Proof.Machine.execOverflowClear a0 a1 s
  | .registerWrite a0 a1 a2 => Sys2Proof.Machine.execRegisterWrite a0 a1 a2 s
  | .lowWordRead a0 a1 => Sys2Proof.Machine.execLowWordRead a0 a1 s
  | .memSliceWrite a0 a1 => Sys2Proof.Machine.execMemSliceWrite a0 a1 s
  | .memClassChCommit a0 a1 => Sys2Proof.Machine.execMemClassChCommit a0 a1 s
  | .exportStore a0 => Sys2Proof.Machine.execExportStore a0 s
  | .exportLoad a0 => Sys2Proof.Machine.execExportLoad a0 s
  | .trustedEnWrite a0 => Sys2Proof.Machine.execTrustedEnWrite a0 s
  | .pwrCapWrite a0 => Sys2Proof.Machine.execPwrCapWrite a0 s
  | .dbgInject a0 => Sys2Proof.Machine.execDbgInject a0 s
  | .errLogSel a0 => Sys2Proof.Machine.execErrLogSel a0 s
  | .errRingHead a0 => Sys2Proof.Machine.execErrRingHead a0 s
  | .hifBootGo a0 => Sys2Proof.Machine.execHifBootGo a0 s
  -- links and discovery
  | .linkEnable a0 a1 => Sys2Proof.Machine.execLinkEnable a0 a1 s
  | .linkDisable a0 a1 => Sys2Proof.Machine.execLinkDisable a0 a1 s
  | .linkTrainingComplete a0 a1 => Sys2Proof.Machine.execLinkTrainingComplete a0 a1 s
  | .flitReceive a0 a1 => Sys2Proof.Machine.execFlitReceive a0 a1 s
  | .controlFlit a0 a1 a2 a3 => Sys2Proof.Machine.execControlFlit a0 a1 a2 a3 s
  | .linkAckTimeout a0 => Sys2Proof.Machine.execLinkAckTimeout a0 s
  | .creditReturn a0 => Sys2Proof.Machine.execCreditReturn a0 s
  | .linkDown a0 a1 => Sys2Proof.Machine.execLinkDown a0 a1 s
  | .linkRetrainExhausted a0 => Sys2Proof.Machine.execLinkRetrainExhausted a0 s
  | .helloSend => Sys2Proof.Machine.execHelloSend s
  | .hello a0 a1 => Sys2Proof.Machine.execHello a0 a1 s
  | .claimSend => Sys2Proof.Machine.execClaimSend s
  | .claim a0 a1 => Sys2Proof.Machine.execClaim a0 a1 s
  | .electionTimeout => Sys2Proof.Machine.execElectionTimeout s
  | .query a0 a1 => Sys2Proof.Machine.execQuery a0 a1 s
  | .reply a0 a1 => Sys2Proof.Machine.execReply a0 a1 s
  | .queryTimeout => Sys2Proof.Machine.execQueryTimeout s
  | .assign a0 a1 => Sys2Proof.Machine.execAssign a0 a1 s
  | .assignAck a0 a1 => Sys2Proof.Machine.execAssignAck a0 a1 s
  | .linkReport a0 a1 a2 => Sys2Proof.Machine.execLinkReport a0 a1 a2 s
  | .join a0 a1 a2 a3 => Sys2Proof.Machine.execJoin a0 a1 a2 a3 s
  | .memberMask a0 a1 a2 => Sys2Proof.Machine.execMemberMask a0 a1 a2 s
  -- fabric
  | .loadIssue a0 a1 a2 a3 a4 a5 a6 => Sys2Proof.Machine.execLoadIssue a0 a1 a2 a3 a4 a5 a6 s
  | .storeIssue a0 a1 a2 a3 a4 a5 => Sys2Proof.Machine.execStoreIssue a0 a1 a2 a3 a4 a5 s
  | .atomicIssue a0 a1 a2 a3 a4 a5 a6 a7 a8 => Sys2Proof.Machine.execAtomicIssue a0 a1 a2 a3 a4 a5 a6 a7 a8 s
  | .invalidateIssue a0 a1 a2 a3 a4 a5 => Sys2Proof.Machine.execInvalidateIssue a0 a1 a2 a3 a4 a5 s
  | .invalidateWaitTimeout a0 => Sys2Proof.Machine.execInvalidateWaitTimeout a0 s
  | .ownXferIssue a0 a1 a2 a3 a4 a5 => Sys2Proof.Machine.execOwnXferIssue a0 a1 a2 a3 a4 a5 s
  | .fence a0 a1 a2 => Sys2Proof.Machine.execFence a0 a1 a2 s
  | .fenceTimeout a0 => Sys2Proof.Machine.execFenceTimeout a0 s
  | .load a0 => Sys2Proof.Machine.execLoad a0 s
  | .store a0 => Sys2Proof.Machine.execStore a0 s
  | .atomic a0 => Sys2Proof.Machine.execAtomic a0 s
  | .invalidate a0 => Sys2Proof.Machine.execInvalidate a0 s
  | .ownXfer a0 => Sys2Proof.Machine.execOwnXfer a0 s
  | .fabricResponse a0 => Sys2Proof.Machine.execFabricResponse a0 s
  | .fabricRetry a0 => Sys2Proof.Machine.execFabricRetry a0 s
  | .replayEntryExpiry a0 a1 a2 => Sys2Proof.Machine.execReplayEntryExpiry a0 a1 a2 s
  | .message a0 => Sys2Proof.Machine.execMessage a0 s
  | .messageAck a0 => Sys2Proof.Machine.execMessageAck a0 s
  | .messageRetry a0 => Sys2Proof.Machine.execMessageRetry a0 s
  -- domain
  | .enterTest a0 => Sys2Proof.Machine.execEnterTest a0 s
  | .enterService a0 => Sys2Proof.Machine.execEnterService a0 s
  | .returnToBringup => Sys2Proof.Machine.execReturnToBringup s
  | .adoptHomeTable a0 => Sys2Proof.Machine.execAdoptHomeTable a0 s
  | .steepClose a0 => Sys2Proof.Machine.execSteepClose a0 s
  | .releasePost => Sys2Proof.Machine.execReleasePost s
  | .replicationRecord => Sys2Proof.Machine.execReplicationRecord s
  | .standbyTakeover => Sys2Proof.Machine.execStandbyTakeover s
  | .barrierArrivalTimeout a0 => Sys2Proof.Machine.execBarrierArrivalTimeout a0 s
  | .leaveNotice => Sys2Proof.Machine.execLeaveNotice s
  | .mgmtWatchdogExpiry => Sys2Proof.Machine.execMgmtWatchdogExpiry s
  | .tclkLost => Sys2Proof.Machine.execTclkLost s
  | .tclkRestore => Sys2Proof.Machine.execTclkRestore s
  -- power
  | .kettleWindowEnd a0 => Sys2Proof.Machine.execKettleWindowEnd a0 s
  | .vcoreStep => Sys2Proof.Machine.execVcoreStep s
  | .thermalLimitUpdate a0 => Sys2Proof.Machine.execThermalLimitUpdate a0 s
  | .droopTrip a0 a1 => Sys2Proof.Machine.execDroopTrip a0 a1 s
  | .droopRelease a0 a1 => Sys2Proof.Machine.execDroopRelease a0 a1 s
  | .pwrBrakeAssert a0 => Sys2Proof.Machine.execPwrBrakeAssert a0 s
  | .pwrBrakeRelease => Sys2Proof.Machine.execPwrBrakeRelease s
  | .brakeHeld => Sys2Proof.Machine.execBrakeHeld s
  | .thermalTrip a0 a1 a2 => Sys2Proof.Machine.execThermalTrip a0 a1 a2 s
  | .firstStageOpen a0 => Sys2Proof.Machine.execFirstStageOpen a0 s
  -- security
  | .fuseCheck a0 => Sys2Proof.Machine.execFuseCheck a0 s
  | .secAlarm a0 a1 => Sys2Proof.Machine.execSecAlarm a0 a1 s
  | .ideIntegrityFailure => Sys2Proof.Machine.execIdeIntegrityFailure s
  | .getVersion a0 => Sys2Proof.Machine.execGetVersion a0 s
  | .getCapabilities a0 => Sys2Proof.Machine.execGetCapabilities a0 s
  | .negotiateAlgorithms a0 a1 => Sys2Proof.Machine.execNegotiateAlgorithms a0 a1 s
  | .getDigests a0 => Sys2Proof.Machine.execGetDigests a0 s
  | .getCertificate a0 a1 a2 a3 => Sys2Proof.Machine.execGetCertificate a0 a1 a2 a3 s
  | .challenge a0 a1 => Sys2Proof.Machine.execChallenge a0 a1 s
  | .getMeasurements a0 a1 a2 => Sys2Proof.Machine.execGetMeasurements a0 a1 a2 s
  | .keyExchange a0 => Sys2Proof.Machine.execKeyExchange a0 s
  | .finish a0 => Sys2Proof.Machine.execFinish a0 s
  | .keyUpdate a0 => Sys2Proof.Machine.execKeyUpdate a0 s
  | .heartbeat a0 => Sys2Proof.Machine.execHeartbeat a0 s
  | .endSession a0 => Sys2Proof.Machine.execEndSession a0 s
  | .chunkSend a0 a1 a2 a3 a4 => Sys2Proof.Machine.execChunkSend a0 a1 a2 a3 a4 s
  | .chunkGet a0 a1 a2 => Sys2Proof.Machine.execChunkGet a0 a1 a2 s
  | .vendorDefinedRequest a0 a1 a2 => Sys2Proof.Machine.execVendorDefinedRequest a0 a1 a2 s
  | .spdmUnsupportedRequest a0 a1 => Sys2Proof.Machine.execSpdmUnsupportedRequest a0 a1 s
  -- start-up, pins and sideband
  | .powerOnReset => Sys2Proof.Machine.execPowerOnReset s
  | .pkgResetN => Sys2Proof.Machine.execPkgResetN s
  | .packageResetRelease a0 => Sys2Proof.Machine.execPackageResetRelease a0 s
  | .perstN a0 => Sys2Proof.Machine.execPerstN a0 s
  | .perstNDeassert => Sys2Proof.Machine.execPerstNDeassert s
  | .emergencyOffN a0 => Sys2Proof.Machine.execEmergencyOffN a0 s
  | .traySenseN a0 => Sys2Proof.Machine.execTraySenseN a0 s
  | .traySenseDeassert => Sys2Proof.Machine.execTraySenseDeassert s
  | .rackPgChange a0 a1 => Sys2Proof.Machine.execRackPgChange a0 a1 s
  | .startGateMet a0 => Sys2Proof.Machine.execStartGateMet a0 s
  | .pkgPgHigh a0 => Sys2Proof.Machine.execPkgPgHigh a0 s
  | .bootImageVerify a0 => Sys2Proof.Machine.execBootImageVerify a0 s
  | .coreTileTest a0 a1 => Sys2Proof.Machine.execCoreTileTest a0 a1 s
  | .hbmTrainTest a0 => Sys2Proof.Machine.execHbmTrainTest a0 s
  | .setdasa a0 => Sys2Proof.Machine.execSetdasa a0 s
  | .setaasa => Sys2Proof.Machine.execSetaasa s
  | .setEndpointId a0 => Sys2Proof.Machine.execSetEndpointId a0 s
  | .getEndpointId => Sys2Proof.Machine.execGetEndpointId s
  | .getMctpVersionSupport => Sys2Proof.Machine.execGetMctpVersionSupport s
  | .getMessageTypeSupport => Sys2Proof.Machine.execGetMessageTypeSupport s
  | .getVendorDefinedMessageSupport => Sys2Proof.Machine.execGetVendorDefinedMessageSupport s
  | .read a0 a1 a2 => Sys2Proof.Machine.execRead a0 a1 a2 s
  | .rackCap a0 a1 => Sys2Proof.Machine.execRackCap a0 a1 s
  | .factoryTest a0 => Sys2Proof.Machine.execFactoryTest a0 s
  | .bypass => Sys2Proof.Machine.execBypass s
  | .idcode => Sys2Proof.Machine.execIdcode s
  | .samplePreload a0 a1 => Sys2Proof.Machine.execSamplePreload a0 a1 s
  | .extest a0 => Sys2Proof.Machine.execExtest a0 s
  | .trstN => Sys2Proof.Machine.execTrstN s
  | .managementProcessorResetEnd => Sys2Proof.Machine.execManagementProcessorResetEnd s
  | .vaonLoss => Sys2Proof.Machine.execVaonLoss s
  | .emergencyOffDeassert => Sys2Proof.Machine.execEmergencyOffDeassert s
  | .alarmInputDeassert a0 => Sys2Proof.Machine.execAlarmInputDeassert a0 s
  | .doeDiscovery a0 => Sys2Proof.Machine.execDoeDiscovery a0 s

end Sys2Proof.Machine
end

