-- ==== Sys2Proof/Machine/Step.lean ====
section
/-! DEFINITION. One step: the command at the front of the queue, or one TCLK period of an idle package. -/

namespace Sys2Proof.Machine

/-- One period of TCLK passes: the timer counter advances while VAON is present (R48, notes/assumptions/5.md). -/
def State.tick (s : State) : State :=
  if s.start.vaon then { s with time := { s.time with count := s.time.count + 1 } } else s

/-- Take the command at the front of the queue; an empty queue lets one TCLK period pass. -/
def step (s : State) : Host.Outcome State Fault Refusal :=
  match s.pending with
  | [] => .next s.tick
  | c :: cs => exec c { s with pending := cs }

/-- The state with the command that a table word spells in front of its queue: the table gives no row any
bits, so no word spells one. -/
def State.withFetchWord (s : State) (nbits w : Nat) : State :=
  match decodeTableWord nbits w with
  | some c => { s with pending := c :: s.pending }
  | none => s

end Sys2Proof.Machine
end

