-- ==== Sys2Proof/WellFormed.lean ====
section
/-! DEFINITION. Well-formed commands: every operand lies in the range that the specification gives it. A field
that the specification lets hold any value of its width, and checks on receipt, only has to fit that width. -/

namespace Sys2Proof.WellFormed

/-- A number fits a field of `w` bits. -/
def fits (w n : Nat) : Bool := n < 2 ^ w
/-- A ring pair number (R318). -/
def ringOk (n : Nat) : Bool := n < 8192
/-- A compute die (R107). -/
def dieOk (d : Nat) : Bool := d < 4
/-- A link index of the largest variant (R2, R359). -/
def linkOk (l : Nat) : Bool := l < 72
/-- A node number (R383). -/
def nodeOk (n : Nat) : Bool := n < 256
/-- An engine of a compute die (R393). -/
def engineOk (e : Nat) : Bool := fits 6 e

/-- Every element of a list passes a test. -/
def all {α : Type} (p : α → Bool) (l : List α) : Bool := l.all p

/-- A tile (R107, R443). -/
def tileOk (t : TileAt) : Bool := dieOk t.die && t.core < 64 && t.tile < 2

/-- A work item (R94, R99). -/
def itemOk (w : WorkItem) : Bool := w.expert.all (fits 16) && fits 32 w.index

/-- Sensor readings: 32 on each of four compute dies, 8 on an I/O die, 4 on a base die, 2 on each of two caddy dies
(R478). -/
def tempsOk (t : TempMeas) : Bool :=
  t.compute.length = 4 && (t.io.length = 2 || t.io.length = 3) && t.base.length ≤ 16 && t.caddy.length = 2 &&
    all (fun d => d.length = 32) t.compute && all (fun d => d.length = 8) t.io && all (fun d => d.length = 4) t.base &&
    all (fun d => d.length = 2) t.caddy

/-- What a batch forming meets outside. -/
def boundaryOk (b : BoundaryIn) : Bool := all (fun p => fits 20 p.1) b.prompts && all (fits 20) b.badCopy

/-- A routing packet: every header field within its width (R181). -/
def routePktOk (p : RoutePkt) : Bool :=
  fits 8 p.src && fits 8 p.layer && fits 8 p.homeNode && fits 8 p.ptype && fits 16 p.slot && fits 12 p.expert &&
    fits 16 p.elems && fits 16 p.localExpert && fits 4 p.fmt && fits 32 p.count

/-- A home table entry (R171). -/
def homeEntryOk (e : HomeEntry) : Bool :=
  fits 8 e.homeNode && fits 16 e.homeLocal && fits 8 e.shadowNode && fits 16 e.shadowLocal && fits 16 e.capacity

/-- A home table revision (R171, R173). -/
def revOk (r : HomeRev) : Bool := all nodeOk r.members && all homeEntryOk r.entries

/-- What `BUILD_CHUNK` reads (R294). -/
def buildInOk : BuildIn → Bool
  | .header h => fits 64 h.winBytes && fits 32 h.chunks && h.keyBlock.length = 1632
  | .chunk h payload _ =>
    fits 48 h.winOffset && fits 32 h.length && fits 4 h.kind && fits 48 h.copyFrom && payload.length ≤ 64 * 2 ^ 20
  | .hostFail => true

/-- A discovery frame: every field within its width (R379). -/
def frameOk (f : Frame) : Bool :=
  fits 4 f.kind && fits 2 f.mgrPrio && fits 8 f.node && fits 8 f.manager && fits 16 f.epoch && fits 8 f.link &&
    fits 4 f.variant && fits 4 f.lanes && fits 16 f.swPort && fits 16 f.targetPort && fits 16 f.plane &&
    fits 8 f.assignNode && fits 8 f.standby && fits 9 f.count && fits 8 f.dest && fits 2 f.senderKind

/-- A fabric packet: every field within its width (R394). -/
def fabPktOk (p : FabPkt) : Bool :=
  fits 8 p.op && fits 8 p.src && fits 8 p.dst && fits 2 p.srcDie && fits 3 p.asub && fits 12 p.lenM1 &&
    p.payload.length ≤ 4096

/-- A flit (R371). -/
def flitOk (f : Flit) : Bool := fits 4 f.ftype && fits 2 f.vc && fits 12 f.seq && fits 12 f.ack && f.payload.length = 508

/-- A kettle window: one entry for each compute die (R467). -/
def measOk (m : WindowMeas) : Bool := m.dieCap.length = 4 && m.beatRate.length = 4 && tempsOk m.temps

/-- A granule as its tier returned it (R278). -/
def fillOk (f : FillIn) : Bool := f.bytes.all fun b => b.length = 65536

/-- Segments of the caddy named in an input: die and physical segment (R290). -/
def segOk (p : Nat × Nat) : Bool := p.1 < 2 && p.2 < 3072

/-- What a long operation meets outside. -/
def opInOk (i : OpIn) : Bool := all segOk i.lostSegs && all segOk i.fixedSegs

/-- Straps (R520). -/
def strapsOk (s : Straps) : Bool := fits 2 s.mgrPrio && fits 3 s.i3cSa

/-- A failing core-store bank (R451). -/
def coreFaultOk : CoreFault → Bool
  | .storeUncorr bank => bank < 64
  | .residue => true
  | .dieLine a => fits 48 a

/-- A fuse field's copies (R487). -/
def fuseOk : FuseField → Bool
  | .alarmAction a b => fits 2 a && fits 2 b
  | .startMode a b => fits 2 a && fits 2 b
  | .keyValid slot => slot < 2
  | .fwkeyHash slot => slot < 2
  | .debugLock | .trustedOk | .rollback | .secret => true

/-- A plane-map entry (R385). -/
def planeOk (e : PlaneEntry) : Bool := nodeOk e.node && all nodeOk e.peers && all (fits 16) e.planes

/-- An SPDM request (R504). -/
def spdmOk (r : SpdmReq) : Bool := fits 8 r.param1 && fits 8 r.param2

end Sys2Proof.WellFormed

namespace Sys2Proof

open WellFormed in
/-- Every operand of a command lies in its range. -/
def Instr.wf : Instr → Bool
  | .release b | .openingRelease b => boundaryOk b
  | .adoptionRecord | .stageOutputs | .seqTableRebuild | .clearingScrub | .caddyOpen | .quickQuiesce
  | .draftPass | .verifyAndSample => true
  | .operationIssue _ _ e _ => e.all (fits 16)
  | .operationOutput _ _ e => e.all (fits 16)
  | .normEscalation _ => true
  | .routingAdmission layer => fits 8 layer
  | .dispatch p | .dispEnd p | .pour p | .pourEnd p => routePktOk p
  | .pourSend src expert slot => nodeOk src && fits 12 expert && fits 16 slot
  | .homeTableCheck r => revOk r
  | .feederWorkItem t w _ f => tileOk t && itemOk w && f.all coreFaultOk
  | .leafRefetch t _ _ | .cosyRampUp t | .beatStall t => tileOk t
  | .cosyRampDown t gap steps => tileOk t && gap ≤ 48 && steps ≤ 16
  | .granuleRefetch t a b => tileOk t && fillOk a && fillOk b
  | .delayLineCalibration die => dieOk die
  | .engineFailover _ => true
  | .granuleMiss addr _ => fits 48 addr
  | .granuleFillComplete addr a b => fits 48 addr && fillOk a && fillOk b
  | .swapPrefill _ a => fillOk a
  | .patrolScrub addr _ => fits 48 addr && addr % 64 = 0
  | .localAtomic _ _ addr _ _ => fits 48 addr
  | .channelLoss c => c < 512
  | .buildChunk _ b => buildInOk b
  | .swapArmReceive _ r => revOk r
  | .swapArmReply n _ | .swapArmTimeout n | .barrierArrivalTimeout n => nodeOk n
  | .sqTail r _ | .cqHead r _ _ | .descriptorRead r _ | .ringEnable r _ | .ringDisable r _ | .overflowClear r _ => ringOk r
  | .nop r | .modelLoad r | .modelUnload r | .swapArm r | .swapDisarm r | .tenantSet r | .tenantRemove r
  | .tenantQuery r | .steerSet r | .seqOpen r | .seqPrompt r | .seqSet r | .seqClose r | .seqCancel r | .seqQuery r
  | .objectSet r | .bulkCopy r | .bulkConvert r | .bulkCompress r | .weightInstall r | .swapBuild r | .caddyScrub r
  | .opSuspend r | .opResume r | .opCancel r | .opQuery r | .syncAdd r | .syncWait r | .msgSend r
  | .moderationTimeout r | .ringDrainComplete r => ringOk r
  | .longOpSafePoint h _ i => fits 32 h && opInOk i
  | .longOpComplete h i => fits 32 h && opInOk i
  | .syncTimeout _ | .invalidateWaitTimeout _ | .fenceTimeout _ | .messageRetry _ => true
  | .registerWrite off _ _ | .lowWordRead off _ => fits 24 off
  | .memSliceWrite off _ => off = 0x120000 || off = 0x120004 || off = 0x120008
  | .memClassChCommit c _ => c < 16
  | .exportStore _ | .exportLoad _ | .trustedEnWrite _ | .pwrCapWrite _ | .dbgInject _ | .errLogSel _
  | .errRingHead _ | .hifBootGo _ => true
  | .linkEnable l _ | .linkDisable l _ | .linkTrainingComplete l _ | .linkAckTimeout l | .creditReturn l
  | .linkDown l _ | .linkRetrainExhausted l => linkOk l
  | .flitReceive l f => linkOk l && flitOk f
  | .controlFlit l f nak credits =>
    linkOk l && flitOk f && nak.all (fits 12) && credits.length = 4 && all (fits 16) credits
  | .helloSend | .claimSend | .electionTimeout | .queryTimeout => true
  | .hello l f | .claim l f | .query l f | .reply l f | .assign l f | .assignAck l f
  | .linkReport l f _ | .join l f _ _ => linkOk l && frameOk f
  | .memberMask _ planes _ => all planeOk planes
  | .loadIssue d e _ len _ _ _ => dieOk d && engineOk e && 0 < len && len ≤ 4096
  | .storeIssue d e _ data _ _ => dieOk d && engineOk e && 0 < data.length && data.length ≤ 4096
  | .atomicIssue d e _ _ _ _ _ _ _ | .invalidateIssue d e _ _ _ _ | .fence d e _ => dieOk d && engineOk e
  | .ownXferIssue d e node job owner _ => dieOk d && engineOk e && nodeOk node && fits 12 job && fits 8 owner
  | .load p | .store p | .atomic p | .invalidate p | .ownXfer p | .fabricResponse p | .message p
  | .messageAck p => fabPktOk p
  | .fabricRetry _ => true
  | .replayEntryExpiry src die _ => fits 8 src && fits 2 die
  | .enterTest _ | .enterService _ | .returnToBringup | .releasePost | .replicationRecord | .standbyTakeover
  | .leaveNotice | .mgmtWatchdogExpiry | .tclkLost | .tclkRestore => true
  | .adoptHomeTable ns | .steepClose ns => all (fun p => nodeOk p.1 && fits 64 p.2) ns
  | .kettleWindowEnd m => measOk m
  | .vcoreStep => true
  | .thermalLimitUpdate t => tempsOk t
  | .droopTrip d i | .droopRelease d i => dieOk d && i < 16
  | .pwrBrakeAssert _ | .pwrBrakeRelease | .brakeHeld => true
  | .thermalTrip u d p => fits 8 u && fits 4 d && fits 16 p
  | .firstStageOpen c => match c with
    | .railCurrent r => r < 16
    | .vinRange | .busCurrent => true
  | .fuseCheck fs | .pkgPgHigh fs => all fuseOk fs
  | .secAlarm _ _ | .ideIntegrityFailure => true
  | .getVersion r | .getCapabilities r | .negotiateAlgorithms r _ | .getDigests r | .keyExchange r | .finish r
  | .keyUpdate r | .heartbeat r | .endSession r | .vendorDefinedRequest r _ _ => spdmOk r
  | .getCertificate r slot off len => spdmOk r && fits 4 slot && fits 16 off && fits 16 len
  | .challenge r slot => spdmOk r && fits 8 slot
  | .getMeasurements r i _ => spdmOk r && fits 8 i
  | .chunkSend r h n _ total => spdmOk r && fits 8 h && fits 16 n && fits 32 total
  | .chunkGet r h n => spdmOk r && fits 8 h && fits 16 n
  | .spdmUnsupportedRequest r code => spdmOk r && fits 8 code
  | .powerOnReset | .pkgResetN | .perstNDeassert | .traySenseDeassert | .setaasa | .getEndpointId
  | .getMctpVersionSupport | .getMessageTypeSupport | .getVendorDefinedMessageSupport | .bypass | .idcode | .trstN
  | .managementProcessorResetEnd | .vaonLoss | .emergencyOffDeassert => true
  | .packageResetRelease st => strapsOk st
  | .perstN _ | .emergencyOffN _ | .traySenseN _ | .startGateMet _ => true
  | .rackPgChange i _ => i < 5
  | .bootImageVerify im => im.all fun b => b.length ≤ 8 * 2 ^ 20
  | .coreTileTest cores tiles => cores.length = 4 && tiles.length = 4
  | .hbmTrainTest _ => true
  | .setdasa a => fits 7 a
  | .setEndpointId e => fits 8 e
  | .read count _ _ => fits 8 count
  | .rackCap _ _ | .factoryTest _ => true
  | .samplePreload _ _ | .extest _ => true
  | .alarmInputDeassert _ => true
  | .doeDiscovery i => fits 8 i

end Sys2Proof
end

