-- ==== Sys2Proof/Safety.lean ====
section
/-! DEFINITION. What a safe run of the block is: no step stops, and every byte store stays in its canonical form. -/

namespace Sys2Proof.Machine

/-- The step answers a next state. -/
def State.stepSafe (s : State) : Prop := ∃ t, step s = .next t

/-- Every byte store of the package is canonical: device memory, the boot window and both caddy banks. -/
def State.memWf (s : State) : Bool :=
  Memory.wf s.mem.hbm && Memory.wf s.hif.bootWin && Memory.wf s.caddy.bankA.data && Memory.wf s.caddy.bankB.data

/-- Every command that waits is well-formed. -/
def State.queueWf (s : State) : Bool := s.pending.all Instr.wf

end Sys2Proof.Machine
end

