-- ==== Sys2Proof/Certificates/Slice0/Obligations.lean ====
section
/-! DEFINITION. The statements for the provers, by family of commands. -/

open Sys2Proof Sys2Proof.Machine

/-! ## The whole machine -/

/-- A step with a command at the front of the queue is that command on the rest of the queue. With an empty queue one
period of TCLK passes, the model's choice of notes/assumptions/5.md: the timer advances by 1 while VAON is present,
and nothing else changes. -/
def Obligations.StepRunsTheFrontCommand : Prop :=
  (∀ (s : State) (c : Instr) (cs : List Instr), s.pending = c :: cs → step s = exec c { s with pending := cs }) ∧
  (∀ s : State, s.pending = [] → s.start.vaon = true →
    step s = .next { s with time := { s.time with count := s.time.count + 1 } }) ∧
  (∀ s : State, s.pending = [] → s.start.vaon = false → step s = .next s)

/-- Registers whose reset value the register tables state read it after the power-on reset of every package of the
reference variant, and in the reset state: identification, timer and refusals, a ring pair, the serving limits, the
memory layout and ways, the caddy's rates, the domain's words, the caps, the log's counts. The reset state has no
command waiting (R49, R317, R349 to R364). -/
def Obligations.ResetRegistersReadTheirValues : Prop :=
  let rows : List (Nat × Word) :=
    [(0x0, 0x1F4C0A48), (0x4, 0x00301021), (0x18, 0), (0x1C, 0), (0x20, 0), (0x24, 0), (0x28, 0), (0x30, 0), (0x10000, 0), (0x8FFC8, 0),
     (0x100000, 32768), (0x100004, 2048), (0x100014, 4), (0x100018, 0), (0x101008, 0), (0x110000, 0), (0x120000, 256), (0x120004, 4),
     (0x120008, 8), (0x12000C, 256), (0x120010, 0), (0x120020, 24), (0x120028, 0x80), (0x120040, 0xFFFFFFFF), (0x120280, 0), (0x120400, 0),
     (0x13000C, 4), (0x130010, 2), (0x140004, 0), (0x140008, 0), (0x140020, 0), (0x140040, 0), (0x170000, 4000), (0x170004, 0xFFFF),
     (0x170010, 0), (0x190000, 0), (0x190008, 0), (0x190014, 0), (0x190018, 0), (0x19001C, 0), (0x1A0000, 0)]
  (∀ r ∈ rows, (State.reset.regAt r.1).word 0 = r.2) ∧ State.reset.pending = [] ∧ State.reset.latched 0x120044 = 0xFFFFFFFF ∧
  ∀ s : State, s.start.vaon = false → s.part.variant = 1 → ∃ t : State, exec .powerOnReset s = .next t ∧ ∀ r ∈ rows, (t.regAt r.1).word 0 = r.2

/-- Every command completes: it answers a next state whatever the state it meets, and leaves the commands that wait as
they are. So no step of the block stops. -/
def Obligations.NoCommandStops : Prop :=
  (∀ (c : Instr) (s : State), ∃ t : State, exec c s = .next t ∧ t.pending = s.pending) ∧ ∀ s : State, s.stepSafe

/-- Every step keeps the byte stores in their canonical form: device memory, the boot window and both caddy banks stay
sorted lists of addresses that hold no zero byte, so equal contents are equal states. The form is the model's own
(notes/assumptions/4.md). -/
def Obligations.StepsKeepTheMemoryForm : Prop :=
  ∀ s t : State, s.memWf = true → step s = .next t → t.memWf = true

/-- The reset state's byte stores have the canonical form that every step keeps (notes/assumptions/4.md). -/
def Obligations.ResetHasTheMemoryForm : Prop :=
 State.reset.memWf = true ∧ State.reset.queueWf = true

/-- The timer counter: a command leaves it as it is, but for the power-on reset, a package reset and the loss of VAON's
own power, which leave 0; the first stage closing again after a VIN fault is such a power-on reset. A period of TCLK
with no command adds 1 to it (R48, R522; notes/assumptions/5.md). -/
def Obligations.CommandsLeaveTheTimer : Prop :=
  (∀ (c : Instr) (s t : State), exec c s = .next t → t.time.count = s.time.count ∨
    (t.time.count = 0 ∧ (c = .powerOnReset ∨ c = .pkgResetN ∨ c = .vaonLoss ∨ ((∃ v, c = .startGateMet v) ∧ s.start.vinOpen = true)))) ∧
  (∀ s : State, s.start.vaon = true → s.start.inReset = false → ∃ t : State, exec .pkgResetN s = .next t ∧ t.time.count = 0) ∧
  (∀ s : State, s.pending = [] → s.start.vaon = true → ∃ t, step s = .next t ∧ t.time.count = s.time.count + 1)

/-- What only a reset or the opening of the first stage ends: a package-fatal stop stays, a locked package stays locked,
a package with its rails up whose log is silent writes no further error record, and the part and its fuses stay
whatever happens, but for ROLLBACK, which a boot image that asks for it advances (R458, R487, R496, R500). -/
def Obligations.OnlyResetsEndAStop : Prop :=
  ∀ (c : Instr) (s t : State), exec c s = .next t →
    (t.part = s.part ∨ (∃ n, t.part = { s.part with rollback := n } ∧ s.part.rollback ≤ n)) ∧
    ((c = .powerOnReset ∨ c = .pkgResetN ∨ c = .vaonLoss ∨ (∃ v, c = .startGateMet v) ∨ (∃ b, c = .emergencyOffN b) ∨
        (∃ u d p, c = .thermalTrip u d p) ∨ ∃ why, c = .firstStageOpen why) ∨
      ((s.err.fatal = true → t.err.fatal = true) ∧ (s.sec.locked = true → t.sec.locked = true) ∧
       (s.err.silent = true → s.start.pkgPg = true → t.err.silent = true ∧ t.err.log = s.err.log ∧ t.err.total = s.err.total)))

/-- An error whose DEPTH would reach 3: one of class contained or unit-lost whose parent has DEPTH 2, and which is
neither a data error nor a condition. The package becomes package-fatal: its record carries CLASS 3, ESCALATED 1,
DEPTH 3 and its own STATUS, one LOST_KV event for each sequence not FREE follows, and then nothing more is written
(R447). -/
def Obligations.DepthThreeIsPackageFatal : Prop :=
  ∀ (s : State) (e : ErrIn) (h : Handling), s.err.silent = false → s.err.fatal = false → s.parentOf e = some h → h.depth = 2 →
    e.cls = 1 ∨ e.cls = 2 → e.isData = false → e.isCondition = false →
    let u := s.stopPackage.note e
    let v := u.events ((u.eng.seqs.filter fun p => p.2.state != .free).map Prod.fst) 0x0502
    (s.raise e).err.fatal = true ∧ (s.raise e).err.silent = true ∧ s.raise e = v.setErr { v.err with silent := true } ∧
    ∃ r, u.err.log.find? (s.err.total.toNat % 256) = some r ∧ u.err.total = s.err.total + 1 ∧
      bits r.toNat 30 29 = 3 ∧ bit r.toNat 27 = true ∧ bits r.toNat 25 24 = 3 ∧ bits r.toNat 15 0 = e.status % 0x10000

/-- The allowances at a window's end: whatever the window measured, no die's allowance is more than 16 above what it was
(R469). -/
def Obligations.AllowanceRisesBySixteen : Prop :=
  ∀ (s : State) (m : WindowMeas), s.kettleOn = true → s.time.count.toNat % 200 = 0 →
    s.pwr.windowAt ≠ some s.time.count →
    ∃ t : State, exec (.kettleWindowEnd m) s = .next t ∧
      ∀ d, d < 4 → t.pwr.allowance.getD d 256 ≤ s.pwr.allowance.getD d 256 + 16

/-- The standby is the member with the highest MGR_PRIO other than the manager, the lowest node number on a tie, none
where no other member has a MGR_PRIO above 0; frames then carry it in STANDBY (R383). Node 0xFF is no node. -/
def Obligations.StandbyIsTheHighestPriority : Prop :=
  ∀ s : State, s.dom.members.getLsbD 255 = false →
    let n := s.pickStandby
    let ok := fun m : Nat => s.dom.members.getLsbD m = true ∧ m ≠ s.dom.node ∧ s.disc.prio.get 0 m ≠ 0
    (n = 0xFF ∧ (∀ m, ¬ ok m) ∨
      ok n ∧ ∀ m, ok m → s.disc.prio.get 0 m < s.disc.prio.get 0 n ∨ (s.disc.prio.get 0 m = s.disc.prio.get 0 n ∧ n ≤ m)) ∧
    s.nameStandby = { s with disc := { s.disc with standby := n } } ∧ ∀ l k, (s.nameStandby.frame l k).standby = n

/-! ## Set-up registers (spec 14) -/

/-- A register write is refused with the first reason that holds of MGMT, LOCKED, STATE, BUSY and RANGE, in that order:
HIF_WR_REFUSED takes the reason and the offset, its count grows by one, and nothing else changes; where none holds,
the write takes effect (R346). -/
def Obligations.RefusalsComeInOrder : Prop :=
  ∀ (s : State) (off : Nat) (state busy range : Bool) (f : State → State),
    (let no := fun reason : Nat => ({ s with hif := { s.hif with
        refReason := reason, refOffset := off, refCnt := s.hif.refCnt + 1 } } : State)
     let mgmt := s.start.mgmtReset || s.start.mgmtHeld
     s.regWrite off state busy range f =
       if mgmt then no 5 else if s.sec.locked then no 4 else if state then no 2 else if busy then no 3
       else if range then no 1 else f s)

/-- A ring pair is enabled by a write of HIF_RING_CTRL with ENABLE 1 whose fields and addresses are in range and whose
OVERFLOW is clear: heads and tails 0, phase 1, armed, no entry reserved. Its other registers keep their values, and
every other pair and the rest of the package stay (R319, R350, R351). With a field out of range the write is refused
with RANGE, at the tray gate with STATE. ENABLE written as 0 to an enabled pair, its other fields unchanged, starts
the drain; the drain completes once every accepted descriptor other than a long operation has completed, and ENABLE
and DRAINING then read 0; a 1 written to OVERFLOW of a pair clears it (R10, R319, R350). -/
def Obligations.RingControlTakesWrites : Prop :=
  (∀ (s : State) (n : Nat) (v : Word), s.hostUp = true → n < 8192 → v.getLsbD 31 = true → (s.ring n).enable = false →
     s.start.mgmtReset = false → s.start.mgmtHeld = false → s.sec.locked = false →
     (let r := s.ring n
      let cq := v.toNat / 2 ^ 20 % 32
      let sq := v.toNat / 2 ^ 15 % 32
      let good := 6 ≤ cq ∧ cq ≤ 20 ∧ 4 ≤ sq ∧ sq ≤ 16 ∧ r.vector < 2048 ∧ 1 ≤ r.modCount ∧ r.modCount ≤ 256 ∧
        r.sqBase.toNat % 4096 = 0 ∧ r.cqBase.toNat % 4096 = 0 ∧ r.shadow.toNat % 8 = 0
      let clear := (r.overflow && !v.getLsbD 28) = false
      (good → clear → (s.start.trayPin && !s.start.gatePassed) = false →
        exec (.ringEnable n v) s = .next { s with rings := s.rings.set n { r with
          enable := true, draining := false, overflow := false, priv := v.getLsbD 30, pasidEn := v.getLsbD 29, cqLog2 := cq, sqLog2 := sq
          tenant := v.toNat % 4096, sqHead := 0, sqTail := 0, cqHead := 0, cqTail := 0, phase := true, reserved := 0
          unread := [], armed := true, stopped := false, backlog := [] } }) ∧
      (¬ good → clear → (s.start.trayPin && !s.start.gatePassed) = false → exec (.ringEnable n v) s = .next { s with hif := { s.hif with
          refReason := 1, refOffset := 0x10000 + n * 0x40, refCnt := s.hif.refCnt + 1 } }) ∧
      ((s.start.trayPin && !s.start.gatePassed) = true → exec (.ringEnable n v) s = .next { s with hif := { s.hif with
          refReason := 2, refOffset := 0x10000 + n * 0x40, refCnt := s.hif.refCnt + 1 } }))) ∧
  (∀ (s : State) (n : Nat), s.hostUp = true → n < 8192 → s.start.mgmtReset = false → s.start.mgmtHeld = false → s.sec.locked = false →
     (let r := s.ring n
      (∀ v : Word, v.getLsbD 31 = false → v.getLsbD 28 = false → r.enable = true → r.draining = false → r.withCtrl v.toNat = r →
        (∀ w ∈ s.waiting, w.ring ≠ n) → ∃ t : State, exec (.ringDisable n v) s = .next t ∧ t.ring n = { r with draining := true } ∧
          t.hif = s.hif ∧ t.mem = s.mem ∧ ∀ k, k ≠ n → t.ring k = s.ring k) ∧
      (r.draining = true → r.open_ = 0 → s.waiting = [] →
        ∃ t : State, exec (.ringDrainComplete n) s = .next t ∧ (t.ring n).enable = false ∧ (t.ring n).draining = false ∧
          (t.ring n).backlog = [] ∧ (t.ring n).drop = r.drop + BitVec.ofNat 64 r.backlog.length ∧ ∀ k, k ≠ n → t.ring k = s.ring k) ∧
      (∀ v : Word, v.getLsbD 28 = true → v.getLsbD 31 = true → r.enable = true → r.draining = false → r.withCtrl v.toNat = r →
        (s.start.trayPin && !s.start.gatePassed) = false →
        exec (.overflowClear n v) s = .next { s with rings := s.rings.set n { r with overflow := false } })))

/-- A host write of 64-bit SQ_BASE of a pair not enabled: whole, it takes effect at once; its low word alone is staged
and changes nothing in force, and the high word then applies both. A write while the pair is enabled is refused with
BUSY (R344, R346, R350). -/
def Obligations.WideRegistersAreStaged : Prop :=
  ∀ (s : State) (n : Nat), s.hostUp = true → n < 8192 → s.start.mgmtReset = false → s.start.mgmtHeld = false → s.sec.locked = false →
    (let off := 0x10000 + n * 0x40 + 0x08
     ((s.ring n).enable = false →
       (∀ v : DWord, ∃ t : State, exec (.registerWrite off 8 v) s = .next t ∧ (t.ring n) = { s.ring n with sqBase := v } ∧
         t.hif.refCnt = s.hif.refCnt) ∧
       (∀ lo hi : DWord, ∃ t u, exec (.registerWrite off 4 lo) s = .next t ∧ t.rings = s.rings ∧
         exec (.registerWrite (off + 4) 4 hi) t = .next u ∧
         u.ring n = { s.ring n with sqBase := BitVec.ofNat 64 (lo.toNat % 2 ^ 32 + hi.toNat % 2 ^ 32 * 2 ^ 32) } ∧
         u.mem = s.mem ∧ ∀ k, k ≠ n → u.ring k = s.ring k)) ∧
     ((s.ring n).enable = true → ∀ v : DWord, ∃ t : State, exec (.registerWrite off 8 v) s = .next t ∧ t.rings = s.rings ∧
       t.hif.refReason = 3 ∧ t.hif.refOffset = off ∧ t.hif.refCnt = s.hif.refCnt + 1))

/-- Writes of one-word registers: a serving limit in range is kept as written and is in force at once where no steeps
run and from the next cut elsewhere, out of range it is refused with RANGE; a W1C bit of PWR_STATUS clears; a write
of an unimplemented offset changes nothing; an access that R317 does not allow is only recorded (R10, R211, R317,
R346, R352, R360). The export table: STORE writes the data words into the entry that FAB_EXPORT_SEL names, LOAD
reads that entry into them; entry 0xFFF, an entry that breaks its table, and both bits together are refused with
RANGE. TRUSTED_EN takes a 1 only where TRUSTED_OK reads 1 and outside SERVICE (R357, R358, R395, R434). -/
def Obligations.RegistersTakeWrites : Prop :=
  (∀ s : State, s.hostUp = true → s.start.mgmtReset = false → s.start.mgmtHeld = false → s.sec.locked = false →
     (∀ v : DWord, 1024 ≤ v.toNat % 2 ^ 19 → v.toNat % 2 ^ 19 ≤ 262144 → v.toNat < 2 ^ 32 →
       exec (.registerWrite 0x100000 4 v) s = .next { s with serve := { s.serve with
         written := { s.serve.written with lineBudget := v.toNat % 2 ^ 19 }
         inForce := if s.noSteeps then { s.serve.written with lineBudget := v.toNat % 2 ^ 19 } else s.serve.inForce } }) ∧
     (∀ v : DWord, v.toNat < 1024 → exec (.registerWrite 0x100000 4 v) s = .next { s with hif := { s.hif with
         refReason := 1, refOffset := 0x100000, refCnt := s.hif.refCnt + 1 } }) ∧
     exec (.registerWrite 0x17000C 4 2) s = .next { s with pwr := { s.pwr with clamped := false } } ∧
     (∀ v : DWord, exec (.registerWrite 0x1B0000 4 v) s = .next s) ∧
     (∀ off size (v : DWord), off < 0x1000000 → (size ≠ 4 ∧ size ≠ 8) ∨ off % size ≠ 0 →
       exec (.registerWrite off size v) s = .next (s.note { status := 0x0204, cls := 0, unit := 9, pos := 1 }))) ∧
  (∀ (s : State) (v : Word), s.hostUp = true → s.start.mgmtReset = false → s.start.mgmtHeld = false → s.sec.locked = false →
     (let no := fun reason off : Nat => ({ s with hif := { s.hif with
         refReason := reason, refOffset := off, refCnt := s.hif.refCnt + 1 } } : State)
      (v.getLsbD 1 = true →
        (v.getLsbD 0 = false → s.dom.exportSel ≠ 0xFFF → exportBad s.exportWords = false →
          ∃ t : State, exec (.exportStore v) s = .next t ∧ t.dom = { s.dom with
            exportData := s.exportWords, exports := s.dom.exports.set s.dom.exportSel s.exportWords } ∧ t.mem = s.mem) ∧
        (v.getLsbD 0 = true ∨ s.dom.exportSel = 0xFFF ∨ exportBad s.exportWords = true →
          exec (.exportStore v) s = .next (no 1 0x140044))) ∧
      (v.getLsbD 1 = false → v.getLsbD 0 = true →
        ∃ t : State, exec (.exportLoad v) s = .next t ∧ t.dom = { s.dom with exportData := s.export s.dom.exportSel } ∧ t.mem = s.mem) ∧
      (v.getLsbD 0 = false → exec (.trustedEnWrite v) s = .next { s with dom := { s.dom with trustedEn := false } }) ∧
      (v.getLsbD 0 = true →
        (s.trustedOk = true → s.dom.state ≠ .service → exec (.trustedEnWrite v) s = .next { s with dom := { s.dom with trustedEn := true } }) ∧
        (s.trustedOk = true → s.dom.state = .service → exec (.trustedEnWrite v) s = .next (no 2 0x140008)) ∧
        (s.trustedOk = false → exec (.trustedEnWrite v) s = .next (no 4 0x140008)))))

/-- The timer read in two halves is one value: a read of HIF_TIMER_LO returns bits 31:0 and latches bits 63:32, which a
read of HIF_TIMER_HI returns however far the counter has gone on; without one it returns what was latched last. An
access R317 does not allow returns 0 (R49, R344). -/
def Obligations.TimerReadsLatch : Prop :=
  ∀ s : State, s.hostUp = true →
    (∃ t : State, exec (.lowWordRead 0x18 4) s = .next t ∧ t.out = s.out ++ [.readData (BitVec.ofNat 64 (s.time.count.toNat % 2 ^ 32))] ∧
      t.time = s.time ∧ t.mem = s.mem ∧
      ∀ u : State, u.hostUp = true → u.hif = t.hif →
        exec (.lowWordRead 0x1C 4) u = .next { u with out := u.out ++ [.readData (BitVec.ofNat 64 (s.time.count.toNat / 2 ^ 32))] }) ∧
    exec (.lowWordRead 0x1C 4) s = .next { s with out := s.out ++
      [.readData (BitVec.ofNat 64 ((s.hif.latch.find? 0x1C).getD 0).toNat)] } ∧
    (∀ off size, (size ≠ 4 ∧ size ≠ 8) ∨ off % size ≠ 0 →
      ∃ t : State, exec (.lowWordRead off size) s = .next t ∧ t.out.getLast? = some (.readData 0) ∧ t.hif = s.hif ∧ t.mem = s.mem)

/-- A slice register in range takes its value while nothing uses memory: the slices change as written, nothing is
resident in the migration pool, and the pool's place, the ways and the class sets stay; a value out of range is
refused with RANGE, a write in use with BUSY, one outside BRINGUP and TEST with STATE (R267, R268, R354). Word 15 of
a class set commits the whole set: with no channel of another class or out of use in it, and no sequence of the
class open where it changes, the class takes it and every other class keeps its own; a set in use is refused with
BUSY and one with such a channel with RANGE, memory unchanged (R225, R267, R355). -/
def Obligations.MemoryLayoutTakesWrites : Prop :=
  (∀ (s : State) (off : Nat) (v : Word), s.hostUp = true → s.start.mgmtReset = false → s.start.mgmtHeld = false → s.sec.locked = false →
     (off = 0x120000 ∨ off = 0x120004 ∨ off = 0x120008) →
     (let u := if off = 0x120000 then v.toNat % 2048 else if off = 0x120004 then v.toNat % 128 else v.toNat % 256
      let m := s.mem.withSlice off u
      let st := s.dom.state = .bringup ∨ s.dom.state = .test
      let no := fun reason : Nat => ({ s with hif := { s.hif with
         refReason := reason, refOffset := off, refCnt := s.hif.refCnt + 1 } } : State)
      (st → s.layoutBusy m = false → s.layoutBad m (off = 0x120004) = false →
        ∃ t : State, exec (.memSliceWrite off v) s = .next t ∧ t.mem.sliceShared = m.sliceShared ∧ t.mem.sliceLocal = m.sliceLocal ∧
          t.mem.sliceSpare = m.sliceSpare ∧ t.mem.granules = [] ∧ t.mem.poolBase = s.mem.poolBase ∧
          t.mem.sharedWays = s.mem.sharedWays ∧ t.mem.classCh = s.mem.classCh ∧ t.hif = s.hif ∧ t.eng.seqs = s.eng.seqs) ∧
      (st → s.layoutBusy m = true → exec (.memSliceWrite off v) s = .next (no 3)) ∧
      (st → s.layoutBusy m = false → s.layoutBad m (off = 0x120004) = true → exec (.memSliceWrite off v) s = .next (no 1)) ∧
      (¬ st → exec (.memSliceWrite off v) s = .next (no 2)))) ∧
  (∀ (s : State) (c : Nat) (v : Word), s.hostUp = true → c < 16 → s.start.mgmtReset = false → s.start.mgmtHeld = false → s.sec.locked = false →
     (let m := (s.stage (classChOff c + 0x3C) v).stagedSet c
      let held := s.mem.classCh.get 0 c
      m.toNat / 2 ^ 480 = v.toNat ∧
      ((m = held ∨ s.classOpen c = false) → s.setBad c m = false →
        ∃ t : State, exec (.memClassChCommit c v) s = .next t ∧ t.mem.classCh.get 0 c = m ∧ t.hif.refCnt = s.hif.refCnt ∧
          (∀ k, k ≠ c → t.mem.classCh.get 0 k = s.mem.classCh.get 0 k) ∧ t.mem.sharedWays = s.mem.sharedWays ∧ t.eng = s.eng) ∧
      (m ≠ held → s.classOpen c = true → ∃ t : State, exec (.memClassChCommit c v) s = .next t ∧ t.mem = s.mem ∧ t.hif.refReason = 3) ∧
      (s.classOpen c = false → s.setBad c m = true →
        ∃ t : State, exec (.memClassChCommit c v) s = .next t ∧ t.mem = s.mem ∧ t.hif.refReason = 1)))

/-- ERR_LOG_SEL copies the log entry it names, and ERR_RING_HEAD of an enabled error ring frees the records it passes, a
head beyond those written being ignored (R321, R364). Nothing else changes. DBG_INJECT raises an error as a real one
of its kind and place, on a part that is not debug-locked, outside a domain or in TEST: on HBM channel `p` a
corrected read, on link `p` the loss of the link. A locked part refuses it with LOCKED, a domain not in TEST with
STATE, a position beyond the unit's with RANGE (R343, R363, R502). -/
def Obligations.ErrorsAreReadAndInjected : Prop :=
  (∀ (s : State) (v : Word), s.hostUp = true → s.start.mgmtReset = false → s.start.mgmtHeld = false → s.sec.locked = false →
     exec (.errLogSel v) s = .next { s with err := { s.err with data := s.err.log.get 0 (v.toNat % 256) } } ∧
     (s.err.ringEn = false → exec (.errRingHead v) s = .next s) ∧
     (s.err.ringEn = true →
       (let size := 2 ^ s.err.ringLog2
        let head := v.toNat % 65536 % size
        let k := (head + size - s.err.ringHead) % size
        (k ≤ s.err.ringUsed → exec (.errRingHead v) s = .next { s with err := { s.err with
          ringHead := head, ringUsed := s.err.ringUsed - k } }) ∧
        (s.err.ringUsed < k → exec (.errRingHead v) s = .next s)))) ∧
  (∀ s : State, s.hostUp = true → s.start.mgmtReset = false → s.start.mgmtHeld = false → s.sec.locked = false →
     (let no := fun reason : Nat => ({ s with hif := { s.hif with
         refReason := reason, refOffset := 0x1A0008, refCnt := s.hif.refCnt + 1 } } : State)
      (s.debugLock = false → s.disc.inDomain = false ∨ s.dom.state = .test →
        (∀ p, p < s.part.channels → exec (.dbgInject (BitVec.ofNat 32 (0x81200000 + p))) s =
          .next (s.corrected { status := 0x0427, cls := 0, unit := 3, pos := p } (s.unitSeqs 2 0 p))) ∧
        (∀ p, p < s.part.links → exec (.dbgInject (BitVec.ofNat 32 (0x83300000 + p))) s =
          .next (s.raise { status := 0x0310, cls := 2, unit := 4, die := linkDie p, pos := p })) ∧
        (∀ p, s.part.links ≤ p → p < 65536 → exec (.dbgInject (BitVec.ofNat 32 (0x83300000 + p))) s = .next (no 1))) ∧
      (s.debugLock = false → s.disc.inDomain = true → s.dom.state ≠ .test → ∀ v, exec (.dbgInject v) s = .next (no 2)) ∧
      (s.debugLock = true → ∀ v, exec (.dbgInject v) s = .next (no 4))))

/-- HIF_BOOT with GO hands the first LENGTH bytes of the boot window to the boot ROM: an authentic image not below
ROLLBACK runs, any other leaves the boot ROM waiting for the host. While BOOT_WAIT reads 0 it is refused with STATE,
and above 8 MiB with RANGE (R349, R500, R501, R526, R528). -/
def Obligations.BootGoRunsTheWindow : Prop :=
  ∀ (s : State) (v : Word), s.hostUp = true → v.getLsbD 31 = true → s.start.mgmtReset = false → s.start.mgmtHeld = false →
    s.sec.locked = false →
    (let n := v.toNat % 2 ^ 24
     let image := Memory.read s.hif.bootWin 0 n
     let ok := s.fwAuthentic image && decide (s.part.rollback ≤ fwSvn image)
     let no := fun reason : Nat => ({ s with hif := { s.hif with
        refReason := reason, refOffset := 0x38, refCnt := s.hif.refCnt + 1 } } : State)
     (s.hif.bootWait = true → s.start.bootSource = 2 → n ≤ 0x800000 →
       ∃ t : State, exec (.hifBootGo v) s = .next t ∧ t.hif.bootLength = n ∧ t.hif.bootWait = !ok ∧
         t.hif.mgmtRun = (ok || s.hif.mgmtRun) ∧ t.start.bootSource = 2 ∧ t.hif.bootWin = s.hif.bootWin ∧ t.mem = s.mem) ∧
     (s.hif.bootWait = true → 0x800000 < n → exec (.hifBootGo v) s = .next (no 1)) ∧
     (s.hif.bootWait = false → exec (.hifBootGo v) s = .next (no 2)))

/-! ## Memory tiers, the caddy, rings and descriptors (spec 11 to 13, 16, 17) -/

/-- A read of a lower tier is served by a resident granule, waits for a fill or a re-fetch in progress, or starts a fill
in a free pool granule. A copy that passes its checks, at the first or the second read, is written to its pool
granule and to no other byte, and its waiters are served; a copy that fails at both readings fails the fill. Prefill
takes the next granule of the pinned caddy objects from the idle bank and stops with no free granule. A scrub that
finds every leaf right changes no memory; an uncorrectable burst is marked, and a resident granule that holds it is
dropped. The clearing scrub leaves zeros, a local atomic answers the value before, and a lost channel that its
survivors can replace is out of use (R252, R255, R272 to R275, R278 to R286, R497). -/
def Obligations.TiersServeReads : Prop :=
  ∀ s : State, s.live = true →
    (∀ a q, s.lowTier a = true → let g := a / 0x10000
      (∀ e, s.resident g = some e →
        (s.comp.refetch.contains g = true → exec (.granuleMiss a q) s = .next { s with mem := { s.mem with
          granules := s.mem.granules.map fun x => if x = e then { e with waiters := e.waiters ++ [q] } else x } }) ∧
        (s.comp.refetch.contains g = false → ∃ t : State, exec (.granuleMiss a q) s = .next t ∧ .served q a ∈ t.out ∧ t.mem.hbm = s.mem.hbm ∧
          t.mem.granules.map Granule.num = s.mem.granules.map Granule.num)) ∧
      (s.resident g = none →
        (∀ e, s.mem.granules.find? (fun e => e.num = g && e.filling && !e.drop && e.gen = s.genOf a) = some e →
          exec (.granuleMiss a q) s = .next { s with mem := { s.mem with
            granules := s.mem.granules.map fun x => if x = e then { e with waiters := e.waiters ++ [q] } else x } }) ∧
        ((∀ e ∈ s.mem.granules, e.num ≠ g) → s.placeOf a ≠ 2 → s.mainRoom = true →
          ∃ (t : State) (e : Granule), exec (.granuleMiss a q) s = .next t ∧ t.mem.granules = s.mem.granules ++ [e] ∧ e.num = g ∧ e.filling = true ∧
            e.waiters = [q] ∧ e.gen = s.genOf a ∧ e.place = s.placeOf a ∧ e.pool < s.mainGranules ∧ (∀ x ∈ s.mainEntries, x.pool ≠ e.pool) ∧
            t.mem.hbm = s.mem.hbm)) ∧
      (∀ e f h bs, s.fillingOf g = some e → e.drop = false → (e.gen = none ∨ e.gen = some s.mem.genCurrent) →
        (s.fillOk g f = some bs ∨ (s.fillOk g f = none ∧ s.fillOk g h = some bs)) →
        ∃ t : State, exec (.granuleFillComplete a f h) s = .next t ∧ (∀ r ∈ e.waiters, .served r (e.num * 0x10000) ∈ t.out) ∧
          (s.mem.classDrop = [] → ∀ i, i < bs.length → Memory.byte t.mem.hbm (s.poolAddr e.pool + i) = bs.getD i 0) ∧
          (∀ b, b < s.poolAddr e.pool ∨ s.poolAddr e.pool + bs.length ≤ b → Memory.byte t.mem.hbm b = Memory.byte s.mem.hbm b) ∧
          (e.place = 2 → e ∉ t.mem.granules) ∧
          (e.place ≠ 2 → ∃ x ∈ t.mem.granules, x.num = e.num ∧ x.pool = e.pool ∧ x.filling = false)) ∧
      (∀ e f h, s.fillingOf g = some e → s.fillOk g f = none → s.fillOk g h = none →
        exec (.granuleFillComplete a f h) s = .next (s.fillFailed e h)) ∧
      (∀ f h, s.fillingOf g = none → s.resident g ≠ none → exec (.granuleFillComplete a f h) s = .next s)) ∧
    (∀ gen granule f, s.caddy.armed = some gen → s.start.quiesced = false → s.prefillNext = some granule →
      (s.mainRoom = false → exec (.swapPrefill granule f) s = .next { s with caddy := { s.caddy with prefillAt := 2 ^ 32 } }) ∧
      (s.mainRoom = true → s.asIdle.fillOk granule f = none →
        exec (.swapPrefill granule f) s = .next { s with caddy := { s.caddy with prefillAt := granule + 1 } }) ∧
      (∀ bs, s.mainRoom = true → s.asIdle.fillOk granule f = some bs →
        ∃ (t : State) (e : Granule), exec (.swapPrefill granule f) s = .next t ∧ t.mem.granules = s.mem.granules ++ [e] ∧ e.num = granule ∧
          e.gen = some gen ∧ e.prefill = true ∧ e.filling = false ∧ t.caddy.prefillAt = granule + 1 ∧
          (s.mem.classDrop = [] → ∀ i, i < bs.length → Memory.byte t.mem.hbm (s.poolAddr e.pool + i) = bs.getD i 0) ∧
          ∀ b, b < s.poolAddr e.pool ∨ s.poolAddr e.pool + bs.length ≤ b → Memory.byte t.mem.hbm b = Memory.byte s.mem.hbm b)) ∧
    (∀ a ch o, s.place a = some (ch, o) → s.chLost.getLsbD ch = false → s.scrubBad (a / 64) = none →
      let holds := fun e : Granule => s.poolAddr e.pool ≤ a / 64 * 64 && a / 64 * 64 < s.poolAddr e.pool + 0x10000
      (∀ e ∈ s.mem.granules, holds e = true → e.filling = false) →
      exec (.patrolScrub a .clean) s = .next s ∧
      (∃ t : State, exec (.patrolScrub a .corrected) s = .next t ∧ t.mem = s.mem) ∧
      (s.mem.badReads.length < 15 → ∃ t : State, exec (.patrolScrub a .uncorrectable) s = .next t ∧ t.mem.hbm = s.mem.hbm ∧
        t.mem.granules = s.mem.granules.filter (fun e => !holds e) ∧
        t.mem.badBursts = (if s.mem.granules.any holds then s.mem.badBursts else addNew s.mem.badBursts (a / 64)))) ∧
    (exec .clearingScrub s = .next (if s.start.clearing then { s with
      mem := { s.mem with hbm := [], badBursts := [], dieStore := [] }
      caddy := { s.caddy with scrubRequired := false }, start := { s.start with clearing := false } } else s)) ∧
    (∀ op wide a operand compare, let n := if wide then 8 else 4
      (a % n ≠ 0 → exec (.localAtomic op wide a operand compare) s = .next (s.emit (.atomic 0x0242 0))) ∧
      (∀ st, a % n = 0 → s.checkWrite a n = some st → exec (.localAtomic op wide a operand compare) s = .next (s.emit (.atomic st 0))) ∧
      (a % n = 0 → s.checkWrite a n = none → s.readable a n = true → ∃ t : State, exec (.localAtomic op wide a operand compare) s = .next t ∧
        .atomic 0 (BitVec.ofNat 64 (Memory.num s.mem.hbm a n)) ∈ t.out ∧
        ∀ b, b < a ∨ a + n ≤ b → Memory.byte t.mem.hbm b = Memory.byte s.mem.hbm b)) ∧
    (∀ ch, ch < s.part.channels → ch < 512 → s.chLost.getLsbD ch = false → s.err.handling = [] → s.err.silent = false →
      (s.redirectFits (s.redirectOf ch) = false → ∃ t : State, exec (.channelLoss ch) s = .next t ∧ t.err.fatal = true ∧ t.err.silent = true) ∧
      (s.redirectFits (s.redirectOf ch) = true → s.classOf ch = none → s.modelOn ch = false →
        ∃ t : State, exec (.channelLoss ch) s = .next t ∧ t.chLost.getLsbD ch = true ∧ t.mem.redirects = s.mem.redirects ++ [s.redirectOf ch] ∧
          t.mem.rebuild = true ∧ t.err.fatal = s.err.fatal))

/-- The caddy is opened with the bank its journals commit, or with none. A build ends on a failed host read and on a
header or chunk it refuses; a header it takes fixes the image, and a clear chunk whose tag is right is written into
the idle bank. A member answers an arm by R305, and is armed where it accepts; the manager is armed once every
member accepted, and disarms on a refusal or after 100 ms (2,500,000 TCLK periods) of silence. A quick quiesce stops
the package for its tray (R294 to R297, R301, R302, R304 to R306, R309). -/
def Obligations.CaddyOpensBuildsAndArms : Prop :=
  ∀ s : State,
    (s.mgmtUp = true → s.caddy.opened = false → s.caddy.erased = false → ∃ t : State, exec .caddyOpen s = .next t ∧ t.caddy.opened = true ∧
      t.mem.hbm = s.mem.hbm ∧ t.dom = s.dom ∧ t.caddy.journal0 = s.caddy.journal0 ∧ t.caddy.journal1 = s.caddy.journal ∧
      let l := ({ s.caddy with journal1 := s.caddy.journal } : Caddy).journal.filter jKnown
      (∀ r, committed l = some r → t.caddy.active = r.bank ∧ (t.caddy.bank r.bank).built = true ∧ (t.caddy.bank r.bank).gen = r.gen ∧
        t.mem.genCurrent = r.gen) ∧
      (committed l = none → t.caddy.active = 3)) ∧
    (s.live = true → s.start.quiesced = false →
      (∀ b o, s.caddy.build = some b → s.longOps.find? b.handle = some o → o.working = true →
        (∃ t : State, exec (.buildChunk b.handle .hostFail) s = .next t ∧ t.caddy.build = none ∧ t.longOps = s.longOps.erase b.handle) ∧
        (∀ i, b.hdr = none → i.keyBlock.length = 1632 →
          (s.imageOk b i = false → ∃ t : State, exec (.buildChunk b.handle (.header i)) s = .next t ∧ t.caddy.build = none ∧
            t.longOps = s.longOps.erase b.handle) ∧
          (s.imageOk b i = true → s.caddy.lostSegs = [] → ∃ t : State, exec (.buildChunk b.handle (.header i)) s = .next t ∧
            (match s.unwrapKey i with
              | none => t.caddy.build = none
              | some k => t.caddy.build = some { b with hdr := some i, weightKey := some k, heads := imgHead i } ∧ t.longOps = s.longOps))) ∧
        (∀ i h payload bad, b.hdr = some i → b.chunksDone < i.chunks → payload.length = (if 4 ≤ h.kind then 0 else h.length) →
          (chunkOk b i h = false → ∃ t : State, exec (.buildChunk b.handle (.chunk h payload bad)) s = .next t ∧ t.caddy.build = none ∧
            t.caddy.bank b.bank = s.caddy.bank b.bank) ∧
          (chunkOk b i h = true → h.kind = 0 →
            Config.gcmTag (b.weightKey.getD 0) (chunkNonce b.chunksDone i.generation) (chunkAad i h) payload = h.tag →
            let plain := Config.gcmOpen (b.weightKey.getD 0) (chunkNonce b.chunksDone i.generation) (chunkAad i h) payload
            ∃ t : State, exec (.buildChunk b.handle (.chunk h payload bad)) s = .next t ∧
              (t.caddy.bank b.bank).data =
                Memory.clear (Memory.write (s.caddy.bank b.bank).data h.winOffset plain) b.covered (h.winOffset - b.covered) ∧
              (o.state ≠ .cancelPending → t.caddy.build = some { b with
                chunksDone := b.chunksDone + 1, covered := h.winOffset + h.length, heads := b.heads ++ chunkHead h })))) ∧
      (s.disc.inDomain = true → s.dom.role ≠ .manager → ∀ g r, ∃ t : State, exec (.swapArmReceive g r) s = .next t ∧
        .member s.dom.manager 6 [g.setWidth 64, BitVec.ofNat 64 (s.armCheck g r)] ∈ t.out ∧
        (if s.armCheck g r = 0 then t.caddy.armed = some g ∧ t.rte.next = some ⟨r.rev, r.members, r.entries⟩
         else t.caddy = s.caddy ∧ t.rte = s.rte))) ∧
    (s.live = true → s.dom.role = .manager → ∀ a node, s.dom.arm = some a → a.armed = false → s.isMember node = true → node ∉ a.accepted →
      (exec (.swapArmReply node 0) s = .next { s with dom := { s.dom with arm := some { a with
        accepted := a.accepted ++ [node], armed := s.memberList.all (a.accepted ++ [node]).contains } } }) ∧
      (∀ c, c ≠ 0 → ∃ t : State, exec (.swapArmReply node c) s = .next t ∧ t.dom.arm = none ∧ t.caddy.armed = none ∧
        ∀ m ∈ s.memberList, m ≠ s.dom.node → .member m 5 [] ∈ t.out) ∧
      (2500000 ≤ (s.time.count - a.sentAt).toNat → exec (.swapArmTimeout node) s = exec (.swapArmReply node 5) s ∧
        ∃ t : State, exec (.swapArmTimeout node) s = .next t ∧ t.dom.arm = none) ∧
      ((s.time.count - a.sentAt).toNat < 2500000 → exec (.swapArmTimeout node) s = .next s)) ∧
    (s.live = true → s.start.trayPin = true → s.start.gatePassed = true → s.start.quiesced = false → ∃ t : State, exec .quickQuiesce s = .next t ∧
      t.start = { s.start with quiesced := true } ∧ t.caddy.build = none ∧ t.dom = s.dom)

/-- Doorbells of an enabled pair move its tail and head and arm it; its moderated interrupt is sent when its time has
passed. A descriptor read from the ring is accepted with its entries reserved and the head shadow written, waits
where it cannot be, or is refused by the first failing check; a failed read stops the ring. The oldest accepted
descriptor of a ring is acted on, and ends in one final record with the pair's phase (R321 to R328, R332; that the
checks are made again on the state it acts on is the model's reading, notes/assumptions/15.md). -/
def Obligations.RingsTakeDescriptors : Prop :=
  ∀ (s : State) (n : Nat), s.hostUp = true → n < 8192 → (s.ring n).enable = true →
    let r := s.ring n
    (∀ tail : BitVec 16, exec (.sqTail n tail) s = .next (s.setRing n { r with sqTail := tail.toNat % 2 ^ r.sqLog2, stopped := false })) ∧
    (∀ head : BitVec 20, r.backlog = [] → (∀ w ∈ s.waiting, w.what.closed = none) →
      let k := (head.toNat % 2 ^ r.cqLog2 + 2 ^ r.cqLog2 - r.cqHead) % 2 ^ r.cqLog2
      (k ≤ r.unread.length → exec (.cqHead n false head) s =
        .next (s.setRing n { r with cqHead := head.toNat % 2 ^ r.cqLog2, unread := r.unread.drop k })) ∧
      (r.unread.length < k → ∃ t : State, exec (.cqHead n false head) s = .next t ∧ t.ring n = r) ∧
      (k = r.unread.length → ∃ t : State, exec (.cqHead n true head) s = .next t ∧ (t.ring n).armed = true ∧ t.out = s.out) ∧
      (k < r.unread.length → ∃ t : State, exec (.cqHead n true head) s = .next t ∧ (t.ring n).armed = false ∧ .msix r.vector ∈ t.out)) ∧
    (r.armed = false → exec (.moderationTimeout n) s = .next s) ∧
    (r.armed = true → ∀ first rest, r.unread = first :: rest → r.modTime * 25 ≤ (s.time.count - first).toNat →
      exec (.moderationTimeout n) s = .next ((s.setRing n { r with armed := false }).emit (.msix r.vector))) ∧
    (s.ringReads n = true →
      (∃ t : State, exec (.descriptorRead n none) s = .next t ∧ t.ring n = { r with stopped := true } ∧ t.accepted = s.accepted ∧ t.mem = s.mem) ∧
      (∀ d, s.canAccept n d = false → exec (.descriptorRead n (some d)) s = .next s) ∧
      (∀ d, s.canAccept n d = true →
        (∀ e, (s.accept n d).checkDesc n d = some e → exec (.descriptorRead n (some d)) s = .next ((s.accept n d).finish n d e.1 [(8, 4, e.2)])) ∧
        ((s.accept n d).checkDesc n d = none → ∃ t : State, exec (.descriptorRead n (some d)) s = .next t ∧
          t.accepted = s.accepted ++ [{ ring := n, desc := d }] ∧ t.ring n = { r with
            sqHead := (r.sqHead + 1) % 2 ^ r.sqLog2, reserved := r.reserved + dEntries d, open_ := r.open_ + 1 } ∧
          .hostWrite r.tagPasid r.shadow (leBytes 8 ((r.sqHead + 1) % 2 ^ r.sqLog2)) ∈ t.out ∧ t.mem = s.mem))) ∧
    (∀ d, s.live = true → s.accepted.find? (fun a => a.ring = n) = some ⟨n, d⟩ → dOpcode d = 0 →
      (∀ e, ({ s with accepted := [] } : State).checkDesc n d = some e →
        exec (.nop n) s = .next (({ s with accepted := s.accepted.erase ⟨n, d⟩ } : State).finish n d e.1 [(8, 4, e.2)])) ∧
      (({ s with accepted := [] } : State).checkDesc n d = none → dQuiet d = false → r.backlog = [] → (∀ w ∈ s.waiting, w.what.closed = none) →
        ∃ t : State, exec (.nop n) s = .next t ∧ t.accepted = s.accepted.erase ⟨n, d⟩ ∧ (t.ring n).cqTail = (r.cqTail + 1) % 2 ^ r.cqLog2 ∧
          (t.ring n).open_ = r.open_ - 1 ∧ (t.ring n).reserved = r.reserved - 1 ∧
          (t.ring n).phase = (if (r.cqTail + 1) % 2 ^ r.cqLog2 = 0 then !r.phase else r.phase) ∧
          .hostWrite r.tagPasid (r.cqBase + BitVec.ofNat 64 (r.cqTail * 32))
            (leBytes 32 ((mkRecord (dTag d) true false 0 0 []).toNat + putBits (b2n r.phase) 63 63)) ∈ t.out ∧ t.mem = s.mem ∧ t.eng = s.eng))

/-- The oldest accepted descriptor of a ring that deals with models, swaps, tenants or objects, once its checks pass: a
load keeps the model or, where its words fail, changes nothing; an unload ends steering and the KV pools; an arm
ends an earlier one, is refused by the manager's own check, or prepares the swap and is sent to every other member;
a disarm ends it; tenant controls wait for the cut, or act at once where no steeps run; a query answers the entry;
an object entry is in force (R34, R220, R222, R223, R281, R305, R307, R330; that a ring's descriptors are acted on
in acceptance order is notes/assumptions/15.md). -/
def Obligations.PackageDescriptorsAct : Prop :=
  ∀ (s : State) (n : Nat) (d : W512), s.live = true → s.accepted.find? (fun a => a.ring = n) = some ⟨n, d⟩ →
    ({ s with accepted := [] } : State).checkDesc n d = none →
    let u : State := { s with accepted := s.accepted.erase ⟨n, d⟩ }
    (dOpcode d = 0x01 →
      (dField d 8 8 % 64 ≠ 0 → exec (.modelLoad n) s = .next (u.refuse n d 0x0112 8).settleCloses) ∧
      (dField d 8 8 % 64 = 0 → u.readable (dField d 8 8) 256 = false → exec (.modelLoad n) s = .next (u.refuse n d 0x0420 8).settleCloses) ∧
      (dField d 8 8 % 64 = 0 → u.readable (dField d 8 8) 256 = true →
        let c := u.loadCheck (dField d 8 8) (BitVec.ofNat 64 (dField d 16 8)) (BitVec.ofNat 64 (dField d 24 8)) (BitVec.ofNat 32 (dField d 32 4))
          (BitVec.ofNat 32 (dField d 36 4))
        (c.1 = [] → ∃ t : State, exec (.modelLoad n) s = .next t ∧ t.model = some c.2 ∧ t.eng = s.eng ∧ t.accepted = u.accepted) ∧
        (c.1 ≠ [] → ∃ t : State, exec (.modelLoad n) s = .next t ∧ t.model = s.model ∧ t.eng = s.eng ∧ t.mem = s.mem ∧ t.accepted = u.accepted))) ∧
    (dOpcode d = 0x02 → ∃ t : State, exec (.modelUnload n) s = .next t ∧ t.model = none ∧ t.eng.kv = [] ∧ t.eng.seqs = s.eng.seqs ∧
      t.eng.tenants = s.eng.tenants.mapVals (fun _ t => { t with steerDir := 0, steerVer := t.steerVer + 1 }) ∧ t.mem.hbm = s.mem.hbm) ∧
    (dOpcode d = 0x03 → let v : State := if s.dom.arm.isSome then u.abortSwap else u
      let g : Word := BitVec.ofNat 32 (dField d 8 4)
      (v.readHomeTable (dField d 16 8) = none → ∃ t : State, exec (.swapArm n) s = .next t ∧ t.dom.arm = none ∧ t.caddy.armed = none ∧
        (∀ m ∈ s.memberList, m ≠ s.dom.node → .member m 5 [] ∈ t.out)) ∧
      (∀ es, v.readHomeTable (dField d 16 8) = some es → let r : HomeRev := ⟨BitVec.ofNat 32 (dField d 24 4), s.memberList, es⟩
        (v.armCheck g r = 0 → ∃ (t : State) (a : Arming), exec (.swapArm n) s = .next t ∧ t.dom.arm = some a ∧ a.gen = g ∧ a.accepted = [s.dom.node] ∧
          a.sentAt = s.time.count ∧ a.armed = s.memberList.all [s.dom.node].contains ∧ t.caddy.armed = some g ∧
          t.rte.next = some ⟨r.rev, r.members, r.entries⟩ ∧
          ∀ m ∈ s.memberList, m ≠ s.dom.node → .member m 4 [g.setWidth 64, r.rev.setWidth 64] ∈ t.out) ∧
        (v.armCheck g r ≠ 0 → ∃ t : State, exec (.swapArm n) s = .next t ∧ t.dom.arm = none ∧ t.caddy.armed = none ∧
          ∀ m ∈ s.memberList, m ≠ s.dom.node → .member m 5 [] ∈ t.out))) ∧
    (dOpcode d = 0x04 → ∃ t : State, exec (.swapDisarm n) s = .next t ∧ t.dom.arm = none ∧ t.caddy.armed = none ∧
      t.mem.granules = s.mem.granules.filter (fun g => !g.prefill) ∧ ∀ m ∈ s.memberList, m ≠ s.dom.node → .member m 5 [] ∈ t.out) ∧
    (∀ c ∈ [(0x08, Instr.tenantSet n), (0x09, .tenantRemove n), (0x0B, .steerSet n)], dOpcode d = c.1 → s.noSteeps = false →
      ∃ t : State, exec c.2 s = .next t ∧ { ring := n, desc := d, what := .cut } ∈ t.waiting ∧ t.eng = s.eng ∧ t.mem = s.mem) ∧
    (s.noSteeps = true → let e := s.tenant (dTenant d)
      let dir : DWord := BitVec.ofNat 64 (dField d 16 8)
      (dOpcode d = 0x08 →
        (s.classUsable (dClass d) = true → e.valid = false ∨ e.cls = dClass d ∨ e.openSeqs = 0 →
          ∃ t : State, exec (.tenantSet n) s = .next t ∧ t.tenant (dTenant d) = (if e.valid then { e with
              cls := dClass d, steerDir := dir, steerVer := if dir = e.steerDir then e.steerVer else e.steerVer + 1 }
            else { valid := true, cls := dClass d, steerDir := dir }) ∧ t.eng.seqs = s.eng.seqs ∧ t.mem = s.mem) ∧
        (s.classUsable (dClass d) = false ∨ (e.valid = true ∧ e.cls ≠ dClass d ∧ e.openSeqs ≠ 0) →
          ∃ t : State, exec (.tenantSet n) s = .next t ∧ t.eng = s.eng ∧ t.mem = s.mem)) ∧
      (dOpcode d = 0x09 →
        (e.valid = true → e.openSeqs = 0 → ∃ t : State, exec (.tenantRemove n) s = .next t ∧ t.eng.tenants = s.eng.tenants.erase (dTenant d) ∧
          t.eng.seqs = s.eng.seqs ∧ t.mem = s.mem) ∧
        (e.valid = false ∨ e.openSeqs ≠ 0 → ∃ t : State, exec (.tenantRemove n) s = .next t ∧ t.eng = s.eng ∧ t.mem = s.mem)) ∧
      (dOpcode d = 0x0B → e.valid = true → ∃ t : State, exec (.steerSet n) s = .next t ∧
        t.tenant (dTenant d) = { e with steerDir := dir, steerVer := e.steerVer + 1 } ∧ t.eng.seqs = s.eng.seqs ∧ t.mem = s.mem)) ∧
    (dOpcode d = 0x0A → ∃ t : State, exec (.tenantQuery n) s = .next t ∧ t.eng = s.eng ∧ t.mem = s.mem ∧
      .hostWrite (s.ring n).tagPasid (BitVec.ofNat 64 (dField d 16 8)) (tenantBytes (s.tenant (dTenant d))) ∈ t.out) ∧
    (dOpcode d = 0x20 → ∃ t : State, exec (.objectSet n) s = .next t ∧ t.mem.objects = s.mem.objects.set (dField d 8 2 % 2 ^ 14) (objOf d) ∧
      t.mem.hbm = s.mem.hbm ∧ t.eng = s.eng)

/-- The oldest accepted descriptor of a ring that deals with a sequence, once its checks pass: an open gives the lowest
free number an IDLE record and counts it to its tenant; a prompt starts the prefill at position 0, or after the
committed tokens of a FINISHED sequence, as a long operation above 32,768 tokens; a change waits for the cut, or is
made at once where no steeps run; a close or cancel stages nothing more, ends a long prefill, and frees the record,
at once where no steeps run; a query answers the record. A record outside the cache is read from the table first,
whose error is logged (R195, R199, R203, R205, R209, R330). -/
def Obligations.SequenceDescriptorsAct : Prop :=
  ∀ (s : State) (n : Nat) (d : W512), s.live = true → s.accepted.find? (fun a => a.ring = n) = some ⟨n, d⟩ →
    ({ s with accepted := [] } : State).checkDesc n d = none →
    let q := dField d 8 4 % 2 ^ 20
    (dOpcode d = 0x10 → let q := lowestFree s.eng.seqs.keys (2 ^ 20)
      ∃ t : State, exec (.seqOpen n) s = .next t ∧ (t.seq q).state = .idle ∧ (t.seq q).ring = n ∧ (t.seq q).tenant = dTenant d ∧
        (t.seq q).committed = 0 ∧ (t.seq q).userTag = BitVec.ofNat 64 (dField d 32 8) ∧ (t.seq q).goal = dField d 8 2 ∧
        (t.seq q).priority = bits (dField d 8 4) 17 16 ∧ (t.seq q).sampleSeed = BitVec.ofNat 64 (dField d 40 8) ∧
        (t.seq q).cls = (s.tenant (dTenant d)).cls ∧ q ∈ t.eng.cache ∧
        t.tenant (dTenant d) = { s.tenant (dTenant d) with openSeqs := (s.tenant (dTenant d)).openSeqs + 1 } ∧
        (∀ p, p ≠ q → t.seq p = s.seq p) ∧ t.mem = s.mem) ∧
    (dOpcode d = 0x11 → s.eng.cache.contains q = true ∨ s.err.handling = [] →
      ∃ t : State, exec (.seqPrompt n) s = .next t ∧ (t.seq q).state = .prefill ∧ (t.seq q).promptRemain = dField d 24 4 ∧
        (t.seq q).committed = (if (s.seq q).state = .finished then (s.seq q).committed else 0) ∧ (t.seq q).promptStart = (t.seq q).committed ∧
        (t.seq q).promptAddr = BitVec.ofNat 64 (dField d 16 8) ∧ (t.seq q).newMax = dField d 28 4 ∧ (t.seq q).newCount = 0 ∧
        q ∈ t.eng.cache ∧ (∀ p, p ≠ q → t.seq p = s.seq p) ∧ t.mem = s.mem ∧
        (32768 < dField d 24 4 → (t.seq q).opHandle = s.nextHandle ∧ ∃ o : LongOp, t.longOps.find? s.nextHandle.toNat = some o ∧
          o.kind = .prefill q ∧ o.total = dField d 24 4)) ∧
    (dOpcode d = 0x12 → s.noSteeps = false → ∃ t : State, exec (.seqSet n) s = .next t ∧ { ring := n, desc := d, what := .cut } ∈ t.waiting ∧
      t.eng = s.eng ∧ t.mem = s.mem) ∧
    (dOpcode d = 0x12 → s.noSteeps = true → let q := dField d 28 4 % 2 ^ 20
      let m := bits (dField d 28 4) 27 24
      let e := s.seq q
      e.state ≠ .free → ∃ t : State, exec (.seqSet n) s = .next t ∧
        t.seq q = { e with
          priority := if bit m 0 then bits (dField d 8 4) 17 16 else e.priority
          goal := if bit m 1 then dField d 8 2 else e.goal
          stop0 := if bit m 2 then BitVec.ofNat 32 (dField d 20 4) else e.stop0
          stop1 := if bit m 2 then BitVec.ofNat 32 (dField d 24 4) else e.stop1
          temp := if bit m 3 then BitVec.ofNat 32 (dField d 16 4) else e.temp
          topk := if bit m 3 then dField d 14 2 else e.topk
          sampleSeed := if bit m 3 then BitVec.ofNat 64 (dField d 40 8) else e.sampleSeed } ∧
        (∀ p, p ≠ q → t.seq p = s.seq p) ∧ t.mem = s.mem) ∧
    (∀ c ∈ [(0x13, Instr.seqClose n), (0x14, .seqCancel n)], dOpcode d = c.1 → ∃ t : State, exec c.2 s = .next t ∧
      (∀ g ∈ t.steep.staged, g.seq ≠ q) ∧ ((s.item q).isSome = true → q ∈ t.steep.ended) ∧
      (∀ o, (s.seq q).opHandle ≠ 0 → s.longOps.find? (s.seq q).opHandle.toNat = some o → t.longOps = s.longOps.erase (s.seq q).opHandle.toNat) ∧
      (s.noSteeps = false → t.seq q = { s.seq q with closing := true } ∧ t.mem = s.mem) ∧
      (s.noSteeps = true → t.eng.seqs = (s.eng.seqs.set q { s.seq q with closing := true }).erase q) ∧ (∀ p, p ≠ q → t.seq p = s.seq p)) ∧
    (dOpcode d = 0x15 → s.eng.cache.contains q = true ∨ s.err.handling = [] → ∃ t : State, exec (.seqQuery n) s = .next t ∧ t.eng = s.eng ∧ t.mem = s.mem ∧
      .hostWrite (s.ring n).tagPasid (BitVec.ofNat 64 (dField d 16 8)) (seqBytes q (s.seq q)) ∈ t.out)

/-- The oldest accepted descriptor of a ring that deals with a long operation, once its checks pass: a start takes the
next handle and its total, a build also the idle bank; a control takes its operation through the table of R341, and
a query changes nothing. A safe point counts what is done, writes what a copy has read, and lets a pending suspend
or cancel take effect. A good end ends the operation: a build's bank is built, and an install's bank is the active
one (R258, R298, R299, R338 to R341). -/
def Obligations.LongOperationsRun : Prop :=
  ∀ s : State, s.live = true →
    (∀ (n : Nat) (d : W512), s.accepted.find? (fun a => a.ring = n) = some ⟨n, d⟩ → s.controlBefore ⟨n, d⟩ = false →
      ({ s with accepted := [] } : State).checkDesc n d = none →
      (∀ c ∈ [(0x21, some 0, Instr.bulkCopy n, OpKind.copy), (0x21, some 1, .bulkConvert n, .convert), (0x21, some 2, .bulkCompress n, .compress),
          (0x28, none, .weightInstall n, .install), (0x29, none, .swapBuild n, .build), (0x2A, none, .caddyScrub n, .scrub)],
        dOpcode d = c.1 → (∀ f, c.2.1 = some f → bcFunc d = f) →
        ∃ (t : State) (o : LongOp), exec c.2.2.1 s = .next t ∧ t.longOps.find? s.nextHandle.toNat = some o ∧ o.kind = c.2.2.2 ∧ o.ring = n ∧ o.desc = d ∧
          o.done = 0 ∧ o.state = .running ∧ t.nextHandle = (if s.nextHandle + 1 = 0 then 1 else s.nextHandle + 1) ∧ t.mem = s.mem ∧
          (c.1 = 0x21 → o.total = bulkTotal d (s.bulkBlock d) ∧ o.param = s.bulkBlock d) ∧
          (c.1 = 0x28 ∨ c.1 = 0x29 → (∃ b, t.caddy.build = some b ∧ b.handle = s.nextHandle.toNat ∧ b.bank = s.caddy.idle) ∧
            (t.caddy.bank s.caddy.idle).built = false ∧ o.total = dField d 24 8)) ∧
      (∀ o, s.longOps.find? (dField d 8 4) = some o → let h := dField d 8 4
        let c := controlOf n d
        let later : LongOp := { o with waiters := o.waiters ++ [c] }
        (dOpcode d = 0x30 → ∃ t : State, exec (.opSuspend n) s = .next t ∧ t.mem = s.mem ∧ t.eng = s.eng ∧
          t.longOps = (match o.state with
            | .running => s.longOps.set h { o with state := .suspendPending, waiters := [c] }
            | .suspendPending => s.longOps.set h later
            | .suspended => s.longOps
            | .cancelPending => s.longOps
            | .resumePending => s.longOps.set h { o with state := .suspended, waiters := [] })) ∧
        (dOpcode d = 0x31 → ∃ t : State, exec (.opResume n) s = .next t ∧ t.mem = s.mem ∧ t.eng = s.eng ∧
          t.longOps = (match o.state with
            | .running => s.longOps
            | .suspendPending => s.longOps.set h { o with state := .running, waiters := [] }
            | .suspended => match o.kind with
              | .prefill _ => s.longOps.set h { o with state := .resumePending, waiters := [c] }
              | _ => s.longOps.set h { o with state := .running, waiters := [] }
            | .cancelPending => s.longOps
            | .resumePending => s.longOps.set h later)) ∧
        (dOpcode d = 0x32 → ∃ t : State, exec (.opCancel n) s = .next t ∧
          (o.state = .running ∨ o.state = .suspendPending → t.longOps = s.longOps.set h { o with state := .cancelPending, waiters := [c] } ∧ t.mem = s.mem) ∧
          (o.state = .cancelPending → t.longOps = s.longOps.set h later ∧ t.mem = s.mem) ∧
          (o.state = .suspended ∨ o.state = .resumePending → t.longOps = (s.longOps.set h { o with state := .suspended, waiters := [] }).erase h)) ∧
        (dOpcode d = 0x33 → ∃ t : State, exec (.opQuery n) s = .next t ∧ t.longOps = s.longOps ∧ t.mem = s.mem ∧ t.eng = s.eng))) ∧
    (∀ h o, s.longOps.find? h = some o →
      (o.working = false → ∀ done inp, exec (.longOpSafePoint h done inp) s = .next s ∧ exec (.longOpComplete h inp) s = .next s) ∧
      (∀ done, o.pointAt done = false → ∀ inp, exec (.longOpSafePoint h done inp) s = .next s) ∧
      (∀ done inp, o.working = true → o.pointAt done = true → inp.hostFail = false → inp.lostSegs = [] → inp.fixedSegs = [] →
        (o.kind = .scrub ∨ (o.kind = .convert ∧ s.bulkFault (bulkReads o.desc o.param) (bulkWrites o.desc o.param ++ bulkHeader o.desc) = none) →
          ∃ t : State, exec (.longOpSafePoint h done inp) s = .next t ∧
            (o.state = .running → t.longOps = s.longOps.set h { o with done := done } ∧ t.mem = s.mem) ∧
            (o.state = .suspendPending → t.longOps.find? h = some { o with done := done, state := .suspended, waiters := [] } ∧ t.mem = s.mem) ∧
            (o.state = .cancelPending → t.longOps = (s.longOps.set h { o with done := done }).erase h)) ∧
        (o.kind = .copy → bcFunc o.desc = 0 → bcSrcHost o.desc = true → o.state = .running →
          let bs := bytesAt inp.hostData 0 (done - o.done)
          (bcDstHost o.desc = true → ∃ t : State, exec (.longOpSafePoint h done inp) s = .next t ∧ t.longOps = s.longOps.set h { o with done := done } ∧
            t.mem = s.mem ∧ .hostWrite (s.ring o.ring).tagPasid (BitVec.ofNat 64 (bcDst o.desc + o.done)) bs ∈ t.out) ∧
          (bcDstHost o.desc = false → s.checkWrite (bcDst o.desc + o.done) (done - o.done) = none →
            ∃ t : State, exec (.longOpSafePoint h done inp) s = .next t ∧ t.longOps = s.longOps.set h { o with done := done } ∧
              t.mem = (s.devWrite (bcDst o.desc + o.done) bs).mem)) ∧
        (o.kind = .compress → s.bulkFault (bulkReads o.desc o.param) (bulkWrites o.desc o.param ++ bulkHeader o.desc) = none →
          bulkOverlap o.desc o.param = false → (s.compressTo o done).1 = 0 →
          let r := s.compressTo o done
          exec (.longOpSafePoint h done inp) s = .next ((r.2.2.setOp h { o with rates := r.2.1 }).passPoint h done
            fun s => s.cancelOp { o with rates := r.2.1, done := done }))) ∧
      (∀ inp, o.working = true →
        (o.kind = .copy → bcFunc o.desc = 0 → bcSrcHost o.desc = true → bcDstHost o.desc = true →
          o.total ≤ o.nextPoint → inp.hostFail = false → inp.lostSegs = [] → inp.fixedSegs = [] →
          ∃ t : State, exec (.longOpComplete h inp) s = .next t ∧ t.longOps = (s.longOps.set h { o with done := o.total }).erase h ∧ t.mem = s.mem ∧
            .hostWrite (s.ring o.ring).tagPasid (BitVec.ofNat 64 (bcDst o.desc + o.done)) (bytesAt inp.hostData 0 (o.total - o.done)) ∈ t.out) ∧
        (o.kind = .scrub → o.total ≤ o.nextPoint → inp.lostSegs = [] → inp.fixedSegs = [] →
          ∃ t : State, exec (.longOpComplete h inp) s = .next t ∧ t.longOps = (s.longOps.set h { o with done := o.total }).erase h ∧ t.mem = s.mem) ∧
        (∀ b i, o.kind = .install ∨ o.kind = .build → s.caddy.build = some b → b.handle = h → b.hdr = some i → b.chunksDone = i.chunks →
          s.start.quiesced = false →
          ∃ t : State, exec (.longOpComplete h inp) s = .next t ∧ t.longOps = (s.longOps.set h { o with done := o.total }).erase h ∧ t.caddy.build = none ∧
            (t.caddy.bank b.bank).built = true ∧ (t.caddy.bank b.bank).gen = i.generation ∧ (t.caddy.bank b.bank).geom = i.attnGeom ∧
            (t.caddy.bank b.bank).winBytes = i.winBytes ∧
            (o.kind = .install → t.caddy.active = b.bank ∧ t.caddy.erased = false ∧ t.mem.genCurrent = i.generation) ∧
            (o.kind = .build → t.caddy.active = s.caddy.active ∧ t.mem = s.mem))))

/-- The oldest accepted descriptor of a ring, its checks passed: SYNC_ADD adds modulo 2^64, and answers the sum;
SYNC_WAIT completes at once where its threshold is met, else waits until an update meets it or its TIMEOUT in
microseconds (25 TCLK periods each) has passed; MSG_SEND ends where its buffer does not read or no link reaches its
destination, else takes the next number of its destination and is held for its acknowledgement, resent four times
200 µs (5,000 periods) apart. An acknowledgement ends the message it names. A whole message is posted and
acknowledged, a copy of one already posted is only acknowledged (R415, R432, R433, R437). -/
def Obligations.ObjectsAndMessagesWork : Prop :=
  ∀ s : State, s.live = true →
    (∀ (n : Nat) (d : W512), s.accepted.find? (fun a => a.ring = n) = some ⟨n, d⟩ →
      ({ s with accepted := [] } : State).checkDesc n d = none →
      let u : State := { s with accepted := s.accepted.erase ⟨n, d⟩ }
      (dOpcode d = 0x38 → let v := (s.objGet (dField d 8 2) + dField d 16 8) % 2 ^ 64
        ∃ t : State, exec (.syncAdd n) s = .next ((t.finish n d 0 [(16, 8, v)]).settleCloses) ∧ t.objGet (dField d 8 2) = v ∧
          (∀ b, b < objAddr (dField d 8 2) ∨ objAddr (dField d 8 2) + 8 ≤ b → Memory.byte t.mem.hbm b = Memory.byte s.mem.hbm b) ∧ t.eng = s.eng) ∧
      (dOpcode d = 0x39 → let w : Waiting := ⟨n, d, .sync (dField d 8 2) (BitVec.ofNat 64 (dField d 16 8)) s.time.count (dField d 24 4)⟩
        (s.objGet (dField d 8 2) < dField d 16 8 → ∃ t : State, exec (.syncWait n) s = .next t ∧ w ∈ t.waiting ∧ t.mem = s.mem ∧ t.eng = s.eng) ∧
        (dField d 16 8 ≤ s.objGet (dField d 8 2) → exec (.syncWait n) s =
          .next ((({ u with waiting := s.waiting ++ [w] } : State).endWait w 0).settleCloses))) ∧
      (dOpcode d = 0x3A → let port := bits (dField d 8 4) 3 0
        let dest : DWord := BitVec.ofNat 64 (dField d 16 8)
        (s.readable (dField d 24 8) (dField d 32 4) = false → exec (.msgSend n) s = .next ((u.finish n d 0x0420 []).settleCloses)) ∧
        (s.readable (dField d 24 8) (dField d 32 4) = true → s.messageRoute port dest = false →
          exec (.msgSend n) s = .next ((u.finish n d 0x0308 []).settleCloses)) ∧
        (s.readable (dField d 24 8) (dField d 32 4) = true → s.messageRoute port dest = true →
          ∃ t : State, exec (.msgSend n) s = .next t ∧ t.mem = s.mem ∧ t.fab.msgNumber.get 1 (msgKey port dest) = s.fab.msgNumber.get 1 (msgKey port dest) + 1 ∧
            t.fab.msgOut = s.fab.msgOut ++ [{
              ring := some n, port := port, dest := dest, number := s.fab.msgNumber.get 1 (msgKey port dest)
              bytes := s.devRead (dField d 24 8) (dField d 32 4), sentAt := s.time.count }] ∧
            ⟨n, d, .message (s.fab.msgNumber.get 1 (msgKey port dest)) port dest⟩ ∈ t.waiting))) ∧
    (∀ i w obj thr t0 us, s.waiting[i]? = some w → w.what = .sync obj thr t0 us →
      (us = 0 ∨ (s.time.count - t0).toNat < us * 25 → exec (.syncTimeout i) s = .next s) ∧
      (us ≠ 0 → us * 25 ≤ (s.time.count - t0).toNat → exec (.syncTimeout i) s = .next (s.endWait w 0x0560))) ∧
    (∀ i m, s.fab.msgOut[i]? = some m →
      ((s.time.count - m.sentAt).toNat < 5000 → exec (.messageRetry i) s = .next s) ∧
      (5000 ≤ (s.time.count - m.sentAt).toNat → m.retries < 4 → ∃ t : State, exec (.messageRetry i) s = .next t ∧ t.mem = s.mem ∧
        t.fab = { s.fab with msgOut := s.fab.msgOut.set i { m with retries := m.retries + 1, sentAt := s.time.count } }) ∧
      (5000 ≤ (s.time.count - m.sentAt).toNat → 4 ≤ m.retries → m.ring.isSome = true → ∃ t : State, exec (.messageRetry i) s = .next t ∧
        t.fab = { s.fab with msgOut := s.fab.msgOut.erase m } ∧ t.mem = s.mem)) ∧
    (∀ p m, s.ackedMessage p = some m → p.op = 0x98 → p.rsvd = 0 →
      (m.ring.isSome = true ∨ bits m.dest.toNat 5 0 ≠ 63 → ∃ t : State, exec (.messageAck p) s = .next t ∧
        t.fab = { s.fab with msgOut := s.fab.msgOut.erase m } ∧ t.mem = s.mem ∧
        (m.ring = none → bits m.dest.toNat 5 0 = 62 →
          t.dom = { s.dom with outRelease := s.dom.outRelease.map fun o => { o with waiting := false } })) ∧
      (m.ring = none → bits m.dest.toNat 5 0 = 63 → exec (.messageAck p) s =
        .next (({ s with fab := { s.fab with msgOut := s.fab.msgOut.erase m } } : State).adoptTaken (bits m.dest.toNat 31 24)))) ∧
    (∀ p, p.op = 0x18 → p.rsvd = 0 → p.dst = s.dom.node → p.operand.toNat < 2 ^ 48 → s.isMember p.src = true →
      p.operand.toNat / 2 ^ 27 + 1 ≤ 4096 → p.operand.toNat / 2 ^ 18 % 512 = 0 → p.payload.length = p.operand.toNat / 2 ^ 27 + 1 →
      let same := fun k : Nat × Nat × Nat × DWord × Word => k.1 = 0 ∧ k.2.1 = p.src ∧ k.2.2.1 = p.srcDie ∧ k.2.2.2.1 = p.addr
      ((∃ k ∈ s.fab.lastMsg, same k ∧ k.2.2.2.2 = p.dseq) → exec (.message p) s = .next (s.ackSend (messageAck p) false)) ∧
      ((∀ k ∈ s.fab.lastMsg, ¬ (same k ∧ k.2.2.2.2 = p.dseq)) → s.fab.msgIn = [] →
        (∀ t, s.post (p.addr.toNat % 64) p.payload p.src p.srcDie 0 = some t → ∃ v : State, exec (.message p) s = .next v ∧ v.mem = t.mem ∧
          (0, p.src, p.srcDie, p.addr, p.dseq) ∈ v.fab.lastMsg ∧ v.fab.msgIn = []) ∧
        (s.post (p.addr.toNat % 64) p.payload p.src p.srcDie 0 = none → ∃ v : State, exec (.message p) s = .next v ∧ v.mem = s.mem ∧
          v.fab.lastMsg = s.fab.lastMsg)))

/-! ## Steeps, routing and tiles (spec 01, 03 to 08, 10, 18) -/

/-- With no release record at the head of mailbox 63 the three record rows change nothing, and a release waits while a
request that its cut serves is still to run. A release that closes the steep in progress puts the domain state and
membership revision it names in force; in TEST or SERVICE the next steep runs with the number it names, else none
runs. A REPEAT, or a release that leaves TEST and SERVICE, commits no token: with no sequence closing and no long
operation every committed length stays. Any other record found during a steep is discarded: the steep, domain and
sequences stay as they are. An opening release, where no steep runs, starts one with its NEXT; an adoption record
puts its home table and membership revision in force and leaves the steep, the domain state and the sequences; a
revision for the membership in force clears MEMBERSHIP_CHANGED (R22, R23, R25, R26, R29, R420, R422, R426). -/
def Obligations.ReleasesAreApplied : Prop :=
  ∀ (s : State) (inp : BoundaryIn),
    (s.relHead = none → ∀ c ∈ [Instr.release inp, .openingRelease inp, .adoptionRecord], exec c s = .next s) ∧
    (∀ r, s.relHead = some r → s.serving = true →
      (s.requestsIn = false → exec (.release inp) s = .next s ∧ exec (.openingRelease inp) s = .next s) ∧
      (s.requestsIn = true → s.steep.running = true → r.open_ = false → r.adopt = false → r.closed = s.steep.number →
        ∃ t : State, exec (.release inp) s = .next t ∧ t.dom.state = r.state ∧ t.dom.memberRev = r.memberRev ∧
          (r.state = .test ∨ r.state = .service → t.steep.number = r.next ∧ t.steep.running = true) ∧
          (r.state = .bringup ∨ r.state = .recovery → t.steep.running = false) ∧
          (r.repeat_ = true ∨ r.state = .bringup ∨ r.state = .recovery → s.longOps = [] →
            (∀ p ∈ s.eng.seqs, p.2.closing = false) → ∀ q, (t.seq q).committed = (s.seq q).committed)) ∧
      (s.requestsIn = true → s.steep.running = true → r.open_ = true ∨ r.adopt = true ∨ r.closed ≠ s.steep.number →
        s.err.handling = [] →
        ∃ t : State, exec (.release inp) s = .next t ∧ t.steep = s.steep ∧ t.dom = s.dom ∧ t.eng = s.eng ∧ t.mem = (s.take 63).mem) ∧
      (s.requestsIn = true → s.steep.running = false → r.open_ = true →
        ∃ t : State, exec (.openingRelease inp) s = .next t ∧ t.steep.number = r.next ∧ t.steep.running = true ∧ t.dom.state = r.state ∧
          t.dom.memberRev = r.memberRev) ∧
      (s.steep.running = false → r.adopt = true → r.open_ = false →
        ∃ t : State, exec .adoptionRecord s = .next t ∧ t.steep = s.steep ∧ t.dom.state = s.dom.state ∧ t.dom.memberRev = r.memberRev ∧
          t.eng = s.eng ∧ (∀ n, s.rte.next = some n → n.rev = r.htRev → t.rte.table = n ∧ t.rte.next = none) ∧
          (s.rte.next = none → t.rte.table = s.rte.table) ∧
          (s.rte.next = none → s.rte.table.rev = r.htRev → sortBy (· ≤ ·) s.rte.table.members = s.memberList →
            t.dom.membershipChanged = false)))

/-- The next operation that may be issued is: its record is read afresh, and its run takes M and is done at once where M
is 0; a record that is unreadable or breaches the floor stops the program and fails every sequence of the batch.
Once every line has its results, an operation's output makes it done, where no line jumps under escalation; plain
FP32 output of one line is stored at OUT and nowhere else; an escalation ends the wait of the lines that jumped. A
draft pass counts and clears the draft list's runs; verification stages the tokens of every sequence of the batch
that has outputs; stage 8 signals the barrier once it is ready. Each waits, changing nothing, until then (R19, R20,
R37, R82, R89, R90, R113, R114, R124, R126, R202, R231, R236, R423). -/
def Obligations.SteepProgramRuns : Prop :=
  ∀ (s : State) (m : Model), s.model = some m → s.live = true →
    (∀ draft index expert,
      (s.issueReady m draft index expert = false → ∀ f, exec (.operationIssue draft index expert f) s = .next s) ∧
      (s.issueReady m draft index expert = true →
        let r := s.record_ m draft index
        let a := (hList m.header draft).1 + 128 * index
        (s.readable a 128 = true → draft = true ∨ meetsFloor m.floor (rLpw r) = true →
          exec (.operationIssue draft index expert false) s = .next { s with steep := { s.steep with issued := s.steep.issued ++
            [{ draft := draft, index := index, expert := expert.getD 0, lines := s.issueLines m draft expert,
               done := s.issueLines m draft expert = 0 }] } }) ∧
        (s.err.handling = [] → s.err.silent = false →
          ∀ f, f = true ∨ s.readable a 128 = false ∨ (draft = false ∧ meetsFloor m.floor (rLpw r) = false) →
          ∃ t : State, exec (.operationIssue draft index expert f) s = .next t ∧ t.steep.stopped = some (draft, index) ∧
            (∀ b ∈ s.steep.batch, b.seq ∈ t.steep.failed) ∧ t.steep.issued = s.steep.issued ∧ t.steep.batch = s.steep.batch))) ∧
    (s.steep.running = true → s.steep.staged8 = false → ∀ draft index expert, let u := s.completeAll
      (u.runOf draft index (expert.getD 0) = none → exec (.operationOutput draft index expert) s = .next s) ∧
      (∀ k, u.runOf draft index (expert.getD 0) = some k → let r := u.record_ m draft index
        (k.done = true → exec (.operationOutput draft index expert) s = .next s) ∧
        (expert = none → rKind r ≠ 5 → k.done = false → k.kept = [] → k.jumped = [] → u.resultsIn k r = true →
          draft = true ∨ escalates (rLpw r) = false →
          ∃ t : State, exec (.operationOutput draft index expert) s = .next t ∧ t.opDone draft index = true ∧
            t.steep.batch = s.steep.batch ∧ t.serve = s.serve ∧ t.pwr = s.pwr ∧ t.sec = s.sec) ∧
        (∀ e, expert = some e → draft = false → rKind r = 5 → k.done = false → u.expertIn_ k r = true →
          ∃ t : State, exec (.operationOutput draft index expert) s = .next t ∧ (t.runOf false index e).map OpRun.done = some true ∧
            t.steep.batch = s.steep.batch ∧ t.serve = s.serve ∧ t.pwr = s.pwr ∧ t.sec = s.sec))) ∧
    (s.steep.running = true → s.steep.staged8 = false → s.comp.tiles = [] → s.routedList = [] →
      ∀ draft index k l xs, s.runOf draft index 0 = some k → k.done = false → k.kept = [] → k.jumped = [] → k.lines = 1 →
      s.ownLines draft = [l] → s.gone l.seq = false → let r := s.record_ m draft index
      rKind r = 2 → rAct r = 0 → rScale r = 0 → rBias r = false → rNormk r = 0 → rResid r = false → rSteer r = false → rKvw r = false →
      rEscw r = false → lpwNact (rLpw r) = 0 → lpwSround (rLpw r) = false → fmtOf (lpwOut (rLpw r)) = some .fp32 →
      k.line 0 (opBlocks r) (rN r) = some xs → s.rowFault m draft k r 0 l = none → s.checkWrite (rOut r) (4 * xs.length) = none →
      ∃ t : State, exec (.operationOutput draft index none) s = .next t ∧ t.steep.batch = s.steep.batch ∧
        (s.mem.classDrop = [] → ∀ i, i < 4 * xs.length → Memory.byte t.mem.hbm (rOut r + i) =
          ((convLine .fp32 (rTscale r) none xs).bytes .fp32).getD i 0) ∧
        (∀ b, b < rOut r ∨ rOut r + 4 * xs.length ≤ b → Memory.byte t.mem.hbm b = Memory.byte s.mem.hbm b)) ∧
    (∀ index,
      (s.runOf false index 0 = none → exec (.normEscalation index) s = .next s) ∧
      (∀ k, s.runOf false index 0 = some k →
        (k.jumped = [] ∨ k.done = true → exec (.normEscalation index) s = .next s) ∧
        (s.steep.running = true → k.jumped ≠ [] → k.done = false →
          ∃ t : State, exec (.normEscalation index) s = .next t ∧ t.opDone false index = true ∧ t.steep.batch = s.steep.batch ∧
            t.serve = s.serve ∧ t.pwr = s.pwr ∧ t.sec = s.sec))) ∧
    (s.steep.running = true → s.steep.staged8 = false → s.steep.stopped = none → m.hasDraft = true →
      s.steep.draftPasses + 1 ≤ s.draftTop →
      (s.opDone true (m.headAt true) = false → exec .draftPass s = .next s) ∧
      (s.opDone true (m.headAt true) = true → ∃ t : State, exec .draftPass s = .next t ∧
        t.steep.draftPasses = s.steep.draftPasses + 1 ∧ t.steep.issued = s.steep.issued.filter (fun e => !e.draft) ∧
        t.steep.batch = s.steep.batch ∧ t.serve = s.serve ∧ t.pwr = s.pwr ∧ t.sec = s.sec)) ∧
    (s.steep.running = true → s.steep.staged8 = false →
      (s.opDone false (m.headAt false) = false → exec .verifyAndSample s = .next s) ∧
      (s.opDone false (m.headAt false) = true →
        (∃ t : State, exec .verifyAndSample s = .next t ∧ t.steep.batch = s.steep.batch ∧ t.serve = s.serve ∧ t.pwr = s.pwr ∧ t.sec = s.sec ∧
          ((∀ b ∈ s.steep.batch, s.logitFault m false (BatchItem_rows b) = none ∧ verify (s.seq b.seq)
              (b.firstPos + if b.prefill then b.lines else 1) ((s.steep.drafts.get [] b.seq).take b.draft)
              ((BatchItem_rows b).map (s.logits m false)) ≠ none) →
            ∀ b ∈ s.steep.batch, b.prefill = false ∨ b.final = true → ((s.steep.drafts.get [] b.seq).take b.draft).length = b.draft →
              s.gone b.seq = true ∨ b.seq ∈ t.steep.failed ∨ ∃ g ∈ t.steep.staged, g.seq = b.seq)) ∧
        (s.routedList = [] → ∀ b ts, s.steep.batch = [b] → s.gone b.seq = false → b.prefill = false ∨ b.final = true →
          let ds := (s.steep.drafts.get [] b.seq).take b.draft
          ds.length = b.draft → (∀ g ∈ s.steep.staged, g.seq ≠ b.seq) → s.logitFault m false (BatchItem_rows b) = none →
          verify (s.seq b.seq) (b.firstPos + if b.prefill then b.lines else 1) ds ((BatchItem_rows b).map (s.logits m false)) = some ts →
          exec .verifyAndSample s = .next { s with steep := { s.steep with staged := s.steep.staged ++
            [{ seq := b.seq, tokens := ts, proposed := b.draft, accepted := (ts.filter Prod.snd).length,
               normF := s.steep.flagged.contains b.seq, normE := s.steep.escalated.contains b.seq }] } }))) ∧
    (s.serving = true → s.steep.running = true → s.steep.staged8 = false →
      (s.stageReady = false → exec .stageOutputs s = .next s) ∧
      (s.stageReady = true → ∃ t : State, exec .stageOutputs s = .next t ∧ t.steep.staged8 = true ∧ t.steep.signalled = true ∧
        t.steep.running = true ∧ t.steep.number = s.steep.number ∧ t.steep.batch = s.steep.batch ∧ t.eng = s.eng ∧ t.rte = s.rte ∧
        t.serve = s.serve ∧ t.pwr = s.pwr ∧ t.sec = s.sec))

/-- Routing packets: a type outside 1 to 4, a steep that is neither the current nor, for a dispatch or its end marker,
the next is discarded and counted; those of the next steep are held, a second copy of a held one is a duplicate, and
a dispatch beyond a quota that no waiting revision can change is invalid. Of the current steep, a dispatch beyond
the quota is invalid, a second copy a duplicate, any other is kept; end markers are kept once; a pour is kept for
its choice, counted where its sequence ended or failed, and a failed pour fails the sequence (R182 to R185, R188,
R190, R257). -/
def Obligations.RoutingPacketsAreFiltered : Prop :=
  ∀ (s : State) (p : RoutePkt), s.live = true →
    let invalid : State := { s with rte := { s.rte with discInvalid := s.rte.discInvalid + 1 } }
    let dup : State := { s with rte := { s.rte with discDup := s.rte.discDup + 1 } }
    let hold : State := { s with rte := { s.rte with held := s.rte.held ++ [p] } }
    (∀ c ∈ [(Instr.dispatch p, 1), (.dispEnd p, 2), (.pour p, 3), (.pourEnd p, 4)],
      (p.ptype < 1 ∨ 4 < p.ptype → exec c.1 s = .next invalid) ∧
      (p.ptype = c.2 → s.steepness p.steep = .old → exec c.1 s = .next { s with rte := { s.rte with discOld := s.rte.discOld + 1 } }) ∧
      (p.ptype = c.2 → s.steepness p.steep = .far → exec c.1 s = .next invalid) ∧
      (p.ptype = c.2 → s.steepness p.steep = .next → 2 < c.2 → exec c.1 s = .next invalid)) ∧
    (p.ptype = 1 → s.steepness p.steep = .next →
      (s.rte.next = none → s.quota p.layer p.expert p.src ≤ p.slot → exec (.dispatch p) s = .next invalid) ∧
      (s.rte.next ≠ none ∨ p.slot < s.quota p.layer p.expert p.src →
        exec (.dispatch p) s = .next (if ∃ q ∈ s.rte.held, q.ptype = 1 ∧ q.src = p.src ∧ q.layer = p.layer ∧ q.expert = p.expert ∧
          q.slot = p.slot then dup else hold))) ∧
    (p.ptype = 2 → s.steepness p.steep = .next →
      exec (.dispEnd p) s = .next (if ∃ q ∈ s.rte.held, q.ptype = 2 ∧ q.src = p.src ∧ q.layer = p.layer then dup else hold)) ∧
    (p.steep = s.steep.number →
      (p.ptype = 1 →
        (s.quota p.layer p.expert p.src ≤ p.slot → ∃ t : State, exec (.dispatch p) s = .next t ∧
          t.rte.discInvalid = s.rte.discInvalid + 1 ∧ t.rte.lines = s.rte.lines) ∧
        (p.slot < s.quota p.layer p.expert p.src → (∃ l ∈ s.rte.lines, l.src = p.src ∧ l.layer = p.layer ∧ l.expert = p.expert ∧ l.slot = p.slot) →
          ∃ t : State, exec (.dispatch p) s = .next t ∧ t.rte.discDup = s.rte.discDup + 1 ∧ t.rte.lines = s.rte.lines) ∧
        (p.slot < s.quota p.layer p.expert p.src → (∀ l ∈ s.rte.lines, ¬ (l.src = p.src ∧ l.layer = p.layer ∧ l.expert = p.expert ∧ l.slot = p.slot)) →
          ∃ t : State, exec (.dispatch p) s = .next t ∧
            t.rte.lines = s.rte.lines ++ [⟨p.src, p.expert, p.slot, p.layer, p.homeNode, p.tag, p.steep, p.rowScale, none, false⟩] ∧
            t.rte.discInvalid = s.rte.discInvalid ∧ t.rte.choices = s.rte.choices ∧ t.serve = s.serve ∧
            t.pwr = s.pwr ∧ t.sec = s.sec ∧ t.disc = s.disc)) ∧
      (p.ptype = 2 →
        ((∃ d ∈ s.rte.dispEnds, d.layer = p.layer ∧ d.node = p.src) → ∃ t : State, exec (.dispEnd p) s = .next t ∧
          t.rte.discDup = s.rte.discDup + 1 ∧ t.rte.dispEnds = s.rte.dispEnds) ∧
        ((∀ d ∈ s.rte.dispEnds, ¬ (d.layer = p.layer ∧ d.node = p.src)) → ∃ t : State, exec (.dispEnd p) s = .next t ∧
          t.rte.dispEnds = s.rte.dispEnds ++ [⟨p.layer, p.src, p.count, p.steep⟩] ∧ t.rte.lines = s.rte.lines ∧
          t.rte.choices = s.rte.choices ∧ t.serve = s.serve ∧ t.pwr = s.pwr ∧ t.sec = s.sec ∧ t.disc = s.disc)) ∧
      (p.ptype = 4 →
        ((∃ d ∈ s.rte.pourEnds, d.layer = p.layer ∧ d.node = p.src) → exec (.pourEnd p) s = .next dup) ∧
        ((∀ d ∈ s.rte.pourEnds, ¬ (d.layer = p.layer ∧ d.node = p.src)) → ∃ t : State, exec (.pourEnd p) s = .next t ∧
          t.rte.pourEnds = s.rte.pourEnds ++ [⟨p.layer, p.src, p.count, p.steep⟩] ∧ t.rte.lines = s.rte.lines ∧
          t.rte.choices = s.rte.choices ∧ t.serve = s.serve ∧ t.pwr = s.pwr ∧ t.sec = s.sec ∧ t.disc = s.disc)) ∧
      (p.ptype = 3 →
        (s.pourChoice p = none → exec (.pour p) s = .next s) ∧
        (∀ c, s.pourChoice p = some c → let mark := fun f : Choice → Choice => updateIf s.rte.choices (· = c) f
          (s.endedSeq c.seq = true → ∃ t : State, exec (.pour p) s = .next t ∧ t.rte.discClosed = s.rte.discClosed + 1 ∧
            t.rte.choices = mark fun c => { c with arrived := true }) ∧
          (s.endedSeq c.seq = false → c.seq ∈ s.steep.failed → ∃ t : State, exec (.pour p) s = .next t ∧
            t.rte.discFailed = s.rte.discFailed + 1 ∧ t.rte.choices = mark fun c => { c with arrived := true }) ∧
          (s.gone c.seq = false → c.pour.isSome = true → exec (.pour p) s = .next dup) ∧
          (s.gone c.seq = false → c.pour = none → p.elems = 0 → s.err.handling = [] → s.err.silent = false →
            s.steep.running = true →
            ∃ t : State, exec (.pour p) s = .next t ∧ c.seq ∈ t.steep.failed ∧ t.rte.choices = mark (fun c => { c with arrived := true }) ∧
              t.rte.lines = s.rte.lines) ∧
          (s.gone c.seq = false → c.pour = none → p.elems ≠ 0 → ∃ t : State, exec (.pour p) s = .next t ∧
            t.rte.choices = mark (fun c => { c with
              arrived := true, pour := some (readLine (if rtPour s.routing = 1 then .bf16 else .fp32) 0 p.elems p.payload []) }) ∧
            t.rte.lines = s.rte.lines ∧ t.serve = s.serve ∧ t.pwr = s.pwr ∧ t.sec = s.sec ∧ t.disc = s.disc))))

/-- Once the ROUTER record of a layer has its lines and every routed layer before is combined, admission of rows that
can be read adds choices within the quota of the expert for this package, each at a slot of its own, gives a row
without one a combined line of zeros, and ends the layer's dispatches once. A received line is answered with one
pour once its layer's shape is written and its last expert operation is out, or with a failed pour where the program
stopped there; a revision of the home table is accepted and kept for a release, or refused, and the manager hears
which (R173, R176 to R178, R182, R184, R186, R187, R192). -/
def Obligations.RoutingSendsOnce : Prop :=
  ∀ s : State, s.live = true →
    (∀ (m : Model) (layer i : Nat), s.model = some m → m.routerOf layer = some i →
      (layer ∈ s.rte.dispSent → exec (.routingAdmission layer) s = .next s) ∧
      (let r := s.record_ m false i
       let bias := if rBias2 r = 0 then [] else s.f32s (rBias2 r) s.nexp
       layer ∉ s.rte.dispSent → s.steep.running = true → s.opDone false i = true → s.layersBefore layer = true →
       (∀ w ∈ s.routeRows m i r, s.routeFault m r w.row = none ∧ badRow bias w.logits = false) →
        ∃ t new, exec (.routingAdmission layer) s = .next t ∧ t.rte.choices = s.rte.choices ++ new ∧ layer ∈ t.rte.dispSent ∧
        (∀ c ∈ new, c.layer = layer ∧ c.pour = none ∧ c.arrived = false ∧ c.k < rtK m.routing ∧
          c.slot < s.quota layer c.expert s.dom.node ∧ ∃ w ∈ s.routeRows m i r, w.row = c.row ∧ w.line.seq = c.seq ∧ w.line.pos = c.pos) ∧
        (∀ c ∈ new, ∀ d ∈ new, c.expert = d.expert → c.slot = d.slot → c.row = d.row ∧ c.k = d.k) ∧
        (∀ w ∈ s.routeRows m i r, (∀ c ∈ new, c.row ≠ w.row) →
          ∃ k ∈ t.rte.combined, k.layer = layer ∧ k.row = w.row ∧ ∀ x ∈ k.line, x = 0) ∧
        t.rte.lines = s.rte.lines ∧ t.serve = s.serve ∧ t.pwr = s.pwr ∧ t.sec = s.sec ∧ t.disc = s.disc)) ∧
    (∀ src expert slot,
      (s.openLine src expert slot = none → exec (.pourSend src expert slot) s = .next s) ∧
      (∀ l, s.openLine src expert slot = some l →
        (l.layer ∉ s.rte.shaped ∨ (s.expertStopped l.layer = false ∧ l.out = none) → exec (.pourSend src expert slot) s = .next s) ∧
        (l.layer ∈ s.rte.shaped → s.steep.running = true → s.expertStopped l.layer = true ∨ l.out ≠ none →
          ∃ t : State, exec (.pourSend src expert slot) s = .next t ∧
            t.rte.lines = updateIf s.rte.lines (· = l) (fun l => { l with pourSent := true }) ∧ t.rte.choices = s.rte.choices ∧
            t.serve = s.serve ∧ t.pwr = s.pwr ∧ t.sec = s.sec ∧ t.disc = s.disc))) ∧
    (∀ r : HomeRev, s.disc.inDomain = true →
      (s.checkRevision r = none → exec (.homeTableCheck r) s = .next { s with
        rte := { s.rte with next := some ⟨r.rev, r.members, r.entries⟩ }
        out := s.out ++ [.member s.dom.manager 2 [BitVec.ofNat 64 r.rev.toNat, 0]] }) ∧
      (∀ area d, s.checkRevision r = some (area, d) → s.err.handling = [] → ∃ t : State, exec (.homeTableCheck r) s = .next t ∧
        t.rte = s.rte ∧ t.dom = s.dom ∧ t.mem = s.mem ∧ t.steep = s.steep ∧
        .member s.dom.manager 2 [BitVec.ofNat 64 r.rev.toNat, 1, BitVec.ofNat 64 (b2n area), BitVec.ofNat 64 d] ∈ t.out))

/-- A tile that may take work takes an item that is to run, its last item's sums read out first: with every operand
readable and every checked piece good at its first read, the accumulation region holds the item's results, line by
line; a piece that fails both reads makes the tile hold the item; no byte of HBM changes. A held item whose piece
passes when read again goes on with those bytes; a granule with a lower tier whose piece fails twice is queued to be
fetched again, and GRANULE_REFETCH takes it off. Cosy takes a tile down after a gap of 48 beats by the steps that
pass, and up again. The first stall of a pending request parks the tile and reissues its items, the second maps it
out. The delay line follows a rail that moved by more than 25 mV. Engine failover leaves the other engine; the loss
of the last is package-fatal. A rebuild restores both table copies and clears steering (R55 to R57, R99, R103, R105,
R108 to R111, R118, R198, R254, R449, R450, R453). -/
def Obligations.TilesAndEnginesGoOn : Prop :=
  ∀ s : State, s.live = true →
    (∀ (t0 : TileAt) (w : WorkItem) (reads : List CoreRead), s.steep.running = true → s.steep.staged8 = false →
      s.tileFree t0 = true → s.itemOk w = true → (s.comp.reissue.any fun r => r.1 = t0.die) = false →
      let u := ((s.flushTile t0).onTile t0 fun k => { k with items := [w] }).onTile t0 fun k => { k with shadow := some (w, 0), gap := 0 }
      (∀ p ∈ u.itemRanges w, u.readFault p = none) →
      ((∀ p ∈ u.itemPieces w, ∃ b, u.readPiece reads (u.itemPieces w) p = some (false, b)) →
        ∃ t : State, exec (.feederWorkItem t0 w reads none) s = .next t ∧
          (t.tileOf t0).acc = (u.itemResults w reads).mapIdx (fun i x => (i, x)) ∧ (t.tileOf t0).items = [w] ∧
          (t.tileOf t0).hold = none ∧ t.mem.hbm = s.mem.hbm ∧ t.err = (s.flushTile t0).err) ∧
      (u.badPiece w reads ≠ none → ∃ t : State, exec (.feederWorkItem t0 w reads none) s = .next t ∧
        (t.tileOf t0).hold = some (w, reads) ∧ (t.tileOf t0).items = [] ∧ t.mem = s.mem ∧ t.err = (s.flushTile t0).err)) ∧
    (∀ (t0 : TileAt) first second (f1 f2 : FillIn),
      ((s.tileOf t0).hold = none → exec (.leafRefetch t0 first second) s = .next s ∧ exec (.granuleRefetch t0 f1 f2) s = .next s) ∧
      (∀ w reads r, (s.tileOf t0).hold = some (w, reads) → s.badPiece w reads = some r → s.tileUsable t0 = true →
        (r.addr / 0x10000 ∉ s.comp.refetch →
          exec (.granuleRefetch t0 f1 f2) s = .next s ∧
          (s.pieceOk r (first.getD (s.pieceBytes r)) = false → s.pieceOk r (second.getD (s.pieceBytes r)) = false →
            belowHbm r.addr = true → exec (.leafRefetch t0 first second) s = .next { s with
              comp := { s.comp with refetch := s.comp.refetch ++ [r.addr / 0x10000] } }) ∧
          (s.pieceOk r (first.getD (s.pieceBytes r)) = true → s.withheld t0 = true → s.err.handling = [] →
            ∃ t k, exec (.leafRefetch t0 first second) s = .next t ∧ t.mem = s.mem ∧
              (t.tileOf t0).hold = some (w, setRead reads k (first.getD (s.pieceBytes r))))) ∧
        (r.addr / 0x10000 ∈ s.comp.refetch → exec (.leafRefetch t0 first second) s = .next s ∧
          ∃ t : State, exec (.granuleRefetch t0 f1 f2) s = .next t ∧ t.comp.refetch = s.comp.refetch.erase (r.addr / 0x10000)))) ∧
    (∀ t0 : TileAt, s.tileUsable t0 = true → s.steep.running = true →
      (s.cosy = true → s.withheld t0 = false → (s.tileOf t0).ramp = 0 → ∀ steps, 1 ≤ steps → steps ≤ 16 →
        ∃ t : State, exec (.cosyRampDown t0 48 steps) s = .next t ∧ t.tileOf t0 = { s.tileOf t0 with gap := 48, ramp := steps } ∧
          t.mem = s.mem ∧ t.steep = s.steep) ∧
      (s.cosy = true → s.withheld t0 = false → (s.tileOf t0).ramp ≠ 0 → ∃ t : State, exec (.cosyRampUp t0) s = .next t ∧
          t.tileOf t0 = { s.tileOf t0 with gap := 0, ramp := 0 } ∧ t.mem = s.mem ∧ t.steep = s.steep) ∧
      (s.requestPending t0 = false → exec (.beatStall t0) s = .next s) ∧
      (s.requestPending t0 = true → (s.tileOf t0).parked = false → s.err.handling = [] → s.err.silent = false → s.err.fatal = false →
        ((s.tileOf t0).firings = 0 → ∃ t : State, exec (.beatStall t0) s = .next t ∧ (t.tileOf t0).firings = 1 ∧
          (t.tileOf t0).parked = true ∧ (t.tileOf t0).items = [] ∧ t.mem = s.mem ∧
          t.comp.reissue = s.comp.reissue ++ (s.tileOf t0).items.map (fun w => (t0.die, w, s.err.total))) ∧
        (0 < (s.tileOf t0).firings → ∃ t : State, exec (.beatStall t0) s = .next t ∧ t.tileUsable t0 = false))) ∧
    (∀ die, die < 4 → let v := s.pwr.vcore.getD die 0
      let c := s.time.calMv.getD die 0
      exec (.delayLineCalibration die) s = .next (if c + 25 < v ∨ v + 25 < c
        then { s with time := { s.time with calMv := s.time.calMv.set die v } } else s)) ∧
    (s.err.handling = [] → s.err.silent = false →
      (s.eng.primary = true → s.eng.mirror = true →
        (∃ t : State, exec (.engineFailover true) s = .next t ∧ t.eng.primary = false ∧
          (s.model = none → t.eng.mirror = true ∧ t.err.fatal = s.err.fatal)) ∧
        (∃ t : State, exec (.engineFailover false) s = .next t ∧ t.eng.mirror = false ∧
          (s.model = none → t.eng.primary = true ∧ t.err.fatal = s.err.fatal))) ∧
      (s.eng.primary = true → s.eng.mirror = false →
        exec (.engineFailover false) s = .next s ∧
        ∃ t : State, exec (.engineFailover true) s = .next t ∧ t.err.fatal = true ∧ t.err.silent = true)) ∧
    (s.mem.rebuild = false → exec .seqTableRebuild s = .next s) ∧
    (s.mem.rebuild = true → (∀ p ∈ s.eng.seqs, s.eng.cache.contains p.1 = true) →
      ∃ t : State, exec .seqTableRebuild s = .next t ∧ t.eng.copy0 = true ∧ t.eng.copy1 = true ∧ t.mem.rebuild = false ∧
      t.eng.tenants = s.eng.tenants.mapVals (fun _ t => { t with steerDir := 0, steerVer := t.steerVer + 1 }) ∧ t.eng.seqs = s.eng.seqs)

/-! ## The domain (spec 17) -/

/-- A domain request at the head of mailbox 60: none, or one of another code, leaves its command without effect; a
malformed one is taken, discarded and logged; one that finds another pending is taken and answered so in its reply
object (R421). A request taken with none pending acts by the domain's state: from BRINGUP a test request opens the
domain with an opening release in TEST; in SERVICE it waits for a release; elsewhere it fails. A service request
waits in TEST with a model loaded and opens the domain in SERVICE from BRINGUP or RECOVERY with a model and a
fitting table. A bring-up request waits for a release, or re-enters BRINGUP at once where no steeps run. An adoption
fails where steeps run, the prepared revision cannot be read or a member refuses it; else its record goes out and
the revision waits for it (R418 to R422). -/
def Obligations.DomainRequestsAct : Prop :=
  (∀ (s : State) (ready : Bool) (refused : List (Nat × Nat)), s.mgmtUp = true → s.dom.role = .manager →
     ∀ p ∈ [(Instr.enterTest ready, 1), (.enterService ready, 2), (.returnToBringup, 3), (.adoptHomeTable refused, 4)],
       (s.notice 60 = none → exec p.1 s = .next s) ∧
       (∀ n, s.notice 60 = some n →
         (parseReq n.1 = none → exec p.1 s = .next ((s.take 60).raise { status := 0x0318, cls := 0 })) ∧
         (∀ q a, parseReq n.1 = some (q, a) →
           (q.code ≠ p.2 → exec p.1 s = .next s) ∧
           (q.code = p.2 → s.reqPending = true → exec p.1 s = .next ((s.take 60).replyTo q 0x200000000))))) ∧
  (∀ (s : State) (n : List Byte × Nat) (q : DomReq) (a : Nat), s.mgmtUp = true → s.dom.role = .manager → s.notice 60 = some n →
     parseReq n.1 = some (q, a) → s.dom.request = none → s.dom.outRelease = none → s.dom.adopting = none →
     let fails := fun c : Instr => exec c s = .next ((s.take 60).replyTo q 0x100000000)
     let waits := fun c : Instr => exec c s = .next ((s.take 60).setDom { s.dom with request := some q })
     let opens := fun (c : Instr) (st : DomState) => ∃ (t : State) (o : OutRel), exec c s = .next t ∧ t.dom = { s.dom with outRelease := some o } ∧
       o.rel.state = st ∧ o.rel.open_ = true ∧ o.rel.adopt = false ∧ o.rel.repeat_ = false ∧ o.rel.bankSwitch = false ∧
       o.rel.next = s.openingNext ∧ o.rel.closed = s.openingNext - 1 ∧ o.rel.htRev = s.rte.table.rev ∧ o.members = s.dom.members ∧
       o.reply = some q ∧ o.waiting = (s.disc.standby != 0xFF)
     (q.code = 1 → ∀ ready,
       (s.dom.state = .bringup → s.disc.inDomain = true → (s.take 60).canOpen ready = true → opens (.enterTest ready) .test) ∧
       (s.dom.state = .bringup → s.disc.inDomain = false ∨ (s.take 60).canOpen ready = false → fails (.enterTest ready)) ∧
       (s.dom.state = .service → waits (.enterTest ready)) ∧
       (s.dom.state = .test ∨ s.dom.state = .recovery → fails (.enterTest ready))) ∧
     (q.code = 2 → ∀ ready,
       (s.dom.state = .test → s.model.isSome = true → ready = true → waits (.enterService ready)) ∧
       (s.model = none ∨ ready = false ∨ s.dom.state = .service → fails (.enterService ready)) ∧
       (s.dom.state = .bringup ∨ s.dom.state = .recovery → s.disc.inDomain = true → s.model.isSome = true →
         (s.take 60).canOpen true = true → sortBy (· ≤ ·) s.rte.table.members = s.memberList → opens (.enterService true) .service)) ∧
     (q.code = 3 →
       (s.noSteeps = false → waits .returnToBringup) ∧
       (s.noSteeps = true → ∃ t : State, exec .returnToBringup s = .next t ∧ t.dom.state = .bringup ∧ t.steep.running = false ∧
         t.disc.epoch = (s.disc.epoch + 1) % 65536)) ∧
     (q.code = 4 → ∀ refused,
       (s.noSteeps = false ∨ s.disc.inDomain = false → fails (.adoptHomeTable refused)) ∧
       (s.noSteeps = true → s.disc.inDomain = true →
         ((s.take 60).readHomeTable a = none → fails (.adoptHomeTable refused)) ∧
         (∀ es, (s.take 60).readHomeTable a = some es → (s.take 60).checkRevision ⟨s.rte.table.rev + 1, s.memberList, es⟩ = none →
           ((∀ r ∈ refused, s.isMember r.1 = false) →
             ∃ (t : State) (o : OutRel), exec (.adoptHomeTable refused) s = .next t ∧ t.dom = { s.dom with outRelease := some o } ∧ o.rel.adopt = true ∧
               o.rel.open_ = false ∧ o.rel.state = s.dom.state ∧ o.rel.htRev = s.rte.table.rev + 1 ∧ o.reply = some q ∧
               t.rte.next = some { rev := s.rte.table.rev + 1, members := s.memberList, entries := es }) ∧
           ((∃ r ∈ refused, s.isMember r.1 = true) → s.err.handling = [] →
             ∃ t : State, exec (.adoptHomeTable refused) s = .next t ∧ t.dom = s.dom ∧ t.rte.next = none)))))

/-- The step barrier at the manager: a steep that some member has neither reached, missed nor left stays open; one that
all have closes with one release for the next number, REPEAT where a member missed or is lost. The release waits for
the standby and is then posted; no arrival 2 s (50,000,000 TCLK periods) after the first, or a leave notice, takes a
member as lost (R405, R423, R424, R427, R459, R460). -/
def Obligations.BarrierCloses : Prop :=
  ∀ s : State, s.mgmtUp = true → s.dom.role = .manager →
    (s.steep.running = true → s.dom.outRelease = none → ∀ refused,
      (s.closable = false ∨ s.released = true → exec (.steepClose refused) s = .next s) ∧
      (s.closable = true → s.released = false → s.err.handling = [] → s.noSteeps = false →
        ∃ (t : State) (o : OutRel), exec (.steepClose refused) s = .next t ∧ t.dom.outRelease = some o ∧ o.rel.closed = s.steep.number ∧
          o.rel.next = s.steep.number + 1 ∧ o.rel.open_ = false ∧ o.rel.adopt = false ∧
          ((∃ n ∈ s.memberList, n ∈ s.dom.missed ∨ s.missedAt n = true) → o.rel.repeat_ = true) ∧
          ((∀ n ∈ s.memberList, n ∉ s.dom.missed ∧ s.missedAt n = false ∧ n ∉ s.dom.lost) →
            o.rel.repeat_ = false ∧ o.rel.state = s.requested.1 ∧ o.reply = s.requested.2))) ∧
    (∀ o, s.dom.outRelease = some o →
      (o.waiting = true → exec .releasePost s = .next s) ∧
      (o.waiting = false → o.members = s.dom.members → ∃ t : State, exec .releasePost s = .next t ∧ t.dom.outRelease = none ∧
        t.dom.lastRelease = some o.rel ∧ t.dom.members = s.dom.members ∧ t.dom.role = .manager ∧ t.steep = s.steep)) ∧
    (s.noSteeps = false →
      (∀ first node, s.dom.firstArrival = some first → s.steep.running = true →
        ((s.time.count - first).toNat < 50000000 ∨ s.arrived node = true → exec (.barrierArrivalTimeout node) s = .next s) ∧
        (50000000 ≤ (s.time.count - first).toNat → s.arrived node = false → s.isMember node = true → node ∉ s.dom.lost →
          node ≠ s.dom.node → s.err.handling = [] →
          ∃ t : State, exec (.barrierArrivalTimeout node) s = .next t ∧ t.dom = { s.dom with lost := s.dom.lost ++ [node] })) ∧
      (∀ n, s.notice 61 = some n → s.isMember n.2 = true → n.2 ∉ s.dom.lost → n.2 ≠ s.dom.node → s.err.handling = [] →
        ∃ t : State, exec .leaveNotice s = .next t ∧ t.dom = { s.dom with lost := s.dom.lost ++ [n.2] }))

/-- The standby keeps the latest replication record, and takes the domain over when the manager says it is lost: it is
then the elected manager, with the record's release and EPOCH, and names another standby (R427 to R429). The
management processor's watchdog resets it no earlier than 2 s after its last service, a manager giving its role up;
the third expiry within an hour (90,000,000,000 TCLK periods) holds it in reset; otherwise the end of the reset
starts it again. TCLK is switched at most once every 10 ms (250,000 periods), and the counter goes on (R33, R47,
R53, R429, R457). -/
def Obligations.TakeoverAndRecovery : Prop :=
  (∀ s : State, s.mgmtUp = true → s.dom.role = .standby → ∀ n, s.notice 62 = some n →
     (n.1.length = 128 → exec .replicationRecord s = .next ((s.take 62).setDom { s.dom with replica := some (replicaOf n.1) })) ∧
     (n.1.length ≠ 128 → exec .replicationRecord s = .next s) ∧
     (n.1.length ≠ 128 → (s.linkFor s.dom.manager 0).isSome = true → s.steep.running = false →
       (∀ r, s.dom.replica = some r → r.members = s.dom.members ∧ r.request = none) →
       ∃ t : State, exec .standbyTakeover s = .next t ∧ t.dom.role = .manager ∧ t.dom.manager = s.dom.node ∧ t.dom.node = s.dom.node ∧
         t.dom.replica = none ∧ t.disc.elected = true ∧ t.disc.candidate = false ∧ t.disc.standby = s.pickStandby ∧
         (∀ r, s.dom.replica = some r → t.dom.lastRelease = some r.rel ∧ t.disc.epoch = r.epoch ∧ t.dom.planeRev = r.planeRev))) ∧
  (∀ s : State,
     (s.live = true → s.hif.mgmtRun = true → s.start.mgmtReset = false →
       let recent := s.start.expiries.filter fun t => (s.time.count - t).toNat < 90000000000
       ((s.time.count - s.start.served).toNat < 50000000 → exec .mgmtWatchdogExpiry s = .next s) ∧
       (50000000 ≤ (s.time.count - s.start.served).toNat → s.err.handling = [] → s.err.silent = false →
         ∃ t : State, exec .mgmtWatchdogExpiry s = .next t ∧ t.hif.mgmtRun = false ∧ t.start.mgmtReset = true ∧
           t.start.expiries = recent ++ [s.time.count] ∧
           t.start.mgmtHeld = (s.start.mgmtHeld || decide (2 ≤ recent.length)) ∧
           t.dom.role = (if s.dom.role = .manager ∨ 2 ≤ recent.length then .worker else s.dom.role) ∧
           t.dom.state = s.dom.state ∧ t.dom.members = s.dom.members)) ∧
     (s.live = true → s.start.mgmtReset = true →
       exec .managementProcessorResetEnd s = .next (if s.start.mgmtHeld then s
         else { s with start := { s.start with mgmtReset := false, served := s.time.count }, hif := { s.hif with mgmtRun := true } })) ∧
     (s.start.vaon = true → (∀ last, s.time.switchedAt = some last → 250000 ≤ (s.time.count - last).toNat) →
       (s.time.tclkLost = false → ∃ t : State, exec .tclkLost s = .next t ∧
         t.time = { s.time with tclkLost := true, switchedAt := some s.time.count } ∧ (s.err.handling = [] → t.dom = s.dom)) ∧
       (s.time.tclkLost = true → exec .tclkRestore s = .next { s with
         time := { s.time with tclkLost := false, switchedAt := some s.time.count } })) ∧
     (∀ last, s.time.switchedAt = some last → (s.time.count - last).toNat < 250000 →
       exec .tclkLost s = .next s ∧ exec .tclkRestore s = .next s))

/-! ## Discovery (spec 15 R376 to R388) -/

/-- HELLO goes out on every up link once every 1 ms (25,000 TCLK periods), not sooner; a HELLO received records the
peer's kind, node, link, plane and port, and gives a port without a kind its kind: a package or a first-stage switch
a domain port, an outer-stage switch a message port (R376, R380). Membership: the manager keeps a package's link
report in place of its last one for the link, and a member takes the mask and plane map it is sent: in the mask it
is in the domain, new members starting their write sequences anew; left out of it while outside a domain it stays
out (R385, R387, R398). -/
def Obligations.NeighboursAndMembers : Prop :=
  (∀ s : State, s.live = true →
     (∀ last, s.disc.lastHello = some last → (s.time.count - last).toNat < 25000 → exec .helloSend s = .next s) ∧
     ((∀ last, s.disc.lastHello = some last → 25000 ≤ (s.time.count - last).toNat) →
       ∃ t : State, exec .helloSend s = .next t ∧ t.disc = { s.disc with lastHello := some s.time.count } ∧ t.mem = s.mem ∧
         ∀ l, l < s.part.links → (s.link l).isUp = true → .frame l (s.frame l 1) ∈ t.out) ∧
     (∀ (l : Nat) (f : Frame), l < s.part.links → (s.link l).isUp = true → f.intact = true → f.kind = 1 →
       (let want := if f.senderKind = 2 then 2 else 1
        s.portKind (s.link l).port = 0 ∨ s.portKind (s.link l).port = want →
        f.senderKind ≠ 1 ∨ (∀ m, m ≠ l → (s.link m).isUp = true → (s.link m).plane ≠ f.plane) →
        ∃ t : State, exec (.hello l f) s = .next t ∧ (t.link l).peerKind = f.senderKind + 1 ∧ (t.link l).peerNode = f.node ∧
          (t.link l).peerLink = f.link ∧ (t.link l).plane = f.plane ∧ (t.link l).swPort = f.swPort ∧
          (t.link l).heldOut = false ∧ t.portKind (s.link l).port = want ∧ t.mem = s.mem ∧ t.dom = s.dom)) ∧
     (∀ (l : Nat) (f : Frame), f.intact = false → exec (.hello l f) s = .next s)) ∧
  (∀ s : State,
     (∀ (l : Nat) (f : Frame) (w : Sweep), s.mgmtUp = true → s.dom.role = .manager → l < s.part.links → f.intact = true → f.kind = 7 →
       f.senderKind = 0 → s.disc.sweep = some w →
       ∀ gens, ∃ t : State, exec (.linkReport l f gens) s = .next t ∧ t.dom = s.dom ∧ t.mem = s.mem ∧ t.disc.sweep = some w ∧
         t.disc.reports = s.disc.reports.filter (fun r => !(r.node = f.node && r.link = f.link)) ++
           (if f.plane = 0xFFFF ∧ f.assignNode = 0xFF then []
            else [{ node := f.node, link := f.link, peer := f.assignNode, plane := f.plane }])) ∧
     (∀ (mask : W256) (planes : List PlaneEntry) (adds : Bool), s.live = true → s.dom.role ≠ .manager → s.dom.node < 255 →
       (mask.getLsbD s.dom.node = true → s.dom.members &&& ~~~mask = 0 → (s.disc.inDomain = false ∨ mask = s.dom.members) →
         ∃ t : State, exec (.memberMask mask planes adds) s = .next t ∧ t.dom.members = mask ∧ t.disc.inDomain = true ∧
           t.disc.planes = planes ∧ t.dom.node = s.dom.node ∧
           (adds = true → s.fab.invals = [] → s.fab.xfers = [] → ∀ n, mask.getLsbD n = true → s.dom.members.getLsbD n = false → n < 256 →
             ∀ p ∈ t.fab.dseq, p.1 % 256 ≠ n)) ∧
       (mask.getLsbD s.dom.node = false → s.disc.inDomain = false → s.err.handling = [] →
         ∃ t : State, exec (.memberMask mask planes adds) s = .next t ∧ t.disc.inDomain = false ∧ t.disc.planes = planes ∧ t.dom = s.dom)))

/-- A candidate claims on every domain link once every 1 ms; a claim of higher priority makes it withdraw, one of lower
priority changes nothing, one of equal priority sets the conflict in its claims and MANAGER_CONFLICT, and only puts
off a package that has withdrawn; an ELECTED claim names the manager and clears the conflict (R381 to R383). After
100 ms without a higher claim a candidate that withdrew claims again, and one that claims is elected: it takes node
0, advances EPOCH and starts numbering (R381, R382, R384). Sooner, nothing happens. -/
def Obligations.ElectionNamesAManager : Prop :=
  (∀ s : State,
     (s.mgmtUp = true → s.dom.mgrPrio ≠ 0 → (s.disc.candidate = true ∨ s.dom.role = .manager) → s.disc.firstUp.isSome = true →
       (∀ last, s.disc.lastClaim = some last → 25000 ≤ (s.time.count - last).toNat) →
       ∃ t : State, exec .claimSend s = .next t ∧ t.disc = { s.disc with lastClaim := some s.time.count } ∧ t.dom = s.dom ∧
         ∀ l, l < s.part.links → s.domainLink l = true → .frame l { s.frame l 2 with
           elected := decide (s.dom.role = .manager), conflict := s.disc.conflict
           count := if s.dom.role = .manager then (nodesOf s.dom.members).length else 0 } ∈ t.out) ∧
     (∀ (l : Nat) (f : Frame), s.live = true → l < s.part.links → s.domainLink l = true → f.intact = true → f.kind = 2 →
       s.dom.role ≠ .manager →
       (f.elected = false → s.dom.mgrPrio = 0 ∨ f.mgrPrio < s.dom.mgrPrio → exec (.claim l f) s = .next s) ∧
       (f.elected = false → s.dom.mgrPrio ≠ 0 → s.dom.mgrPrio < f.mgrPrio → exec (.claim l f) s = .next { s with
         disc := { s.disc with candidate := false, conflict := false, lastHigher := some s.time.count }
         dom := { s.dom with conflictFlag := false } }) ∧
       (f.elected = false → s.dom.mgrPrio ≠ 0 → s.dom.mgrPrio = f.mgrPrio → s.disc.candidate = false →
         exec (.claim l f) s = .next { s with disc := { s.disc with lastHigher := some s.time.count } }) ∧
       (f.elected = false → s.dom.mgrPrio ≠ 0 → s.dom.mgrPrio = f.mgrPrio → s.disc.candidate = true →
         s.dom.conflictFlag = true ∨ s.err.handling = [] →
         ∃ t : State, exec (.claim l f) s = .next t ∧ t.dom = { s.dom with conflictFlag := true } ∧
           t.disc = { s.disc with conflict := true, lastHigher := some s.time.count } ∧
           (s.dom.conflictFlag = true → t.err = s.err)) ∧
       (f.elected = true → s.caddy.armed = none → s.steep.running = false →
         ∃ t : State, exec (.claim l f) s = .next t ∧ t.dom.manager = f.node ∧ t.dom.conflictFlag = false ∧ t.disc.candidate = false ∧
           t.disc.conflict = false ∧ t.disc.standby = f.standby ∧ t.mem = s.mem ∧ t.dom.role =
             (if s.dom.node ≠ 0xFF ∧ f.standby = s.dom.node ∧ s.start.mgmtHeld = false then .standby else .worker)))) ∧
  (∀ (s : State) (first : DWord), s.mgmtUp = true → s.dom.mgrPrio ≠ 0 → s.dom.role ≠ .manager → s.disc.firstUp = some first →
     ((s.time.count - first).toNat < 2500000 → exec .electionTimeout s = .next s) ∧
     (2500000 ≤ (s.time.count - first).toNat →
       (∀ higher, s.disc.lastHigher = some higher → 2500000 ≤ (s.time.count - higher).toNat) →
       (s.disc.candidate = false → exec .electionTimeout s = .next { s with disc := { s.disc with candidate := true } }) ∧
       (s.disc.candidate = true → s.disc.inDomain = false →
         ∃ t : State, exec .electionTimeout s = .next t ∧ t.dom.role = .manager ∧ t.dom.node = 0 ∧ t.dom.manager = 0 ∧
           t.disc.elected = true ∧ t.disc.epoch = (s.disc.epoch + 1) % 65536 ∧ t.disc.found = [0] ∧ t.disc.standby = 0xFF ∧
           t.dom.state = s.dom.state ∧ t.mem = s.mem)))

/-- Numbering: a QUERY is answered with a REPLY to the port it came from; an ASSIGN gives the package its number and
EPOCH and is acknowledged; the manager assigns the next number to an unnumbered occupant, takes its acknowledgement,
resends up to three times after 100 µs (2,500 TCLK periods) and then passes on; a JOIN is given the lowest unused
number, and on the manager's order a joining package in BRINGUP takes the generation of its idle bank (R308, R384,
R385, R387). -/
def Obligations.NumberingAssignsNodes : Prop :=
  ∀ (s : State) (l : Nat) (f : Frame), s.live = true → l < s.part.links → f.intact = true →
    (f.kind = 3 → s.domainLink l = true →
      ∃ t : State, exec (.query l f) s = .next t ∧ .frame l { s.frame l 4 with targetPort := f.swPort } ∈ t.out ∧ t.disc = s.disc ∧
        t.dom = s.dom ∧ t.mem = s.mem) ∧
    (f.kind = 5 → s.domainLink l = true → s.dom.role ≠ .manager →
      ∃ t : State, exec (.assign l f) s = .next t ∧ t.dom = { s.dom with node := f.assignNode, manager := f.manager } ∧
        t.disc = { s.disc with epoch := f.epoch } ∧ t.mem = s.mem ∧
        .frame l { s.frame l 6 with node := f.assignNode, manager := f.manager, epoch := f.epoch, targetPort := f.swPort } ∈ t.out) ∧
    (s.mgmtUp = true → s.dom.role = .manager →
      (∀ (w : Sweep) (port : Nat) (rest : List (Nat × Nat)), s.disc.sweep = some w → w.todo = (l, port) :: rest →
        (w.assigning = false → f.kind = 4 → port = 0xFFFF ∨ f.swPort = port → f.senderKind = 0 →
          f.node = 0xFF ∨ f.epoch ≠ s.disc.epoch → w.next ≤ 0xFF →
          ∃ t : State, exec (.reply l f) s = .next t ∧ t.dom = s.dom ∧
            t.disc = { s.disc with sweep := some { w with assigning := true, sentAt := s.time.count, tries := 0 } } ∧
            .frame l { s.frame l 5 with targetPort := port, assignNode := w.next } ∈ t.out) ∧
        (2500 ≤ (s.time.count - w.sentAt).toNat → w.tries < 3 →
          ∃ t : State, exec .queryTimeout s = .next t ∧ t.dom = s.dom ∧
            t.disc = { s.disc with sweep := some { w with tries := w.tries + 1, sentAt := s.time.count } } ∧
            (if w.assigning then .frame l { s.frame l 5 with targetPort := port, assignNode := w.next } ∈ t.out
             else .frame l { s.frame l 3 with targetPort := port } ∈ t.out)) ∧
        (2500 ≤ (s.time.count - w.sentAt).toNat → 3 ≤ w.tries → rest = [] →
          exec .queryTimeout s = .next { s with disc := { s.disc with sweep := none } })) ∧
      (f.kind = 6 → s.disc.sweep = none → exec (.assignAck l f) s = .next { s with disc := { s.disc with
        found := if s.disc.found.contains f.node then s.disc.found else s.disc.found ++ [f.node]
        prio := s.disc.prio.set f.node f.mgrPrio } }) ∧
      (f.kind = 8 → s.domainLink l = true → s.disc.sweep = none → ∀ n, n < 256 → n ∉ s.disc.found ++ nodesOf s.dom.members →
        (∀ i, i < n → i ∈ s.disc.found ++ nodesOf s.dom.members) →
        ∀ gens, ∃ t : State, exec (.join l f gens none) s = .next t ∧ t.dom = s.dom ∧ t.disc.found = s.disc.found ∧
          .frame l { s.frame l 5 with targetPort := f.swPort, assignNode := n } ∈ t.out)) ∧
    (∀ (gens : Option GenReport) (g : Word), s.dom.role ≠ .manager → s.dom.state = .bringup → s.start.quiesced = false →
      (s.caddy.bank s.caddy.idle).built = true → (s.caddy.bank s.caddy.idle).gen = g → s.mem.genCurrent ≠ g →
      ∃ t : State, exec (.join l f gens (some g)) s = .next t ∧ t.mem.genCurrent = g ∧ t.caddy.active = s.caddy.idle ∧ t.dom = s.dom)

/-! ## The memory-semantic fabric (spec 16) -/

/-- An engine with a free slot issues: a load of lines not all held is sent once, with whole lines unless RAW, one whose
lines are all held is served from them; a store and an atomic take the next DSEQ of their die and node, never 0, and
drop the package's own lines of their range. Outside the membership, across 4 KiB or in the domain job nothing is
sent and the operation completes with the status of R390, R396 (R390, R393, R398, R406, R407, R409). -/
def Obligations.RequestsAreIssued : Prop :=
  ∀ (s : State) (die engine compl : Nat) (a : DWord), s.live = true → die < s.part.ioDies → engine < 64 →
    (∀ n nocache, 0 < n → n ≤ 4096 →
      (faJob a = 0xFFF → ¬ (die = 0 ∧ engine = 0) →
        exec (.loadIssue die engine a n nocache false compl) s = .next (s.complete die engine compl 0x0301 false false 0 0 none)) ∧
      (faJob a ≠ 0xFFF → 4096 < faOffset a % 4096 + n →
        exec (.loadIssue die engine a n nocache false compl) s = .next (s.complete die engine compl 0x0302 false false 0 0 none)) ∧
      (faJob a ≠ 0xFFF → faOffset a % 4096 + n ≤ 4096 → s.isMember (faNode a) = false →
        exec (.loadIssue die engine a n nocache false compl) s =
          .next (s.complete die engine compl 0x0303 false false 0 0 (some [faNode a])))) ∧
    ((faJob a ≠ 0xFFF ∨ (die = 0 ∧ engine = 0)) → s.isMember (faNode a) = true →
      (∀ n nocache raw, 0 < n → faOffset a % 4096 + n ≤ 4096 → (s.engineReqs die engine).length < 512 →
        (raw = true ∨ ∃ k ∈ linesOf a n, ∀ c ∈ s.fab.cache, c.2.1.toNat / 128 ≠ k) →
        ∃ (t : State) (r : FabReq), exec (.loadIssue die engine a n nocache raw compl) s = .next t ∧ t.fab.reqs = s.fab.reqs ++ [r] ∧ r.die = die ∧
          r.engine = engine ∧ r.compl = compl ∧ r.numbered = false ∧ r.sentAt = s.time.count ∧ r.want = a ∧ r.wantLen = n ∧
          r.pkt.op = 0x10 ∧ r.pkt.src = s.dom.node ∧ r.pkt.dst = faNode a ∧ r.pkt.dseq = 0 ∧ r.pkt.nocache = nocache ∧
          r.pkt.raw = raw ∧ t.fab.dseq = s.fab.dseq ∧ t.fab.cache = s.fab.cache ∧ t.mem = s.mem ∧ t.dom = s.dom ∧
          (if raw then r.pkt.addr = a ∧ r.pkt.lenM1 + 1 = n
           else r.pkt.addr.toNat = a.toNat / 128 * 128 ∧ r.pkt.lenM1 + 1 = (linesOf a n).length * 128)) ∧
      (∀ n, 0 < n → faOffset a % 4096 + n ≤ 4096 → (∀ k ∈ linesOf a n, ∃ c ∈ s.fab.cache, c.2.1.toNat / 128 = k) →
        ∃ c, exec (.loadIssue die engine a n false false compl) s = .next ((({ s with fab := { s.fab with cache := c } } : State).emit
          (.loadData die engine a (bytesAt ((linesOf a n).flatMap fun k => (s.fab.line k).getD []) (a.toNat % 128) n))).complete
            die engine compl 0 false false 0 0 none)) ∧
      ((s.engineReqs die engine).length < 512 → (∀ r ∈ s.unacked die (faNode a), (s.nextDseq die (faNode a) - r.pkt.dseq).toNat < 1024) →
        (∀ data raw, 0 < data.length → faOffset a % 4096 + data.length ≤ 4096 →
          ∃ (t : State) (r : FabReq), exec (.storeIssue die engine a data raw compl) s = .next t ∧ t.fab.reqs = s.fab.reqs ++ [r] ∧ r.numbered = true ∧
            r.pkt.op = 0x11 ∧ r.pkt.dst = faNode a ∧ r.pkt.addr = a ∧ r.pkt.payload = data ∧ r.pkt.lenM1 + 1 = data.length ∧
            r.pkt.raw = raw ∧ r.compl = compl ∧ r.pkt.dseq = s.nextDseq die (faNode a) ∧
            t.nextDseq die (faNode a) = (if r.pkt.dseq + 1 = 0 then 1 else r.pkt.dseq + 1) ∧
            (∀ c ∈ t.fab.cache, c.2.1.toNat / 128 ∉ linesOf a data.length) ∧ t.mem = s.mem ∧ t.dom = s.dom) ∧
        (∀ op wide operand compare raw,
          ∃ (t : State) (r : FabReq), exec (.atomicIssue die engine op wide a operand compare raw compl) s = .next t ∧ t.fab.reqs = s.fab.reqs ++ [r] ∧
            r.numbered = true ∧ r.pkt.op = 0x12 ∧ r.pkt.dst = faNode a ∧ r.pkt.addr = a ∧ r.pkt.asize = wide ∧
            opOfAsub r.pkt.asub = some op ∧ r.pkt.operand = operand ∧ r.pkt.raw = raw ∧ r.compl = compl ∧
            (op = .cas → r.pkt.payload = leBytes 8 compare.toNat) ∧ r.pkt.dseq = s.nextDseq die (faNode a) ∧
            t.nextDseq die (faNode a) = (if r.pkt.dseq + 1 = 0 then 1 else r.pkt.dseq + 1) ∧
            (∀ c ∈ t.fab.cache, c.2.1.toNat / 128 ∉ linesOf a (if wide then 8 else 4)) ∧ t.mem = s.mem ∧ t.dom = s.dom)))

/-- Invalidations, ownership transfers and fences wait for the writes before them: each records the newest DSEQ of the
destinations with an unacknowledged write, a transfer those of its own node. Without such writes a fence completes
at once, a transfer is sent, and an invalidation goes to each other member named, in a package's own lines at once.
10 ms (250,000 TCLK periods) after issue a held invalidation completes FENCE_UNREACHED with the nodes it waits for,
and a fence likewise (R404, R408, R412). -/
def Obligations.OrderedOperationsWait : Prop :=
  ∀ s : State, s.live = true →
    (∀ die engine compl, die < s.part.ioDies → engine < 64 →
      (∀ a n nodes, n % 128 = 0 → 128 ≤ n →
        (s.openWrites ≠ [] → exec (.invalidateIssue die engine a n nodes compl) s = .next { s with fab := { s.fab with
          invals := s.fab.invals ++ [{ die := die, engine := engine, addr := a, len := n, nodes := nodesOf nodes, compl := compl,
                                       issuedAt := s.time.count, upto := s.openWrites }] } }) ∧
        ((∀ r ∈ s.fab.reqs, r.numbered = false) → s.fab.owed = [] → (s.engineReqs die engine).length ≤ 256 →
          ∃ t : State, exec (.invalidateIssue die engine a n nodes compl) s = .next t ∧
          (∀ m, m < 256 → nodes.getLsbD m = true → s.isMember m = true → m ≠ s.dom.node →
            ∃ r ∈ t.fab.reqs, r.pkt.op = 0x13 ∧ r.pkt.dst = m ∧ r.pkt.addr = a ∧ r.pkt.operand = BitVec.ofNat 64 n ∧ r.numbered = true) ∧
          (s.dom.node < 256 → nodes.getLsbD s.dom.node = true → s.isMember s.dom.node = true →
            ∀ c ∈ t.fab.cache, c.2.1.toNat / 128 ∉ linesOf a n) ∧ t.dom = s.dom ∧ (compl = 0 → t.mem = s.mem))) ∧
      (∀ node job owner, let before := s.openWrites.filter fun u => u.1 % 256 = node
        (s.isMember node = false → exec (.ownXferIssue die engine node job owner compl) s =
          .next (s.complete die engine compl 0x0303 false false 0 0 (some [node]))) ∧
        (s.isMember node = true → before ≠ [] → exec (.ownXferIssue die engine node job owner compl) s =
          .next { s with fab := { s.fab with xfers := s.fab.xfers ++ [{ die := die, engine := engine, node := node, job := job,
                                                                        owner := owner, compl := compl, upto := before }] } }) ∧
        (s.isMember node = true → before = [] → (s.engineReqs die engine).length < 512 →
          (∀ r ∈ s.unacked die node, (s.nextDseq die node - r.pkt.dseq).toNat < 1024) → owner < 256 → job < 4096 →
          ∃ (t : State) (r : FabReq), exec (.ownXferIssue die engine node job owner compl) s = .next t ∧ t.fab.reqs = s.fab.reqs ++ [r] ∧ r.pkt.op = 0x14 ∧
            r.pkt.dst = node ∧ r.pkt.operand.toNat = owner ∧ faJob r.pkt.addr = job ∧ r.numbered = true ∧ r.compl = compl ∧
            t.mem = s.mem ∧ t.dom = s.dom)) ∧
      ((∀ r ∈ s.fab.reqs, r.numbered = false) → exec (.fence die engine compl) s =
        .next (s.complete die engine compl 0 false false 0 0 none)) ∧
      (s.openWrites ≠ [] → exec (.fence die engine compl) s = .next { s with fab := { s.fab with fences := s.fab.fences ++
        [{ die := die, engine := engine, compl := compl, upto := s.openWrites, issuedAt := s.time.count }] } })) ∧
    (∀ p : Nat × Word, (p.1, p.2) ∈ s.openWrites ↔ (p.1, p.2 + 1) ∈ s.fab.dseq ∧ s.openUpTo (p.1 / 256) (p.1 % 256) p.2 = true) ∧
    (∀ (i : Nat) (v : Inval), s.fab.invals[i]? = some v → v.sent = false →
      ((s.time.count - v.issuedAt).toNat < 250000 → exec (.invalidateWaitTimeout i) s = .next s) ∧
      (250000 ≤ (s.time.count - v.issuedAt).toNat → exec (.invalidateWaitTimeout i) s =
        .next (({ s with fab := { s.fab with invals := s.fab.invals.erase v } } : State).complete v.die v.engine v.compl 0x0306
          false false 0 0 (some (s.unackedOf v.upto))))) ∧
    (∀ (i : Nat) (f : Fence), s.fab.fences[i]? = some f →
      ((s.time.count - f.issuedAt).toNat < 250000 → exec (.fenceTimeout i) s = .next s) ∧
      (250000 ≤ (s.time.count - f.issuedAt).toNat → s.fenceOpen f ++ s.fenceGone f ≠ [] → exec (.fenceTimeout i) s =
        .next (({ s with fab := { s.fab with fences := s.fab.fences.erase f } } : State).complete f.die f.engine f.compl 0x0306
          false false 0 0 (some (s.fenceOpen f ++ s.fenceGone f)))))

/-- An unanswered request is resent with RETRY 200 µs (5,000 TCLK periods) after it was sent, four times; then an atomic
completes with outcome unknown and any other request is held and recorded. A replay entry is freed 2 ms (50,000 TCLK
periods) after its atomic executed, not sooner (R401, R410). A response takes its request out and completes its
operation: a load's data is handed over and, where the lines may be kept, installed; an atomic's result is handed
over, and STALE_RETRY completes as outcome unknown, known and applied. A response of no outstanding request changes
nothing (R393, R400, R406, R411, R413). -/
def Obligations.RetriesAndResponses : Prop :=
  (∀ s : State, s.live = true →
     (∀ (tag : Word) (r : FabReq), s.fab.reqs.find? (fun r => r.pkt.tag = tag) = some r →
       ((s.time.count - r.sentAt).toNat < 5000 → exec (.fabricRetry tag) s = .next s) ∧
       (5000 ≤ (s.time.count - r.sentAt).toNat →
         (r.retries < 4 → let r' : FabReq := { r with pkt := { r.pkt with retry := true }, retries := r.retries + 1, sentAt := s.time.count }
           ∃ t : State, exec (.fabricRetry tag) s = .next t ∧ t.fab = { s.fab with reqs := s.fab.reqs.map fun x => if x = r then r' else x } ∧
             t.mem = s.mem ∧ t.dom = s.dom ∧
             (r.pkt.dst = s.dom.node → .fabLocal r'.pkt ∈ t.out) ∧
             (∀ l, r.pkt.dst ≠ s.dom.node → s.linkFor r.pkt.dst (fabFlow r.pkt) = some l → .fab l r'.pkt ∈ t.out)) ∧
         (r.retries = 4 → r.pkt.op = 0x12 → s.fab.owed = [] → s.fab.invals = [] → s.fab.xfers = [] → s.fab.fences = [] →
           exec (.fabricRetry tag) s = .next (({ s with fab := { s.fab with reqs := s.fab.reqs.erase r } } : State).complete r.die
             r.engine r.compl 0x0305 false false tag 0 none)) ∧
         (r.retries = 4 → r.pkt.op ≠ 0x12 → s.err.handling = [] → ∃ t : State, exec (.fabricRetry tag) s = .next t ∧
           t.fab = { s.fab with reqs := s.fab.reqs.map fun x => if x = r then { r with retries := 5 } else x } ∧
           t.mem = s.mem ∧ t.dom = s.dom))) ∧
     (∀ src die tag r, s.fab.replay.find? (fun r => r.src = src && r.die = die && r.tag = tag) = some r →
       ((s.time.count - r.at_).toNat < 50000 → exec (.replayEntryExpiry src die tag) s = .next s) ∧
       (50000 ≤ (s.time.count - r.at_).toNat → exec (.replayEntryExpiry src die tag) s =
         .next { s with fab := { s.fab with replay := s.fab.replay.erase r } }))) ∧
  (∀ (s : State) (p : FabPkt), s.live = true → p.rsvd = 0 → p.dst = s.dom.node →
     (s.fab.reqs.find? (fun r => r.pkt.tag = p.tag && r.pkt.op + 0x80 = p.op) = none → exec (.fabricResponse p) s = .next s) ∧
     (∀ r, s.fab.reqs.find? (fun r => r.pkt.tag = p.tag && r.pkt.op + 0x80 = p.op) = some r →
       s.fab.owed = [] → s.fab.invals = [] → s.fab.xfers = [] → s.fab.fences = [] →
       let u : State := { s with fab := { s.fab with reqs := s.fab.reqs.erase r } }
       (r.pkt.op = 0x11 ∨ r.pkt.op = 0x14 → exec (.fabricResponse p) s =
         .next (u.complete r.die r.engine r.compl p.status.toNat false false r.pkt.tag 0 none)) ∧
       (r.pkt.op = 0x12 → exec (.fabricResponse p) s = .next (
         if p.status = 0x0304 then u.complete r.die r.engine r.compl 0x0305 true true r.pkt.tag 0 none
         else u.complete r.die r.engine r.compl p.status.toNat true (decide (p.status = 0)) r.pkt.tag (if p.status = 0 then p.operand.toNat else 0) none)) ∧
       (r.pkt.op = 0x13 → exec (.fabricResponse p) s = .next u) ∧
       (r.pkt.op = 0x10 → p.status ≠ 0 → exec (.fabricResponse p) s =
         .next (u.complete r.die r.engine r.compl p.status.toNat false false r.pkt.tag 0 none)) ∧
       (r.pkt.op = 0x10 → p.status = 0 → ∃ c, exec (.fabricResponse p) s = .next ((({ u with fab := { u.fab with cache := c } } : State).emit
           (.loadData r.die r.engine r.want (bytesAt p.payload (r.want.toNat - r.pkt.addr.toNat) r.wantLen))).complete
             r.die r.engine r.compl 0 false false r.pkt.tag 0 none) ∧
         (p.cacheable = false ∨ r.pkt.nocache = true ∨ r.pkt.raw = true ∨ r.noInstall = true → c = s.fab.cache))))

/-- The receiver of a load from a member checks the export: VALID, LENGTH, READ, in that order, and answers with the
refusing status, with MEM_UNCORR for uncorrectable data, or with the bytes at BASE plus OFFSET (R395 to R397). -/
def Obligations.LoadsAreServed : Prop :=
  ∀ (s : State) (p : FabPkt), s.takes_ p 0x10 = true →
    (p.raw = true → (s.dom.trustedEn = false ∨ bits p.addr.toNat 55 48 ≠ 0) →
      exec (.load p) s = .next (s.fabSend (fabResponse p 0x0301 0 false []))) ∧
    (p.raw = false → let e := s.export (faJob p.addr)
      (e.getLsbD 31 = false → exec (.load p) s = .next (s.fabSend (fabResponse p 0x0301 0 false []))) ∧
      (e.getLsbD 31 = true → xLength e < faOffset p.addr + (p.lenM1 + 1) →
        exec (.load p) s = .next (s.fabSend (fabResponse p 0x0302 0 false []))) ∧
      (e.getLsbD 31 = true → faOffset p.addr + (p.lenM1 + 1) ≤ xLength e →
        (s.dom.trustedEn = false → e.getLsbD 30 = false → exec (.load p) s = .next (s.fabSend (fabResponse p 0x0302 0 false []))) ∧
        (s.dom.trustedEn = true ∨ e.getLsbD 30 = true → ∀ st, s.checkRead (xBase e + faOffset p.addr) (p.lenM1 + 1) = some st →
          exec (.load p) s = .next (s.fabSend (fabResponse p st 0 false []))) ∧
        (s.dom.trustedEn = true ∨ e.getLsbD 30 = true → s.checkRead (xBase e + faOffset p.addr) (p.lenM1 + 1) = none →
          exec (.load p) s = .next (s.fabSend (if s.readable (xBase e + faOffset p.addr) (p.lenM1 + 1)
            then fabResponse p 0 0 (e.getLsbD 27) (s.devRead (xBase e + faOffset p.addr) (p.lenM1 + 1))
            else fabResponse p 0x0420 0 false [])))))

/-- A numbered write is applied once: a DSEQ 1,024 or more behind the newest is dropped, one with a recorded outcome is
answered with it and applied no second time. A new store by the owner writes its bytes and no other byte of memory;
by another node it is refused NOT_OWNER. A new atomic writes its own bytes; an invalidation drops the lines; an
ownership transfer by the owner or the manager changes OWNER (R395 to R399, R404, R405, R407, R409, R411). -/
def Obligations.WritesApplyOnce : Prop :=
  ∀ (s : State) (p : FabPkt),
    (∀ c ∈ [Instr.store p, .atomic p, .invalidate p, .ownXfer p], s.takes_ p p.op = true → s.tooOld p = true → exec c s = .next s) ∧
    (∀ st, s.tooOld p = false → s.outcome p = some st →
      (s.takes_ p 0x11 = true → exec (.store p) s = .next (s.fabSend (fabResponse p st 0 false []))) ∧
      (s.takes_ p 0x13 = true → exec (.invalidate p) s = .next (s.fabSend (fabResponse p st 0 false []))) ∧
      (s.takes_ p 0x14 = true → exec (.ownXfer p) s = .next (s.fabSend (fabResponse p st 0 false []))) ∧
      (s.takes_ p 0x12 = true → exec (.atomic p) s = .next (s.fabSend (
        if st ≠ 0 then fabResponse p st 0 false []
        else match s.fab.replay.find? fun r => r.src = p.src && r.die = p.srcDie && r.tag = p.tag with
          | some r => fabResponse p 0 r.result.toNat false []
          | none => fabResponse p 0x0304 0 false [])))) ∧
    (s.tooOld p = false → s.outcome p = none →
      (s.takes_ p 0x11 = true → p.raw = false → let e := s.export (faJob p.addr)
        e.getLsbD 31 = true → faOffset p.addr + (p.lenM1 + 1) ≤ xLength e → s.dom.trustedEn = false →
        (e.getLsbD 29 = false → exec (.store p) s = .next ((s.keepOutcome p 0x0302).fabSend (fabResponse p 0x0302 0 false []))) ∧
        (e.getLsbD 29 = true → xOwner e ≠ p.src → exec (.store p) s = .next ((s.keepOutcome p 0x0307).fabSend (fabResponse p 0x0307 0 false []))) ∧
        (e.getLsbD 29 = true → xOwner e = p.src → s.checkWrite (xBase e + faOffset p.addr) (p.lenM1 + 1) = none →
          ∃ t : State, exec (.store p) s = .next t ∧ t.dom = s.dom ∧ 
            ((∀ o ∈ s.outcomesOf p.src p.srcDie, (p.dseq - o.dseq).toNat < 1024) →
              { src := p.src, die := p.srcDie, dseq := p.dseq, status := 0 } ∈ t.fab.outcomes) ∧
            (s.mem.classDrop = [] → ∀ i, i ≤ p.lenM1 →
              Memory.byte t.mem.hbm (xBase e + faOffset p.addr + i) = p.payload.getD i 0) ∧
            (∀ b, b < xBase e + faOffset p.addr ∨ xBase e + faOffset p.addr + (p.lenM1 + 1) ≤ b →
              Memory.byte t.mem.hbm b = Memory.byte s.mem.hbm b))) ∧
      (s.takes_ p 0x12 = true → p.raw = false → let e := s.export (faJob p.addr)
        let n := if p.asize then 8 else 4
        ∀ op, opOfAsub p.asub = some op → e.getLsbD 31 = true → faOffset p.addr + n ≤ xLength e → s.dom.trustedEn = false →
        (e.getLsbD 28 = false → exec (.atomic p) s = .next ((s.keepOutcome p 0x0302).fabSend (fabResponse p 0x0302 0 false []))) ∧
        (e.getLsbD 28 = true → (xBase e + faOffset p.addr) % n ≠ 0 →
          exec (.atomic p) s = .next ((s.keepOutcome p 0x0242).fabSend (fabResponse p 0x0242 0 false []))) ∧
        (e.getLsbD 28 = true → (xBase e + faOffset p.addr) % n = 0 → s.checkWrite (xBase e + faOffset p.addr) n = none →
          s.readable (xBase e + faOffset p.addr) n = true →
          ∃ (t : State) (r : Replay), exec (.atomic p) s = .next t ∧ r ∈ t.fab.replay ∧ r.src = p.src ∧ r.die = p.srcDie ∧ r.tag = p.tag ∧ r.dseq = p.dseq ∧
            r.at_ = s.time.count ∧
            (∀ b, b < xBase e + faOffset p.addr ∨ xBase e + faOffset p.addr + n ≤ b →
              Memory.byte t.mem.hbm b = Memory.byte s.mem.hbm b))) ∧
      (s.takes_ p 0x13 = true → p.raw = true → s.dom.trustedEn = false →
        exec (.invalidate p) s = .next ((s.keepOutcome p 0x0301).fabSend (fabResponse p 0x0301 0 false []))) ∧
      (s.takes_ p 0x13 = true → p.raw = false ∨ s.dom.trustedEn = true → ∃ t : State, exec (.invalidate p) s = .next t ∧ t.mem = s.mem ∧ t.dom = s.dom ∧
        ∀ c ∈ t.fab.cache, c ∈ s.fab.cache ∧ c.2.1.toNat / 128 ∉ linesOf p.addr p.operand.toNat) ∧
      (s.takes_ p 0x14 = true → p.raw = false → faJob p.addr ≠ 0xFFF → let e := s.export (faJob p.addr)
        (e.getLsbD 31 = false → exec (.ownXfer p) s = .next ((s.keepOutcome p 0x0301).fabSend (fabResponse p 0x0301 0 false []))) ∧
        (e.getLsbD 31 = true → p.src ≠ xOwner e → p.src ≠ s.dom.manager →
          exec (.ownXfer p) s = .next ((s.keepOutcome p 0x0307).fabSend (fabResponse p 0x0307 0 false []))) ∧
        (e.getLsbD 31 = true → p.src = xOwner e ∨ p.src = s.dom.manager →
          ∃ t : State, exec (.ownXfer p) s = .next t ∧ t.mem = s.mem ∧ xOwner (t.export (faJob p.addr)) = p.operand.toNat % 256 ∧
            (∀ j, j ≠ faJob p.addr → t.export j = s.export j))))

/-! ## Links (spec 15 R366 to R376, spec 14 R359) -/

/-- LNK_CTRL: a 1 in ENABLE lets a link that was held down train, with the port and classes written; a 0 takes it down,
counted in LNK_DOWNS where it was up, with nothing left to send or resend on it. Outside set-up states the write is
refused with STATE, and a new port of an enabled link with BUSY (R359, R369, R374, R375). -/
def Obligations.LinkControlTakesWrites : Prop :=
  ∀ (s : State) (l : Nat) (v : Word), s.hostUp = true → l < s.part.links → s.start.mgmtReset = false → s.start.mgmtHeld = false →
    s.sec.locked = false →
    (let k := s.link l
     let port := v.toNat / 2 ^ 24 % 16
     let classes := BitVec.ofNat 3 (v.toNat / 2 ^ 16 % 8)
     let no := fun reason : Nat => ({ s with hif := { s.hif with
        refReason := reason, refOffset := 0x150000 + l * 0x20, refCnt := s.hif.refCnt + 1 } } : State)
     (v.getLsbD 31 = true → s.setUpState = true → k.enable = false → exec (.linkEnable l v) s = .next { s with
        links := s.links.set l { k with enable := true, port := port, classAllow := classes, train := .training, fails := 0, lostAt := none } }) ∧
     (v.getLsbD 31 = true → s.setUpState = true → k.enable = true → k.port = port → exec (.linkEnable l v) s = .next { s with
        links := s.links.set l { k with classAllow := classes } }) ∧
     (v.getLsbD 31 = true → s.setUpState = true → k.enable = true → k.port ≠ port → exec (.linkEnable l v) s = .next (no 3)) ∧
     (v.getLsbD 31 = true → s.setUpState = false → exec (.linkEnable l v) s = .next (no 2)) ∧
     (v.getLsbD 31 = false → s.setUpState = true → (k.enable = false ∨ k.port = port) →
       ∃ t : State, exec (.linkDisable l v) s = .next t ∧ (t.link l).enable = false ∧ (t.link l).train = .off ∧
         (t.link l).port = port ∧ (t.link l).downs = (if k.isUp then k.downs + 1 else k.downs) ∧
         (k.isUp = true → (t.link l).replay = [] ∧ (t.link l).queue = []) ∧ t.hif = s.hif ∧ t.mem = s.mem) ∧
     (v.getLsbD 31 = false → s.setUpState = false → exec (.linkDisable l v) s = .next (no 2)))

/-- The end of training: a link comes up with the first class that both ends allow and that passes, on four lanes, or
two of a pair, or one; where none passes, or the link hears its own pattern, the attempt fails and is counted. A
link that comes up sends HELLO, starts its sequence numbers at 0 and holds 512 credits a channel; three failed
retrainings map it out with LINK_DOWN (R367 to R371, R373, R374, R380). -/
def Obligations.TrainingBringsLinksUp : Prop :=
  ∀ (s : State) (l : Nat), s.live = true → l < s.part.links → (s.link l).train = .training →
    (let k := s.link l
     (∀ r : TrainResult, s.trayHeld = false → k.enable = true → k.fails < 3 →
       (let passes := fun i : Nat => k.classAllow.getLsbD i && r.peerAllow.getLsbD i && r.passes.getLsbD i
        let lanes := if r.lanes = 15 then 4 else if r.lanes.getLsbD 0 && r.lanes.getLsbD 1 then 2
          else if r.lanes.getLsbD 2 && r.lanes.getLsbD 3 then 2 else if r.lanes = 0 then 0 else 1
        ((∀ i, i < 3 → passes i = false) ∨ lanes = 0 ∨ r.loop = true → exec (.linkTrainingComplete l r) s = .next { s with
           links := s.links.set l { k with fails := k.fails + 1, lostAt := some (k.lostAt.getD s.time.count), loop := r.loop } }) ∧
        (∀ c, c < 3 → passes c = true → (∀ i, i < c → passes i = false) → lanes ≠ 0 → r.loop = false →
           (lanes = 4 ∧ k.lostAt = none) ∨ s.err.handling = [] →
           ∃ t : State, exec (.linkTrainingComplete l r) s = .next t ∧ (t.link l).train = .up ∧ (t.link l).cls = c + 1 ∧
             (t.link l).lanes = lanes ∧ (t.link l).rxSeq = 0 ∧ (t.link l).fails = 0 ∧ (t.link l).downs = k.downs ∧
             t.disc.firstUp = some (s.disc.firstUp.getD s.time.count) ∧ .frame l (t.frame l 1) ∈ t.out ∧ t.mem = s.mem))) ∧
     (3 ≤ k.fails → s.err.silent = false → s.err.handling = [] →
       ∃ t : State, exec (.linkRetrainExhausted l) s = .next t ∧ (t.link l).train = .mappedOut ∧ (t.link l).queue = [] ∧
         (t.link l).replay = [] ∧ t.err.total = s.err.total + 1 ∧ t.mem = s.mem))

/-- The receiving end of an up link: the data or discovery flit whose SEQ is next is taken, a data flit owing its
channel a credit; one behind is discarded; one ahead, or a bad flit, is answered with one NAK for the next SEQ until
a flit is taken in order. Credits owed go back in one control flit (R371 to R373). With no flit of its own in the
replay buffer, nothing else changes. The sending end of an up link: a control flit's ACK frees the replay buffer up
to the flit it names, and its credits are added to at most 512; a NAK, or 5 µs (125 TCLK periods) without
acknowledgement of the oldest flit, resends from the flit named or from the oldest, each resend counted; the link
going down empties it and starts training again (R372 to R375). -/
def Obligations.FlitsTravelInOrder : Prop :=
  (∀ (s : State) (l : Nat), s.live = true → l < s.part.links → (s.link l).isUp = true → (s.link l).replay = [] →
     (let k := s.link l
      let ack := (k.rxSeq + 4095) % 4096
      let nak : State := { s with
        links := s.links.set l { k with nakSent := true }, out := s.out ++ [.control l ack (some k.rxSeq) [0, 0, 0, 0]] }
      (∀ f : Flit, f.clean = true → f.rsvd = 0 → f.ftype = 1 ∨ (f.ftype = 3 ∧ f.vc = 0) →
        (f.seq = k.rxSeq → exec (.flitReceive l f) s = .next { s with links := s.links.set l { k with
           rxSeq := (k.rxSeq + 1) % 4096, nakSent := false
           owed := if f.ftype = 1 then k.owed.set f.vc (k.owed.getD f.vc 0 + 1) else k.owed } }) ∧
        (f.seq ≠ k.rxSeq → 2048 ≤ (f.seq + 4096 - k.rxSeq) % 4096 → exec (.flitReceive l f) s = .next s) ∧
        (f.seq ≠ k.rxSeq → (f.seq + 4096 - k.rxSeq) % 4096 < 2048 →
          exec (.flitReceive l f) s = .next (if k.nakSent then s else nak))) ∧
      (∀ f : Flit, f.clean = true → f.rsvd = 0 → f.vc = 0 → f.ftype = 0 ∨ f.ftype = 2 → exec (.flitReceive l f) s = .next s) ∧
      (∀ f : Flit, (f.clean = false ∨ 4 ≤ f.ftype ∨ f.rsvd ≠ 0 ∨ (f.ftype ≠ 1 ∧ f.vc ≠ 0)) →
        exec (.flitReceive l f) s = .next (if k.nakSent then s else nak)) ∧
      ((∃ c ∈ k.owed, 0 < c) → exec (.creditReturn l) s = .next { s with
        links := s.links.set l { k with owed := [0, 0, 0, 0] }, out := s.out ++ [.control l ack none k.owed] }))) ∧
  (∀ (s : State) (l : Nat), s.live = true → l < s.part.links → (s.link l).isUp = true →
     (let k := s.link l
      (∀ (f : Flit) (credits : List Nat), flitGood f = true → f.ftype = 2 → k.queue = [] →
        (let kept := match k.replay.findIdx? (·.seq = f.ack) with | some i => k.replay.drop (i + 1) | none => k.replay
         (∃ t : State, exec (.controlFlit l f none credits) s = .next t ∧ (t.link l).replay = kept ∧ (t.link l).queue = [] ∧
           (t.link l).credits = k.credits.mapIdx (fun i c => min 512 (c + credits.getD i 0 % 65536)) ∧ t.out = s.out) ∧
         (∀ q i, kept.findIdx? (·.seq = q) = some i → ∃ t : State, exec (.controlFlit l f (some q) credits) s = .next t ∧
           (t.link l).retries = k.retries + BitVec.ofNat 64 (kept.length - i) ∧
           t.out = s.out ++ (kept.drop i).map (fun x => .flit l x.vc x.seq x.payload)))) ∧
      (∀ first rest, k.replay = first :: rest → 125 ≤ (s.time.count - first.sentAt).toNat →
        ∃ t : State, exec (.linkAckTimeout l) s = .next t ∧ (t.link l).resends = k.resends + 1 ∧
          (t.link l).replay = k.replay.map (fun x => { x with sentAt := s.time.count }) ∧
          t.out = s.out ++ k.replay.map (fun x => .flit l x.vc x.seq x.payload) ∧ t.mem = s.mem) ∧
      (∀ cause, (cause = .resends → 8 ≤ k.resends) →
        ∃ t : State, exec (.linkDown l cause) s = .next t ∧ (t.link l).train = .training ∧ (t.link l).downs = k.downs + 1 ∧
          (t.link l).replay = [] ∧ (t.link l).queue = [] ∧ (t.link l).lostAt = some s.time.count ∧ (t.link l).resends = 0 ∧
          t.mem = s.mem ∧ t.eng = s.eng)))

/-! ## Power (spec 19, spec 14 R361) -/

/-- A cap from either source, the host's PWR_CAP or the sideband's RACK_CAP: below 1,000 W it is stored as 1,000 W and
sets CAP_CLAMPED, above the variant maximum it is stored as written, and PWR_LIMIT then shows the lowest of the
caps, the brake floor while BRAKE is 1, the thermal limit and the variant maximum, with the lowest source code on a
tie (R361). -/
def Obligations.CapsAreClampedAndLimit : Prop :=
  ∀ s : State,
    (let after := fun (t : State) (host rack : Nat) (low : Bool) =>
      t.pwr.cap = host ∧ t.pwr.rackCap = rack ∧ t.pwr.clamped = (s.pwr.clamped || low) ∧
      (let sources := [(host, 0), (rack, 1)] ++ (if s.pwr.brake then [(1200, 2)] else []) ++
         [(s.pwr.thermalLimit, 3), (s.variantMax, 4)]
       (t.pwr.limit, t.pwr.source) ∈ sources ∧
       ∀ x ∈ sources, t.pwr.limit < x.1 ∨ (t.pwr.limit = x.1 ∧ t.pwr.source ≤ x.2))
     (s.hostUp = true → s.start.mgmtReset = false → s.start.mgmtHeld = false → s.sec.locked = false →
       ∀ v : Word, ∃ t : State, exec (.pwrCapWrite v) s = .next t ∧
         after t (max (v.toNat % 65536) 1000) s.pwr.rackCap (decide (v.toNat % 65536 < 1000))) ∧
     (s.sideUp = true → s.sec.locked = false →
       ∀ v : Word, v.toNat < 65536 → ∃ t : State, exec (.rackCap 0 v) s = .next t ∧ t.out.getLast? = some (.sideband 0 []) ∧
         after t s.pwr.cap (max v.toNat 1000) (decide (v.toNat < 1000))))

/-- A window ends once at each multiple of 200 periods. At its end the kettle takes its measurements and moves the
enforced limit E: the brake floor and the thermal limit at once, a lower cap first to the draw in force and then by
8 W, a rise by 8 W; PWR_STATUS shows a lag while E is above the limit, and no die's allowance falls below 1 (R464,
R467, R473, R475). -/
def Obligations.WindowMovesTheEnforcedLimit : Prop :=
  ∀ (s : State) (m : WindowMeas), s.kettleOn = true → s.time.count.toNat % 200 = 0 →
    s.pwr.windowAt ≠ some s.time.count → s.start.brakePin = s.pwr.brake →
    ∃ t : State, exec (.kettleWindowEnd m) s = .next t ∧
      t.pwr.input = m.pIn ∧ t.pwr.temps = m.temps ∧ t.pwr.windowAt = some s.time.count ∧
      t.pwr.beatRate = (List.range 4).map (fun d => m.beatRate.getD d 0) ∧
      t.pwr.cap = s.pwr.cap ∧ t.pwr.rackCap = s.pwr.rackCap ∧ t.pwr.thermalLimit = s.pwr.thermalLimit ∧ t.pwr.brake = s.pwr.brake ∧
      (∀ a ∈ t.pwr.allowance, 1 ≤ a) ∧ t.pwr.allowance.length = 4 ∧
      (let vmax := if m.vin_mV < 46000 then min s.part.maxWatts (90 * m.vin_mV / 1000) else s.part.maxWatts
       let lcap := min (min s.pwr.cap s.pwr.rackCap) vmax
       let limit := min (if s.pwr.brake then min lcap 1200 else lcap) s.pwr.thermalLimit
       let held := min (if s.pwr.brake then min s.pwr.enforced 1200 else s.pwr.enforced) s.pwr.thermalLimit
       let drop := max lcap (min held m.pIn)
       let e := if lcap < held then (if lcap < drop then max lcap (drop - 8) else drop)
         else if held < limit then min limit (held + 8) else held
       t.pwr.limit = limit ∧ t.pwr.enforced = e ∧ t.pwr.capLag = decide (limit < e))

/-- Once a millisecond, from the 125 windows that it held, each die's VCORE voltage rises by 5 mV to at most 850 mV
where its allowance was full in every one and the input stayed 3 % below the enforced limit, falls by 5 mV to at
least 650 mV where the average allowance was below 192, and stays elsewhere; before a millisecond has passed nothing
changes. A droop detector holds and releases its cores; nothing else changes (R470, R472). The brake: asserted,
BRAKE reads 1, the limit and E are at most the 1,200 W floor and every allowance at most the brake allowance, at
once; released, BRAKE and BRAKE_HELD read 0 and E stays to rise window by window; held for 10 s, BRAKE_HELD is set
(R361, R473, R477, R513). Once a millisecond the sensors' readings give the hot margin, the largest reading above
its threshold: 105 °C on compute and I/O dies, 95 °C on base dies, 85 °C on caddy dies. The thermal limit follows
it: 1 °C or more over, it falls below the draw averaged over the millisecond by 40 W a degree to at least 1,000 W; 3
°C or more under, it rises by 20 W to at most the variant maximum; else it holds. THERMAL_LIMIT shows whether it
lies below the variant maximum (R478, R479). -/
def Obligations.VoltageBrakeAndTemperature : Prop :=
  (∀ s : State,
     (s.kettleOn = true → s.pwr.windows.length = 125 → s.elapsed s.pwr.vcoreAt 25000 = true →
       ∃ v, exec .vcoreStep s = .next { s with pwr := { s.pwr with vcoreAt := some s.time.count, vcore := v } } ∧
       ∀ d, d < 4 → v.getD d 0 =
         (let v := s.pwr.vcore.getD d 750
          let a := s.pwr.windows.map fun w => w.allowance.getD d 256
          if (∀ x ∈ a, x = 256) ∧ (∀ w ∈ s.pwr.windows, 100 * w.input ≤ 97 * w.enforced) then min 850 (v + 5)
          else if a.sum < 192 * 125 then max 650 (v - 5) else v)) ∧
     (s.pwr.windows.length ≠ 125 ∨ s.elapsed s.pwr.vcoreAt 25000 = false → exec .vcoreStep s = .next s) ∧
     (∀ die det, s.powered = true → die < 4 → det < 16 →
       ((die, det) ∉ s.pwr.droop →
         exec (.droopTrip die det) s = .next { s with pwr := { s.pwr with droop := s.pwr.droop ++ [(die, det)] } }) ∧
       ((die, det) ∈ s.pwr.droop →
         exec (.droopRelease die det) s = .next { s with pwr := { s.pwr with droop := s.pwr.droop.erase (die, det) } }))) ∧
  (∀ s : State,
     (s.start.vaon = true → s.start.brakePin = false → s.kettleOn = true → ∀ chatter,
       ∃ t : State, exec (.pwrBrakeAssert chatter) s = .next t ∧ t.start.brakePin = true ∧ t.pwr.brake = true ∧ t.pwr.pace = true ∧
         t.pwr.limit ≤ 1200 ∧ t.pwr.enforced ≤ 1200 ∧ (∀ a ∈ t.pwr.allowance, a ≤ s.pwr.brakeAllow) ∧ t.mem = s.mem) ∧
     (s.start.vaon = true → s.start.brakePin = true →
       ∃ t : State, exec .pwrBrakeRelease s = .next t ∧ t.start.brakePin = false ∧ t.pwr.brake = false ∧ t.pwr.brakeHeld = false ∧
         t.pwr.enforced = min s.pwr.enforced s.pwr.thermalLimit ∧ t.mem = s.mem) ∧
     (∀ since, s.kettleOn = true → s.pwr.brake = true → s.pwr.brakeHeld = false → s.pwr.brakeStart = some since →
       (250000000 ≤ (s.time.count - since).toNat → ∃ t : State, exec .brakeHeld s = .next t ∧ t.pwr = { s.pwr with brakeHeld := true }) ∧
       ((s.time.count - since).toNat < 250000000 → exec .brakeHeld s = .next s))) ∧
  (∀ (s : State) (m : TempMeas) (h : Int), s.kettleOn = true → s.pwr.windows.length = 125 → s.elapsed s.pwr.thermalAt 25000 = true →
     (let readings := (m.compute ++ m.io).flatten.map (· - 105) ++ m.base.flatten.map (· - 95) ++ m.caddy.flatten.map (· - 85)
      h ∈ readings ∧ ∀ x ∈ readings, x ≤ h) →
     ∃ t : State, exec (.thermalLimitUpdate m) s = .next t ∧ t.pwr.temps = m ∧
     t.pwr.thermalLimit =
       (if 1 ≤ h then max 1000 (min s.pwr.thermalLimit ((s.pwr.windows.map KettleWindow.input).sum / 125) - 40 * h.toNat)
        else if h ≤ -3 then min s.variantMax (s.pwr.thermalLimit + 20) else s.pwr.thermalLimit) ∧
     t.pwr.thermal = decide (t.pwr.thermalLimit < s.variantMax) ∧ t.pwr.limit ≤ t.pwr.thermalLimit ∧
     t.pwr.enforced ≤ t.pwr.thermalLimit ∧ t.pwr.cap = s.pwr.cap ∧ t.mem = s.mem ∧ t.eng = s.eng)

/-! ## Security (spec 20, spec 13 R316) -/

/-- An alarm sets its bit of SOURCES and takes the action of the fuse ALARM_ACTION: action 0 reports only; action 1
locks the package, its links stopped, its log silent from then on, and keeps every key; action 2 or 3 also erases
the key cells, the caddy key in the engines, the session and IDE keys and the SRAM; under lock a further source
takes no action; with the first stage open the record is owed, only the key cells go, and any action but 0 holds the
package (R494 to R498). -/
def Obligations.AlarmTakesItsAction : Prop :=
  ∀ (s : State) (src : AlarmSource) (chatter : Bool), s.start.vaon = true → s.sec.asserted.getLsbD (sourceBit src) = false →
    ∃ t : State, exec (.secAlarm src chatter) s = .next t ∧
      t.sec.sources = s.sec.sources ||| ((1 : BitVec 5) <<< sourceBit src) ∧
      t.sec.asserted = (if isPinSource src then s.sec.asserted ||| ((1 : BitVec 5) <<< sourceBit src) else s.sec.asserted) ∧
      (let erased := t.caddy.keyValid = false ∧ t.caddy.wrappedKey = 0 ∧ t.caddy.scrubRequired = true ∧ t.caddy.erased = true
       let keysKept := t.caddy.keyValid = s.caddy.keyValid ∧ t.caddy.wrappedKey = s.caddy.wrappedKey ∧ t.caddy.key = s.caddy.key
       let locked := t.sec.locked = true ∧ t.err.silent = true ∧ (∀ p ∈ t.links, p.2.train = .off) ∧ t.caddy.build = none
       (s.sec.locked = true → keysKept ∧ t.sec.locked = true ∧ t.err = s.err) ∧
       (s.sec.locked = false → s.start.firstStage = true →
         (s.alarmAction = 0 → keysKept ∧ t.sec.locked = false ∧ t.links = s.links ∧ t.caddy = s.caddy) ∧
         (s.alarmAction = 1 → keysKept ∧ locked) ∧
         (2 ≤ s.alarmAction → erased ∧ locked ∧ t.caddy.key = none ∧ t.sec.session = none ∧ t.sec.ideKeys = [] ∧
           t.mem.dieStore = [] ∧ t.fab.cache = [] ∧ t.fab.replay = [] ∧ t.comp.reissue = [])) ∧
       (s.sec.locked = false → s.start.firstStage = false → t.sec.owed = true ∧ (t.sec.locked = true ↔ s.alarmAction ≠ 0) ∧ t.err = s.err ∧
         (2 ≤ s.alarmAction → erased) ∧ (s.alarmAction < 2 → keysKept)))

/-- Once a second (25,000,000 TCLK periods) the fuses are checked: with every field in order only the time of the check
changes; a field that fails reads restrictively from then on and raises FUSE_INTEGRITY; an alarm input's release
clears nothing in SOURCES; a failed integrity check of the IDE stream makes it insecure, keys and BAR0 staying
(R487, R494, R506, R513). -/
def Obligations.FuseAndIntegrityChecks : Prop :=
  ∀ s : State,
    (s.powered = true → (∀ at', s.sec.fuseAt = some at' → 25000000 ≤ (s.time.count - at').toNat) →
      exec (.fuseCheck []) s = .next { s with sec := { s.sec with fuseAt := some s.time.count } } ∧
      ∀ f rest, s.sec.restrict = [] → ∃ t : State, exec (.fuseCheck (f :: rest)) s = .next t ∧ f ∈ t.sec.restrict ∧
        t.sec.sources = s.sec.sources ||| 0x10 ∧ t.part = s.part) ∧
    (∀ src, s.start.vaon = true → s.sec.asserted.getLsbD (sourceBit src) = true →
      exec (.alarmInputDeassert src) s = .next { s with sec := { s.sec with
        asserted := s.sec.asserted &&& ~~~((1 : BitVec 5) <<< sourceBit src) } }) ∧
    (s.hostUp = true → s.sec.ideSecure = true → ∃ t : State, exec .ideIntegrityFailure s = .next t ∧
      t.sec = { s.sec with ideSecure := false } ∧ t.hif = s.hif ∧ t.rings = s.rings ∧ t.mem = s.mem)

/-- SPDM negotiation runs in order: GET_VERSION starts it over with version 1.3 alone and no session, GET_CAPABILITIES
and NEGOTIATE_ALGORITHMS follow, and a requester that selects none of the package's algorithms ends it. A request
ahead of its place is answered UnexpectedRequest and changes nothing; an unknown one UnsupportedRequest (R504).
Response and error codes are the SPDM standard's, the model's choice of notes/assumptions/42.md. Large messages
travel in chunks in order: CHUNK_SEND keeps each part of a request until its last, CHUNK_GET returns a large
response at most 4,084 bytes of it a time; a chunk out of order is answered InvalidRequest. DOE discovery lists the
discovery, SPDM and secured SPDM protocols of vendor 0x0001 in turn (R316, R504). -/
def Obligations.SpdmNegotiatesAndChunks : Prop :=
  (∀ (s : State) (q : SpdmReq), s.responder = true → q.session = none →
     (let error := fun code data : Nat => ({ s with out := s.out ++ [.spdm none 0x7F code data []] } : State)
      exec (.getVersion q) s = .next { s with
        sec := { s.sec with spdmStep := 1, session := none, ideKeys := [], ideSecure := false, chunkIn := none, chunkOut := none }
        out := s.out ++ [.spdm none 0x04 0 0 [0x00, 0x01, 0x00, 0x13]] } ∧
      (1 ≤ s.sec.spdmStep → exec (.getCapabilities q) s = .next
        (({ s with sec := { s.sec with spdmStep := max 2 s.sec.spdmStep } } : State).respond q 0x61 0 0 (Config.spdmBody 0x61 q.body))) ∧
      (s.sec.spdmStep < 1 → exec (.getCapabilities q) s = .next (error 0x04 0)) ∧
      (2 ≤ s.sec.spdmStep →
        (∀ k, k ≠ 0 → exec (.negotiateAlgorithms q [1, 2, 3, k]) s = .next
          (({ s with sec := { s.sec with spdmStep := 3 } } : State).respond q 0x63 0 0 (Config.spdmBody 0x63 q.body))) ∧
        exec (.negotiateAlgorithms q [0, 2, 3, 1]) s = .next { s with
          sec := { s.sec with spdmStep := 0 }, out := s.out ++ [.spdm none 0x7F 0x01 0 []] }) ∧
      (s.sec.spdmStep < 2 → ∀ sel, exec (.negotiateAlgorithms q sel) s = .next (error 0x04 0)) ∧
      (s.sec.spdmStep < 3 → exec (.getDigests q) s = .next (error 0x04 0) ∧ exec (.keyExchange q) s = .next (error 0x04 0) ∧
        exec (.finish q) s = .next (error 0x04 0)) ∧
      (∀ code, code < 256 → exec (.spdmUnsupportedRequest q code) s = .next (error 0x07 code)) ∧
      (∀ body code p1 p2, body.length ≤ 4096 →
        s.respond q code p1 p2 body = { s with out := s.out ++ [.spdm none code p1 p2 body] }))) ∧
  (∀ (s : State) (q : SpdmReq) (h : Nat), s.responder = true → q.session = none → 3 ≤ s.sec.spdmStep →
     (s.sec.chunkIn = none → exec (.chunkSend q h 0 false 0) s = .next (({ s with
        sec := { s.sec with chunkIn := some (h, 1, q.body) } } : State).respond q 0x05 0 h [0, 0])) ∧
     (∀ n b, s.sec.chunkIn = some (h, n, b) →
       (∀ total, exec (.chunkSend q h n false total) s = .next (({ s with
          sec := { s.sec with chunkIn := some (h, n + 1, b ++ q.body) } } : State).respond q 0x05 0 h (leBytes 2 n))) ∧
       exec (.chunkSend q h n true (b ++ q.body).length) s = .next (({ s with sec := { s.sec with chunkIn := none } } : State).respond
         q 0x05 0 h (leBytes 2 n ++ Config.spdmBody 0x05 (b ++ q.body))) ∧
       (∀ k last total, k ≠ n → exec (.chunkSend q h k last total) s = .next { s with
         sec := { s.sec with chunkIn := none }, out := s.out ++ [.spdm none 0x7F 0x01 0 []] })) ∧
     (∀ code n b, s.sec.chunkOut = some (code, n, b) →
       exec (.chunkGet q h n) s = .next { s with
         sec := { s.sec with chunkOut := if b.length ≤ 4084 then none else some (code, n + 1, b.drop 4084) }
         out := s.out ++ [.spdm none 0x06 (if b.length ≤ 4084 then 1 else 0) h
           (leBytes 2 n ++ [0, 0] ++ leBytes 4 (min 4084 b.length) ++ b.take 4084)] } ∧
       (∀ k, k ≠ n → exec (.chunkGet q h k) s = .next { s with out := s.out ++ [.spdm none 0x7F 0x01 0 []] })) ∧
     (s.hostUp = true →
       exec (.doeDiscovery 0) s = .next { s with out := s.out ++ [.doe [0x01, 0x00, 0x00, 0x01]] } ∧
       exec (.doeDiscovery 1) s = .next { s with out := s.out ++ [.doe [0x01, 0x00, 0x01, 0x02]] } ∧
       exec (.doeDiscovery 2) s = .next { s with out := s.out ++ [.doe [0x01, 0x00, 0x02, 0x00]] } ∧
       (∀ i, 3 ≤ i → exec (.doeDiscovery i) s = .next { s with out := s.out ++ [.doe [0xFF, 0xFF, 0x00, 0x00]] })))

/-- Attestation after negotiation: digests of slots 0 and 1, a part of a slot's chain, a signed challenge, and
measurement blocks 1 to 8 as they stand when the response is formed, signed where asked; a device secret that failed
its fuse check signs nothing (R487, R504, R505). -/
def Obligations.AttestationAnswers : Prop :=
  ∀ (s : State) (q : SpdmReq), s.responder = true → q.session = none → 3 ≤ s.sec.spdmStep →
    (let invalid : State := { s with out := s.out ++ [.spdm none 0x7F 0x01 0 []] }
     let digest := fun slot => leBytes 32 (Config.shake256 (Config.certChain slot s.part.secret)).toNat
     exec (.getDigests q) s = .next { s with out := s.out ++ [.spdm none 0x01 0 3 (digest 0 ++ digest 1)] } ∧
     (∀ slot offset len, (slot < 2 → (Config.certChain slot s.part.secret).length ≤ offset) →
       exec (.getCertificate q slot offset len) s = .next invalid) ∧
     (∀ slot offset len, slot < 2 →
       (let chain := Config.certChain slot s.part.secret
        let part := (chain.drop offset).take (min len 4088)
        exec (.getCertificate q slot offset len) s = .next
          (if chain.length ≤ offset then invalid
           else { s with out := s.out ++ [.spdm none 0x02 slot 0 (leBytes 2 part.length ++
             leBytes 2 (chain.length - offset - part.length) ++ part)] }))) ∧
     (s.sec.restrict.contains .secret = true → ∀ slot i, exec (.challenge q slot) s = .next invalid ∧
       exec (.getMeasurements q i true) s = .next invalid) ∧
     (s.sec.restrict.contains .secret = false → ∀ slot, slot < 2 →
       (let b := Config.spdmBody 0x03 q.body ++ digest slot
        exec (.challenge q slot) s = .next (s.respond q 0x03 slot (2 ^ slot) (b ++ Config.falconSign s.part.secret b)))) ∧
     exec (.getMeasurements q 0 false) s = .next { s with out := s.out ++ [.spdm none 0x60 8 0 [0, 0, 0, 0]] } ∧
     (∀ i, 9 ≤ i → i ≠ 0xFF → ∀ sign, exec (.getMeasurements q i sign) s = .next invalid) ∧
     (∀ i v, s.measurement i = some v → i ≠ 0 → i ≠ 0xFF →
       (let b := measureBlock i v
        exec (.getMeasurements q i false) s = .next (s.respond q 0x60 0 0 (leBytes 1 1 ++ leBytes 3 b.length ++ b)))))

/-- The secured session: KEY_EXCHANGE opens it, FINISH within it completes the handshake, KEY_UPDATE and HEARTBEAT are
acknowledged, IDE_KM keys the stream only inside it, END_SESSION zeroises the IDE keys. A request whose record does
not open, or for a session that is not in force, is answered DecryptError (R504, R506). -/
def Obligations.SecuredSessionKeysTheStream : Prop :=
  ∀ (s : State) (q : SpdmReq), s.responder = true → 3 ≤ s.sec.spdmStep →
    (let answer := fun (t : State) (code p1 p2 : Nat) => t.respond q code p1 p2 (Config.spdmBody code q.body)
     (q.session = none → s.sec.session = none → s.sec.restrict.contains .secret = false →
       (let b := Config.spdmBody 0x64 q.body
        exec (.keyExchange q) s = .next (({ s with sec := { s.sec with session := some (leAt q.body 0 2, false) } } : State).respond
          q 0x64 0 0 (b ++ Config.falconSign s.part.secret b)))) ∧
     (∀ n, q.session = some n → q.authentic = true →
       (s.sec.session = some (n, false) → exec (.finish q) s = .next
         (answer { s with sec := { s.sec with session := some (n, true) } } 0x65 0 0)) ∧
       (s.sec.session = some (n, true) →
         exec (.keyUpdate q) s = .next { s with out := s.out ++ [.spdm (some n) 0x69 q.param1 q.param2 []] } ∧
         exec (.heartbeat q) s = .next { s with out := s.out ++ [.spdm (some n) 0x68 0 0 []] } ∧
         exec (.endSession q) s = .next { s with
           sec := { s.sec with session := none, ideKeys := [], ideSecure := false }
           out := s.out ++ [.spdm (some n) 0x6C 0 0 []] } ∧
         (∀ keys, exec (.vendorDefinedRequest q true keys) s = .next
           (answer { s with sec := { s.sec with ideKeys := keys, ideSecure := !keys.isEmpty } } 0x7E 0 0)))) ∧
     (q.session = none → ∀ keys, exec (.vendorDefinedRequest q true keys) s = .next { s with
       out := s.out ++ [.spdm none 0x7F 0x04 0 []] }) ∧
     (∀ n, q.session = some n → (q.authentic = false ∨ s.sec.session = none) → ∀ keys,
       exec (.vendorDefinedRequest q true keys) s = .next { s with out := s.out ++ [.spdm (some n) 0x7F 0x06 0 []] } ∧
       exec (.heartbeat q) s = .next { s with out := s.out ++ [.spdm (some n) 0x7F 0x06 0 []] }))

/-! ## Resets and start-up (spec 21) -/

/-- A package reset and the power-on reset return everything but the VAON domain to its start state: the counter, the
rings, the sequences, the model, the lock and every table go; the caddy's contents and key cells, the trip and rail
flags and the pins stay; a package reset keeps the error log and releases what held the first stage open, the
power-on reset clears the log (R48, R364, R514, R518, R524). The end of a reset samples the straps, which hold until
the next; nothing else changes where no alarm input is asserted (R520). -/
def Obligations.ResetsAndTheirEnd : Prop :=
  (∀ s : State,
     (let clean := fun t : State =>
       t.time.count = 0 ∧ t.rings = [] ∧ t.accepted = [] ∧ t.waiting = [] ∧ t.longOps = [] ∧ t.nextHandle = 1 ∧ t.model = none ∧
       t.eng = {} ∧ t.serve = {} ∧ t.steep = {} ∧ t.rte = {} ∧ t.links = [] ∧ t.disc = {} ∧ t.fab = {} ∧ t.comp = {} ∧ t.hif = {} ∧
       t.sec.locked = false ∧ t.err.fatal = false ∧ t.mem.lostSince = 0 ∧ t.mem.objects = [] ∧ t.dom.exports = [] ∧
       t.dom.state = .bringup ∧ t.dom.node = 0xFF ∧ t.pwr.cap = s.part.maxWatts ∧ t.start.inReset = true ∧
       t.start.straps = s.start.straps ∧ t.pending = s.pending ∧ t.part = s.part
      let kept := fun t : State =>
       t.caddy.bankA.data = s.caddy.bankA.data ∧ t.caddy.bankB.data = s.caddy.bankB.data ∧
       t.caddy.journal0 = s.caddy.journal0 ∧ t.caddy.journal1 = s.caddy.journal1 ∧
       t.caddy.keyValid = s.caddy.keyValid ∧ t.caddy.wrappedKey = s.caddy.wrappedKey ∧
       t.caddy.scrubRequired = s.caddy.scrubRequired ∧ t.caddy.erased = s.caddy.erased ∧ t.caddy.opened = false ∧
       t.pwr.trip = s.pwr.trip ∧ t.pwr.railFault = s.pwr.railFault ∧ t.start.firstStage = s.start.firstStage
      (s.start.vaon = true → s.start.inReset = false → ∃ t : State, exec .pkgResetN s = .next t ∧ clean t ∧ kept t ∧
         t.err.log = s.err.log ∧ t.err.total = s.err.total ∧ t.start.faultHeld = false ∧ t.start.eoffLatch = s.start.eoffPin) ∧
      (s.start.vaon = false → ∃ t : State, exec .powerOnReset s = .next t ∧ clean t ∧ kept t ∧
         t.err.log = [] ∧ t.err.total = 0 ∧ t.start.vaon = true))) ∧
  (∀ (s : State) (straps : Straps), s.start.vaon = true → s.start.inReset = true →
     (s.sec.asserted = 0 → exec (.packageResetRelease straps) s = .next { s with
       start := { s.start with inReset := false, straps := straps }
       dom := { s.dom with mgrPrio := straps.mgrPrio } }) ∧
     (∃ t : State, exec (.packageResetRelease straps) s = .next t ∧ t.start.straps = straps ∧ t.start.inReset = false ∧
       t.dom.mgrPrio = straps.mgrPrio))

/-- PERST_N ends the pairs and the host's keys: every enabled pair reads ENABLE 0 and nothing in it is in progress, the
error ring is disabled, the IDE keys are gone, the boot window is empty and BOOT_WAIT keeps its value; long
operations and sequences stay (R519). -/
def Obligations.PerstEndsRings : Prop :=
  ∀ (s : State) (chatter : Bool), s.start.vaon = true → s.start.perst = false →
    ∃ t : State, exec (.perstN chatter) s = .next t ∧ t.start = { s.start with perst := true } ∧
      (∀ n, n ∈ s.rings.keys → (t.ring n).enable = false) ∧
      t.err.ringEn = false ∧ t.sec.ideKeys = [] ∧ t.sec.ideSecure = false ∧ t.hif.bootWin = [] ∧
      t.hif.bootWait = s.hif.bootWait ∧ t.longOps.keys = s.longOps.keys ∧ t.eng.seqs = s.eng.seqs ∧ t.steep = s.steep ∧
      t.mem = s.mem ∧ t.dom = s.dom

/-- The first stage opens on an emergency off, a thermal trip, a VIN or current fault, and falls with VAON: every rail
but VAON is gone, and the flag that the cause sets stays on VAON. An emergency off writes no error record; VAON's
own loss takes the flags and the counter (R466, R480, R514, R516, R524). START_GATE_MET closes the first stage
exactly when VIN holds, no reset, emergency off or fault flag holds it open, and a sequenced start has every rack
input; after an opening for VIN it is a power-on reset (R521 to R524). -/
def Obligations.FirstStageOpensAndCloses : Prop :=
  (∀ s : State, s.start.vaon = true → s.start.firstStage = true →
     (let open_ := fun t : State => t.start.firstStage = false ∧ t.start.pkgPg = false ∧ t.hif = {} ∧ t.rings = [] ∧ t.eng = {} ∧
       t.model = none ∧ t.mem.hbm = [] ∧ t.sec.locked = false ∧ t.err.log = [] ∧ t.caddy.bankA.data = s.caddy.bankA.data ∧
       t.caddy.bankB.data = s.caddy.bankB.data ∧ t.caddy.wrappedKey = s.caddy.wrappedKey ∧ t.part = s.part ∧ t.pending = s.pending
      (s.start.eoffPin = false → ∀ chatter, ∃ t : State, exec (.emergencyOffN chatter) s = .next t ∧ open_ t ∧ t.time = s.time ∧
         t.start.eoffPin = true ∧ t.start.eoffLatch = true ∧ t.start.vaon = true) ∧
      (∀ unit die pos, ∃ t : State, exec (.thermalTrip unit die pos) s = .next t ∧ open_ t ∧ t.time = s.time ∧
         t.pwr.trip = some (unit, die, pos) ∧ t.start.faultHeld = true ∧ .pin "THERMTRIP_N" false ∈ t.out) ∧
      (∃ t : State, exec (.firstStageOpen .vinRange) s = .next t ∧ open_ t ∧ t.time = s.time ∧ t.start.vinOpen = true) ∧
      (∃ t : State, exec (.firstStageOpen .busCurrent) s = .next t ∧ open_ t ∧ t.pwr.railFault = some 1 ∧ t.start.faultHeld = true) ∧
      (∀ r, ∃ t : State, exec (.firstStageOpen (.railCurrent r)) s = .next t ∧ open_ t ∧ t.pwr.railFault = some r ∧ t.start.faultHeld = true) ∧
      (∃ t : State, exec .vaonLoss s = .next t ∧ open_ t ∧ t.time.count = 0 ∧ t.start.vaon = false ∧ t.pwr.trip = none ∧
         t.pwr.railFault = none ∧ t.start.faultHeld = false ∧ t.sec.sources = 0))) ∧
  (∀ s : State, s.start.vaon = true → s.start.firstStage = false →
     (s.start.inReset = false → s.start.eoffPin = false → s.start.eoffLatch = false → s.start.faultHeld = false →
       (s.startMode = 2 ∨ (s.startMode = 0 ∧ s.start.straps.seqStart = true) → s.start.rackPg.findIdx? (!·) = none) →
       (s.start.vinOpen = false → exec (.startGateMet true) s = .next { s with start := { s.start with firstStage := true } }) ∧
       (s.start.vinOpen = true → ∃ t : State, exec (.startGateMet true) s = .next t ∧ t.start.firstStage = true ∧ t.start.vinOpen = false ∧
         t.time.count = 0 ∧ t.err.log = [])) ∧
     exec (.startGateMet false) s = .next s ∧
     (s.start.inReset = true ∨ s.start.eoffPin = true ∨ s.start.eoffLatch = true ∨ s.start.faultHeld = true →
       ∀ v, exec (.startGateMet v) s = .next s))

/-- With the rails up the boot ROM starts: PKG_PG goes high, BOOT_HOST picks the source, and where nothing is owed and
every fuse field passes nothing else changes but the time of the fuse check (R487, R516, R525, R526). An image that
fails is refused with its record and the next source is tried; after the SPI sources the boot ROM waits for the
host. One that passes runs: MGMT_RUN reads 1, its version shows, and ROLLBACK advances to its SVN only where it asks
for it (R349, R500, R501, R526). -/
def Obligations.BootRomRunsAnImage : Prop :=
  (∀ s : State, s.start.vaon = true → s.start.firstStage = true → s.start.inReset = false → s.start.pkgPg = false →
     s.pwr.trip = none → s.pwr.railFault = none → s.sec.owed = false →
     exec (.pkgPgHigh []) s = .next { s with
       start := { s.start with pkgPg := true, bootSource := if s.start.straps.bootHost then 2 else 0 }
       hif := { s.hif with bootWait := s.start.straps.bootHost }
       sec := { s.sec with fuseAt := some s.time.count }
       out := s.out ++ [.pin "PKG_PG" true] }) ∧
  (∀ s : State, s.powered = true → s.sec.locked = false → s.hif.mgmtRun = false → s.start.mgmtReset = false →
     s.start.mgmtHeld = false → s.start.bootSource < 2 →
     (∃ t : State, exec (.bootImageVerify none) s = .next t ∧ t.hif.mgmtRun = false ∧ t.part = s.part ∧
       t.start.bootSource = s.start.bootSource + 1 ∧ t.hif.bootWait = (s.hif.bootWait || s.start.bootSource == 1)) ∧
     (∀ b, let ok := s.fwAuthentic b && decide (s.part.rollback ≤ fwSvn b)
       ∃ t : State, exec (.bootImageVerify (some b)) s = .next t ∧ t.hif.mgmtRun = ok ∧
         t.hif.fwVer = (if ok then BitVec.ofNat 32 (leAt b 4 4) else s.hif.fwVer) ∧
         t.part = { s.part with rollback := if ok && fwCommit b then max s.part.rollback (fwSvn b) else s.part.rollback } ∧
         t.start.bootSource = (if ok then s.start.bootSource else s.start.bootSource + 1) ∧ t.mem = s.mem ∧ t.caddy = s.caddy))

/-- The start-up tests: failing cores and tiles are mapped out, a core with both its tiles out among them; failing
channels of the part are mapped out, and a clearing scrub follows where the key cells require one (R107, R451, R497,
R525). -/
def Obligations.StartTestsMapOut : Prop :=
  ∀ s : State, s.mgmtUp = true →
    (s.start.coresTested = false →
      (exec (.coreTileTest [0, 0, 0, 0] [0, 0, 0, 0]) s = .next (({ s with
        comp := { s.comp with coreLost := [], tileLost := [] }
        start := { s.start with coresTested := true } } : State).latchStart
          [0x1A0040, 0x1A0060, 0x1A0048, 0x1A0070, 0x1A0050, 0x1A0080, 0x1A0058, 0x1A0090])) ∧
      (∀ c0 c1 c2 c3 : BitVec 64, c0 ≠ BitVec.allOnes 64 → c1 ≠ BitVec.allOnes 64 → c2 ≠ BitVec.allOnes 64 → c3 ≠ BitVec.allOnes 64 →
        ∃ t : State, exec (.coreTileTest [c0, c1, c2, c3] [0, 0, 0, 0]) s = .next t ∧ t.start.coresTested = true ∧ t.err = s.err ∧
          t.comp.coreLost.get 0 0 = c0 ∧ t.comp.coreLost.get 0 1 = c1 ∧ t.comp.coreLost.get 0 2 = c2 ∧ t.comp.coreLost.get 0 3 = c3) ∧
      (∀ c, c < 64 → ∃ t : State, exec (.coreTileTest [0, 0, 0, 0] [(3 : BitVec 128) <<< (2 * c), 0, 0, 0]) s = .next t ∧ t.err = s.err ∧
        t.comp.coreLost.get 0 0 = (1 : BitVec 64) <<< c ∧
        t.comp.tileLost.get 0 0 = (3 : BitVec 128) <<< (2 * c))) ∧
    (s.start.hbmTested = false → ∀ lost : W512, ∃ t : State, exec (.hbmTrainTest lost) s = .next t ∧
      t.mem.lostAtStart = lost &&& BitVec.ofNat 512 (2 ^ s.part.channels - 1) ∧ t.start.hbmTested = true ∧
      t.start.clearing = s.caddy.scrubRequired ∧ t.caddy = s.caddy ∧ t.comp = s.comp)

/-! ## Pins, sideband, boundary scan (spec 21) -/

/-- Levels of the filtered pins outside a running kettle: PERST#, emergency off, the tray latch and the rack's
power-good inputs, each a level that State keeps and nothing else (R511, R514, R515, R519, R523). Every other field
stays. The test access port: IDCODE shifts STEP_MAJOR, 0x0A48, 0x326 and 1 out, lowest bit first; BYPASS shifts one
0; TRST_N puts the port in reset; where DEBUG_LOCK reads 0 and JTAG is enabled, SAMPLE/PRELOAD and EXTEST take the
cells shifted in, and elsewhere they act as BYPASS (R502, R532). Nothing else changes. -/
def Obligations.PinsAndTestPortAnswer : Prop :=
  (∀ s : State, s.start.vaon = true →
     (s.start.perst = true → exec .perstNDeassert s = .next { s with start := { s.start with perst := false } }) ∧
     (s.start.eoffPin = true → exec .emergencyOffDeassert s = .next { s with start := { s.start with eoffPin := false } }) ∧
     (∀ i high, i < 5 →
       exec (.rackPgChange i high) s = .next { s with start := { s.start with rackPg := s.start.rackPg.set i high } }) ∧
     (s.start.trayPin = false →
       exec (.traySenseN false) s = .next { s with start := { s.start with trayPin := true } } ∧
       exec (.traySenseN true) s = .next { s with
         start := { s.start with trayPin := true }
         pwr := { s.pwr with chatter := s.pwr.chatter.set 3 (min 255 (s.pwr.chatter.getD 3 0 + 1)) } }) ∧
     (s.start.trayPin = true → exec .traySenseDeassert s = .next { s with start := { s.start with
         trayPin := false
         gatePassed := s.start.gatePassed || (s.hif.mgmtRun && s.caddy.opened) } })) ∧
  (∀ s : State, s.powered = true →
     (let off : State := { s with start := { s.start with tapReset := false, tapInstr := 1 }, out := s.out ++ [.tdo [false]] }
      let tap := fun (i : Nat) (cells bits : List Bool) =>
        ({ s with start := { s.start with tapReset := false, tapInstr := i, tapCells := cells }, out := s.out ++ [.tdo bits] } : State)
      exec .trstN s = .next { s with start := { s.start with tapReset := true, tapInstr := 0 } } ∧
      exec .bypass s = .next off ∧
      (exec .idcode s = .next (tap 0 s.start.tapCells ((List.range 32).map
         (s.part.stepMajor % 16 * 0x10000000 + 0x0A48 * 0x1000 + 0x326 * 2 + 1).testBit))) ∧
      (∀ cells, s.debugLock = false → s.start.jtagEn = true →
        exec (.samplePreload true cells) s = .next (tap 2 cells cells) ∧
        exec (.samplePreload false cells) s = .next (tap 2 cells s.start.tapCells) ∧
        exec (.extest cells) s = .next (tap 3 cells s.start.tapCells)) ∧
      (∀ sample cells, s.debugLock = true ∨ s.start.jtagEn = false →
        exec (.samplePreload sample cells) s = .next off ∧ exec (.extest cells) s = .next off)))

/-- The MCTP control commands of a served sideband answer as R529 says, and only SET_ENDPOINT_ID changes anything but
what is sent: it sets the endpoint ID, refusing 0 and 0xFF. The bodies' codes are the MCTP standard's, the model's
choice of notes/assumptions/42.md. The I3C target takes a dynamic address once: SETDASA the one given, SETAASA its
static address, 0x30 plus the I3C_SA strap (R529). While it has an address, neither changes anything. The sideband's
own requests: a READ returns COUNT words, each as a BAR0 read of 4 bytes gives it, and latches as those reads do;
RACK_CAP is refused under lock and answered DESC_RSVD with a reserved bit set; FACTORY_TEST is answered
SEC_DEBUG_LOCKED or DESC_OPCODE and never runs (R344, R496, R502, R530). -/
def Obligations.SidebandLinkAnswers : Prop :=
  (∀ s : State, s.sideUp = true →
     (let answer := fun (code : Nat) (data : List Byte) => ({ s with out := s.out ++ [.mctp code data] } : State)
      (∀ eid, 0 < eid → eid < 0xFF → exec (.setEndpointId eid) s = .next { s with
         start := { s.start with eid := eid }
         out := s.out ++ [.mctp 0 [0, BitVec.ofNat 8 eid, 0]] }) ∧
      (∀ eid, eid = 0 ∨ 0xFF ≤ eid → exec (.setEndpointId eid) s = .next (answer 2 [])) ∧
      exec .getEndpointId s = .next (answer 0 [BitVec.ofNat 8 s.start.eid, 0, 0]) ∧
      exec .getMctpVersionSupport s = .next (answer 0 Config.mctpVersions) ∧
      exec .getMessageTypeSupport s = .next (answer 0 [2, 0x00, 0x7E]) ∧
      exec .getVendorDefinedMessageSupport s = .next (answer 0 [0xFF, 0x00, 0x1F, 0x4C]))) ∧
  (∀ s : State, s.powered = true →
     (s.start.i3cAddr = none →
       (∀ a, a < 128 → exec (.setdasa a) s = .next { s with start := { s.start with i3cAddr := some a } }) ∧
       exec .setaasa s = .next { s with start := { s.start with i3cAddr := some (0x30 + s.start.straps.i3cSa) } }) ∧
     (∀ b, s.start.i3cAddr = some b → (∀ a, exec (.setdasa a) s = .next s) ∧ exec .setaasa s = .next s)) ∧
  (∀ s : State, s.sideUp = true →
     (let answer := fun (t : State) (code : Nat) (ws : List Word) => ({ t with out := t.out ++ [.sideband code ws] } : State)
      (∀ arg : Word, arg.toNat % 4 = 0 → arg.toNat + 4 ≤ 0x1000000 →
         exec (.read 1 0 arg) s = .next (answer (s.barRead arg.toNat 4).2 0 [(s.barRead arg.toNat 4).1.setWidth 32])) ∧
      (∀ n (arg : Word), 1 ≤ n → n ≤ 16 → arg.toNat % 4 = 0 → arg.toNat + 4 * n ≤ 0x1000000 →
         exec (.read n 0 arg) s = .next (answer (s.readWords n arg.toNat).2 0 (s.readWords n arg.toNat).1) ∧
         (s.readWords n arg.toNat).1.length = n) ∧
      (∀ n rsvd arg, rsvd ≠ 0 → exec (.read n rsvd arg) s = .next (answer s 0x0102 [])) ∧
      (∀ n (arg : Word), n = 0 ∨ 16 < n ∨ arg.toNat % 4 ≠ 0 ∨ 0x1000000 < arg.toNat + 4 * n →
         exec (.read n 0 arg) s = .next (answer s 0x0103 [])) ∧
      (s.sec.locked = true → ∀ rsvd arg, exec (.rackCap rsvd arg) s = .next (answer s 0x0802 []) ∧
         exec (.factoryTest rsvd) s = .next (answer s 0x0802 [])) ∧
      (s.sec.locked = false →
         (∀ rsvd arg, rsvd ≠ 0 → exec (.rackCap rsvd arg) s = .next (answer s 0x0102 []) ∧
           exec (.factoryTest rsvd) s = .next (answer s 0x0102 [])) ∧
         (s.debugLock = true → exec (.factoryTest 0) s = .next (answer s 0x0803 [])) ∧
         (s.debugLock = false → exec (.factoryTest 0) s = .next (answer s 0x0101 [])))))
end

