-- ==== Sys2Proof/Laws/Memory.lean ====
section
/-! SUPPORT. Laws of byte memory: every operation keeps the canonical form, and what a byte reads after each. -/

namespace Sys2Proof.Machine

/-- The canonical form: addresses strictly rise and no cell holds 0. -/
theorem Memory.wf_iff (m : Memory) :
    Memory.wf m = true ↔ m.Pairwise (fun c d => c.1 < d.1) ∧ ∀ c ∈ m, c.2 ≠ 0 := by
  induction m with
  | nil => simp [Memory.wf]
  | cons c t ih =>
    cases t with
    | nil => simp [Memory.wf]
    | cons d t =>
      simp only [Memory.wf, Bool.and_eq_true, ih, bne_iff_ne, ne_eq, decide_eq_true_eq, List.pairwise_cons,
        List.mem_cons, forall_eq_or_imp]
      constructor
      · rintro ⟨⟨h1, h2⟩, ⟨h3, h4⟩, h5, h6⟩
        exact ⟨⟨⟨h2, fun e he => Nat.lt_trans h2 (h3 e he)⟩, h3, h4⟩, h1, h5, h6⟩
      · rintro ⟨⟨⟨h1, _⟩, h3, h4⟩, h5, h6, h7⟩
        exact ⟨⟨h5, h1⟩, ⟨h3, h4⟩, h6, h7⟩

/-- Leaving cells out keeps the form. -/
theorem Memory.wf_filter {m : Memory} (p : Host.Cell → Bool) (h : Memory.wf m = true) : Memory.wf (m.filter p) = true := by
  rw [Memory.wf_iff] at h ⊢
  exact ⟨h.1.filter p, fun c hc => h.2 c (List.mem_filter.1 hc).1⟩

/-- A cell of a stored byte list lies in its range and holds no 0. -/
theorem Memory.mem_cells {bs : List Byte} {a : Nat} {c : Host.Cell} (h : c ∈ Memory.cells a bs) :
    a ≤ c.1 ∧ c.1 < a + bs.length ∧ c.2 ≠ 0 := by
  induction bs generalizing a with
  | nil => simp [Memory.cells] at h
  | cons b t ih =>
    simp only [Memory.cells] at h
    simp only [List.length_cons]
    split at h
    · have h2 := ih h; exact ⟨by omega, by omega, h2.2.2⟩
    · rcases List.mem_cons.1 h with rfl | h
      · exact ⟨Nat.le_refl _, by simp, by assumption⟩
      · have := ih h; refine ⟨by omega, by omega, this.2.2⟩

theorem Memory.pairwise_cells (a : Nat) (bs : List Byte) :
    (Memory.cells a bs).Pairwise fun c d => c.1 < d.1 := by
  induction bs generalizing a with
  | nil => simp [Memory.cells]
  | cons b t ih =>
    simp only [Memory.cells]
    split
    · exact ih _
    · refine List.pairwise_cons.2 ⟨fun d hd => ?_, ih _⟩
      have := Memory.mem_cells hd
      show a < d.1
      omega

/-- A store keeps the form. -/
theorem Memory.wf_write {m : Memory} (a : Nat) (bs : List Byte) (h : Memory.wf m = true) : Memory.wf (m.write a bs) = true := by
  rw [Memory.wf_iff] at h ⊢
  obtain ⟨hp, hz⟩ := h
  refine ⟨?_, ?_⟩
  · rw [Memory.write, List.pairwise_append, List.pairwise_append]
    refine ⟨⟨hp.filter _, Memory.pairwise_cells _ _, ?_⟩, hp.filter _, ?_⟩
    · intro c hc d hd
      have h1 := (List.mem_filter.1 hc).2
      have h2 := Memory.mem_cells hd
      simp at h1; omega
    · intro c hc d hd
      have h2 := (List.mem_filter.1 hd).2
      simp only [decide_eq_true_eq] at h2
      rcases List.mem_append.1 hc with hc | hc
      · have h1 := (List.mem_filter.1 hc).2
        simp at h1; omega
      · have h1 := Memory.mem_cells hc; omega
  · intro c hc
    rw [Memory.write] at hc
    rcases List.mem_append.1 hc with hc | hc
    · rcases List.mem_append.1 hc with hc | hc
      · exact hz c (List.mem_filter.1 hc).1
      · exact (Memory.mem_cells hc).2.2
    · exact hz c (List.mem_filter.1 hc).1

theorem Memory.wf_clear {m : Memory} (a n : Nat) (h : Memory.wf m = true) : Memory.wf (m.clear a n) = true :=
  Memory.wf_filter _ h

theorem Memory.wf_clearIf {m : Memory} (p : Nat → Bool) (h : Memory.wf m = true) : Memory.wf (m.clearIf p) = true :=
  Memory.wf_filter _ h

theorem Memory.wf_nil : Memory.wf [] = true := rfl

/-! ## What a byte reads -/

theorem Memory.byte_nil (b : Nat) : Memory.byte [] b = 0 := rfl

theorem Memory.byte_cons (c : Host.Cell) (t : Memory) (b : Nat) :
    Memory.byte (c :: t) b = if c.1 = b then c.2 else Memory.byte t b := by
  by_cases h : c.1 = b <;> simp [Memory.byte, h]

/-- A byte that no cell holds reads 0. -/
theorem Memory.byte_none (m : Memory) (b : Nat) (h : ∀ c ∈ m, c.1 ≠ b) : Memory.byte m b = 0 := by
  induction m with
  | nil => rfl
  | cons c t ih =>
    rw [Memory.byte_cons, if_neg (h c (by simp))]
    exact ih fun d hd => h d (by simp [hd])

/-- A byte that a filter lets stand reads as before. -/
theorem Memory.byte_filter (m : Memory) (p : Host.Cell → Bool) (b : Nat) (h : ∀ c : Host.Cell, c.1 = b → p c = true) :
    Memory.byte (m.filter p) b = Memory.byte m b := by
  induction m with
  | nil => rfl
  | cons c t ih =>
    rw [Memory.byte_cons, List.filter_cons]
    by_cases hc : c.1 = b
    · rw [if_pos (h c hc), Memory.byte_cons]
      simp [hc]
    · by_cases hp : p c = true
      · rw [if_pos hp, Memory.byte_cons, if_neg hc, if_neg hc, ih]
      · rw [if_neg hp, if_neg hc, ih]

/-- A byte that a filter leaves out reads 0. -/
theorem Memory.byte_filter_out (m : Memory) (p : Host.Cell → Bool) (b : Nat) (h : ∀ c : Host.Cell, c.1 = b → p c = false) :
    Memory.byte (m.filter p) b = 0 :=
  Memory.byte_none _ _ fun c hc e => by simp [h c e] at hc

theorem Memory.byte_append (m n : Memory) (b : Nat) (h : ∀ c ∈ m, c.1 ≠ b) :
    Memory.byte (m ++ n) b = Memory.byte n b := by
  have : m.find? (fun c => c.1 == b) = none := List.find?_eq_none.2 fun c hc => by simpa using h c hc
  simp [Memory.byte, List.find?_append, this]

theorem Memory.byte_append_left (m n : Memory) (b : Nat) (h : ∀ c ∈ n, c.1 ≠ b) :
    Memory.byte (m ++ n) b = Memory.byte m b := by
  have : n.find? (fun c => c.1 == b) = none := List.find?_eq_none.2 fun c hc => by simpa using h c hc
  simp only [Memory.byte, List.find?_append, this]
  cases List.find? (fun c => c.1 == b) m <;> rfl

theorem Memory.byte_cells (bs : List Byte) (a i : Nat) (h : i < bs.length) :
    Memory.byte (Memory.cells a bs) (a + i) = bs.getD i 0 := by
  induction bs generalizing a i with
  | nil => simp at h
  | cons b t ih =>
    simp only [Memory.cells]
    cases i with
    | zero =>
      split
      · next hb =>
        rw [Memory.byte_none]
        · simp [hb]
        · intro c hc
          have := Memory.mem_cells hc
          omega
      · simp [Memory.byte_cons]
    | succ i =>
      have hi : i < t.length := by simpa using h
      have e : a + (i + 1) = a + 1 + i := by omega
      rw [e]
      split
      · simpa using ih (a + 1) i hi
      · rw [Memory.byte_cons, if_neg (by show ¬ a = a + 1 + i; omega)]
        simpa using ih (a + 1) i hi

/-- A read after a store to the same byte gives the byte stored. -/
theorem Memory.byte_write_in (m : Memory) (a i : Nat) (bs : List Byte) (h : i < bs.length) :
    Memory.byte (m.write a bs) (a + i) = bs.getD i 0 := by
  rw [Memory.write, Memory.byte_append_left, Memory.byte_append]
  · exact Memory.byte_cells bs a i h
  · intro c hc
    have := (List.mem_filter.1 hc).2
    simp at this; omega
  · intro c hc
    have := (List.mem_filter.1 hc).2
    simp at this; omega

/-- A store leaves every byte outside it alone. -/
theorem Memory.byte_write_out (m : Memory) (a b : Nat) (bs : List Byte) (h : b < a ∨ a + bs.length ≤ b) :
    Memory.byte (m.write a bs) b = Memory.byte m b := by
  rw [Memory.write]
  rcases h with h | h
  · rw [List.append_assoc, Memory.byte_append_left, Memory.byte_filter]
    · intro c hc; simpa [hc] using h
    · intro c hc
      rcases List.mem_append.1 hc with hc | hc
      · have := Memory.mem_cells hc; omega
      · have := (List.mem_filter.1 hc).2
        simp at this; omega
  · rw [Memory.byte_append, Memory.byte_filter]
    · intro c hc; simpa [hc] using h
    · intro c hc
      rcases List.mem_append.1 hc with hc | hc
      · have := (List.mem_filter.1 hc).2
        simp at this; omega
      · have := Memory.mem_cells hc; omega

theorem Memory.byte_clear_out (m : Memory) (a n b : Nat) (h : b < a ∨ a + n ≤ b) :
    Memory.byte (m.clear a n) b = Memory.byte m b :=
  Memory.byte_filter m _ b fun c hc => by simpa [hc] using h

theorem Memory.byte_clear_in (m : Memory) (a n b : Nat) (h : a ≤ b ∧ b < a + n) : Memory.byte (m.clear a n) b = 0 :=
  Memory.byte_filter_out m _ b fun c hc => by simp [hc]; omega

theorem Memory.byte_clearIf (m : Memory) (p : Nat → Bool) (b : Nat) :
    Memory.byte (m.clearIf p) b = if p b then 0 else Memory.byte m b := by
  split
  · next h => exact Memory.byte_filter_out m _ b fun c hc => by simp [hc, h]
  · next h => exact Memory.byte_filter m _ b fun c hc => by simp [hc, h]

end Sys2Proof.Machine
end

