-- ==== Sys2Proof/Laws/Keep.lean ====
section
/-! SUPPORT. `Keep`: what every operation and every command but the resets leaves. It is proved of an operation once
(Laws/Operations.lean) and of a command from its operations (Laws/Commands.lean); a proof cites `<name>_keep` and
unfolds nothing. Stated from an older state `r`, so that the lemmas chain by `apply`. -/

namespace Sys2Proof.Machine

/-- What every command but the resets leaves: the queue, the part but for a ROLLBACK that grows, the counter; a canonical
memory stays canonical, a stop and a lock stay, and a silent log stays as it is. -/
structure Keep (s t : State) : Prop where
  pending : t.pending = s.pending
  part : ∃ n, s.part.rollback ≤ n ∧ t.part = { s.part with rollback := n }
  count : t.time.count = s.time.count
  wf : s.memWf = true → t.memWf = true
  fatal : s.err.fatal = true → t.err.fatal = true
  locked : s.sec.locked = true → t.sec.locked = true
  silent : s.err.silent = true → t.err.silent = true ∧ t.err.log = s.err.log ∧ t.err.total = s.err.total

theorem Keep.refl (s : State) : Keep s s :=
  ⟨rfl, ⟨_, Nat.le_refl _, rfl⟩, rfl, id, id, id, fun h => ⟨h, rfl, rfl⟩⟩

theorem Keep.trans {r s t : State} (h : Keep r s) (k : Keep s t) : Keep r t where
  pending := k.pending.trans h.pending
  part := by
    obtain ⟨n, hn, e⟩ := h.part
    obtain ⟨m, hm, f⟩ := k.part
    refine ⟨m, ?_, ?_⟩
    · rw [e] at hm; exact Nat.le_trans hn hm
    · rw [f, e]
  count := k.count.trans h.count
  wf := k.wf ∘ h.wf
  fatal := k.fatal ∘ h.fatal
  locked := k.locked ∘ h.locked
  silent := fun hs => by
    obtain ⟨a, b, c⟩ := h.silent hs
    obtain ⟨a', b', c'⟩ := k.silent a
    exact ⟨a', b'.trans b, c'.trans c⟩

/-- An update of fields that none of these look at. -/
theorem Keep.upd {r s t : State} (h : Keep r s) (h1 : t.pending = s.pending) (h2 : t.part = s.part)
    (h3 : t.time.count = s.time.count) (h4 : t.mem.hbm = s.mem.hbm) (h5 : t.hif.bootWin = s.hif.bootWin)
    (h6 : t.caddy.bankA.data = s.caddy.bankA.data) (h7 : t.caddy.bankB.data = s.caddy.bankB.data)
    (h8 : t.err.fatal = s.err.fatal) (h9 : t.sec.locked = s.sec.locked) (h10 : t.err.silent = s.err.silent)
    (h11 : t.err.log = s.err.log) (h12 : t.err.total = s.err.total) : Keep r t :=
  h.trans ⟨h1, ⟨_, Nat.le_refl _, h2⟩, h3, fun e => by simpa [State.memWf, h4, h5, h6, h7] using e, fun e => h8.trans e, fun e => h9.trans e,
    fun e => ⟨h10.trans e, h11, h12⟩⟩

theorem Keep.foldl {α : Type} {r s : State} (h : Keep r s) (f : State → α → State) (hf : ∀ t a, Keep r t → Keep r (f t a))
    (l : List α) : Keep r (l.foldl f s) := by
  induction l generalizing s with
  | nil => exact h
  | cons a t ih => exact ih (hf s a h)

theorem Keep.ite {r s t : State} (c : Prop) [Decidable c] (h : Keep r s) (k : Keep r t) : Keep r (if c then s else t) := by
  split <;> assumption

theorem Keep.pair {α : Type} {r : State} {p : α × State} {a : α} {t : State} (h : Keep r p.2) (e : p = (a, t)) : Keep r t := by
  subst e; exact h
theorem Keep.pair' {α : Type} {r : State} {p : State × α} {a : α} {t : State} (h : Keep r p.1) (e : p = (t, a)) : Keep r t := by
  subst e; exact h
theorem Keep.getD {r s : State} {o : Option State} (h : Keep r s) (ho : ∀ t, o = some t → Keep r t) : Keep r (o.getD s) := by
  cases o with
  | none => exact h
  | some t => exact ho t rfl

theorem Keep.cut {r s t : State} (h : Keep r s) (k : Keep r s → Keep r t) : Keep r t := k h

theorem State.setErr_upd {r s : State} (h : Keep r s) {e : Err} (h1 : e.fatal = s.err.fatal) (h2 : e.silent = s.err.silent)
    (h3 : e.log = s.err.log) (h4 : e.total = s.err.total) : Keep r (s.setErr e) :=
  Keep.upd h rfl rfl rfl rfl rfl rfl rfl h1 rfl h2 h3 h4
theorem State.setSec_upd {r s : State} (h : Keep r s) {k : Security} (h1 : k.locked = s.sec.locked) : Keep r (s.setSec k) :=
  Keep.upd h rfl rfl rfl rfl rfl rfl rfl rfl h1 rfl rfl rfl
theorem State.setCaddy_upd {r s : State} (h : Keep r s) {c : Caddy} (h1 : c.bankA.data = s.caddy.bankA.data)
    (h2 : c.bankB.data = s.caddy.bankB.data) : Keep r (s.setCaddy c) :=
  Keep.upd h rfl rfl rfl rfl rfl h1 h2 rfl rfl rfl rfl rfl

theorem Keep.foldlFst {α β : Type} {r : State} {p : State × β} (h : Keep r p.1) (f : State × β → α → State × β)
    (hf : ∀ p a, Keep r p.1 → Keep r (f p a).1) (l : List α) : Keep r (l.foldl f p).1 := by
  induction l generalizing p with
  | nil => exact h
  | cons a t ih => exact ih (hf p a h)
theorem Keep.foldlSnd {α β : Type} {r : State} {p : β × State} (h : Keep r p.2) (f : β × State → α → β × State)
    (hf : ∀ p a, Keep r p.2 → Keep r (f p a).2) (l : List α) : Keep r (l.foldl f p).2 := by
  induction l generalizing p with
  | nil => exact h
  | cons a t ih => exact ih (hf p a h)
theorem Keep.foldlThd {α β γ : Type} {r : State} {p : β × γ × State} (h : Keep r p.2.2) (f : β × γ × State → α → β × γ × State)
    (hf : ∀ p a, Keep r p.2.2 → Keep r (f p a).2.2) (l : List α) : Keep r (l.foldl f p).2.2 := by
  induction l generalizing p with
  | nil => exact h
  | cons a t ih => exact ih (hf p a h)
theorem Keep.cond {r s t : State} (c : Bool) (h : Keep r s) (k : Keep r t) : Keep r (bif c then s else t) := by
  cases c <;> assumption

/-- Nothing where there is no state, else what `Keep` says. -/
structure KeepO (r : State) (o : Option State) : Prop where
  get : ∀ t, o = some t → Keep r t
theorem KeepO.none {r : State} : KeepO r none := ⟨fun _ h => by cases h⟩
theorem KeepO.some {r s : State} (h : Keep r s) : KeepO r (some s) := ⟨fun _ e => by cases e; exact h⟩
theorem KeepO.ite {r : State} {s t : Option State} (c : Prop) [Decidable c] (h : KeepO r s) (k : KeepO r t) : KeepO r (if c then s else t) := by
  split <;> assumption
theorem KeepO.bind {r : State} {o : Option State} (h : KeepO r o) (f : State → Option State) (hf : ∀ s, Keep r s → KeepO r (f s)) :
    KeepO r (o.bind f) := by
  cases o with
  | none => exact .none
  | some s => exact hf s (h.get s rfl)
theorem KeepO.foldl {α : Type} {r : State} {o : Option State} (h : KeepO r o) (f : Option State → α → Option State)
    (hf : ∀ t a, KeepO r t → KeepO r (f t a)) (l : List α) : KeepO r (l.foldl f o) := by
  induction l generalizing o with
  | nil => exact h
  | cons a t ih => exact ih (hf o a h)
theorem Keep.getDO {r s : State} {o : Option State} (h : Keep r s) (k : KeepO r o) : Keep r (o.getD s) := Keep.getD h k.get

/-- An outcome that is a next state, with what `Keep` says of it. -/
structure KeepE (r : State) (o : Host.Outcome State Fault Refusal) : Prop where
  get : ∃ t, o = .next t ∧ Keep r t
theorem KeepE.next {r s : State} (h : Keep r s) : KeepE r (.next s) := ⟨s, rfl, h⟩
theorem KeepE.ite {r : State} {s t : Host.Outcome State Fault Refusal} (c : Prop) [Decidable c] (h : KeepE r s) (k : KeepE r t) : KeepE r (if c then s else t) := by
  split <;> assumption

/-- An update that replaces a byte store by a canonical one. -/
theorem Keep.updWf {r s t : State} (h : Keep r s) (h1 : t.pending = s.pending) (h2 : t.part = s.part)
    (h3 : t.time.count = s.time.count) (h4 : Memory.wf s.mem.hbm = true → Memory.wf t.mem.hbm = true)
    (h5 : Memory.wf s.hif.bootWin = true → Memory.wf t.hif.bootWin = true)
    (h6 : t.caddy.bankA.data = s.caddy.bankA.data) (h7 : t.caddy.bankB.data = s.caddy.bankB.data)
    (h8 : t.err.fatal = s.err.fatal) (h9 : t.sec.locked = s.sec.locked) (h10 : t.err.silent = s.err.silent)
    (h11 : t.err.log = s.err.log) (h12 : t.err.total = s.err.total) : Keep r t :=
  h.trans ⟨h1, ⟨_, Nat.le_refl _, h2⟩, h3, fun e => by
      simp only [State.memWf, Bool.and_eq_true, h6, h7] at e ⊢
      exact ⟨⟨⟨h4 e.1.1.1, h5 e.1.1.2⟩, e.1.2⟩, e.2⟩, fun e => h8.trans e, fun e => h9.trans e,
    fun e => ⟨h10.trans e, h11, h12⟩⟩

theorem State.setHbm_keep {r s : State} (h : Keep r s) {m : Memory} (hm : Memory.wf s.mem.hbm = true → Memory.wf m = true) :
    Keep r (s.setHbm m) := Keep.updWf h rfl rfl rfl hm id rfl rfl rfl rfl rfl rfl rfl

theorem State.setBank_keep {r s : State} (h : Keep r s) (b : Nat) {k : Bank}
    (hk : Memory.wf (s.caddy.bank b).data = true → Memory.wf k.data = true) : Keep r (s.setCaddy (s.caddy.setBank b k)) := by
  refine h.trans ⟨rfl, ⟨_, Nat.le_refl _, rfl⟩, rfl, fun e => ?_, id, id, fun h => ⟨h, rfl, rfl⟩⟩
  simp only [State.memWf, Bool.and_eq_true, State.setCaddy, Caddy.setBank] at e ⊢
  unfold Caddy.bank at hk
  split
  · next hb => simp only [hb, if_true] at hk; exact ⟨⟨e.1.1, hk e.1.2⟩, e.2⟩
  · next hb => simp only [hb, if_false] at hk; exact ⟨⟨e.1.1, e.1.2⟩, hk e.2⟩

/-- An update written out: what the untouched fields come from. -/
theorem Keep.mk' {r s : State} (h : Keep r s) {tm : Time} {hif : Hif} {caddy : Caddy} {err : Err} {sec : Security} {mem : Mem} {rings accepted waiting longOps nextHandle model eng serve steep rte links disc dom fab comp pwr start out free}
    (h3 : tm.count = s.time.count) (h4 : mem.hbm = s.mem.hbm) (h5 : hif.bootWin = s.hif.bootWin)
    (h6 : caddy.bankA.data = s.caddy.bankA.data) (h7 : caddy.bankB.data = s.caddy.bankB.data)
    (h8 : err.fatal = s.err.fatal) (h9 : sec.locked = s.sec.locked) (h10 : err.silent = s.err.silent)
    (h11 : err.log = s.err.log) (h12 : err.total = s.err.total) :
    Keep r ⟨s.pending, s.part, tm, hif, rings, accepted, waiting, longOps, nextHandle, model, eng, serve, steep, rte, mem, caddy, links, disc, dom, fab, err, comp, pwr, sec, start, out, free⟩ :=
  Keep.upd h rfl rfl h3 h4 h5 h6 h7 h8 h9 h10 h11 h12

theorem Keep.iteSnd {α : Type} {r : State} {p q : α × State} (c : Prop) [Decidable c] (h : Keep r p.2) (k : Keep r q.2) :
    Keep r (if c then p else q).2 := by
  split <;> assumption

theorem State.setErr_loud {r s : State} (h : Keep r s) (hs : s.err.silent = false) {e : Err} (hf : s.err.fatal = true → e.fatal = true) :
    Keep r (s.setErr e) where
  pending := h.pending
  part := h.part
  count := h.count
  wf := h.wf
  fatal := hf ∘ h.fatal
  locked := h.locked
  silent := fun x => absurd (h.silent x).1 (by simp [hs])

theorem State.setErr_stop {r s : State} (h : Keep r s) {e : Err} (h1 : s.err.fatal = true → e.fatal = true)
    (h2 : s.err.silent = true → e.silent = true) (h3 : e.log = s.err.log) (h4 : e.total = s.err.total) : Keep r (s.setErr e) :=
  h.trans ⟨rfl, ⟨_, Nat.le_refl _, rfl⟩, rfl, id, h1, id, fun x => ⟨h2 x, h3, h4⟩⟩

theorem State.setSec_lock {r s : State} (h : Keep r s) {k : Security} (hk : s.sec.locked = true → k.locked = true) : Keep r (s.setSec k) :=
  h.trans ⟨rfl, ⟨_, Nat.le_refl _, rfl⟩, rfl, id, id, hk, fun x => ⟨x, rfl, rfl⟩⟩

theorem State.setBanks_keep {r s : State} (h : Keep r s) {c : Caddy} (b : Nat) {k : Bank} (hA : c.bankA.data = s.caddy.bankA.data)
    (hB : c.bankB.data = s.caddy.bankB.data) (hk : Memory.wf (s.caddy.bank b).data = true → Memory.wf k.data = true) :
    Keep r (s.setCaddy (c.setBank b k)) := by
  refine h.trans ⟨rfl, ⟨_, Nat.le_refl _, rfl⟩, rfl, fun e => ?_, id, id, fun h => ⟨h, rfl, rfl⟩⟩
  simp only [State.memWf, Bool.and_eq_true, State.setCaddy, Caddy.setBank] at e ⊢
  unfold Caddy.bank at hk
  split
  · next hb => simp only [hb, if_true] at hk; exact ⟨⟨e.1.1, hk e.1.2⟩, hB ▸ e.2⟩
  · next hb => simp only [hb, if_false] at hk; exact ⟨⟨e.1.1, hA ▸ e.1.2⟩, hk e.2⟩

theorem Bank.opened_data (k : Bank) (l : List JRec) (b : Nat) : (k.opened l b).data = k.data := by
  unfold Bank.opened; split <;> rfl
theorem Bank.setMap_data (k : Bank) (d : Nat) (m : SegMap) : (k.setMap d m).data = k.data := by
  unfold Bank.setMap; split <;> rfl
theorem Err.consume_keep (e : Err) (n : Nat) : (e.consume n).fatal = e.fatal ∧ (e.consume n).silent = e.silent ∧
    (e.consume n).log = e.log ∧ (e.consume n).total = e.total := by
  unfold Err.consume; dsimp only; split <;> exact ⟨rfl, rfl, rfl, rfl⟩

theorem Keep.id_ {r s : State} (h : Keep r s) : Keep r (id s) := h

theorem Keep.iteH {r s t : State} (c : Prop) [Decidable c] (h : c → Keep r s) (k : Keep r t) : Keep r (if c then s else t) := by
  split
  · next e => exact h e
  · exact k

end Sys2Proof.Machine
end

