-- ==== Sys2Proof/Laws/Operations.lean ====
section
/-! SUPPORT. Every shared operation, in the order of calls: a step of it leaves what `Keep` names. -/

namespace Sys2Proof.Machine

set_option Elab.async false
set_option linter.all false

theorem State.endHandling_keep {r s : State} (h : Keep r s) (items : Bool) : Keep r (State.endHandling s items) := by
  unfold State.endHandling
  repeat' first
    | with_reducible assumption
    | (extract_lets +onlyGivenNames x; try (refine Keep.cut (s := x) ?_ ?_; (on_goal 1 => subst x); (on_goal 2 => intro hx; clear_value x)))
    | with_reducible refine State.setErr_upd ?_ rfl rfl rfl rfl

theorem State.abandon_keep {r s : State} (h : Keep r s) : Keep r (State.abandon s) := by
  unfold State.abandon
  repeat' first
    | with_reducible assumption
    | (extract_lets +onlyGivenNames x; try (refine Keep.cut (s := x) ?_ ?_; (on_goal 1 => subst x); (on_goal 2 => intro hx; clear_value x)))
    | with_reducible apply State.endHandling_keep
    | (fail_if_no_progress with_reducible refine Keep.mk' ?_ rfl rfl rfl rfl rfl rfl rfl rfl rfl rfl)

theorem State.setRing_keep {r s : State} (h : Keep r s) (n : Nat) (r_0 : RingPair) : Keep r (State.setRing s n r_0) := by
  unfold State.setRing
  repeat' first
    | with_reducible assumption
    | (fail_if_no_progress with_reducible refine Keep.mk' ?_ rfl rfl rfl rfl rfl rfl rfl rfl rfl rfl)

theorem State.onRing_keep {r s : State} (h : Keep r s) (n : Nat) (f : RingPair → RingPair) :
    Keep r (State.onRing s n f) := by
  unfold State.onRing
  repeat' first
    | with_reducible assumption
    | with_reducible apply State.setRing_keep

theorem State.emit_keep {r s : State} (h : Keep r s) (o : Out) : Keep r (State.emit s o) := by
  unfold State.emit
  repeat' first
    | with_reducible assumption
    | (fail_if_no_progress with_reducible refine Keep.mk' ?_ rfl rfl rfl rfl rfl rfl rfl rfl rfl rfl)

theorem State.interrupt_keep {r s : State} (h : Keep r s) (n : Nat) : Keep r (State.interrupt s n) := by
  unfold State.interrupt
  repeat' first
    | with_reducible assumption
    | (extract_lets +onlyGivenNames x; try (refine Keep.cut (s := x) ?_ ?_; (on_goal 1 => subst x); (on_goal 2 => intro hx; clear_value x)))
    | with_reducible apply State.emit_keep
    | with_reducible apply State.setRing_keep
    | with_reducible apply Keep.ite

theorem State.putCompletion_keep {r s : State} (h : Keep r s) (n : Nat) (rec : W256) :
    Keep r (State.putCompletion s n rec) := by
  unfold State.putCompletion
  repeat' first
    | with_reducible assumption
    | (extract_lets +onlyGivenNames x; try (refine Keep.cut (s := x) ?_ ?_; (on_goal 1 => subst x); (on_goal 2 => intro hx; clear_value x)))
    | with_reducible apply State.interrupt_keep
    | with_reducible apply State.emit_keep
    | with_reducible apply State.setRing_keep

theorem State.drainBacklog_keep {r s : State} (h : Keep r s) (k n : Nat) : Keep r (State.drainBacklog k s n) := by
  induction k generalizing s with
  | zero => exact h
  | succ k ih =>
    unfold State.drainBacklog
    extract_lets x
    split
    · exact h
    · split
      · exact ih (State.putCompletion_keep (State.setRing_keep h _ _) ..)
      · exact h

theorem State.drain_keep {r s : State} (h : Keep r s) (n : Nat) : Keep r (State.drain s n) := by
  unfold State.drain
  repeat' first
    | with_reducible assumption
    | with_reducible apply State.drainBacklog_keep

theorem State.release_keep {r s : State} (h : Keep r s) (n k : Nat) : Keep r (State.release s n k) := by
  unfold State.release
  repeat' first
    | with_reducible assumption
    | with_reducible apply State.onRing_keep

theorem State.reservedRecord_keep {r s : State} (h : Keep r s) (n k : Nat) (rec : W256) :
    Keep r (State.reservedRecord s n k rec) := by
  unfold State.reservedRecord
  repeat' first
    | with_reducible assumption
    | (extract_lets +onlyGivenNames x; try (refine Keep.cut (s := x) ?_ ?_; (on_goal 1 => subst x); (on_goal 2 => intro hx; clear_value x)))
    | with_reducible apply State.release_keep
    | with_reducible apply State.putCompletion_keep
    | with_reducible apply Keep.ite

theorem State.finish_keep {r s : State} (h : Keep r s) (n : Nat) (d : W512) (status : Nat) (res : List (Nat × Nat × Nat)) :
    Keep r (State.finish s n d status res) := by
  unfold State.finish
  repeat' first
    | with_reducible assumption
    | (extract_lets +onlyGivenNames x; try (refine Keep.cut (s := x) ?_ ?_; (on_goal 1 => subst x); (on_goal 2 => intro hx; clear_value x)))
    | with_reducible apply State.onRing_keep
    | with_reducible apply State.drain_keep
    | with_reducible apply State.release_keep
    | with_reducible apply State.reservedRecord_keep
    | with_reducible apply Keep.ite

theorem State.unwait_keep {r s : State} (h : Keep r s) (w : Waiting) : Keep r (State.unwait s w) := by
  unfold State.unwait
  repeat' first
    | with_reducible assumption
    | (fail_if_no_progress with_reducible refine Keep.mk' ?_ rfl rfl rfl rfl rfl rfl rfl rfl rfl rfl)

theorem State.endArm_keep {r s : State} (h : Keep r s) (status : Nat) (res : List (Nat × Nat × Nat)) :
    Keep r (State.endArm s status res) := by
  unfold State.endArm
  repeat' first
    | with_reducible assumption
    | (extract_lets +onlyGivenNames x; try (refine Keep.cut (s := x) ?_ ?_; (on_goal 1 => subst x); (on_goal 2 => intro hx; clear_value x)))
    | with_reducible apply State.finish_keep
    | with_reducible apply State.unwait_keep
    | (fail_if_no_progress with_reducible refine Keep.mk' ?_ rfl rfl rfl rfl rfl rfl rfl rfl rfl rfl)
    | with_reducible apply Keep.foldl
    | (intro x a hx; beta_reduce)

theorem State.abortSwap_keep {r s : State} (h : Keep r s) : Keep r (State.abortSwap s) := by
  unfold State.abortSwap
  repeat' first
    | with_reducible assumption
    | with_reducible apply State.endArm_keep

theorem State.accept_keep {r s : State} (h : Keep r s) (n : Nat) (d : W512) : Keep r (State.accept s n d) := by
  unfold State.accept
  repeat' first
    | with_reducible assumption
    | (extract_lets +onlyGivenNames x; try (refine Keep.cut (s := x) ?_ ?_; (on_goal 1 => subst x); (on_goal 2 => intro hx; clear_value x)))
    | with_reducible apply State.emit_keep
    | with_reducible apply State.setRing_keep

theorem State.setLink_keep {r s : State} (h : Keep r s) (l : Nat) (k : Link) : Keep r (State.setLink s l k) := by
  unfold State.setLink
  repeat' first
    | with_reducible assumption
    | (fail_if_no_progress with_reducible refine Keep.mk' ?_ rfl rfl rfl rfl rfl rfl rfl rfl rfl rfl)

theorem State.onLink_keep {r s : State} (h : Keep r s) (l : Nat) (f : Link → Link) : Keep r (State.onLink s l f) := by
  unfold State.onLink
  repeat' first
    | with_reducible assumption
    | with_reducible apply State.setLink_keep

theorem State.pump_keep {r s : State} (h : Keep r s) (k l : Nat) : Keep r (State.pump k s l) := by
  induction k generalizing s with
  | zero => exact h
  | succ k ih =>
    unfold State.pump
    repeat' first
      | with_reducible assumption
      | (extract_lets +onlyGivenNames x; try (refine Keep.cut (s := x) ?_ ?_; (on_goal 1 => subst x); (on_goal 2 => intro hx; clear_value x)))
      | with_reducible apply State.emit_keep
      | with_reducible apply State.setLink_keep
      | apply ih
      | with_reducible apply Keep.ite
      | split

theorem State.linkSend_keep {r s : State} (h : Keep r s) (l vc : Nat) (bs : List Byte) (p : Option SentPkt) :
    Keep r (State.linkSend s l vc bs p) := by
  unfold State.linkSend
  repeat' first
    | with_reducible assumption
    | (extract_lets +onlyGivenNames x; try (refine Keep.cut (s := x) ?_ ?_; (on_goal 1 => subst x); (on_goal 2 => intro hx; clear_value x)))
    | with_reducible apply State.onLink_keep
    | with_reducible apply State.pump_keep

theorem State.fabOn_keep {r s : State} (h : Keep r s) (l : Nat) (p : FabPkt) : Keep r (State.fabOn s l p) := by
  unfold State.fabOn
  repeat' first
    | with_reducible assumption
    | (extract_lets +onlyGivenNames x; try (refine Keep.cut (s := x) ?_ ?_; (on_goal 1 => subst x); (on_goal 2 => intro hx; clear_value x)))
    | with_reducible apply State.linkSend_keep
    | with_reducible apply State.emit_keep

theorem State.ackSend_keep {r s : State} (h : Keep r s) (p : FabPkt) (outer : Bool) : Keep r (State.ackSend s p outer) := by
  unfold State.ackSend
  repeat' first
    | with_reducible assumption
    | (extract_lets +onlyGivenNames x; try (refine Keep.cut (s := x) ?_ ?_; (on_goal 1 => subst x); (on_goal 2 => intro hx; clear_value x)))
    | with_reducible apply State.emit_keep
    | with_reducible apply State.fabOn_keep
    | with_reducible apply Keep.ite
    | split

theorem State.pickFree_keep {r s : State} (h : Keep r s) (used : List Nat) (n : Nat) :
    Keep r (State.pickFree s used n).2 := by
  unfold State.pickFree
  repeat' first
    | with_reducible assumption
    | (extract_lets +onlyGivenNames x; try (refine Keep.cut (s := x) ?_ ?_; (on_goal 1 => subst x); (on_goal 2 => intro hx; clear_value x)))
    | (fail_if_no_progress with_reducible refine Keep.mk' ?_ rfl rfl rfl rfl rfl rfl rfl rfl rfl rfl)

theorem State.devWrite_keep {r s : State} (h : Keep r s) (a : Nat) (bs : List Byte) : Keep r (State.devWrite s a bs) := by
  unfold State.devWrite
  extract_lets
  exact Keep.updWf h rfl rfl rfl (Memory.wf_write _ _) id rfl rfl rfl rfl rfl rfl rfl

theorem State.endWait_keep {r s : State} (h : Keep r s) (w : Waiting) (status : Nat) :
    Keep r (State.endWait s w status) := by
  unfold State.endWait
  repeat' first
    | with_reducible assumption
    | (extract_lets +onlyGivenNames x; try (refine Keep.cut (s := x) ?_ ?_; (on_goal 1 => subst x); (on_goal 2 => intro hx; clear_value x)))
    | with_reducible apply State.finish_keep
    | (fail_if_no_progress with_reducible refine Keep.mk' ?_ rfl rfl rfl rfl rfl rfl rfl rfl rfl rfl)

theorem State.wake_keep {r s : State} (h : Keep r s) : Keep r (State.wake s) := by
  unfold State.wake
  repeat' first
    | with_reducible assumption
    | (extract_lets +onlyGivenNames x; try (refine Keep.cut (s := x) ?_ ?_; (on_goal 1 => subst x); (on_goal 2 => intro hx; clear_value x)))
    | with_reducible apply State.endWait_keep
    | with_reducible apply Keep.foldl
    | (intro x a hx; beta_reduce)

theorem State.store_keep {r s : State} (h : Keep r s) (a : Nat) (bs : List Byte) : Keep r (State.store s a bs) := by
  unfold State.store
  repeat' first
    | with_reducible assumption
    | (extract_lets +onlyGivenNames x; try (refine Keep.cut (s := x) ?_ ?_; (on_goal 1 => subst x); (on_goal 2 => intro hx; clear_value x)))
    | with_reducible apply State.devWrite_keep
    | with_reducible apply State.wake_keep
    | with_reducible apply Keep.ite

theorem State.setSeq_keep {r s : State} (h : Keep r s) (q : Nat) (r_0 : SeqRec) : Keep r (State.setSeq s q r_0) := by
  unfold State.setSeq
  repeat' first
    | with_reducible assumption
    | (extract_lets +onlyGivenNames x; try (refine Keep.cut (s := x) ?_ ?_; (on_goal 1 => subst x); (on_goal 2 => intro hx; clear_value x)))
    | (fail_if_no_progress with_reducible refine Keep.mk' ?_ rfl rfl rfl rfl rfl rfl rfl rfl rfl rfl)

theorem State.addBlock_keep {r s : State} (h : Keep r s) (q : Nat) : Keep r (State.addBlock s q) := by
  unfold State.addBlock
  repeat' first
    | with_reducible assumption
    | (extract_lets +onlyGivenNames x; try (refine Keep.cut (s := x) ?_ ?_; (on_goal 1 => subst x); (on_goal 2 => intro hx; clear_value x)))
    | with_reducible apply State.pickFree_keep
    | with_reducible apply State.store_keep
    | with_reducible apply State.setSeq_keep
    | split
    | refine Keep.pair ?_ (by with_reducible assumption)

theorem State.addFrame_keep {r s : State} (h : Keep r s) (q : Nat) : Keep r (State.addFrame s q) := by
  unfold State.addFrame
  repeat' first
    | with_reducible assumption
    | (extract_lets +onlyGivenNames x; try (refine Keep.cut (s := x) ?_ ?_; (on_goal 1 => subst x); (on_goal 2 => intro hx; clear_value x)))
    | with_reducible apply State.pickFree_keep
    | with_reducible apply State.store_keep
    | with_reducible apply State.setSeq_keep

theorem State.setSteep_keep {r s : State} (h : Keep r s) (t_0 : Steep) : Keep r (State.setSteep s t_0) := by
  unfold State.setSteep
  repeat' first
    | with_reducible assumption
    | (fail_if_no_progress with_reducible refine Keep.mk' ?_ rfl rfl rfl rfl rfl rfl rfl rfl rfl rfl)

theorem State.onRoute_keep {r s : State} (h : Keep r s) (layer : Nat) (f : RouteAcc → RouteAcc) :
    Keep r (State.onRoute s layer f) := by
  unfold State.onRoute
  repeat' first
    | with_reducible assumption
    | (extract_lets +onlyGivenNames x; try (refine Keep.cut (s := x) ?_ ?_; (on_goal 1 => subst x); (on_goal 2 => intro hx; clear_value x)))
    | with_reducible apply State.setSteep_keep

theorem State.setRte_keep {r s : State} (h : Keep r s) (r_0 : Route) : Keep r (State.setRte s r_0) := by
  unfold State.setRte
  repeat' first
    | with_reducible assumption
    | (fail_if_no_progress with_reducible refine Keep.mk' ?_ rfl rfl rfl rfl rfl rfl rfl rfl rfl rfl)

theorem State.routeSend_keep {r s : State} (h : Keep r s) (node : Nat) (p : RoutePkt) :
    Keep r (State.routeSend s node p) := by
  unfold State.routeSend
  repeat' first
    | with_reducible assumption
    | (extract_lets +onlyGivenNames x; try (refine Keep.cut (s := x) ?_ ?_; (on_goal 1 => subst x); (on_goal 2 => intro hx; clear_value x)))
    | with_reducible apply State.emit_keep
    | with_reducible apply State.linkSend_keep
    | with_reducible apply Keep.ite
    | split

theorem State.sendDispatch_keep {r s : State} (h : Keep r s) (layer : Nat) (input : List Word) (c : Choice) :
    Keep r (State.sendDispatch s layer input c) := by
  unfold State.sendDispatch
  repeat' first
    | with_reducible assumption
    | (extract_lets +onlyGivenNames x; try (refine Keep.cut (s := x) ?_ ?_; (on_goal 1 => subst x); (on_goal 2 => intro hx; clear_value x)))
    | with_reducible apply State.routeSend_keep

theorem State.sendDispEnds_keep {r s : State} (h : Keep r s) (layer : Nat) : Keep r (State.sendDispEnds s layer) := by
  unfold State.sendDispEnds
  repeat' first
    | with_reducible assumption
    | (extract_lets +onlyGivenNames x; try (refine Keep.cut (s := x) ?_ ?_; (on_goal 1 => subst x); (on_goal 2 => intro hx; clear_value x)))
    | with_reducible apply State.routeSend_keep
    | with_reducible apply State.setRte_keep
    | with_reducible apply Keep.ite
    | with_reducible apply Keep.foldl
    | (intro x a hx; beta_reduce)

theorem State.admitLayer_keep {r s : State} (h : Keep r s) (m : Model) (layer : Nat) (r_0 : List Byte) (bias : List Word) (rows : List RouteRow) :
    Keep r (State.admitLayer s m layer r_0 bias rows) := by
  unfold State.admitLayer
  repeat' first
    | with_reducible assumption
    | (extract_lets +onlyGivenNames x; try (refine Keep.cut (s := x) ?_ ?_; (on_goal 1 => subst x); (on_goal 2 => intro hx; clear_value x)))
    | with_reducible apply State.onRoute_keep
    | with_reducible apply State.setRte_keep
    | with_reducible apply State.sendDispatch_keep
    | with_reducible apply State.sendDispEnds_keep
    | with_reducible apply Keep.foldl
    | (intro x a hx; beta_reduce)
    | split

theorem State.setDom_keep {r s : State} (h : Keep r s) (d : Domain) : Keep r (State.setDom s d) := by
  unfold State.setDom
  repeat' first
    | with_reducible assumption
    | (fail_if_no_progress with_reducible refine Keep.mk' ?_ rfl rfl rfl rfl rfl rfl rfl rfl rfl rfl)

theorem State.setDisc_keep {r s : State} (h : Keep r s) (d : Disc) : Keep r (State.setDisc s d) := by
  unfold State.setDisc
  repeat' first
    | with_reducible assumption
    | (fail_if_no_progress with_reducible refine Keep.mk' ?_ rfl rfl rfl rfl rfl rfl rfl rfl rfl rfl)

theorem State.nameStandby_keep {r s : State} (h : Keep r s) : Keep r (State.nameStandby s) := by
  unfold State.nameStandby
  repeat' first
    | with_reducible assumption
    | (extract_lets +onlyGivenNames x; try (refine Keep.cut (s := x) ?_ ?_; (on_goal 1 => subst x); (on_goal 2 => intro hx; clear_value x)))
    | with_reducible apply State.setDisc_keep

theorem State.endClose_keep {r s : State} (h : Keep r s) (n : Nat) (d : W512) (q committed : Nat) :
    Keep r (State.endClose s n d q committed) := by
  unfold State.endClose
  repeat' first
    | with_reducible assumption
    | with_reducible apply State.finish_keep

theorem State.settleCloses_keep {r s : State} (h : Keep r s) : Keep r (State.settleCloses s) := by
  unfold State.settleCloses
  repeat' first
    | with_reducible assumption
    | (extract_lets +onlyGivenNames x; try (refine Keep.cut (s := x) ?_ ?_; (on_goal 1 => subst x); (on_goal 2 => intro hx; clear_value x)))
    | with_reducible apply State.endClose_keep
    | with_reducible apply Keep.ite
    | (fail_if_no_progress with_reducible refine Keep.mk' ?_ rfl rfl rfl rfl rfl rfl rfl rfl rfl rfl)
    | with_reducible apply Keep.foldl
    | (intro x a hx; beta_reduce)
    | split

theorem State.setTenant_keep {r s : State} (h : Keep r s) (t_0 : Nat) (e : Tenant) : Keep r (State.setTenant s t_0 e) := by
  unfold State.setTenant
  repeat' first
    | with_reducible assumption
    | (extract_lets +onlyGivenNames x; try (refine Keep.cut (s := x) ?_ ?_; (on_goal 1 => subst x); (on_goal 2 => intro hx; clear_value x)))
    | (fail_if_no_progress with_reducible refine Keep.mk' ?_ rfl rfl rfl rfl rfl rfl rfl rfl rfl rfl)

theorem State.effectTenantSet_keep {r s : State} (h : Keep r s) (w : Waiting) : Keep r (State.effectTenantSet s w) := by
  unfold State.effectTenantSet
  repeat' first
    | with_reducible assumption
    | (extract_lets +onlyGivenNames x; try (refine Keep.cut (s := x) ?_ ?_; (on_goal 1 => subst x); (on_goal 2 => intro hx; clear_value x)))
    | with_reducible apply State.finish_keep
    | with_reducible apply State.setTenant_keep
    | with_reducible apply Keep.ite

theorem State.effectTenantRemove_keep {r s : State} (h : Keep r s) (w : Waiting) :
    Keep r (State.effectTenantRemove s w) := by
  unfold State.effectTenantRemove
  repeat' first
    | with_reducible assumption
    | (extract_lets +onlyGivenNames x; try (refine Keep.cut (s := x) ?_ ?_; (on_goal 1 => subst x); (on_goal 2 => intro hx; clear_value x)))
    | with_reducible apply State.finish_keep
    | with_reducible apply Keep.ite
    | (fail_if_no_progress with_reducible refine Keep.mk' ?_ rfl rfl rfl rfl rfl rfl rfl rfl rfl rfl)

theorem State.effectSteerSet_keep {r s : State} (h : Keep r s) (w : Waiting) : Keep r (State.effectSteerSet s w) := by
  unfold State.effectSteerSet
  repeat' first
    | with_reducible assumption
    | (extract_lets +onlyGivenNames x; try (refine Keep.cut (s := x) ?_ ?_; (on_goal 1 => subst x); (on_goal 2 => intro hx; clear_value x)))
    | with_reducible apply State.finish_keep
    | with_reducible apply State.setTenant_keep
    | with_reducible apply Keep.ite

theorem State.effectSeqSet_keep {r s : State} (h : Keep r s) (w : Waiting) : Keep r (State.effectSeqSet s w) := by
  unfold State.effectSeqSet
  repeat' first
    | with_reducible assumption
    | (extract_lets +onlyGivenNames x; try (refine Keep.cut (s := x) ?_ ?_; (on_goal 1 => subst x); (on_goal 2 => intro hx; clear_value x)))
    | with_reducible apply State.finish_keep
    | with_reducible apply State.setSeq_keep
    | with_reducible apply Keep.ite

theorem State.effect_keep {r s : State} (h : Keep r s) (w : Waiting) : Keep r (State.effect s w) := by
  unfold State.effect
  repeat' first
    | with_reducible assumption
    | (extract_lets +onlyGivenNames x; try (refine Keep.cut (s := x) ?_ ?_; (on_goal 1 => subst x); (on_goal 2 => intro hx; clear_value x)))
    | with_reducible apply State.unwait_keep
    | with_reducible apply State.effectTenantSet_keep
    | with_reducible apply State.effectTenantRemove_keep
    | with_reducible apply State.effectSteerSet_keep
    | with_reducible apply State.effectSeqSet_keep
    | with_reducible apply State.finish_keep
    | split

theorem State.cut_keep {r s : State} (h : Keep r s) : Keep r (State.cut s) := by
  unfold State.cut
  repeat' first
    | with_reducible assumption
    | (extract_lets +onlyGivenNames x; try (refine Keep.cut (s := x) ?_ ?_; (on_goal 1 => subst x); (on_goal 2 => intro hx; clear_value x)))
    | with_reducible apply State.settleCloses_keep
    | with_reducible apply State.effect_keep
    | (fail_if_no_progress with_reducible refine Keep.mk' ?_ rfl rfl rfl rfl rfl rfl rfl rfl rfl rfl)
    | with_reducible apply Keep.foldl
    | (intro x a hx; beta_reduce)

theorem State.freeSeq_keep {r s : State} (h : Keep r s) (q : Nat) : Keep r (State.freeSeq s q) := by
  unfold State.freeSeq
  repeat' first
    | with_reducible assumption
    | (extract_lets +onlyGivenNames x; try (refine Keep.cut (s := x) ?_ ?_; (on_goal 1 => subst x); (on_goal 2 => intro hx; clear_value x)))
    | with_reducible apply State.setTenant_keep
    | with_reducible apply State.devWrite_keep
    | with_reducible apply Keep.ite
    | (fail_if_no_progress with_reducible refine Keep.mk' ?_ rfl rfl rfl rfl rfl rfl rfl rfl rfl rfl)

theorem State.freeClosed_keep {r s : State} (h : Keep r s) : Keep r (State.freeClosed s) := by
  unfold State.freeClosed
  repeat' first
    | with_reducible assumption
    | (extract_lets +onlyGivenNames x; try (refine Keep.cut (s := x) ?_ ?_; (on_goal 1 => subst x); (on_goal 2 => intro hx; clear_value x)))
    | with_reducible apply State.freeSeq_keep
    | (fail_if_no_progress with_reducible refine Keep.mk' ?_ rfl rfl rfl rfl rfl rfl rfl rfl rfl rfl)
    | with_reducible apply Keep.foldl
    | (intro x a hx; beta_reduce)

theorem State.withdrawFrames_keep {r s : State} (h : Keep r s) (c : Nat) : Keep r (State.withdrawFrames s c) := by
  unfold State.withdrawFrames
  repeat' first
    | with_reducible assumption
    | (extract_lets +onlyGivenNames x; try (refine Keep.cut (s := x) ?_ ?_; (on_goal 1 => subst x); (on_goal 2 => intro hx; clear_value x)))
    | with_reducible apply Keep.ite
    | (fail_if_no_progress with_reducible refine Keep.mk' ?_ rfl rfl rfl rfl rfl rfl rfl rfl rfl rfl)

theorem State.classRehash_keep {r s : State} (h : Keep r s) (c ch : Nat) : Keep r (State.classRehash s c ch) := by
  unfold State.classRehash
  extract_lets b m
  apply State.withdrawFrames_keep
  refine Keep.updWf h rfl rfl rfl (fun e => ?_) id rfl rfl rfl rfl rfl rfl rfl
  exact Memory.wf_clearIf (fun a => b ≤ a && a < b + 0x010000000000) e

theorem State.rehashAll_keep {r s : State} (h : Keep r s) : Keep r (State.rehashAll s) := by
  unfold State.rehashAll
  repeat' first
    | with_reducible assumption
    | (extract_lets +onlyGivenNames x; try (refine Keep.cut (s := x) ?_ ?_; (on_goal 1 => subst x); (on_goal 2 => intro hx; clear_value x)))
    | with_reducible apply State.classRehash_keep
    | with_reducible apply Keep.foldl
    | (intro x a hx; beta_reduce)

theorem State.leaveSteeps_keep {r s : State} (h : Keep r s) : Keep r (State.leaveSteeps s) := by
  unfold State.leaveSteeps
  repeat' first
    | with_reducible assumption
    | (extract_lets +onlyGivenNames x; try (refine Keep.cut (s := x) ?_ ?_; (on_goal 1 => subst x); (on_goal 2 => intro hx; clear_value x)))
    | with_reducible apply State.abandon_keep
    | with_reducible apply State.cut_keep
    | with_reducible apply State.freeClosed_keep
    | with_reducible apply State.rehashAll_keep
    | with_reducible apply Keep.ite
    | (fail_if_no_progress with_reducible refine Keep.mk' ?_ rfl rfl rfl rfl rfl rfl rfl rfl rfl rfl)

theorem State.errRingPut_keep {r s : State} (h : Keep r s) (r_0 : W512) : Keep r (State.errRingPut s r_0) := by
  unfold State.errRingPut
  repeat' first
    | with_reducible assumption
    | (extract_lets +onlyGivenNames x; try (refine Keep.cut (s := x) ?_ ?_; (on_goal 1 => subst x); (on_goal 2 => intro hx; clear_value x)))
    | with_reducible apply State.emit_keep
    | with_reducible apply Keep.ite
    | with_reducible refine State.setErr_upd ?_ rfl rfl rfl rfl

theorem State.putRecord_keep {r s : State} (h : Keep r s) (hs : s.err.silent = false) (x : W512) :
    Keep r (s.putRecord x) := by
  unfold State.putRecord
  refine State.errRingPut_keep (State.setErr_loud h hs ?_) _
  exact id

theorem State.enterHandling_keep {r s : State} (h : Keep r s) (e : ErrIn) (j : Judged) :
    Keep r (State.enterHandling s e j) := by
  unfold State.enterHandling
  repeat' first
    | with_reducible assumption
    | (extract_lets +onlyGivenNames x; try (refine Keep.cut (s := x) ?_ ?_; (on_goal 1 => subst x); (on_goal 2 => intro hx; clear_value x)))
    | with_reducible apply Keep.ite
    | with_reducible refine State.setErr_upd ?_ rfl rfl rfl rfl

theorem State.record_keep {r s : State} (h : Keep r s) (e : ErrIn) : Keep r (State.record s e).1 := by
  unfold State.record
  split
  · exact h
  · next hs =>
    have hs : s.err.silent = false := by simpa using hs
    extract_lets j
    split
    · split
      · split
        · with_reducible refine State.setErr_upd h ?_ ?_ ?_ ?_ <;> rfl
        · refine State.putRecord_keep ?_ ?_ _
          · with_reducible refine State.setErr_upd h ?_ ?_ ?_ ?_ <;> rfl
          · exact hs
      · refine State.putRecord_keep ?_ ?_ _
        · with_reducible refine State.setErr_upd h ?_ ?_ ?_ ?_ <;> rfl
        · exact hs
    · refine State.putRecord_keep (State.enterHandling_keep h ..) ?_ _
      unfold State.enterHandling
      split <;> exact hs

theorem State.note_keep {r s : State} (h : Keep r s) (e : ErrIn) : Keep r (State.note s e) := by
  unfold State.note
  repeat' first
    | with_reducible assumption
    | with_reducible apply State.record_keep

theorem State.overflowRing_keep {r s : State} (h : Keep r s) (n : Nat) : Keep r (State.overflowRing s n) := by
  unfold State.overflowRing
  repeat' first
    | with_reducible assumption
    | (extract_lets +onlyGivenNames x; try (refine Keep.cut (s := x) ?_ ?_; (on_goal 1 => subst x); (on_goal 2 => intro hx; clear_value x)))
    | with_reducible apply State.setRing_keep
    | with_reducible apply State.note_keep
    | with_reducible apply Keep.ite

theorem State.loose_keep {r s : State} (h : Keep r s) (n : Nat) (k : Loose) (rec : W256) :
    Keep r (State.loose s n k rec) := by
  unfold State.loose
  repeat' first
    | with_reducible assumption
    | (extract_lets +onlyGivenNames x; try (refine Keep.cut (s := x) ?_ ?_; (on_goal 1 => subst x); (on_goal 2 => intro hx; clear_value x)))
    | with_reducible apply State.setRing_keep
    | with_reducible apply State.putCompletion_keep
    | with_reducible apply State.overflowRing_keep
    | with_reducible apply Keep.ite

theorem State.event_keep {r s : State} (h : Keep r s) (q status : Nat) : Keep r (State.event s q status) := by
  unfold State.event
  repeat' first
    | with_reducible assumption
    | (extract_lets +onlyGivenNames x; try (refine Keep.cut (s := x) ?_ ?_; (on_goal 1 => subst x); (on_goal 2 => intro hx; clear_value x)))
    | with_reducible apply State.loose_keep

theorem State.events_keep {r s : State} (h : Keep r s) (qs : List Nat) (status : Nat) :
    Keep r (State.events s qs status) := by
  unfold State.events
  repeat' first
    | with_reducible assumption
    | (extract_lets +onlyGivenNames x; try (refine Keep.cut (s := x) ?_ ?_; (on_goal 1 => subst x); (on_goal 2 => intro hx; clear_value x)))
    | with_reducible apply State.event_keep
    | with_reducible apply Keep.foldl
    | (intro x a hx; beta_reduce)

theorem State.failSeqs_keep {r s : State} (h : Keep r s) (qs : List Nat) (status : Nat) :
    Keep r (State.failSeqs s qs status) := by
  unfold State.failSeqs
  repeat' first
    | with_reducible assumption
    | (extract_lets +onlyGivenNames x; try (refine Keep.cut (s := x) ?_ ?_; (on_goal 1 => subst x); (on_goal 2 => intro hx; clear_value x)))
    | with_reducible apply State.events_keep
    | (fail_if_no_progress with_reducible refine Keep.mk' ?_ rfl rfl rfl rfl rfl rfl rfl rfl rfl rfl)

theorem State.settleItems_keep {r s : State} (h : Keep r s) : Keep r (State.settleItems s) := by
  unfold State.settleItems
  repeat' first
    | with_reducible assumption
    | (extract_lets +onlyGivenNames x; try (refine Keep.cut (s := x) ?_ ?_; (on_goal 1 => subst x); (on_goal 2 => intro hx; clear_value x)))
    | with_reducible refine State.setErr_upd ?_ rfl rfl rfl rfl

theorem State.setTile_keep {r s : State} (h : Keep r s) (die pos : Nat) (t_0 : Tile) :
    Keep r (State.setTile s die pos t_0) := by
  unfold State.setTile
  repeat' first
    | with_reducible assumption
    | (extract_lets +onlyGivenNames x; try (refine Keep.cut (s := x) ?_ ?_; (on_goal 1 => subst x); (on_goal 2 => intro hx; clear_value x)))
    | (fail_if_no_progress with_reducible refine Keep.mk' ?_ rfl rfl rfl rfl rfl rfl rfl rfl rfl rfl)

theorem State.reissueTile_keep {r s : State} (h : Keep r s) (die pos : Nat) (index : Word) :
    Keep r (State.reissueTile s die pos index) := by
  unfold State.reissueTile
  repeat' first
    | with_reducible assumption
    | (extract_lets +onlyGivenNames x; try (refine Keep.cut (s := x) ?_ ?_; (on_goal 1 => subst x); (on_goal 2 => intro hx; clear_value x)))
    | with_reducible apply State.setTile_keep
    | with_reducible apply Keep.ite
    | (fail_if_no_progress with_reducible refine Keep.mk' ?_ rfl rfl rfl rfl rfl rfl rfl rfl rfl rfl)
    | with_reducible refine State.setErr_upd ?_ rfl rfl rfl rfl

theorem State.mapOutTile_keep {r s : State} (h : Keep r s) (die pos : Nat) (index : Word) :
    Keep r (State.mapOutTile s die pos index) := by
  unfold State.mapOutTile
  repeat' first
    | with_reducible assumption
    | (extract_lets +onlyGivenNames x; try (refine Keep.cut (s := x) ?_ ?_; (on_goal 1 => subst x); (on_goal 2 => intro hx; clear_value x)))
    | with_reducible apply State.reissueTile_keep
    | (fail_if_no_progress with_reducible refine Keep.mk' ?_ rfl rfl rfl rfl rfl rfl rfl rfl rfl rfl)

theorem State.objSet_keep {r s : State} (h : Keep r s) (i v : Nat) : Keep r (State.objSet s i v) := by
  unfold State.objSet
  repeat' first
    | with_reducible assumption
    | with_reducible apply State.store_keep

theorem State.setFab_keep {r s : State} (h : Keep r s) (f : Fabric) : Keep r (State.setFab s f) := by
  unfold State.setFab
  repeat' first
    | with_reducible assumption
    | (fail_if_no_progress with_reducible refine Keep.mk' ?_ rfl rfl rfl rfl rfl rfl rfl rfl rfl rfl)

theorem State.fabSend_keep {r s : State} (h : Keep r s) (p : FabPkt) : Keep r (State.fabSend s p) := by
  unfold State.fabSend
  repeat' first
    | with_reducible assumption
    | (extract_lets +onlyGivenNames x; try (refine Keep.cut (s := x) ?_ ?_; (on_goal 1 => subst x); (on_goal 2 => intro hx; clear_value x)))
    | with_reducible apply State.emit_keep
    | with_reducible apply State.fabOn_keep
    | with_reducible apply Keep.ite
    | split

theorem State.request_keep {r s : State} (h : Keep r s) (die engine : Nat) (write : Bool) (p : FabPkt) (compl : Nat) :
    KeepO r (State.request s die engine write p compl) := by
  unfold State.request
  repeat' first
    | with_reducible assumption
    | (extract_lets +onlyGivenNames x; try (refine Keep.cut (s := x) ?_ ?_; (on_goal 1 => subst x); (on_goal 2 => intro hx; clear_value x)))
    | with_reducible apply State.fabSend_keep
    | with_reducible apply State.setFab_keep
    | with_reducible apply KeepO.ite
    | with_reducible apply KeepO.some
    | (with_reducible exact KeepO.none)

theorem State.requestLater_keep {r s : State} (h : Keep r s) (die engine : Nat) (p : FabPkt) :
    Keep r (State.requestLater s die engine p) := by
  unfold State.requestLater
  repeat' first
    | with_reducible assumption
    | (extract_lets +onlyGivenNames x; try (refine Keep.cut (s := x) ?_ ?_; (on_goal 1 => subst x); (on_goal 2 => intro hx; clear_value x)))
    | with_reducible apply State.setFab_keep
    | with_reducible apply State.request_keep
    | with_reducible apply Keep.ite
    | with_reducible apply Keep.getDO

theorem State.barrierSwap_keep {r s : State} (h : Keep r s) (v : Nat) : Keep r (State.barrierSwap s v) := by
  unfold State.barrierSwap
  repeat' first
    | with_reducible assumption
    | (extract_lets +onlyGivenNames x; try (refine Keep.cut (s := x) ?_ ?_; (on_goal 1 => subst x); (on_goal 2 => intro hx; clear_value x)))
    | with_reducible apply State.objSet_keep
    | with_reducible apply State.requestLater_keep
    | with_reducible apply Keep.ite
    | (fail_if_no_progress with_reducible refine Keep.mk' ?_ rfl rfl rfl rfl rfl rfl rfl rfl rfl rfl)

theorem State.signalMiss_keep {r s : State} (h : Keep r s) : Keep r (State.signalMiss s) := by
  unfold State.signalMiss
  repeat' first
    | with_reducible assumption
    | with_reducible apply State.barrierSwap_keep

theorem State.drawByte_keep {r s : State} (h : Keep r s) : Keep r (State.drawByte s).2 := by
  unfold State.drawByte
  repeat' first
    | with_reducible assumption
    | (fail_if_no_progress with_reducible refine Keep.mk' ?_ rfl rfl rfl rfl rfl rfl rfl rfl rfl rfl)

theorem State.post_keep {r s : State} (h : Keep r s) (m : Nat) (msg : List Byte) (srcNode srcDie srcDomain : Nat) :
    KeepO r (State.post s m msg srcNode srcDie srcDomain) := by
  unfold State.post
  repeat' first
    | with_reducible assumption
    | (extract_lets +onlyGivenNames x; try (refine Keep.cut (s := x) ?_ ?_; (on_goal 1 => subst x); (on_goal 2 => intro hx; clear_value x)))
    | with_reducible apply State.objSet_keep
    | with_reducible apply State.store_keep
    | with_reducible apply KeepO.ite
    | with_reducible apply KeepO.some
    | (with_reducible exact KeepO.none)

theorem State.sendFragments_keep {r s : State} (h : Keep r s) (port : Nat) (dest : DWord) (number : Nat) (bytes : List Byte) :
    Keep r (State.sendFragments s port dest number bytes) := by
  unfold State.sendFragments
  repeat' first
    | with_reducible assumption
    | (extract_lets +onlyGivenNames x; try (refine Keep.cut (s := x) ?_ ?_; (on_goal 1 => subst x); (on_goal 2 => intro hx; clear_value x)))
    | with_reducible apply State.emit_keep
    | with_reducible apply State.fabOn_keep
    | with_reducible apply Keep.ite
    | with_reducible apply Keep.foldl
    | (intro x a hx; beta_reduce)
    | split

theorem State.sendMessage_keep {r s : State} (h : Keep r s) (ring : Option Nat) (port : Nat) (dest : DWord) (bytes : List Byte) :
    Keep r (State.sendMessage s ring port dest bytes) := by
  unfold State.sendMessage
  repeat' first
    | with_reducible assumption
    | (extract_lets +onlyGivenNames x; try (refine Keep.cut (s := x) ?_ ?_; (on_goal 1 => subst x); (on_goal 2 => intro hx; clear_value x)))
    | with_reducible apply State.setFab_keep
    | with_reducible apply State.sendFragments_keep

theorem State.sendOwn_keep {r s : State} (h : Keep r s) (node m : Nat) (bytes : List Byte) :
    Keep r (State.sendOwn s node m bytes) := by
  unfold State.sendOwn
  repeat' first
    | with_reducible assumption
    | (extract_lets +onlyGivenNames x; try (refine Keep.cut (s := x) ?_ ?_; (on_goal 1 => subst x); (on_goal 2 => intro hx; clear_value x)))
    | with_reducible apply State.post_keep
    | with_reducible apply State.sendMessage_keep
    | with_reducible apply Keep.ite
    | with_reducible apply Keep.getDO

theorem State.leave_keep {r s : State} (h : Keep r s) : Keep r (State.leave s) := by
  unfold State.leave
  repeat' first
    | with_reducible assumption
    | (extract_lets +onlyGivenNames x; try (refine Keep.cut (s := x) ?_ ?_; (on_goal 1 => subst x); (on_goal 2 => intro hx; clear_value x)))
    | with_reducible apply State.drawByte_keep
    | with_reducible apply State.sendOwn_keep

theorem State.stopLinks_keep {r s : State} (h : Keep r s) : Keep r (State.stopLinks s) := by
  unfold State.stopLinks
  repeat' first
    | with_reducible assumption
    | (fail_if_no_progress with_reducible refine Keep.mk' ?_ rfl rfl rfl rfl rfl rfl rfl rfl rfl rfl)

theorem State.stopPackage_keep {r s : State} (h : Keep r s) : Keep r (State.stopPackage s) := by
  unfold State.stopPackage
  repeat' first
    | with_reducible assumption
    | (extract_lets +onlyGivenNames x; try (refine Keep.cut (s := x) ?_ ?_; (on_goal 1 => subst x); (on_goal 2 => intro hx; clear_value x)))
    | with_reducible apply State.signalMiss_keep
    | with_reducible apply State.leave_keep
    | with_reducible apply State.stopLinks_keep
    | with_reducible refine State.setErr_stop ?_ (fun _ => rfl) (fun h => h) rfl rfl
    | with_reducible apply Keep.ite

theorem State.fatal_keep {r s : State} (h : Keep r s) (e : ErrIn) : Keep r (State.fatal s e) := by
  unfold State.fatal
  repeat' first
    | with_reducible assumption
    | (extract_lets +onlyGivenNames x; try (refine Keep.cut (s := x) ?_ ?_; (on_goal 1 => subst x); (on_goal 2 => intro hx; clear_value x)))
    | with_reducible apply State.stopPackage_keep
    | with_reducible apply State.note_keep
    | with_reducible apply State.events_keep
    | with_reducible refine State.setErr_stop ?_ (fun h => h) (fun _ => rfl) rfl rfl
    | with_reducible apply Keep.ite

theorem State.mapOutCore_keep {r s : State} (h : Keep r s) (die core : Nat) (index : Word) :
    Keep r (State.mapOutCore s die core index) := by
  unfold State.mapOutCore
  repeat' first
    | with_reducible assumption
    | (extract_lets +onlyGivenNames x; try (refine Keep.cut (s := x) ?_ ?_; (on_goal 1 => subst x); (on_goal 2 => intro hx; clear_value x)))
    | with_reducible apply State.reissueTile_keep
    | (fail_if_no_progress with_reducible refine Keep.mk' ?_ rfl rfl rfl rfl rfl rfl rfl rfl rfl rfl)

theorem State.dropChannel_keep {r s : State} (h : Keep r s) (ch : Nat) : Keep r (State.dropChannel s ch) := by
  unfold State.dropChannel
  repeat' first
    | with_reducible assumption
    | (extract_lets +onlyGivenNames x; try (refine Keep.cut (s := x) ?_ ?_; (on_goal 1 => subst x); (on_goal 2 => intro hx; clear_value x)))
    | with_reducible apply State.classRehash_keep
    | with_reducible exact Keep.updWf h rfl rfl rfl (Memory.wf_clearIf _) id rfl rfl rfl rfl rfl rfl rfl
    | with_reducible apply Keep.ite
    | (fail_if_no_progress with_reducible refine Keep.mk' ?_ rfl rfl rfl rfl rfl rfl rfl rfl rfl rfl)
    | split

theorem State.onSeq_keep {r s : State} (h : Keep r s) (q : Nat) (f : SeqRec → SeqRec) : Keep r (State.onSeq s q f) := by
  unfold State.onSeq
  repeat' first
    | with_reducible assumption
    | with_reducible apply State.setSeq_keep

theorem State.finishControl_keep {r s : State} (h : Keep r s) (c : OpControl) (status : Nat) :
    Keep r (State.finishControl s c status) := by
  unfold State.finishControl
  repeat' first
    | with_reducible assumption
    | (extract_lets +onlyGivenNames x; try (refine Keep.cut (s := x) ?_ ?_; (on_goal 1 => subst x); (on_goal 2 => intro hx; clear_value x)))
    | with_reducible apply State.onRing_keep
    | with_reducible apply State.drain_keep
    | with_reducible apply State.release_keep
    | with_reducible apply State.reservedRecord_keep
    | with_reducible apply Keep.ite

theorem State.endOp_keep {r s : State} (h : Keep r s) (h_0 status ctl : Nat) (ctlFirst : Bool) :
    Keep r (State.endOp s h_0 status ctl ctlFirst) := by
  unfold State.endOp
  repeat' first
    | with_reducible assumption
    | (extract_lets +onlyGivenNames x; try (refine Keep.cut (s := x) ?_ ?_; (on_goal 1 => subst x); (on_goal 2 => intro hx; clear_value x)))
    | with_reducible apply State.finishControl_keep
    | with_reducible apply State.drain_keep
    | with_reducible apply State.release_keep
    | with_reducible apply State.reservedRecord_keep
    | with_reducible apply Keep.ite
    | (fail_if_no_progress with_reducible refine Keep.mk' ?_ rfl rfl rfl rfl rfl rfl rfl rfl rfl rfl)
    | with_reducible apply Keep.foldl
    | (intro x a hx; beta_reduce)
    | split

theorem State.endPrefill_keep {r s : State} (h : Keep r s) (q status : Nat) : Keep r (State.endPrefill s q status) := by
  unfold State.endPrefill
  repeat' first
    | with_reducible assumption
    | (extract_lets +onlyGivenNames x; try (refine Keep.cut (s := x) ?_ ?_; (on_goal 1 => subst x); (on_goal 2 => intro hx; clear_value x)))
    | with_reducible apply State.onSeq_keep
    | with_reducible apply State.endOp_keep
    | with_reducible apply Keep.ite

theorem State.loseSeqs_keep {r s : State} (h : Keep r s) (qs : List Nat) : Keep r (State.loseSeqs s qs) := by
  unfold State.loseSeqs
  repeat' first
    | with_reducible assumption
    | (extract_lets +onlyGivenNames x; try (refine Keep.cut (s := x) ?_ ?_; (on_goal 1 => subst x); (on_goal 2 => intro hx; clear_value x)))
    | with_reducible apply State.onSeq_keep
    | with_reducible apply State.endPrefill_keep
    | with_reducible apply State.events_keep
    | (fail_if_no_progress with_reducible refine Keep.mk' ?_ rfl rfl rfl rfl rfl rfl rfl rfl rfl rfl)
    | with_reducible apply Keep.foldl
    | (intro x a hx; beta_reduce)

theorem State.syncClear_keep {r s : State} (h : Keep r s) :
    Keep r (State.syncClear s) :=
  State.setHbm_keep h fun e => Memory.wf_clear _ _ (Memory.wf_clear _ _ e)

theorem State.syncLoss_keep {r s : State} (h : Keep r s) : Keep r (State.syncLoss s) := by
  unfold State.syncLoss
  repeat' first
    | with_reducible assumption
    | (extract_lets +onlyGivenNames x; try (refine Keep.cut (s := x) ?_ ?_; (on_goal 1 => subst x); (on_goal 2 => intro hx; clear_value x)))
    | with_reducible apply State.syncClear_keep
    | with_reducible apply State.endWait_keep
    | with_reducible apply Keep.ite
    | (fail_if_no_progress with_reducible refine Keep.mk' ?_ rfl rfl rfl rfl rfl rfl rfl rfl rfl rfl)
    | with_reducible apply Keep.foldl
    | (intro x a hx; beta_reduce)

theorem State.loseChannel_keep {r s : State} (h : Keep r s) (e : ErrIn) : Keep r (State.loseChannel s e) := by
  unfold State.loseChannel
  repeat' first
    | with_reducible assumption
    | (extract_lets +onlyGivenNames x; try (refine Keep.cut (s := x) ?_ ?_; (on_goal 1 => subst x); (on_goal 2 => intro hx; clear_value x)))
    | with_reducible apply State.fatal_keep
    | with_reducible apply State.dropChannel_keep
    | with_reducible apply State.note_keep
    | with_reducible apply State.loseSeqs_keep
    | with_reducible apply State.syncLoss_keep
    | with_reducible apply State.signalMiss_keep
    | with_reducible apply Keep.ite
    | (fail_if_no_progress with_reducible refine Keep.mk' ?_ rfl rfl rfl rfl rfl rfl rfl rfl rfl rfl)

theorem State.jnl_keep {r s : State} (h : Keep r s) (type bank : Nat) (gen : Word) (geom : DWord) (digest : W256) (ref : Word) :
    Keep r (State.jnl s type bank gen geom digest ref) := by
  unfold State.jnl
  repeat' first
    | with_reducible assumption
    | (extract_lets +onlyGivenNames x; try (refine Keep.cut (s := x) ?_ ?_; (on_goal 1 => subst x); (on_goal 2 => intro hx; clear_value x)))
    | with_reducible apply Keep.ite
    | with_reducible refine State.setCaddy_upd ?_ rfl rfl

theorem State.loseSegment_keep {r s : State} (h : Keep r s) (die seg : Nat) : Keep r (State.loseSegment s die seg) := by
  unfold State.loseSegment
  repeat' first
    | with_reducible assumption
    | (extract_lets +onlyGivenNames x; try (refine Keep.cut (s := x) ?_ ?_; (on_goal 1 => subst x); (on_goal 2 => intro hx; clear_value x)))
    | with_reducible apply State.jnl_keep
    | with_reducible refine State.setBanks_keep ?_ _ rfl rfl (id)
    | with_reducible apply Keep.ite
    | with_reducible refine State.setCaddy_upd ?_ rfl rfl
    | split

theorem State.failover_keep {r s : State} (h : Keep r s) (e : ErrIn) (primaryLost : Bool) :
    Keep r (State.failover s e primaryLost) := by
  unfold State.failover
  repeat' first
    | with_reducible assumption
    | (extract_lets +onlyGivenNames x; try (refine Keep.cut (s := x) ?_ ?_; (on_goal 1 => subst x); (on_goal 2 => intro hx; clear_value x)))
    | with_reducible apply State.note_keep
    | with_reducible apply State.failSeqs_keep
    | with_reducible apply Keep.ite
    | (fail_if_no_progress with_reducible refine Keep.mk' ?_ rfl rfl rfl rfl rfl rfl rfl rfl rfl rfl)

theorem State.unitLost_keep {r s : State} (h : Keep r s) (e : ErrIn) : Keep r (State.unitLost s e) := by
  unfold State.unitLost
  repeat' first
    | with_reducible assumption
    | (extract_lets +onlyGivenNames x; try (refine Keep.cut (s := x) ?_ ?_; (on_goal 1 => subst x); (on_goal 2 => intro hx; clear_value x)))
    | with_reducible apply State.settleItems_keep
    | with_reducible apply State.mapOutTile_keep
    | with_reducible apply State.note_keep
    | with_reducible apply State.fatal_keep
    | with_reducible apply State.mapOutCore_keep
    | with_reducible apply State.loseChannel_keep
    | with_reducible apply State.setLink_keep
    | with_reducible apply State.loseSegment_keep
    | with_reducible apply State.failover_keep
    | with_reducible apply Keep.ite
    | (fail_if_no_progress with_reducible refine Keep.mk' ?_ rfl rfl rfl rfl rfl rfl rfl rfl rfl rfl)
    | split

theorem State.raise_keep {r s : State} (h : Keep r s) (e : ErrIn) : Keep r (State.raise s e) := by
  unfold State.raise
  repeat' first
    | with_reducible assumption
    | (extract_lets +onlyGivenNames x; try (refine Keep.cut (s := x) ?_ ?_; (on_goal 1 => subst x); (on_goal 2 => intro hx; clear_value x)))
    | with_reducible apply State.note_keep
    | with_reducible apply State.failSeqs_keep
    | with_reducible apply State.unitLost_keep
    | with_reducible apply State.fatal_keep
    | with_reducible apply Keep.ite
    | split

theorem State.settleOwed_keep {r s : State} (h : Keep r s) : Keep r (State.settleOwed s) := by
  unfold State.settleOwed
  repeat' first
    | with_reducible assumption
    | (extract_lets +onlyGivenNames x; try (refine Keep.cut (s := x) ?_ ?_; (on_goal 1 => subst x); (on_goal 2 => intro hx; clear_value x)))
    | with_reducible apply State.requestLater_keep
    | with_reducible apply State.setFab_keep
    | with_reducible apply Keep.foldl
    | (intro x a hx; beta_reduce)

theorem State.dropReq_keep {r s : State} (h : Keep r s) (r_0 : FabReq) : Keep r (State.dropReq s r_0) := by
  unfold State.dropReq
  repeat' first
    | with_reducible assumption
    | (extract_lets +onlyGivenNames x; try (refine Keep.cut (s := x) ?_ ?_; (on_goal 1 => subst x); (on_goal 2 => intro hx; clear_value x)))
    | with_reducible apply State.settleOwed_keep
    | with_reducible apply State.setFab_keep

theorem State.complete_keep {r s : State} (h : Keep r s) (die engine : Nat) (compl status : Nat) (known applied : Bool) (tag : Word) (result : Nat) (mask : Option (List Nat)) :
    Keep r (State.complete s die engine compl status known applied tag result mask) := by
  unfold State.complete
  repeat' first
    | with_reducible assumption
    | (extract_lets +onlyGivenNames x; try (refine Keep.cut (s := x) ?_ ?_; (on_goal 1 => subst x); (on_goal 2 => intro hx; clear_value x)))
    | with_reducible apply State.store_keep
    | with_reducible apply State.emit_keep
    | with_reducible apply Keep.ite

theorem State.endInval_keep {r s : State} (h : Keep r s) (v : Inval) (status : Nat) (nodes : List Nat) :
    Keep r (State.endInval s v status nodes) := by
  unfold State.endInval
  repeat' first
    | with_reducible assumption
    | (extract_lets +onlyGivenNames x; try (refine Keep.cut (s := x) ?_ ?_; (on_goal 1 => subst x); (on_goal 2 => intro hx; clear_value x)))
    | with_reducible apply State.setFab_keep
    | with_reducible apply State.complete_keep

theorem State.invalAnswered_keep {r s : State} (h : Keep r s) (die engine : Nat) (a : DWord) (n : Nat) (left : Bool) :
    Keep r (State.invalAnswered s die engine a n left) := by
  unfold State.invalAnswered
  repeat' first
    | with_reducible assumption
    | (extract_lets +onlyGivenNames x; try (refine Keep.cut (s := x) ?_ ?_; (on_goal 1 => subst x); (on_goal 2 => intro hx; clear_value x)))
    | with_reducible apply State.setFab_keep
    | with_reducible apply State.endInval_keep
    | with_reducible apply Keep.ite
    | split

theorem State.reqLost_keep {r s : State} (h : Keep r s) (r_0 : FabReq) : Keep r (State.reqLost s r_0) := by
  unfold State.reqLost
  repeat' first
    | with_reducible assumption
    | (extract_lets +onlyGivenNames x; try (refine Keep.cut (s := x) ?_ ?_; (on_goal 1 => subst x); (on_goal 2 => intro hx; clear_value x)))
    | with_reducible apply State.dropReq_keep
    | with_reducible apply State.complete_keep
    | with_reducible apply State.invalAnswered_keep
    | with_reducible apply Keep.ite

theorem State.applyInvalidate_keep {r s : State} (h : Keep r s) (a : DWord) (n : Nat) :
    Keep r (State.applyInvalidate s a n) := by
  unfold State.applyInvalidate
  repeat' first
    | with_reducible assumption
    | (extract_lets +onlyGivenNames x; try (refine Keep.cut (s := x) ?_ ?_; (on_goal 1 => subst x); (on_goal 2 => intro hx; clear_value x)))
    | with_reducible apply State.setFab_keep

theorem State.sendInval_keep {r s : State} (h : Keep r s) (v : Inval) : Keep r (State.sendInval s v) := by
  unfold State.sendInval
  repeat' first
    | with_reducible assumption
    | (extract_lets +onlyGivenNames x; try (refine Keep.cut (s := x) ?_ ?_; (on_goal 1 => subst x); (on_goal 2 => intro hx; clear_value x)))
    | with_reducible apply State.applyInvalidate_keep
    | with_reducible apply State.requestLater_keep
    | with_reducible apply State.setFab_keep
    | with_reducible apply State.endInval_keep
    | with_reducible apply Keep.ite
    | with_reducible apply Keep.foldl
    | (intro x a hx; beta_reduce)

theorem State.sendXfer_keep {r s : State} (h : Keep r s) (x_0 : Xfer) : Keep r (State.sendXfer s x_0) := by
  unfold State.sendXfer
  repeat' first
    | with_reducible assumption
    | (extract_lets +onlyGivenNames x; try (refine Keep.cut (s := x) ?_ ?_; (on_goal 1 => subst x); (on_goal 2 => intro hx; clear_value x)))
    | with_reducible apply State.request_keep
    | with_reducible apply State.setFab_keep
    | (with_reducible refine KeepO.get ?_ _ (by with_reducible assumption))
    | split

theorem State.endFence_keep {r s : State} (h : Keep r s) (f : Fence) (unreached : List Nat) :
    Keep r (State.endFence s f unreached) := by
  unfold State.endFence
  repeat' first
    | with_reducible assumption
    | (extract_lets +onlyGivenNames x; try (refine Keep.cut (s := x) ?_ ?_; (on_goal 1 => subst x); (on_goal 2 => intro hx; clear_value x)))
    | with_reducible apply State.setFab_keep
    | with_reducible apply State.complete_keep
    | with_reducible apply Keep.ite

theorem State.settleFences_keep {r s : State} (h : Keep r s) : Keep r (State.settleFences s) := by
  unfold State.settleFences
  repeat' first
    | with_reducible assumption
    | (extract_lets +onlyGivenNames x; try (refine Keep.cut (s := x) ?_ ?_; (on_goal 1 => subst x); (on_goal 2 => intro hx; clear_value x)))
    | with_reducible apply State.endFence_keep
    | with_reducible apply Keep.ite
    | with_reducible apply Keep.foldl
    | (intro x a hx; beta_reduce)

theorem State.settleFabric_keep {r s : State} (h : Keep r s) : Keep r (State.settleFabric s) := by
  unfold State.settleFabric
  repeat' first
    | with_reducible assumption
    | (extract_lets +onlyGivenNames x; try (refine Keep.cut (s := x) ?_ ?_; (on_goal 1 => subst x); (on_goal 2 => intro hx; clear_value x)))
    | with_reducible apply State.sendInval_keep
    | with_reducible apply State.sendXfer_keep
    | with_reducible apply State.settleFences_keep
    | with_reducible apply Keep.foldl
    | (intro x a hx; beta_reduce)

theorem State.nodesLeft_keep {r s : State} (h : Keep r s) (gone : List Nat) : Keep r (State.nodesLeft s gone) := by
  unfold State.nodesLeft
  repeat' first
    | with_reducible assumption
    | (extract_lets +onlyGivenNames x; try (refine Keep.cut (s := x) ?_ ?_; (on_goal 1 => subst x); (on_goal 2 => intro hx; clear_value x)))
    | with_reducible apply State.setFab_keep
    | with_reducible apply State.reqLost_keep
    | with_reducible apply State.settleFabric_keep
    | with_reducible apply Keep.foldl
    | (intro x a hx; beta_reduce)

theorem State.dropOwners_keep {r s : State} (h : Keep r s) (gone : List Nat) : Keep r (State.dropOwners s gone) := by
  unfold State.dropOwners
  repeat' first
    | with_reducible assumption
    | (extract_lets +onlyGivenNames x; try (refine Keep.cut (s := x) ?_ ?_; (on_goal 1 => subst x); (on_goal 2 => intro hx; clear_value x)))
    | with_reducible apply State.setDom_keep

theorem State.takeMask_keep {r s : State} (h : Keep r s) (mask : W256) (planes : List PlaneEntry) (adds : Bool) :
    Keep r (State.takeMask s mask planes adds) := by
  unfold State.takeMask
  repeat' first
    | with_reducible assumption
    | (extract_lets +onlyGivenNames x; try (refine Keep.cut (s := x) ?_ ?_; (on_goal 1 => subst x); (on_goal 2 => intro hx; clear_value x)))
    | with_reducible apply State.leaveSteeps_keep
    | with_reducible apply State.setDisc_keep
    | with_reducible apply State.setDom_keep
    | with_reducible apply State.raise_keep
    | with_reducible apply State.abortSwap_keep
    | with_reducible apply State.setFab_keep
    | with_reducible apply State.nodesLeft_keep
    | with_reducible apply State.dropOwners_keep
    | with_reducible apply Keep.ite

theorem State.distribute_keep {r s : State} (h : Keep r s) (mask : W256) (planes : List PlaneEntry) :
    Keep r (State.distribute s mask planes) := by
  unfold State.distribute
  repeat' first
    | with_reducible assumption
    | (extract_lets +onlyGivenNames x; try (refine Keep.cut (s := x) ?_ ?_; (on_goal 1 => subst x); (on_goal 2 => intro hx; clear_value x)))
    | with_reducible apply State.setDom_keep
    | with_reducible apply State.emit_keep
    | with_reducible apply State.nameStandby_keep
    | with_reducible apply State.takeMask_keep
    | with_reducible apply Keep.foldl
    | (intro x a hx; beta_reduce)

theorem State.memberLost_keep {r s : State} (h : Keep r s) (n cause : Nat) : Keep r (State.memberLost s n cause) := by
  unfold State.memberLost
  repeat' first
    | with_reducible assumption
    | (extract_lets +onlyGivenNames x; try (refine Keep.cut (s := x) ?_ ?_; (on_goal 1 => subst x); (on_goal 2 => intro hx; clear_value x)))
    | with_reducible apply State.raise_keep
    | with_reducible apply State.setDom_keep
    | with_reducible apply State.distribute_keep
    | with_reducible apply Keep.ite

theorem State.admitMembers_keep {r s : State} (h : Keep r s) : Keep r (State.admitMembers s) := by
  unfold State.admitMembers
  repeat' first
    | with_reducible assumption
    | (extract_lets +onlyGivenNames x; try (refine Keep.cut (s := x) ?_ ?_; (on_goal 1 => subst x); (on_goal 2 => intro hx; clear_value x)))
    | with_reducible apply State.distribute_keep
    | with_reducible apply State.setDisc_keep
    | with_reducible apply State.memberLost_keep
    | with_reducible apply State.setDom_keep
    | with_reducible apply Keep.ite
    | with_reducible apply Keep.foldl
    | (intro x a hx; beta_reduce)

theorem State.adoptManager_keep {r s : State} (h : Keep r s) (node standby : Nat) :
    Keep r (State.adoptManager s node standby) := by
  unfold State.adoptManager
  repeat' first
    | with_reducible assumption
    | (extract_lets +onlyGivenNames x; try (refine Keep.cut (s := x) ?_ ?_; (on_goal 1 => subst x); (on_goal 2 => intro hx; clear_value x)))
    | with_reducible apply State.setDom_keep
    | with_reducible apply State.setDisc_keep
    | with_reducible apply State.abortSwap_keep
    | with_reducible apply State.barrierSwap_keep
    | with_reducible apply Keep.ite

theorem State.adoptRevs_keep {r s : State} (h : Keep r s) (r_0 : RelRec) : Keep r (State.adoptRevs s r_0) := by
  unfold State.adoptRevs
  repeat' first
    | with_reducible assumption
    | (extract_lets +onlyGivenNames x; try (refine Keep.cut (s := x) ?_ ?_; (on_goal 1 => subst x); (on_goal 2 => intro hx; clear_value x)))
    | with_reducible apply State.setRte_keep
    | with_reducible apply Keep.ite
    | (fail_if_no_progress with_reducible refine Keep.mk' ?_ rfl rfl rfl rfl rfl rfl rfl rfl rfl rfl)
    | split

theorem State.objAdd_keep {r s : State} (h : Keep r s) (i v : Nat) : Keep r (State.objAdd s i v) := by
  unfold State.objAdd
  repeat' first
    | with_reducible assumption
    | with_reducible apply State.objSet_keep

theorem State.replyTo_keep {r s : State} (h : Keep r s) (q : DomReq) (v : Nat) : Keep r (State.replyTo s q v) := by
  unfold State.replyTo
  repeat' first
    | with_reducible assumption
    | (extract_lets +onlyGivenNames x; try (refine Keep.cut (s := x) ?_ ?_; (on_goal 1 => subst x); (on_goal 2 => intro hx; clear_value x)))
    | with_reducible apply State.objAdd_keep
    | with_reducible apply State.requestLater_keep
    | with_reducible apply Keep.ite

theorem State.adoptTaken_keep {r s : State} (h : Keep r s) (n : Nat) : Keep r (State.adoptTaken s n) := by
  unfold State.adoptTaken
  repeat' first
    | with_reducible assumption
    | (extract_lets +onlyGivenNames x; try (refine Keep.cut (s := x) ?_ ?_; (on_goal 1 => subst x); (on_goal 2 => intro hx; clear_value x)))
    | with_reducible apply State.replyTo_keep
    | with_reducible apply Keep.ite
    | (fail_if_no_progress with_reducible refine Keep.mk' ?_ rfl rfl rfl rfl rfl rfl rfl rfl rfl rfl)
    | split

theorem State.eraseCells_keep {r s : State} (h : Keep r s) : Keep r (State.eraseCells s) := by
  unfold State.eraseCells
  repeat' first
    | with_reducible assumption
    | (extract_lets +onlyGivenNames x; try (refine Keep.cut (s := x) ?_ ?_; (on_goal 1 => subst x); (on_goal 2 => intro hx; clear_value x)))
    | with_reducible refine State.setCaddy_upd ?_ rfl rfl

theorem State.dropBuild_keep {r s : State} (h : Keep r s) : Keep r (State.dropBuild s) := by
  unfold State.dropBuild
  repeat' first
    | with_reducible assumption
    | (extract_lets +onlyGivenNames x; try (refine Keep.cut (s := x) ?_ ?_; (on_goal 1 => subst x); (on_goal 2 => intro hx; clear_value x)))
    | (fail_if_no_progress with_reducible refine Keep.mk' ?_ rfl rfl rfl rfl rfl rfl rfl rfl rfl rfl)
    | with_reducible refine State.setCaddy_upd ?_ rfl rfl
    | split

theorem State.lockNow_keep {r s : State} (h : Keep r s) (cls : Nat) : Keep r (State.lockNow s cls) := by
  unfold State.lockNow
  repeat' first
    | with_reducible assumption
    | (extract_lets +onlyGivenNames x; try (refine Keep.cut (s := x) ?_ ?_; (on_goal 1 => subst x); (on_goal 2 => intro hx; clear_value x)))
    | with_reducible apply State.stopLinks_keep
    | with_reducible apply State.dropBuild_keep
    | with_reducible apply State.note_keep
    | with_reducible refine State.setErr_stop ?_ (fun h => h) (fun _ => rfl) rfl rfl
    | with_reducible refine State.setSec_lock ?_ (fun _ => rfl)

theorem State.clearSram_keep {r s : State} (h : Keep r s) : Keep r (State.clearSram s) := by
  unfold State.clearSram
  repeat' first
    | with_reducible assumption
    | (extract_lets +onlyGivenNames x; try (refine Keep.cut (s := x) ?_ ?_; (on_goal 1 => subst x); (on_goal 2 => intro hx; clear_value x)))
    | (fail_if_no_progress with_reducible refine Keep.mk' ?_ rfl rfl rfl rfl rfl rfl rfl rfl rfl rfl)

theorem State.zeroise_keep {r s : State} (h : Keep r s) : Keep r (State.zeroise s) := by
  unfold State.zeroise
  repeat' first
    | with_reducible assumption
    | (extract_lets +onlyGivenNames x; try (refine Keep.cut (s := x) ?_ ?_; (on_goal 1 => subst x); (on_goal 2 => intro hx; clear_value x)))
    | with_reducible apply State.eraseCells_keep
    | with_reducible refine State.setSec_upd ?_ rfl
    | with_reducible refine State.setCaddy_upd ?_ rfl rfl

theorem State.alarm_keep {r s : State} (h : Keep r s) (src : AlarmSource) : Keep r (State.alarm s src) := by
  unfold State.alarm
  extract_lets _ y w k
  have hy : Keep r y := State.setSec_upd h rfl
  split
  · exact hy
  · next e =>
    split
    · have hk : Keep r k := State.setSec_lock hy fun q => absurd q e
      split
      · exact State.eraseCells_keep hk
      · exact hk
    · split
      · exact State.note_keep hy ..
      · split
        · exact State.lockNow_keep hy ..
        · exact State.lockNow_keep (State.clearSram_keep (State.zeroise_keep hy)) ..

theorem State.drawBelow_keep {r s : State} (h : Keep r s) (n : Nat) : Keep r (State.drawBelow s n).2 := by
  unfold State.drawBelow
  repeat' first
    | with_reducible assumption
    | (fail_if_no_progress with_reducible refine Keep.mk' ?_ rfl rfl rfl rfl rfl rfl rfl rfl rfl rfl)

theorem State.allowance_keep {r s : State} (h : Keep r s) (e prev : Nat) (m : WindowMeas) :
    Keep r (State.allowance s e prev m).2 := by
  unfold State.allowance
  repeat' first
    | with_reducible assumption
    | (extract_lets +onlyGivenNames x; try (refine Keep.cut (s := x) ?_ ?_; (on_goal 1 => subst x); (on_goal 2 => intro hx; clear_value x)))
    | with_reducible apply State.drawBelow_keep
    | split

theorem State.answer_keep {r s : State} (h : Keep r s) (cs : List OpControl) (status : Nat) :
    Keep r (State.answer s cs status) := by
  unfold State.answer
  repeat' first
    | with_reducible assumption
    | (extract_lets +onlyGivenNames x; try (refine Keep.cut (s := x) ?_ ?_; (on_goal 1 => subst x); (on_goal 2 => intro hx; clear_value x)))
    | with_reducible apply State.finishControl_keep
    | with_reducible apply Keep.foldl
    | (intro x a hx; beta_reduce)

theorem State.anyOf_keep {r s : State} (h : Keep r s) (l : List Nat) : Keep r (State.anyOf s l).2 := by
  unfold State.anyOf
  repeat' first
    | with_reducible assumption
    | (fail_if_no_progress with_reducible refine Keep.mk' ?_ rfl rfl rfl rfl rfl rfl rfl rfl rfl rfl)
    | split

theorem State.storeOk_keep {r s : State} (h : Keep r s) (a : Nat) (bs : List Byte) : Keep r (State.storeOk s a bs) := by
  unfold State.storeOk
  repeat' first
    | with_reducible assumption
    | (extract_lets +onlyGivenNames x; try (refine Keep.cut (s := x) ?_ ?_; (on_goal 1 => subst x); (on_goal 2 => intro hx; clear_value x)))
    | with_reducible apply State.store_keep
    | with_reducible apply Keep.ite

theorem State.routeUpdate_keep {r s : State} (h : Keep r s) (m : Model) (a : RouteAcc) :
    Keep r (State.routeUpdate s m a) := by
  unfold State.routeUpdate
  repeat' first
    | with_reducible assumption
    | (extract_lets +onlyGivenNames x; try (refine Keep.cut (s := x) ?_ ?_; (on_goal 1 => subst x); (on_goal 2 => intro hx; clear_value x)))
    | with_reducible apply State.storeOk_keep
    | split

theorem State.normUpdate_keep {r s : State} (h : Keep r s) (m : Model) (a : NormAcc) : Keep r (State.normUpdate s m a) := by
  unfold State.normUpdate
  repeat' first
    | with_reducible assumption
    | (extract_lets +onlyGivenNames x; try (refine Keep.cut (s := x) ?_ ?_; (on_goal 1 => subst x); (on_goal 2 => intro hx; clear_value x)))
    | with_reducible apply State.storeOk_keep
    | split

theorem State.tablesUpdate_keep {r s : State} (h : Keep r s) : Keep r (State.tablesUpdate s) := by
  unfold State.tablesUpdate
  repeat' first
    | with_reducible assumption
    | (extract_lets +onlyGivenNames x; try (refine Keep.cut (s := x) ?_ ?_; (on_goal 1 => subst x); (on_goal 2 => intro hx; clear_value x)))
    | with_reducible apply State.routeUpdate_keep
    | with_reducible apply State.normUpdate_keep
    | with_reducible apply Keep.foldl
    | (intro x a hx; beta_reduce)
    | split

theorem State.opNote_keep {r s : State} (h : Keep r s) (h_0 : Nat) (o : LongOp) (status : Nat) :
    Keep r (State.opNote s h_0 o status) := by
  unfold State.opNote
  repeat' first
    | with_reducible assumption
    | with_reducible apply State.loose_keep

theorem State.tokenRecords_keep {r s : State} (h : Keep r s) (q : Nat) (r_0 : SeqRec) (pos : Nat) (ts : List (Word × Bool)) (first : Bool) (fin : Nat) :
    Keep r (State.tokenRecords s q r_0 pos ts first fin) := by
  unfold State.tokenRecords
  repeat' first
    | with_reducible assumption
    | (extract_lets +onlyGivenNames x; try (refine Keep.cut (s := x) ?_ ?_; (on_goal 1 => subst x); (on_goal 2 => intro hx; clear_value x)))
    | with_reducible apply State.loose_keep
    | with_reducible apply Keep.foldl
    | (intro x a hx; beta_reduce)

theorem State.jobDone_keep {r s : State} (h : Keep r s) (q : Nat) : Keep r (State.jobDone s q) := by
  unfold State.jobDone
  repeat' first
    | with_reducible assumption
    | (extract_lets +onlyGivenNames x; try (refine Keep.cut (s := x) ?_ ?_; (on_goal 1 => subst x); (on_goal 2 => intro hx; clear_value x)))
    | with_reducible apply State.setTenant_keep

theorem State.contextFull_keep {r s : State} (h : Keep r s) (q : Nat) : Keep r (State.contextFull s q) := by
  unfold State.contextFull
  repeat' first
    | with_reducible assumption
    | (extract_lets +onlyGivenNames x; try (refine Keep.cut (s := x) ?_ ?_; (on_goal 1 => subst x); (on_goal 2 => intro hx; clear_value x)))
    | with_reducible apply State.note_keep
    | with_reducible apply State.onSeq_keep
    | with_reducible apply State.endPrefill_keep

theorem State.commitSeq_keep {r s : State} (h : Keep r s) (b : BatchItem) (g : Staged) :
    Keep r (State.commitSeq s b g) := by
  unfold State.commitSeq
  repeat' first
    | with_reducible assumption
    | (extract_lets +onlyGivenNames x; try (refine Keep.cut (s := x) ?_ ?_; (on_goal 1 => subst x); (on_goal 2 => intro hx; clear_value x)))
    | with_reducible apply State.endOp_keep
    | with_reducible apply State.opNote_keep
    | with_reducible apply State.setSeq_keep
    | with_reducible apply State.tokenRecords_keep
    | with_reducible apply State.jobDone_keep
    | with_reducible apply State.contextFull_keep
    | with_reducible apply Keep.ite
    | (fail_if_no_progress with_reducible refine Keep.mk' ?_ rfl rfl rfl rfl rfl rfl rfl rfl rfl rfl)
    | split

theorem State.commitAll_keep {r s : State} (h : Keep r s) : Keep r (State.commitAll s) := by
  unfold State.commitAll
  repeat' first
    | with_reducible assumption
    | (extract_lets +onlyGivenNames x; try (refine Keep.cut (s := x) ?_ ?_; (on_goal 1 => subst x); (on_goal 2 => intro hx; clear_value x)))
    | with_reducible apply State.commitSeq_keep
    | with_reducible apply Keep.ite
    | with_reducible apply Keep.foldl
    | (intro x a hx; beta_reduce)
    | split

theorem State.putSeq_keep {r s : State} (h : Keep r s) (q : Nat) : Keep r (State.putSeq s q) := by
  unfold State.putSeq
  repeat' first
    | with_reducible assumption
    | (extract_lets +onlyGivenNames x; try (refine Keep.cut (s := x) ?_ ?_; (on_goal 1 => subst x); (on_goal 2 => intro hx; clear_value x)))
    | with_reducible apply State.devWrite_keep

theorem State.writeBack_keep {r s : State} (h : Keep r s) : Keep r (State.writeBack s) := by
  unfold State.writeBack
  repeat' first
    | with_reducible assumption
    | (extract_lets +onlyGivenNames x; try (refine Keep.cut (s := x) ?_ ?_; (on_goal 1 => subst x); (on_goal 2 => intro hx; clear_value x)))
    | with_reducible apply State.putSeq_keep
    | with_reducible apply Keep.foldl
    | (intro x a hx; beta_reduce)

theorem State.applyVerdict_keep {r s : State} (h : Keep r s) (go : Bool) : Keep r (State.applyVerdict s go) := by
  unfold State.applyVerdict
  repeat' first
    | with_reducible assumption
    | (extract_lets +onlyGivenNames x; try (refine Keep.cut (s := x) ?_ ?_; (on_goal 1 => subst x); (on_goal 2 => intro hx; clear_value x)))
    | with_reducible apply State.endHandling_keep
    | with_reducible apply State.tablesUpdate_keep
    | with_reducible apply State.commitAll_keep
    | with_reducible apply State.writeBack_keep
    | with_reducible apply State.freeClosed_keep
    | with_reducible apply State.rehashAll_keep
    | with_reducible apply State.abandon_keep
    | with_reducible apply Keep.ite
    | (fail_if_no_progress with_reducible refine Keep.mk' ?_ rfl rfl rfl rfl rfl rfl rfl rfl rfl rfl)

theorem State.jnlActivate_keep {r s : State} (h : Keep r s) (bank : Nat) : Keep r (State.jnlActivate s bank) := by
  unfold State.jnlActivate
  repeat' first
    | with_reducible assumption
    | with_reducible apply State.jnl_keep
    | split

theorem State.normReset_keep {r s : State} (h : Keep r s) (m : Model) (whole : Bool) :
    Keep r (State.normReset s m whole) := by
  unfold State.normReset
  repeat' first
    | with_reducible assumption
    | (extract_lets +onlyGivenNames x; try (refine Keep.cut (s := x) ?_ ?_; (on_goal 1 => subst x); (on_goal 2 => intro hx; clear_value x)))
    | with_reducible apply State.storeOk_keep
    | with_reducible apply Keep.ite
    | with_reducible apply Keep.foldl
    | (intro x a hx; beta_reduce)

theorem State.takeBank_keep {r s : State} (h : Keep r s) (g : Word) : Keep r (State.takeBank s g) := by
  unfold State.takeBank
  repeat' first
    | with_reducible assumption
    | (extract_lets +onlyGivenNames x; try (refine Keep.cut (s := x) ?_ ?_; (on_goal 1 => subst x); (on_goal 2 => intro hx; clear_value x)))
    | with_reducible apply State.jnlActivate_keep
    | with_reducible apply State.normReset_keep
    | (fail_if_no_progress with_reducible refine Keep.mk' ?_ rfl rfl rfl rfl rfl rfl rfl rfl rfl rfl)
    | with_reducible refine State.setCaddy_upd ?_ rfl rfl
    | split

theorem State.switchBank_keep {r s : State} (h : Keep r s) (closed : Word) : Keep r (State.switchBank s closed) := by
  unfold State.switchBank
  repeat' first
    | with_reducible assumption
    | (extract_lets +onlyGivenNames x; try (refine Keep.cut (s := x) ?_ ?_; (on_goal 1 => subst x); (on_goal 2 => intro hx; clear_value x)))
    | with_reducible apply State.takeBank_keep
    | with_reducible apply State.finish_keep
    | with_reducible apply State.unwait_keep
    | (fail_if_no_progress with_reducible refine Keep.mk' ?_ rfl rfl rfl rfl rfl rfl rfl rfl rfl rfl)
    | with_reducible apply Keep.foldl
    | (intro x a hx; beta_reduce)
    | split

theorem State.enterState_keep {r s : State} (h : Keep r s) (d : DomState) : Keep r (State.enterState s d) := by
  unfold State.enterState
  repeat' first
    | with_reducible assumption
    | (extract_lets +onlyGivenNames x; try (refine Keep.cut (s := x) ?_ ?_; (on_goal 1 => subst x); (on_goal 2 => intro hx; clear_value x)))
    | with_reducible apply State.setDisc_keep
    | with_reducible apply State.setDom_keep
    | with_reducible apply Keep.ite

theorem State.cancelPrefill_keep {r s : State} (h : Keep r s) (q : Nat) : Keep r (State.cancelPrefill s q) := by
  unfold State.cancelPrefill
  repeat' first
    | with_reducible assumption
    | with_reducible apply State.onSeq_keep

theorem State.prefillControls_keep {r s : State} (h : Keep r s) : Keep r (State.prefillControls s) := by
  unfold State.prefillControls
  repeat' first
    | with_reducible assumption
    | (extract_lets +onlyGivenNames x; try (refine Keep.cut (s := x) ?_ ?_; (on_goal 1 => subst x); (on_goal 2 => intro hx; clear_value x)))
    | with_reducible apply State.finishControl_keep
    | with_reducible apply State.onSeq_keep
    | with_reducible apply State.opNote_keep
    | with_reducible apply State.endOp_keep
    | with_reducible apply State.cancelPrefill_keep
    | (fail_if_no_progress with_reducible refine Keep.mk' ?_ rfl rfl rfl rfl rfl rfl rfl rfl rfl rfl)
    | with_reducible apply Keep.foldl
    | (intro x a hx; beta_reduce)
    | split

theorem State.readRecord_keep {r s : State} (h : Keep r s) (q : Nat) (bad : Bool) : Keep r (State.readRecord s q bad) := by
  unfold State.readRecord
  repeat' first
    | with_reducible assumption
    | (extract_lets +onlyGivenNames x; try (refine Keep.cut (s := x) ?_ ?_; (on_goal 1 => subst x); (on_goal 2 => intro hx; clear_value x)))
    | with_reducible apply State.raise_keep
    | with_reducible apply Keep.ite

theorem State.pauseLoop_keep {r s : State} (h : Keep r s) (k : Nat) (b : List Nat) (next : Word) :
    Keep r (State.pauseLoop k s b next).1 := by
  induction k generalizing s b with
  | zero => exact h
  | succ k ih =>
    unfold State.pauseLoop
    repeat' first
      | with_reducible assumption
      | (extract_lets +onlyGivenNames x; try (refine Keep.cut (s := x) ?_ ?_; (on_goal 1 => subst x); (on_goal 2 => intro hx; clear_value x)))
      | with_reducible apply State.event_keep
      | with_reducible apply State.onSeq_keep
      | apply ih
      | split

theorem State.resumeLoop_keep {r s : State} (h : Keep r s) (b ps : List Nat) : Keep r (State.resumeLoop s b ps).1 := by
  unfold State.resumeLoop
  repeat' first
    | with_reducible assumption
    | (extract_lets +onlyGivenNames x; try (refine Keep.cut (s := x) ?_ ?_; (on_goal 1 => subst x); (on_goal 2 => intro hx; clear_value x)))
    | with_reducible apply State.event_keep
    | with_reducible apply State.onSeq_keep
    | with_reducible apply Keep.foldlFst
    | (intro x a hx; beta_reduce)
    | split

theorem repeatOn_keep {r s : State} (h :
    Keep r s) (f : State → State) (k : Nat) (hf : ∀ t, Keep r t → Keep r (f t)) :
    Keep r (repeatOn f k s) := by
  induction k generalizing s with
  | zero => exact h
  | succ k ih => exact ih (hf s h)

theorem State.reserve_keep {r s : State} (h : Keep r s) (q len : Nat) : KeepO r (State.reserve s q len) := by
  unfold State.reserve
  repeat' first
    | with_reducible assumption
    | (extract_lets +onlyGivenNames x; try (refine Keep.cut (s := x) ?_ ?_; (on_goal 1 => subst x); (on_goal 2 => intro hx; clear_value x)))
    | with_reducible apply repeatOn_keep
    | with_reducible apply State.addFrame_keep
    | with_reducible apply State.addBlock_keep
    | with_reducible apply KeepO.ite
    | with_reducible apply KeepO.some
    | (with_reducible exact KeepO.none)
    | (intro x hx; beta_reduce)

theorem State.reserveAll_keep {r s : State} (h : Keep r s) (b : List Nat) : Keep r (State.reserveAll s b).1 := by
  unfold State.reserveAll
  repeat' first
    | with_reducible assumption
    | (extract_lets +onlyGivenNames x; try (refine Keep.cut (s := x) ?_ ?_; (on_goal 1 => subst x); (on_goal 2 => intro hx; clear_value x)))
    | with_reducible apply State.reserve_keep
    | with_reducible apply State.onSeq_keep
    | with_reducible apply State.event_keep
    | with_reducible apply Keep.ite
    | (with_reducible refine KeepO.get ?_ _ (by with_reducible assumption))
    | with_reducible apply Keep.foldlFst
    | (intro x a hx; beta_reduce)
    | split

theorem State.formBatch_keep {r s : State} (h : Keep r s) (next : Word) (go : Bool) :
    Keep r (State.formBatch s next go).1 := by
  unfold State.formBatch
  repeat' first
    | with_reducible assumption
    | (extract_lets +onlyGivenNames x; try (refine Keep.cut (s := x) ?_ ?_; (on_goal 1 => subst x); (on_goal 2 => intro hx; clear_value x)))
    | with_reducible apply State.contextFull_keep
    | with_reducible apply State.jobDone_keep
    | with_reducible apply State.pauseLoop_keep
    | with_reducible apply State.resumeLoop_keep
    | with_reducible apply State.reserveAll_keep
    | with_reducible apply Keep.ite
    | (fail_if_no_progress with_reducible refine Keep.mk' ?_ rfl rfl rfl rfl rfl rfl rfl rfl rfl rfl)
    | with_reducible apply Keep.foldl
    | (intro x a hx; beta_reduce)

theorem State.writeBatch_keep {r s : State} (h : Keep r s) (b : List BatchItem) : Keep r (State.writeBatch s b) := by
  unfold State.writeBatch
  repeat' first
    | with_reducible assumption
    | (extract_lets +onlyGivenNames x; try (refine Keep.cut (s := x) ?_ ?_; (on_goal 1 => subst x); (on_goal 2 => intro hx; clear_value x)))
    | with_reducible apply State.storeOk_keep
    | split

theorem State.cacheTouch_keep {r s : State} (h : Keep r s) (q : Nat) : Keep r (State.cacheTouch s q) := by
  unfold State.cacheTouch
  repeat' first
    | with_reducible assumption
    | (extract_lets +onlyGivenNames x; try (refine Keep.cut (s := x) ?_ ?_; (on_goal 1 => subst x); (on_goal 2 => intro hx; clear_value x)))
    | (fail_if_no_progress with_reducible refine Keep.mk' ?_ rfl rfl rfl rfl rfl rfl rfl rfl rfl rfl)

theorem State.dataError_keep {r s : State} (h : Keep r s) (status : Nat) (seqs : List Nat) (unit die : Nat) (pos addr detail : Nat) :
    Keep r (State.dataError s status seqs unit die pos addr detail) := by
  unfold State.dataError
  repeat' first
    | with_reducible assumption
    | with_reducible apply State.raise_keep

theorem State.failedDuties_keep {r s : State} (h : Keep r s) : Keep r (State.failedDuties s) := by
  unfold State.failedDuties
  repeat' first
    | with_reducible assumption
    | (extract_lets +onlyGivenNames x; try (refine Keep.cut (s := x) ?_ ?_; (on_goal 1 => subst x); (on_goal 2 => intro hx; clear_value x)))
    | with_reducible apply State.sendDispEnds_keep
    | with_reducible apply Keep.ite
    | with_reducible apply Keep.foldl
    | (intro x a hx; beta_reduce)

theorem State.onNorm_keep {r s : State} (h : Keep r s) (i : Nat) (f : NormAcc → NormAcc) : Keep r (State.onNorm s i f) := by
  unfold State.onNorm
  repeat' first
    | with_reducible assumption
    | (extract_lets +onlyGivenNames x; try (refine Keep.cut (s := x) ?_ ?_; (on_goal 1 => subst x); (on_goal 2 => intro hx; clear_value x)))
    | with_reducible apply State.setSteep_keep

theorem State.flagLine_keep {r s : State} (h : Keep r s) (index q : Nat) (n : Word) :
    Keep r (State.flagLine s index q n) := by
  unfold State.flagLine
  repeat' first
    | with_reducible assumption
    | (extract_lets +onlyGivenNames x; try (refine Keep.cut (s := x) ?_ ?_; (on_goal 1 => subst x); (on_goal 2 => intro hx; clear_value x)))
    | with_reducible apply State.onNorm_keep
    | with_reducible apply State.setSteep_keep
    | with_reducible apply State.dataError_keep
    | with_reducible apply Keep.ite

theorem State.normCheck_keep {r s : State} (h : Keep r s) (m : Model) (index : Nat) (r_0 : List Byte) (q : Nat) (x_0 : List Word) :
    Keep r (State.normCheck s m index r_0 q x_0) := by
  unfold State.normCheck
  repeat' first
    | with_reducible assumption
    | (extract_lets +onlyGivenNames x; try (refine Keep.cut (s := x) ?_ ?_; (on_goal 1 => subst x); (on_goal 2 => intro hx; clear_value x)))
    | with_reducible apply State.flagLine_keep
    | with_reducible apply State.onNorm_keep
    | with_reducible apply Keep.ite

theorem State.storeLine_keep {r s : State} (h : Keep r s) (q a : Nat) (bs : List Byte) :
    Keep r (State.storeLine s q a bs) := by
  unfold State.storeLine
  repeat' first
    | with_reducible assumption
    | (extract_lets +onlyGivenNames x; try (refine Keep.cut (s := x) ?_ ?_; (on_goal 1 => subst x); (on_goal 2 => intro hx; clear_value x)))
    | with_reducible apply State.dataError_keep
    | with_reducible apply State.store_keep
    | with_reducible apply Keep.ite
    | split

theorem State.writeSlot_keep {r s : State} (h : Keep r s) (m : Model) (draft : Bool) (r_0 : List Byte) (l : OpLine) (line : List Word) :
    Keep r (State.writeSlot s m draft r_0 l line) := by
  unfold State.writeSlot
  repeat' first
    | with_reducible assumption
    | (extract_lets +onlyGivenNames x; try (refine Keep.cut (s := x) ?_ ?_; (on_goal 1 => subst x); (on_goal 2 => intro hx; clear_value x)))
    | with_reducible apply State.storeLine_keep
    | with_reducible apply State.setSteep_keep
    | split

theorem State.steps6to8_keep {r s : State} (h : Keep r s) (m : Model) (draft : Bool) (index : Nat) (r_0 : List Byte) (lines row : Nat) (l : OpLine) (x_0 : List Word) :
    Keep r (State.steps6to8 s m draft index r_0 lines row l x_0) := by
  unfold State.steps6to8
  repeat' first
    | with_reducible assumption
    | (extract_lets +onlyGivenNames x; try (refine Keep.cut (s := x) ?_ ?_; (on_goal 1 => subst x); (on_goal 2 => intro hx; clear_value x)))
    | with_reducible apply State.storeLine_keep
    | with_reducible apply State.onNorm_keep
    | with_reducible apply State.writeSlot_keep
    | with_reducible apply Keep.ite

theorem State.finishLayer_keep {r s : State} (h : Keep r s) (m : Model) (layer : Nat) :
    Keep r (State.finishLayer s m layer) := by
  unfold State.finishLayer
  repeat' first
    | with_reducible assumption
    | (extract_lets +onlyGivenNames x; try (refine Keep.cut (s := x) ?_ ?_; (on_goal 1 => subst x); (on_goal 2 => intro hx; clear_value x)))
    | with_reducible apply State.normCheck_keep
    | with_reducible apply State.steps6to8_keep
    | with_reducible apply State.setRte_keep
    | with_reducible apply Keep.ite
    | with_reducible apply Keep.foldl
    | (intro x a hx; beta_reduce)
    | split

theorem State.settleRoutes_keep {r s : State} (h : Keep r s) : Keep r (State.settleRoutes s) := by
  unfold State.settleRoutes
  repeat' first
    | with_reducible assumption
    | (extract_lets +onlyGivenNames x; try (refine Keep.cut (s := x) ?_ ?_; (on_goal 1 => subst x); (on_goal 2 => intro hx; clear_value x)))
    | with_reducible apply State.failedDuties_keep
    | with_reducible apply State.finishLayer_keep
    | with_reducible apply Keep.ite
    | with_reducible apply Keep.foldl
    | (intro x a hx; beta_reduce)
    | split

theorem State.discardInvalid_keep {r s : State} (h : Keep r s) : Keep r (State.discardInvalid s) := by
  unfold State.discardInvalid
  repeat' first
    | with_reducible assumption
    | (extract_lets +onlyGivenNames x; try (refine Keep.cut (s := x) ?_ ?_; (on_goal 1 => subst x); (on_goal 2 => intro hx; clear_value x)))
    | with_reducible apply State.setRte_keep

theorem State.discardOld_keep {r s : State} (h : Keep r s) : Keep r (State.discardOld s) := by
  unfold State.discardOld
  repeat' first
    | with_reducible assumption
    | (extract_lets +onlyGivenNames x; try (refine Keep.cut (s := x) ?_ ?_; (on_goal 1 => subst x); (on_goal 2 => intro hx; clear_value x)))
    | with_reducible apply State.setRte_keep

theorem State.discardDup_keep {r s : State} (h : Keep r s) : Keep r (State.discardDup s) := by
  unfold State.discardDup
  repeat' first
    | with_reducible assumption
    | (extract_lets +onlyGivenNames x; try (refine Keep.cut (s := x) ?_ ?_; (on_goal 1 => subst x); (on_goal 2 => intro hx; clear_value x)))
    | with_reducible apply State.setRte_keep

theorem State.holdPkt_keep {r s : State} (h : Keep r s) (p : RoutePkt) : Keep r (State.holdPkt s p) := by
  unfold State.holdPkt
  repeat' first
    | with_reducible assumption
    | (extract_lets +onlyGivenNames x; try (refine Keep.cut (s := x) ?_ ?_; (on_goal 1 => subst x); (on_goal 2 => intro hx; clear_value x)))
    | with_reducible apply State.discardInvalid_keep
    | with_reducible apply State.discardDup_keep
    | with_reducible apply State.setRte_keep
    | with_reducible apply Keep.ite

theorem State.routeIn_keep {r s : State} (h : Keep r s) (p : RoutePkt) (ptype : Nat) (next : Bool) (f : State → State) (hf : ∀ v0, Keep r v0 → Keep r (f v0)) :
    Keep r (State.routeIn s p ptype next f) := by
  unfold State.routeIn
  repeat' first
    | with_reducible assumption
    | (extract_lets +onlyGivenNames x; try (refine Keep.cut (s := x) ?_ ?_; (on_goal 1 => subst x); (on_goal 2 => intro hx; clear_value x)))
    | with_reducible apply State.discardInvalid_keep
    | with_reducible apply State.discardOld_keep
    | with_reducible apply State.holdPkt_keep
    | with_reducible apply hf
    | with_reducible apply Keep.ite
    | split

theorem State.writeShape_keep {r s : State} (h : Keep r s) (m : Model) (layer : Nat) (p : Nat × Nat) :
    Keep r (State.writeShape s m layer p) := by
  unfold State.writeShape
  repeat' first
    | with_reducible assumption
    | (extract_lets +onlyGivenNames x; try (refine Keep.cut (s := x) ?_ ?_; (on_goal 1 => subst x); (on_goal 2 => intro hx; clear_value x)))
    | with_reducible apply State.storeOk_keep

theorem State.sendPourEnds_keep {r s : State} (h : Keep r s) (layer : Nat) : Keep r (State.sendPourEnds s layer) := by
  unfold State.sendPourEnds
  repeat' first
    | with_reducible assumption
    | (extract_lets +onlyGivenNames x; try (refine Keep.cut (s := x) ?_ ?_; (on_goal 1 => subst x); (on_goal 2 => intro hx; clear_value x)))
    | with_reducible apply State.routeSend_keep
    | with_reducible apply State.setRte_keep
    | with_reducible apply Keep.ite
    | with_reducible apply Keep.foldl
    | (intro x a hx; beta_reduce)

theorem State.settleLayer_keep {r s : State} (h : Keep r s) (layer : Nat) : Keep r (State.settleLayer s layer) := by
  unfold State.settleLayer
  repeat' first
    | with_reducible assumption
    | (extract_lets +onlyGivenNames x; try (refine Keep.cut (s := x) ?_ ?_; (on_goal 1 => subst x); (on_goal 2 => intro hx; clear_value x)))
    | with_reducible apply State.writeShape_keep
    | with_reducible apply State.sendPourEnds_keep
    | with_reducible apply State.setRte_keep
    | with_reducible apply Keep.ite
    | with_reducible apply Keep.foldl
    | (intro x a hx; beta_reduce)
    | split

theorem State.takeDispatch_keep {r s : State} (h : Keep r s) (p : RoutePkt) : Keep r (State.takeDispatch s p) := by
  unfold State.takeDispatch
  repeat' first
    | with_reducible assumption
    | (extract_lets +onlyGivenNames x; try (refine Keep.cut (s := x) ?_ ?_; (on_goal 1 => subst x); (on_goal 2 => intro hx; clear_value x)))
    | with_reducible apply State.discardInvalid_keep
    | with_reducible apply State.discardDup_keep
    | with_reducible apply State.storeOk_keep
    | with_reducible apply State.settleLayer_keep
    | with_reducible apply State.setRte_keep
    | with_reducible apply Keep.ite

theorem State.takeDispEnd_keep {r s : State} (h : Keep r s) (p : RoutePkt) : Keep r (State.takeDispEnd s p) := by
  unfold State.takeDispEnd
  repeat' first
    | with_reducible assumption
    | (extract_lets +onlyGivenNames x; try (refine Keep.cut (s := x) ?_ ?_; (on_goal 1 => subst x); (on_goal 2 => intro hx; clear_value x)))
    | with_reducible apply State.discardDup_keep
    | with_reducible apply State.settleLayer_keep
    | with_reducible apply State.setRte_keep
    | with_reducible apply Keep.ite

theorem State.runHeld_keep {r s : State} (h : Keep r s) : Keep r (State.runHeld s) := by
  unfold State.runHeld
  repeat' first
    | with_reducible assumption
    | (extract_lets +onlyGivenNames x; try (refine Keep.cut (s := x) ?_ ?_; (on_goal 1 => subst x); (on_goal 2 => intro hx; clear_value x)))
    | with_reducible apply State.routeIn_keep
    | with_reducible apply State.takeDispatch_keep
    | with_reducible apply State.takeDispEnd_keep
    | with_reducible apply State.setRte_keep
    | with_reducible apply Keep.ite
    | with_reducible apply Keep.foldl
    | (intro x a hx; beta_reduce)
    | (intro x hx; beta_reduce)

theorem State.startSteep_keep {r s : State} (h : Keep r s) (inp : BoundaryIn) (next : Word) (go : Bool) :
    Keep r (State.startSteep s inp next go) := by
  unfold State.startSteep
  repeat' first
    | with_reducible assumption
    | (extract_lets +onlyGivenNames x; try (refine Keep.cut (s := x) ?_ ?_; (on_goal 1 => subst x); (on_goal 2 => intro hx; clear_value x)))
    | with_reducible apply State.prefillControls_keep
    | with_reducible apply State.readRecord_keep
    | with_reducible apply State.formBatch_keep
    | with_reducible apply State.setSteep_keep
    | with_reducible apply State.writeBatch_keep
    | with_reducible apply State.cacheTouch_keep
    | with_reducible apply State.dataError_keep
    | with_reducible apply State.fatal_keep
    | with_reducible apply State.settleRoutes_keep
    | with_reducible apply State.runHeld_keep
    | with_reducible apply Keep.ite
    | with_reducible apply Keep.foldl
    | (intro x a hx; beta_reduce)

theorem State.sendFrame_keep {r s : State} (h : Keep r s) (l : Nat) (f : Frame) : Keep r (State.sendFrame s l f) := by
  unfold State.sendFrame
  repeat' first
    | with_reducible assumption
    | (extract_lets +onlyGivenNames x; try (refine Keep.cut (s := x) ?_ ?_; (on_goal 1 => subst x); (on_goal 2 => intro hx; clear_value x)))
    | with_reducible apply State.linkSend_keep
    | with_reducible apply State.emit_keep

theorem State.reportLink_keep {r s : State} (h : Keep r s) (l : Nat) : Keep r (State.reportLink s l) := by
  unfold State.reportLink
  repeat' first
    | with_reducible assumption
    | (extract_lets +onlyGivenNames x; try (refine Keep.cut (s := x) ?_ ?_; (on_goal 1 => subst x); (on_goal 2 => intro hx; clear_value x)))
    | with_reducible apply State.sendFrame_keep
    | with_reducible apply Keep.ite
    | (fail_if_no_progress with_reducible refine Keep.mk' ?_ rfl rfl rfl rfl rfl rfl rfl rfl rfl rfl)
    | split

theorem State.query_keep {r s : State} (h : Keep r s) : Keep r (State.query s) := by
  unfold State.query
  repeat' first
    | with_reducible assumption
    | (extract_lets +onlyGivenNames x; try (refine Keep.cut (s := x) ?_ ?_; (on_goal 1 => subst x); (on_goal 2 => intro hx; clear_value x)))
    | with_reducible apply State.setDisc_keep
    | with_reducible apply State.sendFrame_keep
    | split

theorem State.startRound_keep {r s : State} (h : Keep r s) : Keep r (State.startRound s) := by
  unfold State.startRound
  repeat' first
    | with_reducible assumption
    | (extract_lets +onlyGivenNames x; try (refine Keep.cut (s := x) ?_ ?_; (on_goal 1 => subst x); (on_goal 2 => intro hx; clear_value x)))
    | with_reducible apply State.setDisc_keep
    | with_reducible apply State.setDom_keep
    | with_reducible apply State.reportLink_keep
    | with_reducible apply State.query_keep
    | with_reducible apply Keep.foldl
    | (intro x a hx; beta_reduce)

theorem State.enterBringup_keep {r s : State} (h : Keep r s) : Keep r (State.enterBringup s) := by
  unfold State.enterBringup
  repeat' first
    | with_reducible assumption
    | (extract_lets +onlyGivenNames x; try (refine Keep.cut (s := x) ?_ ?_; (on_goal 1 => subst x); (on_goal 2 => intro hx; clear_value x)))
    | with_reducible apply State.freeClosed_keep
    | with_reducible apply State.abandon_keep
    | with_reducible apply State.leaveSteeps_keep
    | with_reducible apply State.abortSwap_keep
    | with_reducible apply State.setDisc_keep
    | with_reducible apply State.setDom_keep
    | with_reducible apply Keep.ite

theorem State.applyRelease_keep {r s : State} (h : Keep r s) (inp : BoundaryIn) (r_0 : RelRec) :
    Keep r (State.applyRelease s inp r_0) := by
  unfold State.applyRelease
  repeat' first
    | with_reducible assumption
    | (extract_lets +onlyGivenNames x; try (refine Keep.cut (s := x) ?_ ?_; (on_goal 1 => subst x); (on_goal 2 => intro hx; clear_value x)))
    | with_reducible apply State.applyVerdict_keep
    | with_reducible apply State.abortSwap_keep
    | with_reducible apply State.switchBank_keep
    | with_reducible apply State.enterState_keep
    | with_reducible apply State.adoptRevs_keep
    | with_reducible apply State.cut_keep
    | with_reducible apply State.startSteep_keep
    | with_reducible apply State.setRte_keep
    | with_reducible apply State.startRound_keep
    | with_reducible apply State.enterBringup_keep
    | with_reducible apply Keep.ite

theorem State.armAccepted_keep {r s : State} (h : Keep r s) (a : Arming) (node : Nat) :
    Keep r (State.armAccepted s a node) := by
  unfold State.armAccepted
  repeat' first
    | with_reducible assumption
    | (extract_lets +onlyGivenNames x; try (refine Keep.cut (s := x) ?_ ?_; (on_goal 1 => subst x); (on_goal 2 => intro hx; clear_value x)))
    | with_reducible apply State.setDom_keep

theorem State.sendDisarm_keep {r s : State} (h : Keep r s) : Keep r (State.sendDisarm s) := by
  unfold State.sendDisarm
  repeat' first
    | with_reducible assumption
    | (extract_lets +onlyGivenNames x; try (refine Keep.cut (s := x) ?_ ?_; (on_goal 1 => subst x); (on_goal 2 => intro hx; clear_value x)))
    | with_reducible apply State.emit_keep
    | with_reducible apply Keep.foldl
    | (intro x a hx; beta_reduce)

theorem State.armRefused_keep {r s : State} (h : Keep r s) (node cond : Nat) : Keep r (State.armRefused s node cond) := by
  unfold State.armRefused
  repeat' first
    | with_reducible assumption
    | (extract_lets +onlyGivenNames x; try (refine Keep.cut (s := x) ?_ ?_; (on_goal 1 => subst x); (on_goal 2 => intro hx; clear_value x)))
    | with_reducible apply State.sendDisarm_keep
    | with_reducible apply State.endArm_keep

theorem State.armRing_keep {r s : State} (h : Keep r s) (n : Nat) : Keep r (State.armRing s n) := by
  unfold State.armRing
  repeat' first
    | with_reducible assumption
    | (extract_lets +onlyGivenNames x; try (refine Keep.cut (s := x) ?_ ?_; (on_goal 1 => subst x); (on_goal 2 => intro hx; clear_value x)))
    | with_reducible apply State.setRing_keep
    | with_reducible apply State.emit_keep
    | with_reducible apply Keep.ite

theorem State.armSelf_keep {r s : State} (h : Keep r s) (g : Word) (r_0 : HomeRev) : Keep r (State.armSelf s g r_0) := by
  unfold State.armSelf
  repeat' first
    | with_reducible assumption
    | (extract_lets +onlyGivenNames x; try (refine Keep.cut (s := x) ?_ ?_; (on_goal 1 => subst x); (on_goal 2 => intro hx; clear_value x)))
    | with_reducible apply State.setRte_keep
    | with_reducible refine State.setCaddy_upd ?_ rfl rfl

theorem State.hold_keep {r s : State} (h : Keep r s) (n : Nat) (d : W512) (w : WaitFor) : Keep r (State.hold s n d w) := by
  unfold State.hold
  repeat' first
    | with_reducible assumption
    | (fail_if_no_progress with_reducible refine Keep.mk' ?_ rfl rfl rfl rfl rfl rfl rfl rfl rfl rfl)

theorem State.armSwap_keep {r s : State} (h : Keep r s) (n : Nat) (d : W512) : Keep r (State.armSwap s n d) := by
  unfold State.armSwap
  repeat' first
    | with_reducible assumption
    | (extract_lets +onlyGivenNames x; try (refine Keep.cut (s := x) ?_ ?_; (on_goal 1 => subst x); (on_goal 2 => intro hx; clear_value x)))
    | with_reducible apply State.abortSwap_keep
    | with_reducible apply State.hold_keep
    | with_reducible apply State.armRefused_keep
    | with_reducible apply State.armSelf_keep
    | with_reducible apply State.emit_keep
    | with_reducible apply State.armAccepted_keep
    | with_reducible apply Keep.ite
    | with_reducible apply Keep.foldl
    | (intro x a hx; beta_reduce)
    | split

theorem State.asIdle_keep {r s : State} (h : Keep r s) : Keep r (State.asIdle s) := by
  unfold State.asIdle
  repeat' first
    | with_reducible assumption
    | (extract_lets +onlyGivenNames x; try (refine Keep.cut (s := x) ?_ ?_; (on_goal 1 => subst x); (on_goal 2 => intro hx; clear_value x)))
    | (fail_if_no_progress with_reducible refine Keep.mk' ?_ rfl rfl rfl rfl rfl rfl rfl rfl rfl rfl)

theorem State.atCut_keep {r s : State} (h : Keep r s) (n : Nat) (d : W512) : Keep r (State.atCut s n d) := by
  unfold State.atCut
  repeat' first
    | with_reducible assumption
    | (extract_lets +onlyGivenNames x; try (refine Keep.cut (s := x) ?_ ?_; (on_goal 1 => subst x); (on_goal 2 => intro hx; clear_value x)))
    | with_reducible apply State.effect_keep
    | with_reducible apply Keep.ite
    | (fail_if_no_progress with_reducible refine Keep.mk' ?_ rfl rfl rfl rfl rfl rfl rfl rfl rfl rfl)

theorem State.atomicOp_keep {r s : State} (h : Keep r s) (op : AtomicOp) (n a : Nat) (operand compare : Nat) :
    Keep r (State.atomicOp s op n a operand compare).2 := by
  unfold State.atomicOp
  repeat' first
    | with_reducible assumption
    | (extract_lets +onlyGivenNames x; try (refine Keep.cut (s := x) ?_ ?_; (on_goal 1 => subst x); (on_goal 2 => intro hx; clear_value x)))
    | with_reducible apply State.store_keep

theorem State.badRead_keep {r s : State} (h : Keep r s) (b ch : Nat) : Keep r (State.badRead s b ch) := by
  unfold State.badRead
  repeat' first
    | with_reducible assumption
    | (extract_lets +onlyGivenNames x; try (refine Keep.cut (s := x) ?_ ?_; (on_goal 1 => subst x); (on_goal 2 => intro hx; clear_value x)))
    | with_reducible apply State.raise_keep
    | with_reducible apply Keep.ite
    | (fail_if_no_progress with_reducible refine Keep.mk' ?_ rfl rfl rfl rfl rfl rfl rfl rfl rfl rfl)

theorem State.barAccess_keep {r s : State} (h : Keep r s) : Keep r (State.barAccess s) := by
  unfold State.barAccess
  repeat' first
    | with_reducible assumption
    | with_reducible apply State.note_keep

theorem State.latchAbove_keep {r s : State} (h : Keep r s) (r_0 : Reg) (k : Nat) : Keep r (State.latchAbove s r_0 k) := by
  unfold State.latchAbove
  repeat' first
    | with_reducible assumption
    | (extract_lets +onlyGivenNames x; try (refine Keep.cut (s := x) ?_ ?_; (on_goal 1 => subst x); (on_goal 2 => intro hx; clear_value x)))
    | (fail_if_no_progress with_reducible refine Keep.mk' ?_ rfl rfl rfl rfl rfl rfl rfl rfl rfl rfl)

theorem State.barRead_keep {r s : State} (h : Keep r s) (off size : Nat) : Keep r (State.barRead s off size).2 := by
  unfold State.barRead
  repeat' first
    | with_reducible assumption
    | (extract_lets +onlyGivenNames x; try (refine Keep.cut (s := x) ?_ ?_; (on_goal 1 => subst x); (on_goal 2 => intro hx; clear_value x)))
    | with_reducible apply State.latchAbove_keep
    | with_reducible apply Keep.ite

theorem State.refuseWrite_keep {r s : State} (h : Keep r s) (reason off : Nat) :
    Keep r (State.refuseWrite s reason off) := by
  unfold State.refuseWrite
  repeat' first
    | with_reducible assumption
    | (extract_lets +onlyGivenNames x; try (refine Keep.cut (s := x) ?_ ?_; (on_goal 1 => subst x); (on_goal 2 => intro hx; clear_value x)))
    | (fail_if_no_progress with_reducible refine Keep.mk' ?_ rfl rfl rfl rfl rfl rfl rfl rfl rfl rfl)

theorem State.writeAlarm_keep {r s : State} (h : Keep r s) (v : Word) : Keep r (State.writeAlarm s v) := by
  unfold State.writeAlarm
  repeat' first
    | with_reducible assumption
    | (extract_lets +onlyGivenNames x; try (refine Keep.cut (s := x) ?_ ?_; (on_goal 1 => subst x); (on_goal 2 => intro hx; clear_value x)))
    | with_reducible apply State.refuseWrite_keep
    | with_reducible apply Keep.ite
    | (fail_if_no_progress with_reducible refine Keep.mk' ?_ rfl rfl rfl rfl rfl rfl rfl rfl rfl rfl)

theorem State.regWrite_keep {r s : State} (h : Keep r s) (off : Nat) (state busy range : Bool) (f : State → State) (hf : ∀ v0, Keep r v0 → Keep r (f v0)) :
    Keep r (State.regWrite s off state busy range f) := by
  unfold State.regWrite
  repeat' first
    | with_reducible assumption
    | (extract_lets +onlyGivenNames x; try (refine Keep.cut (s := x) ?_ ?_; (on_goal 1 => subst x); (on_goal 2 => intro hx; clear_value x)))
    | with_reducible apply State.refuseWrite_keep
    | with_reducible apply hf
    | with_reducible apply Keep.ite
    | split

theorem State.unstage_keep {r s : State} (h : Keep r s) (off : Nat) : Keep r (State.unstage s off) := by
  unfold State.unstage
  repeat' first
    | with_reducible assumption
    | (extract_lets +onlyGivenNames x; try (refine Keep.cut (s := x) ?_ ?_; (on_goal 1 => subst x); (on_goal 2 => intro hx; clear_value x)))
    | (fail_if_no_progress with_reducible refine Keep.mk' ?_ rfl rfl rfl rfl rfl rfl rfl rfl rfl rfl)

theorem State.stage_keep {r s : State} (h : Keep r s) (off : Nat) (v : Word) : Keep r (State.stage s off v) := by
  unfold State.stage
  repeat' first
    | with_reducible assumption
    | (extract_lets +onlyGivenNames x; try (refine Keep.cut (s := x) ?_ ?_; (on_goal 1 => subst x); (on_goal 2 => intro hx; clear_value x)))
    | (fail_if_no_progress with_reducible refine Keep.mk' ?_ rfl rfl rfl rfl rfl rfl rfl rfl rfl rfl)

theorem State.write64_keep {r s : State} (h : Keep r s) (off size : Nat) (v : DWord) (state busy : Bool) (range : DWord → Bool) (put : DWord → State → State) (hput : ∀ v0 v1, Keep r v1 → Keep r (put v0 v1)) :
    Keep r (State.write64 s off size v state busy range put) := by
  unfold State.write64
  repeat' first
    | with_reducible assumption
    | (extract_lets +onlyGivenNames x; try (refine Keep.cut (s := x) ?_ ?_; (on_goal 1 => subst x); (on_goal 2 => intro hx; clear_value x)))
    | with_reducible apply State.regWrite_keep
    | with_reducible apply State.unstage_keep
    | with_reducible apply State.stage_keep
    | with_reducible apply hput
    | with_reducible apply Keep.ite
    | (intro x hx; beta_reduce)

theorem State.runImage_keep {r s : State} (h : Keep r s) (b : List Byte) : Keep r (State.runImage s b) := by
  unfold State.runImage
  repeat' first
    | with_reducible assumption
    | (extract_lets +onlyGivenNames x; try (refine Keep.cut (s := x) ?_ ?_; (on_goal 1 => subst x); (on_goal 2 => intro hx; clear_value x)))
    | (with_reducible refine Keep.iteH _ (fun e => ?_) ?_; on_goal 1 => (simp only [Bool.and_eq_true, decide_eq_true_eq] at e; exact h.trans ⟨rfl, ⟨_, Nat.le_of_lt e.2, rfl⟩, rfl, id, id, id, fun h => ⟨h, rfl, rfl⟩⟩))
    | (fail_if_no_progress with_reducible refine Keep.mk' ?_ rfl rfl rfl rfl rfl rfl rfl rfl rfl rfl)

theorem State.refuseImage_keep {r s : State} (h : Keep r s) (status : Nat) : Keep r (State.refuseImage s status) := by
  unfold State.refuseImage
  repeat' first
    | with_reducible assumption
    | (extract_lets +onlyGivenNames x; try (refine Keep.cut (s := x) ?_ ?_; (on_goal 1 => subst x); (on_goal 2 => intro hx; clear_value x)))
    | with_reducible apply State.note_keep
    | with_reducible apply Keep.ite
    | (fail_if_no_progress with_reducible refine Keep.mk' ?_ rfl rfl rfl rfl rfl rfl rfl rfl rfl rfl)

theorem State.tryImage_keep {r s : State} (h : Keep r s) (image : Option (List Byte)) :
    Keep r (State.tryImage s image) := by
  unfold State.tryImage
  repeat' first
    | with_reducible assumption
    | (extract_lets +onlyGivenNames x; try (refine Keep.cut (s := x) ?_ ?_; (on_goal 1 => subst x); (on_goal 2 => intro hx; clear_value x)))
    | with_reducible apply State.runImage_keep
    | with_reducible apply State.refuseImage_keep
    | with_reducible apply Keep.ite

theorem State.bootGo_keep {r s : State} (h : Keep r s) (v : Word) : Keep r (State.bootGo s v) := by
  unfold State.bootGo
  repeat' first
    | with_reducible assumption
    | (extract_lets +onlyGivenNames x; try (refine Keep.cut (s := x) ?_ ?_; (on_goal 1 => subst x); (on_goal 2 => intro hx; clear_value x)))
    | with_reducible apply State.regWrite_keep
    | with_reducible apply State.tryImage_keep
    | (fail_if_no_progress with_reducible refine Keep.mk' ?_ rfl rfl rfl rfl rfl rfl rfl rfl rfl rfl)
    | (intro x hx; beta_reduce)

theorem State.writeHif_keep {r s : State} (h : Keep r s) (off size : Nat) (v : DWord) :
    Keep r (State.writeHif s off size v) := by
  unfold State.writeHif
  repeat' first
    | with_reducible assumption
    | (extract_lets +onlyGivenNames x; try (refine Keep.cut (s := x) ?_ ?_; (on_goal 1 => subst x); (on_goal 2 => intro hx; clear_value x)))
    | with_reducible apply State.write64_keep
    | with_reducible apply State.bootGo_keep
    | with_reducible apply State.regWrite_keep
    | with_reducible apply Keep.ite
    | (fail_if_no_progress with_reducible refine Keep.mk' ?_ rfl rfl rfl rfl rfl rfl rfl rfl rfl rfl)
    | (intro x a hx; beta_reduce)
    | (intro x hx; beta_reduce)

theorem State.disableRing_keep {r s : State} (h : Keep r s) (n : Nat) : Keep r (State.disableRing s n) := by
  unfold State.disableRing
  repeat' first
    | with_reducible assumption
    | (extract_lets +onlyGivenNames x; try (refine Keep.cut (s := x) ?_ ?_; (on_goal 1 => subst x); (on_goal 2 => intro hx; clear_value x)))
    | with_reducible apply State.onRing_keep
    | with_reducible apply State.endWait_keep
    | with_reducible apply Keep.foldl
    | (intro x a hx; beta_reduce)

theorem State.writeRingCtrl_keep {r s : State} (h : Keep r s) (n v : Nat) : Keep r (State.writeRingCtrl s n v) := by
  unfold State.writeRingCtrl
  repeat' first
    | with_reducible assumption
    | (extract_lets +onlyGivenNames x; try (refine Keep.cut (s := x) ?_ ?_; (on_goal 1 => subst x); (on_goal 2 => intro hx; clear_value x)))
    | with_reducible apply State.refuseWrite_keep
    | with_reducible apply State.setRing_keep
    | with_reducible apply State.disableRing_keep
    | with_reducible apply Keep.ite
    | split

theorem State.writeRing_keep {r s : State} (h : Keep r s) (off size : Nat) (v : DWord) :
    Keep r (State.writeRing s off size v) := by
  unfold State.writeRing
  repeat' first
    | with_reducible assumption
    | (extract_lets +onlyGivenNames x; try (refine Keep.cut (s := x) ?_ ?_; (on_goal 1 => subst x); (on_goal 2 => intro hx; clear_value x)))
    | with_reducible apply State.writeRingCtrl_keep
    | with_reducible apply State.regWrite_keep
    | with_reducible apply State.onRing_keep
    | with_reducible apply State.write64_keep
    | with_reducible apply State.refuseWrite_keep
    | with_reducible apply Keep.ite
    | (intro x a hx; beta_reduce)
    | (intro x hx; beta_reduce)

theorem State.setLimits_keep {r s : State} (h : Keep r s) (f : Limits → Limits) : Keep r (State.setLimits s f) := by
  unfold State.setLimits
  repeat' first
    | with_reducible assumption
    | (extract_lets +onlyGivenNames x; try (refine Keep.cut (s := x) ?_ ?_; (on_goal 1 => subst x); (on_goal 2 => intro hx; clear_value x)))
    | (fail_if_no_progress with_reducible refine Keep.mk' ?_ rfl rfl rfl rfl rfl rfl rfl rfl rfl rfl)

theorem State.writeServe_keep {r s : State} (h : Keep r s) (off : Nat) (v : Word) : Keep r (State.writeServe s off v) := by
  unfold State.writeServe
  repeat' first
    | with_reducible assumption
    | (extract_lets +onlyGivenNames x; try (refine Keep.cut (s := x) ?_ ?_; (on_goal 1 => subst x); (on_goal 2 => intro hx; clear_value x)))
    | with_reducible apply State.regWrite_keep
    | with_reducible apply State.setLimits_keep
    | with_reducible apply Keep.ite
    | (intro x hx; beta_reduce)

theorem State.writeKv_keep {r s : State} (h : Keep r s) (off size : Nat) (v : DWord) :
    Keep r (State.writeKv s off size v) := by
  unfold State.writeKv
  repeat' first
    | with_reducible assumption
    | (extract_lets +onlyGivenNames x; try (refine Keep.cut (s := x) ?_ ?_; (on_goal 1 => subst x); (on_goal 2 => intro hx; clear_value x)))
    | with_reducible apply State.write64_keep
    | with_reducible apply State.regWrite_keep
    | with_reducible apply Keep.ite
    | (fail_if_no_progress with_reducible refine Keep.mk' ?_ rfl rfl rfl rfl rfl rfl rfl rfl rfl rfl)
    | (intro x a hx; beta_reduce)
    | (intro x hx; beta_reduce)

theorem State.writeRte_keep {r s : State} (h : Keep r s) (off size : Nat) (v : DWord) :
    Keep r (State.writeRte s off size v) := by
  unfold State.writeRte
  repeat' first
    | with_reducible assumption
    | (extract_lets +onlyGivenNames x; try (refine Keep.cut (s := x) ?_ ?_; (on_goal 1 => subst x); (on_goal 2 => intro hx; clear_value x)))
    | with_reducible apply State.write64_keep
    | with_reducible apply Keep.ite
    | (fail_if_no_progress with_reducible refine Keep.mk' ?_ rfl rfl rfl rfl rfl rfl rfl rfl rfl rfl)
    | (intro x a hx; beta_reduce)

theorem State.relayout_keep {r s : State} (h : Keep r s) {m : Mem} :
    Keep r (State.relayout s m) :=
  Keep.updWf h rfl rfl rfl (fun _ => rfl) id rfl rfl rfl rfl rfl rfl rfl

theorem State.writeSlice_keep {r s : State} (h : Keep r s) (off : Nat) (v : Word) : Keep r (State.writeSlice s off v) := by
  unfold State.writeSlice
  repeat' first
    | with_reducible assumption
    | (extract_lets +onlyGivenNames x; try (refine Keep.cut (s := x) ?_ ?_; (on_goal 1 => subst x); (on_goal 2 => intro hx; clear_value x)))
    | with_reducible apply State.regWrite_keep
    | with_reducible apply State.relayout_keep
    | (intro x hx; beta_reduce)

theorem State.setPool_keep {r s : State} (h : Keep r s) (base size : DWord) : Keep r (State.setPool s base size) := by
  unfold State.setPool
  repeat' first
    | with_reducible assumption
    | (extract_lets +onlyGivenNames x; try (refine Keep.cut (s := x) ?_ ?_; (on_goal 1 => subst x); (on_goal 2 => intro hx; clear_value x)))
    | (fail_if_no_progress with_reducible refine Keep.mk' ?_ rfl rfl rfl rfl rfl rfl rfl rfl rfl rfl)

theorem State.placeCopies_keep {r s : State} (h : Keep r s) (c0 c1 : Nat) :
    Keep r (State.placeCopies s c0 c1) :=
  Keep.updWf h rfl rfl rfl (fun e => Memory.wf_clear _ _ (Memory.wf_clear _ _ e)) id rfl rfl rfl rfl rfl rfl rfl

theorem State.dropWays_keep {r s : State} (h : Keep r s) (kind : Nat) (old new : DWord) :
    Keep r (State.dropWays s kind old new) := by
  unfold State.dropWays
  repeat' first
    | with_reducible assumption
    | (extract_lets +onlyGivenNames x; try (refine Keep.cut (s := x) ?_ ?_; (on_goal 1 => subst x); (on_goal 2 => intro hx; clear_value x)))
    | (fail_if_no_progress with_reducible refine Keep.mk' ?_ rfl rfl rfl rfl rfl rfl rfl rfl rfl rfl)

theorem State.unstageSet_keep {r s : State} (h : Keep r s) (c : Nat) :
    Keep r (State.unstageSet s c) :=
  Keep.foldl h _ (fun _ _ k => State.unstage_keep k _) _

theorem State.setClassCh_keep {r s : State} (h : Keep r s) (c : Nat) (m : W512) : Keep r (State.setClassCh s c m) := by
  unfold State.setClassCh
  extract_lets b k
  refine Keep.updWf h rfl rfl rfl (fun e => ?_) id rfl rfl rfl rfl rfl rfl rfl
  exact Memory.wf_clearIf (fun a => b ≤ a && a < b + 0x010000000000) e

theorem State.writeClassCh_keep {r s : State} (h : Keep r s) (off : Nat) (v : Word) :
    Keep r (State.writeClassCh s off v) := by
  unfold State.writeClassCh
  repeat' first
    | with_reducible assumption
    | (extract_lets +onlyGivenNames x; try (refine Keep.cut (s := x) ?_ ?_; (on_goal 1 => subst x); (on_goal 2 => intro hx; clear_value x)))
    | with_reducible apply State.regWrite_keep
    | with_reducible apply State.stage_keep
    | with_reducible apply State.unstageSet_keep
    | with_reducible apply State.setClassCh_keep
    | with_reducible apply Keep.ite
    | (intro x hx; beta_reduce)

theorem State.writeMem_keep {r s : State} (h : Keep r s) (off size : Nat) (v : DWord) :
    Keep r (State.writeMem s off size v) := by
  unfold State.writeMem
  repeat' first
    | with_reducible assumption
    | (extract_lets +onlyGivenNames x; try (refine Keep.cut (s := x) ?_ ?_; (on_goal 1 => subst x); (on_goal 2 => intro hx; clear_value x)))
    | with_reducible apply State.writeSlice_keep
    | with_reducible apply State.regWrite_keep
    | with_reducible apply State.write64_keep
    | with_reducible apply State.setPool_keep
    | with_reducible apply State.placeCopies_keep
    | with_reducible apply State.dropWays_keep
    | with_reducible apply State.writeClassCh_keep
    | with_reducible apply Keep.ite
    | (fail_if_no_progress with_reducible refine Keep.mk' ?_ rfl rfl rfl rfl rfl rfl rfl rfl rfl rfl)
    | (intro x a hx; beta_reduce)
    | (intro x hx; beta_reduce)

theorem State.writeCad_keep {r s : State} (h : Keep r s) (off : Nat) (v : Word) : Keep r (State.writeCad s off v) := by
  unfold State.writeCad
  repeat' first
    | with_reducible assumption
    | (extract_lets +onlyGivenNames x; try (refine Keep.cut (s := x) ?_ ?_; (on_goal 1 => subst x); (on_goal 2 => intro hx; clear_value x)))
    | with_reducible apply State.regWrite_keep
    | with_reducible apply Keep.ite
    | with_reducible refine State.setCaddy_upd ?_ rfl rfl
    | (intro x hx; beta_reduce)

theorem State.writeTrusted_keep {r s : State} (h : Keep r s) (v : Word) : Keep r (State.writeTrusted s v) := by
  unfold State.writeTrusted
  repeat' first
    | with_reducible assumption
    | (extract_lets +onlyGivenNames x; try (refine Keep.cut (s := x) ?_ ?_; (on_goal 1 => subst x); (on_goal 2 => intro hx; clear_value x)))
    | with_reducible apply State.refuseWrite_keep
    | with_reducible apply State.setDom_keep
    | with_reducible apply Keep.ite
    | split

theorem State.unstageExport_keep {r s : State} (h : Keep r s) :
    Keep r (State.unstageExport s) :=
  Keep.foldl h _ (fun _ _ k => State.unstage_keep k _) _

theorem State.writeExportCmd_keep {r s : State} (h : Keep r s) (v : Word) : Keep r (State.writeExportCmd s v) := by
  unfold State.writeExportCmd
  repeat' first
    | with_reducible assumption
    | (extract_lets +onlyGivenNames x; try (refine Keep.cut (s := x) ?_ ?_; (on_goal 1 => subst x); (on_goal 2 => intro hx; clear_value x)))
    | with_reducible apply State.regWrite_keep
    | with_reducible apply State.unstageExport_keep
    | with_reducible apply State.setDom_keep
    | with_reducible apply Keep.id_
    | with_reducible apply Keep.ite
    | (intro x hx; beta_reduce)

theorem State.writeFab_keep {r s : State} (h : Keep r s) (off : Nat) (v : Word) : Keep r (State.writeFab s off v) := by
  unfold State.writeFab
  repeat' first
    | with_reducible assumption
    | (extract_lets +onlyGivenNames x; try (refine Keep.cut (s := x) ?_ ?_; (on_goal 1 => subst x); (on_goal 2 => intro hx; clear_value x)))
    | with_reducible apply State.writeTrusted_keep
    | with_reducible apply State.regWrite_keep
    | with_reducible apply State.setDom_keep
    | with_reducible apply State.writeExportCmd_keep
    | with_reducible apply State.stage_keep
    | with_reducible apply Keep.ite
    | (intro x hx; beta_reduce)

theorem State.lnkCtrlWrite_keep {r s : State} (h : Keep r s) (l : Nat) (v : Word) (f : State → State) (hf : ∀ v0, Keep r v0 → Keep r (f v0)) :
    Keep r (State.lnkCtrlWrite s l v f) := by
  unfold State.lnkCtrlWrite
  repeat' first
    | with_reducible assumption
    | (extract_lets +onlyGivenNames x; try (refine Keep.cut (s := x) ?_ ?_; (on_goal 1 => subst x); (on_goal 2 => intro hx; clear_value x)))
    | with_reducible apply State.regWrite_keep

theorem State.settlePort_keep {r s : State} (h : Keep r s) (p : Nat) : Keep r (State.settlePort s p) := by
  unfold State.settlePort
  repeat' first
    | with_reducible assumption
    | (extract_lets +onlyGivenNames x; try (refine Keep.cut (s := x) ?_ ?_; (on_goal 1 => subst x); (on_goal 2 => intro hx; clear_value x)))
    | with_reducible apply Keep.ite
    | (fail_if_no_progress with_reducible refine Keep.mk' ?_ rfl rfl rfl rfl rfl rfl rfl rfl rfl rfl)

theorem State.resendPacket_keep {r s : State} (h : Keep r s) (port : Nat) (p : SentPkt) :
    Keep r (State.resendPacket s port p) := by
  unfold State.resendPacket
  repeat' first
    | with_reducible assumption
    | (extract_lets +onlyGivenNames x; try (refine Keep.cut (s := x) ?_ ?_; (on_goal 1 => subst x); (on_goal 2 => intro hx; clear_value x)))
    | with_reducible apply State.fabOn_keep
    | with_reducible apply State.fabSend_keep
    | with_reducible apply State.routeSend_keep
    | with_reducible apply Keep.ite
    | split

theorem State.downLink_keep {r s : State} (h : Keep r s) (l : Nat) (train : LinkTrain) :
    Keep r (State.downLink s l train) := by
  unfold State.downLink
  repeat' first
    | with_reducible assumption
    | (extract_lets +onlyGivenNames x; try (refine Keep.cut (s := x) ?_ ?_; (on_goal 1 => subst x); (on_goal 2 => intro hx; clear_value x)))
    | with_reducible apply State.setLink_keep
    | with_reducible apply State.settlePort_keep
    | with_reducible apply State.resendPacket_keep
    | with_reducible apply State.reportLink_keep
    | with_reducible apply Keep.ite
    | with_reducible apply Keep.foldl
    | (intro x a hx; beta_reduce)

theorem State.writeLnkCtrl_keep {r s : State} (h : Keep r s) (l : Nat) (v : Word) : Keep r (State.writeLnkCtrl s l v) := by
  unfold State.writeLnkCtrl
  repeat' first
    | with_reducible assumption
    | (extract_lets +onlyGivenNames x; try (refine Keep.cut (s := x) ?_ ?_; (on_goal 1 => subst x); (on_goal 2 => intro hx; clear_value x)))
    | with_reducible apply State.lnkCtrlWrite_keep
    | with_reducible apply State.onLink_keep
    | with_reducible apply State.downLink_keep
    | with_reducible apply Keep.ite
    | (intro x hx; beta_reduce)

theorem State.setPwr_keep {r s : State} (h : Keep r s) (p : Power) : Keep r (State.setPwr s p) := by
  unfold State.setPwr
  repeat' first
    | with_reducible assumption
    | (fail_if_no_progress with_reducible refine Keep.mk' ?_ rfl rfl rfl rfl rfl rfl rfl rfl rfl rfl)

theorem State.relimit_keep {r s : State} (h : Keep r s) : Keep r (State.relimit s) := by
  unfold State.relimit
  repeat' first
    | with_reducible assumption
    | (extract_lets +onlyGivenNames x; try (refine Keep.cut (s := x) ?_ ?_; (on_goal 1 => subst x); (on_goal 2 => intro hx; clear_value x)))
    | with_reducible apply State.setPwr_keep

theorem State.storeCap_keep {r s : State} (h : Keep r s) (w : Nat) (put : Power → Nat → Power) :
    Keep r (State.storeCap s w put) := by
  unfold State.storeCap
  repeat' first
    | with_reducible assumption
    | (extract_lets +onlyGivenNames x; try (refine Keep.cut (s := x) ?_ ?_; (on_goal 1 => subst x); (on_goal 2 => intro hx; clear_value x)))
    | with_reducible apply State.relimit_keep
    | with_reducible apply State.setPwr_keep
    | with_reducible apply State.note_keep
    | with_reducible apply Keep.ite

theorem State.writeCap_keep {r s : State} (h : Keep r s) (v : Word) : Keep r (State.writeCap s v) := by
  unfold State.writeCap
  repeat' first
    | with_reducible assumption
    | (extract_lets +onlyGivenNames x; try (refine Keep.cut (s := x) ?_ ?_; (on_goal 1 => subst x); (on_goal 2 => intro hx; clear_value x)))
    | with_reducible apply State.regWrite_keep
    | with_reducible apply State.storeCap_keep
    | (intro x hx; beta_reduce)

theorem State.writePwr_keep {r s : State} (h : Keep r s) (off : Nat) (v : Word) : Keep r (State.writePwr s off v) := by
  unfold State.writePwr
  repeat' first
    | with_reducible assumption
    | (extract_lets +onlyGivenNames x; try (refine Keep.cut (s := x) ?_ ?_; (on_goal 1 => subst x); (on_goal 2 => intro hx; clear_value x)))
    | with_reducible apply State.writeCap_keep
    | with_reducible apply State.regWrite_keep
    | with_reducible apply State.setPwr_keep
    | with_reducible apply Keep.ite
    | (intro x hx; beta_reduce)

theorem State.writeErrCtrl_keep {r s : State} (h : Keep r s) (v : Nat) : Keep r (State.writeErrCtrl s v) := by
  unfold State.writeErrCtrl
  repeat' first
    | with_reducible assumption
    | (extract_lets +onlyGivenNames x; try (refine Keep.cut (s := x) ?_ ?_; (on_goal 1 => subst x); (on_goal 2 => intro hx; clear_value x)))
    | with_reducible apply State.refuseWrite_keep
    | with_reducible apply Keep.ite
    | with_reducible refine State.setErr_upd ?_ rfl rfl rfl rfl
    | split

theorem State.writeErrHead_keep {r s : State} (h : Keep r s) (v : Word) : Keep r (State.writeErrHead s v) := by
  unfold State.writeErrHead
  repeat' first
    | with_reducible assumption
    | (extract_lets +onlyGivenNames x; try (refine Keep.cut (s := x) ?_ ?_; (on_goal 1 => subst x); (on_goal 2 => intro hx; clear_value x)))
    | with_reducible apply State.regWrite_keep
    | with_reducible refine State.setErr_upd ?_ (Err.consume_keep ..).1 (Err.consume_keep ..).2.1 (Err.consume_keep ..).2.2.1 (Err.consume_keep ..).2.2.2
    | with_reducible apply Keep.ite
    | (intro x hx; beta_reduce)

theorem State.writeLogSel_keep {r s : State} (h : Keep r s) (v : Word) : Keep r (State.writeLogSel s v) := by
  unfold State.writeLogSel
  repeat' first
    | with_reducible assumption
    | (extract_lets +onlyGivenNames x; try (refine Keep.cut (s := x) ?_ ?_; (on_goal 1 => subst x); (on_goal 2 => intro hx; clear_value x)))
    | with_reducible apply State.regWrite_keep
    | with_reducible refine State.setErr_upd ?_ rfl rfl rfl rfl
    | (intro x hx; beta_reduce)

theorem State.writeErr_keep {r s : State} (h : Keep r s) (off size : Nat) (v : DWord) :
    Keep r (State.writeErr s off size v) := by
  unfold State.writeErr
  repeat' first
    | with_reducible assumption
    | (extract_lets +onlyGivenNames x; try (refine Keep.cut (s := x) ?_ ?_; (on_goal 1 => subst x); (on_goal 2 => intro hx; clear_value x)))
    | with_reducible apply State.write64_keep
    | with_reducible apply State.writeErrCtrl_keep
    | with_reducible apply State.regWrite_keep
    | with_reducible apply State.writeErrHead_keep
    | with_reducible apply State.writeLogSel_keep
    | with_reducible apply Keep.ite
    | with_reducible refine State.setErr_upd ?_ rfl rfl rfl rfl
    | (intro x a hx; beta_reduce)
    | (intro x hx; beta_reduce)

theorem State.dbgWrite_keep {r s : State} (h : Keep r s) (off : Nat) (state range : Bool) (f : State → State) (hf : ∀ v0, Keep r v0 → Keep r (f v0)) :
    Keep r (State.dbgWrite s off state range f) := by
  unfold State.dbgWrite
  repeat' first
    | with_reducible assumption
    | (extract_lets +onlyGivenNames x; try (refine Keep.cut (s := x) ?_ ?_; (on_goal 1 => subst x); (on_goal 2 => intro hx; clear_value x)))
    | with_reducible apply State.refuseWrite_keep
    | with_reducible apply State.regWrite_keep
    | with_reducible apply Keep.ite
    | split

theorem State.corrected_keep {r s : State} (h : Keep r s) (e : ErrIn) (seqs : List Nat) :
    Keep r (State.corrected s e seqs) := by
  unfold State.corrected
  repeat' first
    | with_reducible assumption
    | (extract_lets +onlyGivenNames x; try (refine Keep.cut (s := x) ?_ ?_; (on_goal 1 => subst x); (on_goal 2 => intro hx; clear_value x)))
    | with_reducible apply State.note_keep
    | with_reducible apply State.raise_keep
    | with_reducible apply Keep.ite

theorem State.onTile_keep {r s : State} (h : Keep r s) (t_0 : TileAt) (f : Tile → Tile) :
    Keep r (State.onTile s t_0 f) := by
  unfold State.onTile
  repeat' first
    | with_reducible assumption
    | with_reducible apply State.setTile_keep

theorem State.stallTile_keep {r s : State} (h : Keep r s) (t_0 : TileAt) : Keep r (State.stallTile s t_0) := by
  unfold State.stallTile
  repeat' first
    | with_reducible assumption
    | (extract_lets +onlyGivenNames x; try (refine Keep.cut (s := x) ?_ ?_; (on_goal 1 => subst x); (on_goal 2 => intro hx; clear_value x)))
    | with_reducible apply State.onTile_keep
    | with_reducible apply State.raise_keep
    | with_reducible apply State.settleItems_keep
    | with_reducible apply State.reissueTile_keep
    | with_reducible apply Keep.ite

theorem State.inject_keep {r s : State} (h : Keep r s) (kind unit pos : Nat) : Keep r (State.inject s kind unit pos) := by
  unfold State.inject
  repeat' first
    | with_reducible assumption
    | (extract_lets +onlyGivenNames x; try (refine Keep.cut (s := x) ?_ ?_; (on_goal 1 => subst x); (on_goal 2 => intro hx; clear_value x)))
    | with_reducible apply State.drawBelow_keep
    | with_reducible apply State.corrected_keep
    | with_reducible apply State.stallTile_keep
    | with_reducible apply State.raise_keep
    | with_reducible apply Keep.ite
    | split

theorem State.writeInject_keep {r s : State} (h : Keep r s) (v : Word) : Keep r (State.writeInject s v) := by
  unfold State.writeInject
  repeat' first
    | with_reducible assumption
    | (extract_lets +onlyGivenNames x; try (refine Keep.cut (s := x) ?_ ?_; (on_goal 1 => subst x); (on_goal 2 => intro hx; clear_value x)))
    | with_reducible apply State.dbgWrite_keep
    | with_reducible apply State.inject_keep
    | with_reducible apply Keep.id_
    | with_reducible apply Keep.ite
    | (intro x hx; beta_reduce)

theorem State.writeDbg_keep {r s : State} (h : Keep r s) (off : Nat) (v : Word) : Keep r (State.writeDbg s off v) := by
  unfold State.writeDbg
  repeat' first
    | with_reducible assumption
    | (extract_lets +onlyGivenNames x; try (refine Keep.cut (s := x) ?_ ?_; (on_goal 1 => subst x); (on_goal 2 => intro hx; clear_value x)))
    | with_reducible apply State.dbgWrite_keep
    | with_reducible apply State.writeInject_keep
    | with_reducible apply Keep.ite
    | (fail_if_no_progress with_reducible refine Keep.mk' ?_ rfl rfl rfl rfl rfl rfl rfl rfl rfl rfl)
    | (intro x hx; beta_reduce)

theorem State.writeBoot_keep {r s : State} (h : Keep r s) (off : Nat) (v : Word) : Keep r (State.writeBoot s off v) := by
  unfold State.writeBoot
  repeat' first
    | with_reducible assumption
    | (extract_lets +onlyGivenNames x; try (refine Keep.cut (s := x) ?_ ?_; (on_goal 1 => subst x); (on_goal 2 => intro hx; clear_value x)))
    | with_reducible apply State.regWrite_keep
    | with_reducible exact Keep.updWf hx rfl rfl rfl id (Memory.wf_write _ _) rfl rfl rfl rfl rfl rfl rfl
    | (intro x hx; beta_reduce)

theorem State.writeOne_keep {r s : State} (h : Keep r s) (off size : Nat) (v : DWord) :
    Keep r (State.writeOne s off size v) := by
  unfold State.writeOne
  repeat' first
    | with_reducible assumption
    | (extract_lets +onlyGivenNames x; try (refine Keep.cut (s := x) ?_ ?_; (on_goal 1 => subst x); (on_goal 2 => intro hx; clear_value x)))
    | with_reducible apply State.writeAlarm_keep
    | with_reducible apply State.refuseWrite_keep
    | with_reducible apply State.writeHif_keep
    | with_reducible apply State.writeRing_keep
    | with_reducible apply State.writeServe_keep
    | with_reducible apply State.writeKv_keep
    | with_reducible apply State.writeRte_keep
    | with_reducible apply State.writeMem_keep
    | with_reducible apply State.writeCad_keep
    | with_reducible apply State.writeFab_keep
    | with_reducible apply State.writeLnkCtrl_keep
    | with_reducible apply State.writePwr_keep
    | with_reducible apply State.writeErr_keep
    | with_reducible apply State.writeDbg_keep
    | with_reducible apply State.writeBoot_keep
    | with_reducible apply Keep.ite
    | split

theorem State.barWrite_keep {r s : State} (h : Keep r s) (off size : Nat) (v : DWord) :
    Keep r (State.barWrite s off size v) := by
  unfold State.barWrite
  repeat' first
    | with_reducible assumption
    | (extract_lets +onlyGivenNames x; try (refine Keep.cut (s := x) ?_ ?_; (on_goal 1 => subst x); (on_goal 2 => intro hx; clear_value x)))
    | with_reducible apply State.barAccess_keep
    | with_reducible apply State.writeOne_keep
    | with_reducible apply Keep.ite

theorem State.brakeOn_keep {r s : State} (h : Keep r s) : Keep r (State.brakeOn s) := by
  unfold State.brakeOn
  repeat' first
    | with_reducible assumption
    | (extract_lets +onlyGivenNames x; try (refine Keep.cut (s := x) ?_ ?_; (on_goal 1 => subst x); (on_goal 2 => intro hx; clear_value x)))
    | with_reducible apply State.relimit_keep
    | with_reducible apply State.setPwr_keep

theorem State.setBuild_keep {r s : State} (h : Keep r s) (b : Option Build) : Keep r (State.setBuild s b) := by
  unfold State.setBuild
  repeat' first
    | with_reducible assumption
    | (extract_lets +onlyGivenNames x; try (refine Keep.cut (s := x) ?_ ?_; (on_goal 1 => subst x); (on_goal 2 => intro hx; clear_value x)))
    | with_reducible refine State.setCaddy_upd ?_ rfl rfl

theorem State.endBuild_keep {r s : State} (h : Keep r s) (h_0 status : Nat) : Keep r (State.endBuild s h_0 status) := by
  unfold State.endBuild
  repeat' first
    | with_reducible assumption
    | (extract_lets +onlyGivenNames x; try (refine Keep.cut (s := x) ?_ ?_; (on_goal 1 => subst x); (on_goal 2 => intro hx; clear_value x)))
    | with_reducible apply State.endOp_keep
    | with_reducible apply State.setBuild_keep

theorem State.setOp_keep {r s : State} (h : Keep r s) (h_0 : Nat) (o : LongOp) : Keep r (State.setOp s h_0 o) := by
  unfold State.setOp
  repeat' first
    | with_reducible assumption
    | (fail_if_no_progress with_reducible refine Keep.mk' ?_ rfl rfl rfl rfl rfl rfl rfl rfl rfl rfl)

theorem State.passPoint_keep {r s : State} (h : Keep r s) (h_0 done : Nat) (cancel : State → State) (hcancel : ∀ v0, Keep r v0 → Keep r (cancel v0)) :
    Keep r (State.passPoint s h_0 done cancel) := by
  unfold State.passPoint
  repeat' first
    | with_reducible assumption
    | (extract_lets +onlyGivenNames x; try (refine Keep.cut (s := x) ?_ ?_; (on_goal 1 => subst x); (on_goal 2 => intro hx; clear_value x)))
    | with_reducible apply State.opNote_keep
    | with_reducible apply State.setOp_keep
    | with_reducible apply State.answer_keep
    | with_reducible apply State.endOp_keep
    | with_reducible apply hcancel
    | split

theorem State.buildChunk_keep {r s : State} (h : Keep r s) (b : Build) (i : ImageHdr) (h_0 : ChunkHdr) (payload : List Byte) (bad : List Nat) :
    Keep r (State.buildChunk s b i h_0 payload bad) := by
  unfold State.buildChunk
  repeat' first
    | with_reducible assumption
    | (extract_lets +onlyGivenNames x; try (refine Keep.cut (s := x) ?_ ?_; (on_goal 1 => subst x); (on_goal 2 => intro hx; clear_value x)))
    | with_reducible apply State.endBuild_keep
    | with_reducible apply State.raise_keep
    | with_reducible apply State.anyOf_keep
    | with_reducible apply State.passPoint_keep
    | with_reducible apply State.setBuild_keep
    | with_reducible refine State.setBanks_keep ?_ _ rfl rfl (Memory.wf_write _ _)
    | with_reducible refine State.setBanks_keep ?_ _ rfl rfl (Memory.wf_clear _ _)
    | with_reducible apply Keep.ite
    | with_reducible apply Keep.foldl
    | (intro x a hx; beta_reduce)
    | (intro x hx; beta_reduce)
    | (clear_value *; split)

theorem State.buildDone_keep {r s : State} (h : Keep r s) (b : Build) (i : ImageHdr) (install : Bool) :
    Keep r (State.buildDone s b i install) := by
  unfold State.buildDone
  repeat' first
    | with_reducible assumption
    | (extract_lets +onlyGivenNames x; try (refine Keep.cut (s := x) ?_ ?_; (on_goal 1 => subst x); (on_goal 2 => intro hx; clear_value x)))
    | with_reducible apply State.jnl_keep
    | with_reducible apply State.jnlActivate_keep
    | with_reducible apply State.normReset_keep
    | with_reducible refine State.setBanks_keep ?_ _ rfl rfl (Memory.wf_clear _ _)
    | with_reducible apply Keep.ite
    | (fail_if_no_progress with_reducible refine Keep.mk' ?_ rfl rfl rfl rfl rfl rfl rfl rfl rfl rfl)
    | with_reducible refine State.setCaddy_upd ?_ rfl rfl
    | split

theorem State.mapSegment_keep {r s : State} (h : Keep r s) (b die seg : Nat) : KeepO r (State.mapSegment s b die seg) := by
  unfold State.mapSegment
  repeat' first
    | with_reducible assumption
    | (extract_lets +onlyGivenNames x; try (refine Keep.cut (s := x) ?_ ?_; (on_goal 1 => subst x); (on_goal 2 => intro hx; clear_value x)))
    | with_reducible apply State.jnl_keep
    | with_reducible refine State.setBanks_keep ?_ _ rfl rfl (by intro e; rw [Bank.setMap_data]; exact e)
    | with_reducible apply KeepO.some
    | (with_reducible exact KeepO.none)
    | split

theorem State.mapLost_keep {r s : State} (h : Keep r s) (b : Nat) :
    KeepO r (State.mapLost s b) :=
  KeepO.foldl (KeepO.some h) _ (fun _ _ k => KeepO.bind k _ fun _ g => State.mapSegment_keep g ..) _

theorem State.buildHeader_keep {r s : State} (h : Keep r s) (b : Build) (i : ImageHdr) :
    Keep r (State.buildHeader s b i) := by
  unfold State.buildHeader
  repeat' first
    | with_reducible assumption
    | (extract_lets +onlyGivenNames x; try (refine Keep.cut (s := x) ?_ ?_; (on_goal 1 => subst x); (on_goal 2 => intro hx; clear_value x)))
    | with_reducible apply State.endBuild_keep
    | with_reducible apply State.mapLost_keep
    | with_reducible apply State.setBuild_keep
    | with_reducible apply Keep.ite
    | (with_reducible refine KeepO.get ?_ _ (by with_reducible assumption))
    | split

theorem State.takeSegs_keep {r s : State} (h : Keep r s) (inp : OpIn) (covers : Nat → Nat → Bool) :
    Keep r (State.takeSegs s inp covers) := by
  unfold State.takeSegs
  repeat' first
    | with_reducible assumption
    | (extract_lets +onlyGivenNames x; try (refine Keep.cut (s := x) ?_ ?_; (on_goal 1 => subst x); (on_goal 2 => intro hx; clear_value x)))
    | with_reducible apply State.note_keep
    | with_reducible apply State.raise_keep
    | with_reducible apply Keep.foldl
    | (intro x a hx; beta_reduce)

theorem State.sourceSegs_keep {r s : State} (h : Keep r s) (o : LongOp) (inp : OpIn) :
    Keep r (State.sourceSegs s o inp) := by
  unfold State.sourceSegs
  repeat' first
    | with_reducible assumption
    | (extract_lets +onlyGivenNames x; try (refine Keep.cut (s := x) ?_ ?_; (on_goal 1 => subst x); (on_goal 2 => intro hx; clear_value x)))
    | with_reducible apply State.takeSegs_keep
    | with_reducible apply Keep.ite

theorem State.scramble_keep {r s : State} (h : Keep r s) (a n : Nat) : Keep r (State.scramble s a n) := by
  unfold State.scramble
  repeat' first
    | with_reducible assumption
    | (extract_lets +onlyGivenNames x; try (refine Keep.cut (s := x) ?_ ?_; (on_goal 1 => subst x); (on_goal 2 => intro hx; clear_value x)))
    | with_reducible apply State.store_keep
    | with_reducible apply Keep.ite
    | (fail_if_no_progress with_reducible refine Keep.mk' ?_ rfl rfl rfl rfl rfl rfl rfl rfl rfl rfl)

theorem State.bulkUndefined_keep {r s : State} (h : Keep r s) (o : LongOp) (upto : Nat) :
    Keep r (State.bulkUndefined s o upto) := by
  unfold State.bulkUndefined
  repeat' first
    | with_reducible assumption
    | (extract_lets +onlyGivenNames x; try (refine Keep.cut (s := x) ?_ ?_; (on_goal 1 => subst x); (on_goal 2 => intro hx; clear_value x)))
    | with_reducible apply State.scramble_keep
    | with_reducible apply Keep.ite
    | with_reducible apply Keep.foldl
    | (intro x a hx; beta_reduce)
    | split

theorem State.cancelOp_keep {r s : State} (h : Keep r s) (o : LongOp) : Keep r (State.cancelOp s o) := by
  unfold State.cancelOp
  repeat' first
    | with_reducible assumption
    | (extract_lets +onlyGivenNames x; try (refine Keep.cut (s := x) ?_ ?_; (on_goal 1 => subst x); (on_goal 2 => intro hx; clear_value x)))
    | with_reducible apply State.cancelPrefill_keep
    | with_reducible apply State.bulkUndefined_keep
    | with_reducible refine State.setCaddy_upd ?_ rfl rfl
    | split

theorem State.passOne_keep {r s : State} (h : Keep r s) (d : W512) (p : List Byte) (rates : List Nat) (g : Nat) :
    Keep r (State.passOne s d p rates g).2.2 := by
  unfold State.passOne
  repeat' first
    | with_reducible assumption
    | (extract_lets +onlyGivenNames x; try (refine Keep.cut (s := x) ?_ ?_; (on_goal 1 => subst x); (on_goal 2 => intro hx; clear_value x)))
    | with_reducible apply State.store_keep
    | with_reducible apply Keep.foldl
    | (intro x a hx; beta_reduce)
    | split

theorem State.passTwo_keep {r s : State} (h : Keep r s) (d : W512) (p : List Byte) (rates : List Nat) (g : Nat) :
    Keep r (State.passTwo s d p rates g).2 := by
  unfold State.passTwo
  repeat' first
    | with_reducible assumption
    | (extract_lets +onlyGivenNames x; try (refine Keep.cut (s := x) ?_ ?_; (on_goal 1 => subst x); (on_goal 2 => intro hx; clear_value x)))
    | with_reducible apply State.store_keep
    | with_reducible apply Keep.foldlSnd
    | (intro x a hx; beta_reduce)
    | split

theorem State.compressTo_keep {r s : State} (h : Keep r s) (o : LongOp) (upto : Nat) :
    Keep r (State.compressTo s o upto).2.2 := by
  unfold State.compressTo
  extract_lets d p src span one two
  have h1 : Keep r one.2.2 := Keep.foldlThd (p := (0, o.rates, s)) h _ (fun q a k => by
    split
    · exact k
    · exact State.passOne_keep k ..) _
  split
  · exact h1
  · exact Keep.foldlSnd (p := (0, one.2.2)) h1 _ (fun q a k => by
      split
      · exact k
      · exact State.passTwo_keep k ..) _

theorem State.buildTo_keep {r s : State} (h : Keep r s) (h_0 : Nat) (o : LongOp) (inp : OpIn) (done : Nat) :
    Keep r (State.buildTo s h_0 o inp done) := by
  unfold State.buildTo
  extract_lets y fault q o2
  have hy : Keep r y := State.sourceSegs_keep h ..
  have hq : Keep r q.2.2 := State.compressTo_keep hy ..
  clear_value q fault
  cases fault with
  | some e => exact State.endOp_keep (State.bulkUndefined_keep hy ..) ..
  | none =>
    dsimp only
    split
    · exact State.passPoint_keep hy _ _ _ fun t k => State.cancelOp_keep k ..
    · split
      · exact State.endOp_keep (State.bulkUndefined_keep hq ..) ..
      · exact State.passPoint_keep (State.setOp_keep hq ..) _ _ _ fun t k => State.cancelOp_keep k ..

theorem State.copyStep_keep {r s : State} (h : Keep r s) (o : LongOp) (inp : OpIn) (k n : Nat) :
    Keep r (State.copyStep s o inp k n).2 := by
  unfold State.copyStep
  repeat' first
    | with_reducible assumption
    | (extract_lets +onlyGivenNames x; try (refine Keep.cut (s := x) ?_ ?_; (on_goal 1 => subst x); (on_goal 2 => intro hx; clear_value x)))
    | with_reducible apply State.emit_keep
    | with_reducible apply State.store_keep
    | with_reducible apply Keep.ite
    | split

theorem State.either_keep {r s : State} (h : Keep r s) (a b : Nat) : Keep r (State.either s a b).2 := by
  unfold State.either
  repeat' first
    | with_reducible assumption
    | with_reducible apply State.anyOf_keep

theorem State.bulkEnd_keep {r s : State} (h : Keep r s) (o : LongOp) (inp : OpIn) : Keep r (State.bulkEnd s o inp).2 := by
  unfold State.bulkEnd
  repeat' first
    | with_reducible assumption
    | (extract_lets +onlyGivenNames x; try (refine Keep.cut (s := x) ?_ ?_; (on_goal 1 => subst x); (on_goal 2 => intro hx; clear_value x)))
    | with_reducible apply State.sourceSegs_keep
    | with_reducible apply State.copyStep_keep
    | with_reducible apply State.bulkUndefined_keep
    | with_reducible apply State.store_keep
    | with_reducible apply State.either_keep
    | with_reducible apply State.scramble_keep
    | with_reducible apply State.compressTo_keep
    | with_reducible apply Keep.ite
    | (fail_if_no_progress with_reducible refine Keep.mk' ?_ rfl rfl rfl rfl rfl rfl rfl rfl rfl rfl)
    | split

theorem State.control_keep {r s : State} (h : Keep r s) (d : W512) (f : Nat → LongOp → State → State) (hf : ∀ v0 v1 v2, Keep r v2 → Keep r (f v0 v1 v2)) :
    Keep r (State.control s d f) := by
  unfold State.control
  repeat' first
    | with_reducible assumption
    | (extract_lets +onlyGivenNames x; try (refine Keep.cut (s := x) ?_ ?_; (on_goal 1 => subst x); (on_goal 2 => intro hx; clear_value x)))
    | with_reducible apply hf
    | split

theorem State.cancelNow_keep {r s : State} (h : Keep r s) (n : Nat) (d : W512) (h_0 : Nat) (o : LongOp) :
    Keep r (State.cancelNow s n d h_0 o) := by
  unfold State.cancelNow
  repeat' first
    | with_reducible assumption
    | (extract_lets +onlyGivenNames x; try (refine Keep.cut (s := x) ?_ ?_; (on_goal 1 => subst x); (on_goal 2 => intro hx; clear_value x)))
    | with_reducible apply State.answer_keep
    | with_reducible apply State.setOp_keep
    | with_reducible apply State.finish_keep
    | with_reducible apply State.endOp_keep
    | with_reducible apply State.cancelOp_keep

theorem State.cancelCtl_keep {r s : State} (h : Keep r s) (n : Nat) (d : W512) : Keep r (State.cancelCtl s n d) := by
  unfold State.cancelCtl
  repeat' first
    | with_reducible assumption
    | (extract_lets +onlyGivenNames x; try (refine Keep.cut (s := x) ?_ ?_; (on_goal 1 => subst x); (on_goal 2 => intro hx; clear_value x)))
    | with_reducible apply State.control_keep
    | with_reducible apply State.setOp_keep
    | with_reducible apply State.answer_keep
    | with_reducible apply State.cancelNow_keep
    | (intro x a b hx; beta_reduce)
    | split

theorem State.carry_keep {r s : State} (h : Keep r s) (t_0 : TileAt) (i : Word) : Keep r (State.carry s t_0 i) := by
  unfold State.carry
  repeat' first
    | with_reducible assumption
    | (extract_lets +onlyGivenNames x; try (refine Keep.cut (s := x) ?_ ?_; (on_goal 1 => subst x); (on_goal 2 => intro hx; clear_value x)))
    | with_reducible refine State.setErr_upd ?_ rfl rfl rfl rfl

theorem State.chatter_keep {r s : State} (h : Keep r s) (i : Nat) (yes : Bool) : Keep r (State.chatter s i yes) := by
  unfold State.chatter
  repeat' first
    | with_reducible assumption
    | (extract_lets +onlyGivenNames x; try (refine Keep.cut (s := x) ?_ ?_; (on_goal 1 => subst x); (on_goal 2 => intro hx; clear_value x)))
    | with_reducible apply State.setPwr_keep
    | with_reducible apply Keep.ite

theorem State.claimElected_keep {r s : State} (h : Keep r s) : Keep r (State.claimElected s) := by
  unfold State.claimElected
  repeat' first
    | with_reducible assumption
    | (extract_lets +onlyGivenNames x; try (refine Keep.cut (s := x) ?_ ?_; (on_goal 1 => subst x); (on_goal 2 => intro hx; clear_value x)))
    | with_reducible apply State.setDisc_keep
    | with_reducible apply State.sendFrame_keep
    | with_reducible apply Keep.foldl
    | (intro x a hx; beta_reduce)

theorem State.closeRing_keep {r s : State} (h : Keep r s) (n : Nat) : Keep r (State.closeRing s n) := by
  unfold State.closeRing
  repeat' first
    | with_reducible assumption
    | with_reducible apply State.onRing_keep

theorem State.closeSeq_keep {r s : State} (h : Keep r s) (n : Nat) (d : W512) : Keep r (State.closeSeq s n d) := by
  unfold State.closeSeq
  repeat' first
    | with_reducible assumption
    | (extract_lets +onlyGivenNames x; try (refine Keep.cut (s := x) ?_ ?_; (on_goal 1 => subst x); (on_goal 2 => intro hx; clear_value x)))
    | with_reducible apply State.setSeq_keep
    | with_reducible apply State.setSteep_keep
    | with_reducible apply State.endOp_keep
    | with_reducible apply State.freeSeq_keep
    | with_reducible apply State.hold_keep
    | with_reducible apply State.endClose_keep
    | with_reducible apply Keep.ite

theorem State.refuseRev_keep {r s : State} (h : Keep r s) (d : Nat) : Keep r (State.refuseRev s d) := by
  unfold State.refuseRev
  repeat' first
    | with_reducible assumption
    | with_reducible apply State.raise_keep

theorem State.refusals_keep {r s : State} (h : Keep r s) (refused : List (Nat × Nat)) :
    Keep r (State.refusals s refused) := by
  unfold State.refusals
  repeat' first
    | with_reducible assumption
    | (extract_lets +onlyGivenNames x; try (refine Keep.cut (s := x) ?_ ?_; (on_goal 1 => subst x); (on_goal 2 => intro hx; clear_value x)))
    | with_reducible apply State.refuseRev_keep
    | with_reducible apply Keep.foldl
    | (intro x a hx; beta_reduce)

theorem State.sendRev_keep {r s : State} (h : Keep r s) (t_0 : HomeTable) (ns : List Nat) :
    Keep r (State.sendRev s t_0 ns) := by
  unfold State.sendRev
  repeat' first
    | with_reducible assumption
    | (extract_lets +onlyGivenNames x; try (refine Keep.cut (s := x) ?_ ?_; (on_goal 1 => subst x); (on_goal 2 => intro hx; clear_value x)))
    | with_reducible apply State.setRte_keep
    | with_reducible apply State.emit_keep
    | with_reducible apply Keep.foldl
    | (intro x a hx; beta_reduce)

theorem State.closing_keep {r s : State} (h : Keep r s) (refused : List (Nat × Nat)) :
    Keep r (State.closing s refused).1 := by
  unfold State.closing
  repeat' first
    | with_reducible assumption
    | (extract_lets +onlyGivenNames x; try (refine Keep.cut (s := x) ?_ ?_; (on_goal 1 => subst x); (on_goal 2 => intro hx; clear_value x)))
    | with_reducible apply State.refuseRev_keep
    | with_reducible apply State.refusals_keep
    | with_reducible apply State.sendRev_keep
    | with_reducible apply Keep.ite
    | split
    | (clear_value *; split)

theorem State.combineRow_keep {r s : State} (h : Keep r s) (layer row : Nat) : Keep r (State.combineRow s layer row) := by
  unfold State.combineRow
  repeat' first
    | with_reducible assumption
    | (extract_lets +onlyGivenNames x; try (refine Keep.cut (s := x) ?_ ?_; (on_goal 1 => subst x); (on_goal 2 => intro hx; clear_value x)))
    | with_reducible apply State.setRte_keep
    | with_reducible apply Keep.ite

theorem State.onRun_keep {r s : State} (h : Keep r s) (draft : Bool) (i e : Nat) (f : OpRun → OpRun) :
    Keep r (State.onRun s draft i e f) := by
  unfold State.onRun
  repeat' first
    | with_reducible assumption
    | (extract_lets +onlyGivenNames x; try (refine Keep.cut (s := x) ?_ ?_; (on_goal 1 => subst x); (on_goal 2 => intro hx; clear_value x)))
    | with_reducible apply State.setSteep_keep

theorem State.completeItem_keep {r s : State} (h : Keep r s) (t_0 : TileAt) : Keep r (State.completeItem s t_0) := by
  unfold State.completeItem
  repeat' first
    | with_reducible assumption
    | (extract_lets +onlyGivenNames x; try (refine Keep.cut (s := x) ?_ ?_; (on_goal 1 => subst x); (on_goal 2 => intro hx; clear_value x)))
    | with_reducible apply State.onTile_keep
    | with_reducible apply State.settleItems_keep
    | with_reducible refine State.setErr_upd ?_ rfl rfl rfl rfl
    | split

theorem State.flushTile_keep {r s : State} (h : Keep r s) (t_0 : TileAt) : Keep r (State.flushTile s t_0) := by
  unfold State.flushTile
  repeat' first
    | with_reducible assumption
    | (extract_lets +onlyGivenNames x; try (refine Keep.cut (s := x) ?_ ?_; (on_goal 1 => subst x); (on_goal 2 => intro hx; clear_value x)))
    | with_reducible apply State.onRun_keep
    | with_reducible apply State.completeItem_keep
    | with_reducible apply State.onTile_keep
    | split

theorem State.completeAll_keep {r s : State} (h : Keep r s) : Keep r (State.completeAll s) := by
  unfold State.completeAll
  repeat' first
    | with_reducible assumption
    | (extract_lets +onlyGivenNames x; try (refine Keep.cut (s := x) ?_ ?_; (on_goal 1 => subst x); (on_goal 2 => intro hx; clear_value x)))
    | with_reducible apply State.flushTile_keep
    | with_reducible apply Keep.foldl
    | (intro x a hx; beta_reduce)

theorem State.dropItem_keep {r s : State} (h : Keep r s) (t_0 : TileAt) (w : WorkItem) :
    Keep r (State.dropItem s t_0 w) := by
  unfold State.dropItem
  repeat' first
    | with_reducible assumption
    | (extract_lets +onlyGivenNames x; try (refine Keep.cut (s := x) ?_ ?_; (on_goal 1 => subst x); (on_goal 2 => intro hx; clear_value x)))
    | with_reducible apply State.completeItem_keep
    | with_reducible apply State.onTile_keep

theorem State.pourLine_keep {r s : State} (h : Keep r s) (l : HeldLine) (line : Option (List Word)) :
    Keep r (State.pourLine s l line) := by
  unfold State.pourLine
  repeat' first
    | with_reducible assumption
    | (extract_lets +onlyGivenNames x; try (refine Keep.cut (s := x) ?_ ?_; (on_goal 1 => subst x); (on_goal 2 => intro hx; clear_value x)))
    | with_reducible apply State.routeSend_keep
    | with_reducible apply State.sendPourEnds_keep
    | with_reducible apply State.setRte_keep
    | with_reducible apply Keep.ite

theorem State.failReceived_keep {r s : State} (h : Keep r s) (w : WorkItem) : Keep r (State.failReceived s w) := by
  unfold State.failReceived
  repeat' first
    | with_reducible assumption
    | (extract_lets +onlyGivenNames x; try (refine Keep.cut (s := x) ?_ ?_; (on_goal 1 => subst x); (on_goal 2 => intro hx; clear_value x)))
    | with_reducible apply State.pourLine_keep
    | with_reducible apply Keep.foldl
    | (intro x a hx; beta_reduce)
    | split

theorem State.failItem_keep {r s : State} (h : Keep r s) (t_0 : TileAt) (w : WorkItem) (e : ErrIn) :
    Keep r (State.failItem s t_0 w e) := by
  unfold State.failItem
  repeat' first
    | with_reducible assumption
    | (extract_lets +onlyGivenNames x; try (refine Keep.cut (s := x) ?_ ?_; (on_goal 1 => subst x); (on_goal 2 => intro hx; clear_value x)))
    | with_reducible apply State.raise_keep
    | with_reducible apply State.dropItem_keep
    | with_reducible apply State.failReceived_keep
    | with_reducible apply Keep.ite

theorem State.leafRecovered_keep {r s : State} (h : Keep r s) (r_0 : Piece) (unit die pos : Nat) (seqs : List Nat) :
    Keep r (State.leafRecovered s r_0 unit die pos seqs) := by
  unfold State.leafRecovered
  repeat' first
    | with_reducible assumption
    | with_reducible apply State.corrected_keep

theorem State.granuleRead_keep {r s : State} (h : Keep r s) (a : Nat) : Keep r (State.granuleRead s a) := by
  unfold State.granuleRead
  repeat' first
    | with_reducible assumption
    | (extract_lets +onlyGivenNames x; try (refine Keep.cut (s := x) ?_ ?_; (on_goal 1 => subst x); (on_goal 2 => intro hx; clear_value x)))
    | with_reducible apply Keep.ite
    | (fail_if_no_progress with_reducible refine Keep.mk' ?_ rfl rfl rfl rfl rfl rfl rfl rfl rfl rfl)
    | split

theorem State.dieLine_keep {r s : State} (h : Keep r s) (die a : Nat) : Keep r (State.dieLine s die a) := by
  unfold State.dieLine
  repeat' first
    | with_reducible assumption
    | (extract_lets +onlyGivenNames x; try (refine Keep.cut (s := x) ?_ ?_; (on_goal 1 => subst x); (on_goal 2 => intro hx; clear_value x)))
    | with_reducible apply Keep.ite
    | (fail_if_no_progress with_reducible refine Keep.mk' ?_ rfl rfl rfl rfl rfl rfl rfl rfl rfl rfl)

theorem State.dieTouch_keep {r s : State} (h : Keep r s) (die a : Nat) : Keep r (State.dieTouch s die a) := by
  unfold State.dieTouch
  repeat' first
    | with_reducible assumption
    | (extract_lets +onlyGivenNames x; try (refine Keep.cut (s := x) ?_ ?_; (on_goal 1 => subst x); (on_goal 2 => intro hx; clear_value x)))
    | with_reducible apply State.granuleRead_keep
    | with_reducible apply State.dieLine_keep
    | split

theorem State.dieRead_keep {r s : State} (h : Keep r s) (die : Nat) (ranges : List (Nat × Nat)) :
    Keep r (State.dieRead s die ranges) := by
  unfold State.dieRead
  repeat' first
    | with_reducible assumption
    | (extract_lets +onlyGivenNames x; try (refine Keep.cut (s := x) ?_ ?_; (on_goal 1 => subst x); (on_goal 2 => intro hx; clear_value x)))
    | with_reducible apply State.dieTouch_keep
    | with_reducible apply Keep.ite
    | with_reducible apply Keep.foldl
    | (intro x a hx; beta_reduce)

theorem State.feed_keep {r s : State} (h : Keep r s) (t_0 : TileAt) (w : WorkItem) (reads : List CoreRead) :
    Keep r (State.feed s t_0 w reads) := by
  unfold State.feed
  repeat' first
    | with_reducible assumption
    | (extract_lets +onlyGivenNames x; try (refine Keep.cut (s := x) ?_ ?_; (on_goal 1 => subst x); (on_goal 2 => intro hx; clear_value x)))
    | with_reducible apply State.onTile_keep
    | with_reducible apply State.failItem_keep
    | with_reducible apply State.leafRecovered_keep
    | with_reducible apply State.dieRead_keep
    | with_reducible apply Keep.ite
    | with_reducible apply Keep.foldl
    | (intro x a hx; beta_reduce)
    | split

theorem State.coreFault_keep {r s : State} (h : Keep r s) (t_0 : TileAt) (w : WorkItem) (reads : List CoreRead) (f : CoreFault) :
    Keep r (State.coreFault s t_0 w reads f) := by
  unfold State.coreFault
  repeat' first
    | with_reducible assumption
    | (extract_lets +onlyGivenNames x; try (refine Keep.cut (s := x) ?_ ?_; (on_goal 1 => subst x); (on_goal 2 => intro hx; clear_value x)))
    | with_reducible apply State.raise_keep
    | with_reducible apply State.failItem_keep
    | with_reducible apply State.feed_keep
    | with_reducible apply Keep.ite
    | (fail_if_no_progress with_reducible refine Keep.mk' ?_ rfl rfl rfl rfl rfl rfl rfl rfl rfl rfl)
    | split

theorem State.countMisses_keep {r s : State} (h : Keep r s) : Keep r (State.countMisses s) := by
  unfold State.countMisses
  repeat' first
    | with_reducible assumption
    | (extract_lets +onlyGivenNames x; try (refine Keep.cut (s := x) ?_ ?_; (on_goal 1 => subst x); (on_goal 2 => intro hx; clear_value x)))
    | with_reducible apply State.setDom_keep

theorem State.orphanOps_keep {r s : State} (h : Keep r s) (n : Nat) : Keep r (State.orphanOps s n) := by
  unfold State.orphanOps
  repeat' first
    | with_reducible assumption
    | (fail_if_no_progress with_reducible refine Keep.mk' ?_ rfl rfl rfl rfl rfl rfl rfl rfl rfl rfl)

theorem State.detach_keep {r s : State} (h : Keep r s) (n : Nat) : Keep r (State.detach s n) := by
  unfold State.detach
  repeat' first
    | with_reducible assumption
    | (extract_lets +onlyGivenNames x; try (refine Keep.cut (s := x) ?_ ?_; (on_goal 1 => subst x); (on_goal 2 => intro hx; clear_value x)))
    | with_reducible apply State.orphanOps_keep
    | (fail_if_no_progress with_reducible refine Keep.mk' ?_ rfl rfl rfl rfl rfl rfl rfl rfl rfl rfl)
    | with_reducible apply Keep.foldl
    | (intro x a hx; beta_reduce)

theorem State.devPut_keep {r s : State} (h : Keep r s) (a n v : Nat) : Keep r (State.devPut s a n v) := by
  unfold State.devPut
  repeat' first
    | with_reducible assumption
    | with_reducible apply State.devWrite_keep

theorem State.take_keep {r s : State} (h : Keep r s) (m : Nat) : Keep r (State.take s m) := by
  unfold State.take
  repeat' first
    | with_reducible assumption
    | with_reducible apply State.objSet_keep

theorem State.domainReq_keep {r s : State} (h : Keep r s) (code : Nat) (f : DomReq → Nat → State → State) (hf : ∀ v0 v1 v2, Keep r v2 → Keep r (f v0 v1 v2)) :
    Keep r (State.domainReq s code f) := by
  unfold State.domainReq
  repeat' first
    | with_reducible assumption
    | (extract_lets +onlyGivenNames x; try (refine Keep.cut (s := x) ?_ ?_; (on_goal 1 => subst x); (on_goal 2 => intro hx; clear_value x)))
    | with_reducible apply State.raise_keep
    | with_reducible apply State.take_keep
    | with_reducible apply State.replyTo_keep
    | with_reducible apply hf
    | with_reducible apply Keep.ite
    | split

theorem State.dropBacklog_keep {r s : State} (h : Keep r s) (n : Nat) : Keep r (State.dropBacklog s n) := by
  unfold State.dropBacklog
  repeat' first
    | with_reducible assumption
    | (extract_lets +onlyGivenNames x; try (refine Keep.cut (s := x) ?_ ?_; (on_goal 1 => subst x); (on_goal 2 => intro hx; clear_value x)))
    | with_reducible apply State.setRing_keep
    | with_reducible apply State.note_keep
    | with_reducible apply Keep.ite

theorem State.endMessage_keep {r s : State} (h : Keep r s) (m : MsgOut) (status : Nat) :
    Keep r (State.endMessage s m status) := by
  unfold State.endMessage
  repeat' first
    | with_reducible assumption
    | (extract_lets +onlyGivenNames x; try (refine Keep.cut (s := x) ?_ ?_; (on_goal 1 => subst x); (on_goal 2 => intro hx; clear_value x)))
    | with_reducible apply State.setFab_keep
    | with_reducible apply State.finish_keep
    | with_reducible apply State.unwait_keep
    | split

theorem State.readError_keep {r s : State} (h : Keep r s) (q : Nat) (e : Nat × Nat × Nat) :
    Keep r (State.readError s q e) := by
  unfold State.readError
  repeat' first
    | with_reducible assumption
    | (extract_lets +onlyGivenNames x; try (refine Keep.cut (s := x) ?_ ?_; (on_goal 1 => subst x); (on_goal 2 => intro hx; clear_value x)))
    | with_reducible apply State.dataError_keep

theorem State.escalateLine_keep {r s : State} (h : Keep r s) (m : Model) (t_0 : OpRun) (r_0 : List Byte) (p : Nat × OpLine) :
    Keep r (State.escalateLine s m t_0 r_0 p) := by
  unfold State.escalateLine
  repeat' first
    | with_reducible assumption
    | (extract_lets +onlyGivenNames x; try (refine Keep.cut (s := x) ?_ ?_; (on_goal 1 => subst x); (on_goal 2 => intro hx; clear_value x)))
    | with_reducible apply State.readError_keep
    | with_reducible apply State.setSteep_keep
    | with_reducible apply State.onNorm_keep
    | with_reducible apply State.onRun_keep
    | with_reducible apply State.flagLine_keep
    | with_reducible apply Keep.ite
    | split

theorem State.evict_keep {r s : State} (h : Keep r s) : KeepO r (State.evict s) := by
  unfold State.evict
  repeat' first
    | with_reducible assumption
    | (extract_lets +onlyGivenNames x; try (refine Keep.cut (s := x) ?_ ?_; (on_goal 1 => subst x); (on_goal 2 => intro hx; clear_value x)))
    | with_reducible apply KeepO.some
    | (with_reducible exact KeepO.none)
    | (fail_if_no_progress with_reducible refine Keep.mk' ?_ rfl rfl rfl rfl rfl rfl rfl rfl rfl rfl)
    | split

theorem State.expertLine_keep {r s : State} (h : Keep r s) (m : Model) (t_0 : OpRun) (r_0 : List Byte) (p : Nat × HeldLine) :
    Keep r (State.expertLine s m t_0 r_0 p) := by
  unfold State.expertLine
  repeat' first
    | with_reducible assumption
    | (extract_lets +onlyGivenNames x; try (refine Keep.cut (s := x) ?_ ?_; (on_goal 1 => subst x); (on_goal 2 => intro hx; clear_value x)))
    | with_reducible apply State.pourLine_keep
    | with_reducible apply State.dataError_keep
    | with_reducible apply State.setRte_keep
    | with_reducible apply State.store_keep
    | with_reducible apply Keep.ite
    | split

theorem State.expertOutput_keep {r s : State} (h : Keep r s) (m : Model) (t_0 : OpRun) (r_0 : List Byte) :
    Keep r (State.expertOutput s m t_0 r_0) := by
  unfold State.expertOutput
  repeat' first
    | with_reducible assumption
    | (extract_lets +onlyGivenNames x; try (refine Keep.cut (s := x) ?_ ?_; (on_goal 1 => subst x); (on_goal 2 => intro hx; clear_value x)))
    | with_reducible apply State.expertLine_keep
    | with_reducible apply State.onRun_keep
    | with_reducible apply Keep.foldl
    | (intro x a hx; beta_reduce)

theorem State.leafFailure_keep {r s : State} (h : Keep r s) (t_0 : TileAt) (w : WorkItem) (r_0 : Piece) (noHost : Bool) :
    Keep r (State.leafFailure s t_0 w r_0 noHost) := by
  unfold State.leafFailure
  repeat' first
    | with_reducible assumption
    | (extract_lets +onlyGivenNames x; try (refine Keep.cut (s := x) ?_ ?_; (on_goal 1 => subst x); (on_goal 2 => intro hx; clear_value x)))
    | with_reducible apply State.failItem_keep
    | with_reducible apply State.raise_keep
    | with_reducible apply Keep.ite
    | split

theorem State.failHolders_keep {r s : State} (h : Keep r s) (g : Nat) (noHost : Bool) :
    Keep r (State.failHolders s g noHost) := by
  unfold State.failHolders
  repeat' first
    | with_reducible assumption
    | (extract_lets +onlyGivenNames x; try (refine Keep.cut (s := x) ?_ ?_; (on_goal 1 => subst x); (on_goal 2 => intro hx; clear_value x)))
    | with_reducible apply State.leafFailure_keep
    | with_reducible apply Keep.ite
    | with_reducible apply Keep.foldl
    | (intro x a hx; beta_reduce)
    | split

theorem State.failReq_keep {r s : State} (h : Keep r s) (q : DomReq) : Keep r (State.failReq s q) := by
  unfold State.failReq
  repeat' first
    | with_reducible assumption
    | with_reducible apply State.replyTo_keep

theorem State.failRows_keep {r s : State} (h : Keep r s) (m : Model) (r_0 : List Byte) (bias : List Word) (rows : List RouteRow) :
    Keep r (State.failRows s m r_0 bias rows) := by
  unfold State.failRows
  repeat' first
    | with_reducible assumption
    | (extract_lets +onlyGivenNames x; try (refine Keep.cut (s := x) ?_ ?_; (on_goal 1 => subst x); (on_goal 2 => intro hx; clear_value x)))
    | with_reducible apply State.readError_keep
    | with_reducible apply State.dataError_keep
    | with_reducible apply Keep.ite
    | with_reducible apply Keep.foldl
    | (intro x a hx; beta_reduce)
    | split

theorem State.resume_keep {r s : State} (h : Keep r s) (t_0 : TileAt) (w : WorkItem) (reads : List CoreRead) (r_0 : Piece) (b : List Byte) :
    Keep r (State.resume s t_0 w reads r_0 b) := by
  unfold State.resume
  repeat' first
    | with_reducible assumption
    | (extract_lets +onlyGivenNames x; try (refine Keep.cut (s := x) ?_ ?_; (on_goal 1 => subst x); (on_goal 2 => intro hx; clear_value x)))
    | with_reducible apply State.onTile_keep
    | with_reducible apply State.feed_keep
    | with_reducible apply Keep.ite

theorem State.feedWaiters_keep {r s : State} (h : Keep r s) (g : Nat) (bs : List Byte) (unit die pos : Nat) :
    Keep r (State.feedWaiters s g bs unit die pos) := by
  unfold State.feedWaiters
  repeat' first
    | with_reducible assumption
    | (extract_lets +onlyGivenNames x; try (refine Keep.cut (s := x) ?_ ?_; (on_goal 1 => subst x); (on_goal 2 => intro hx; clear_value x)))
    | with_reducible apply State.leafFailure_keep
    | with_reducible apply State.leafRecovered_keep
    | with_reducible apply State.resume_keep
    | with_reducible apply Keep.ite
    | with_reducible apply Keep.foldl
    | (intro x a hx; beta_reduce)
    | split

theorem State.setGranules_keep {r s : State} (h : Keep r s) (l : List Granule) : Keep r (State.setGranules s l) := by
  unfold State.setGranules
  repeat' first
    | with_reducible assumption
    | (extract_lets +onlyGivenNames x; try (refine Keep.cut (s := x) ?_ ?_; (on_goal 1 => subst x); (on_goal 2 => intro hx; clear_value x)))
    | (fail_if_no_progress with_reducible refine Keep.mk' ?_ rfl rfl rfl rfl rfl rfl rfl rfl rfl rfl)

theorem State.settlePins_keep {r s : State} (h : Keep r s) : Keep r (State.settlePins s) := by
  unfold State.settlePins
  repeat' first
    | with_reducible assumption
    | (extract_lets +onlyGivenNames x; try (refine Keep.cut (s := x) ?_ ?_; (on_goal 1 => subst x); (on_goal 2 => intro hx; clear_value x)))
    | with_reducible apply State.finish_keep
    | with_reducible apply State.unwait_keep
    | with_reducible apply Keep.foldl
    | (intro x a hx; beta_reduce)

theorem State.fillDone_keep {r s : State} (h : Keep r s) (e : Granule) (bs : List Byte) (corrected : Bool) (recovered : Option (Nat × Nat)) :
    Keep r (State.fillDone s e bs corrected recovered) := by
  unfold State.fillDone
  repeat' first
    | with_reducible assumption
    | (extract_lets +onlyGivenNames x; try (refine Keep.cut (s := x) ?_ ?_; (on_goal 1 => subst x); (on_goal 2 => intro hx; clear_value x)))
    | with_reducible apply State.note_keep
    | with_reducible apply State.setGranules_keep
    | with_reducible apply State.devWrite_keep
    | with_reducible apply State.emit_keep
    | with_reducible apply State.settlePins_keep
    | with_reducible apply Keep.ite
    | with_reducible apply Keep.foldl
    | (intro x a hx; beta_reduce)
    | split

theorem State.fillFailed_keep {r s : State} (h : Keep r s) (e : Granule) (second : FillIn) :
    Keep r (State.fillFailed s e second) := by
  unfold State.fillFailed
  repeat' first
    | with_reducible assumption
    | (extract_lets +onlyGivenNames x; try (refine Keep.cut (s := x) ?_ ?_; (on_goal 1 => subst x); (on_goal 2 => intro hx; clear_value x)))
    | with_reducible apply State.setGranules_keep
    | with_reducible apply State.raise_keep
    | with_reducible apply State.failHolders_keep
    | with_reducible apply Keep.ite

theorem State.finishRun_keep {r s : State} (h : Keep r s) (m : Model) (draft : Bool) (index : Nat) (r_0 : List Byte) :
    Keep r (State.finishRun s m draft index r_0) := by
  unfold State.finishRun
  repeat' first
    | with_reducible assumption
    | (extract_lets +onlyGivenNames x; try (refine Keep.cut (s := x) ?_ ?_; (on_goal 1 => subst x); (on_goal 2 => intro hx; clear_value x)))
    | with_reducible apply State.steps6to8_keep
    | with_reducible apply State.onRun_keep
    | with_reducible apply Keep.ite
    | with_reducible apply Keep.foldl
    | (intro x a hx; beta_reduce)
    | split

theorem State.readSlots_keep {r s : State} (h : Keep r s) (m : Model) (draft : Bool) (r_0 : List Byte) (l : OpLine) :
    Keep r (State.readSlots s m draft r_0 l) := by
  unfold State.readSlots
  repeat' first
    | with_reducible assumption
    | (extract_lets +onlyGivenNames x; try (refine Keep.cut (s := x) ?_ ?_; (on_goal 1 => subst x); (on_goal 2 => intro hx; clear_value x)))
    | with_reducible apply State.dieRead_keep
    | with_reducible apply Keep.ite
    | split

theorem State.formLine_keep {r s : State} (h : Keep r s) (m : Model) (t_0 : OpRun) (r_0 : List Byte) (p : Nat × OpLine) :
    Keep r (State.formLine s m t_0 r_0 p) := by
  unfold State.formLine
  repeat' first
    | with_reducible assumption
    | (extract_lets +onlyGivenNames x; try (refine Keep.cut (s := x) ?_ ?_; (on_goal 1 => subst x); (on_goal 2 => intro hx; clear_value x)))
    | with_reducible apply State.dataError_keep
    | with_reducible apply State.readError_keep
    | with_reducible apply State.readSlots_keep
    | with_reducible apply State.onRun_keep
    | with_reducible apply State.normCheck_keep
    | with_reducible apply Keep.ite
    | split

theorem State.fuseCheck_keep {r s : State} (h : Keep r s) (failed : List FuseField) :
    Keep r (State.fuseCheck s failed) := by
  unfold State.fuseCheck
  repeat' first
    | with_reducible assumption
    | (extract_lets +onlyGivenNames x; try (refine Keep.cut (s := x) ?_ ?_; (on_goal 1 => subst x); (on_goal 2 => intro hx; clear_value x)))
    | with_reducible apply State.alarm_keep
    | with_reducible apply Keep.ite
    | with_reducible refine State.setSec_upd ?_ rfl

theorem State.hello_keep {r s : State} (h : Keep r s) (l : Nat) : Keep r (State.hello s l) := by
  unfold State.hello
  repeat' first
    | with_reducible assumption
    | with_reducible apply State.sendFrame_keep

theorem State.holdOut_keep {r s : State} (h : Keep r s) (l : Nat) : Keep r (State.holdOut s l) := by
  unfold State.holdOut
  repeat' first
    | with_reducible assumption
    | (extract_lets +onlyGivenNames x; try (refine Keep.cut (s := x) ?_ ?_; (on_goal 1 => subst x); (on_goal 2 => intro hx; clear_value x)))
    | with_reducible apply State.raise_keep
    | with_reducible apply State.onLink_keep

theorem State.install_keep {r s : State} (h : Keep r s) (k : Nat) (bytes : List Byte) :
    Keep r (State.install s k bytes) := by
  unfold State.install
  repeat' first
    | with_reducible assumption
    | (extract_lets +onlyGivenNames x; try (refine Keep.cut (s := x) ?_ ?_; (on_goal 1 => subst x); (on_goal 2 => intro hx; clear_value x)))
    | with_reducible apply State.setFab_keep

theorem State.keepOutcome_keep {r s : State} (h : Keep r s) (p : FabPkt) (status : Nat) :
    Keep r (State.keepOutcome s p status) := by
  unfold State.keepOutcome
  repeat' first
    | with_reducible assumption
    | (extract_lets +onlyGivenNames x; try (refine Keep.cut (s := x) ?_ ?_; (on_goal 1 => subst x); (on_goal 2 => intro hx; clear_value x)))
    | with_reducible apply State.setFab_keep

theorem State.keepReplay_keep {r s : State} (h : Keep r s) (p : FabPkt) (result : Nat) :
    Keep r (State.keepReplay s p result) := by
  unfold State.keepReplay
  repeat' first
    | with_reducible assumption
    | (extract_lets +onlyGivenNames x; try (refine Keep.cut (s := x) ?_ ?_; (on_goal 1 => subst x); (on_goal 2 => intro hx; clear_value x)))
    | with_reducible apply State.setFab_keep

theorem State.keepWindow_keep {r s : State} (h : Keep r s) (pIn : Nat) : Keep r (State.keepWindow s pIn) := by
  unfold State.keepWindow
  repeat' first
    | with_reducible assumption
    | (extract_lets +onlyGivenNames x; try (refine Keep.cut (s := x) ?_ ?_; (on_goal 1 => subst x); (on_goal 2 => intro hx; clear_value x)))
    | with_reducible apply State.setPwr_keep

theorem State.killRing_keep {r s : State} (h : Keep r s) (n : Nat) : Keep r (State.killRing s n) := by
  unfold State.killRing
  repeat' first
    | with_reducible assumption
    | (extract_lets +onlyGivenNames x; try (refine Keep.cut (s := x) ?_ ?_; (on_goal 1 => subst x); (on_goal 2 => intro hx; clear_value x)))
    | with_reducible apply State.onRing_keep
    | with_reducible apply State.closeRing_keep
    | with_reducible apply State.detach_keep
    | with_reducible apply Keep.ite

theorem State.latchStart_keep {r s : State} (h : Keep r s) (offs : List Nat) : Keep r (State.latchStart s offs) := by
  unfold State.latchStart
  repeat' first
    | with_reducible assumption
    | (extract_lets +onlyGivenNames x; try (refine Keep.cut (s := x) ?_ ?_; (on_goal 1 => subst x); (on_goal 2 => intro hx; clear_value x)))
    | with_reducible apply State.latchAbove_keep
    | with_reducible apply Keep.foldl
    | (intro x a hx; beta_reduce)

theorem State.refuse_keep {r s : State} (h : Keep r s) (n : Nat) (d : W512) (status off : Nat) :
    Keep r (State.refuse s n d status off) := by
  unfold State.refuse
  repeat' first
    | with_reducible assumption
    | with_reducible apply State.finish_keep

theorem State.replace_keep {r s : State} (h : Keep r s) : Keep r (State.replace s) := by
  unfold State.replace
  repeat' first
    | with_reducible assumption
    | with_reducible apply State.setGranules_keep

theorem State.routeReset_keep {r s : State} (h : Keep r s) (m : Model) : Keep r (State.routeReset s m) := by
  unfold State.routeReset
  repeat' first
    | with_reducible assumption
    | (extract_lets +onlyGivenNames x; try (refine Keep.cut (s := x) ?_ ?_; (on_goal 1 => subst x); (on_goal 2 => intro hx; clear_value x)))
    | with_reducible apply State.storeOk_keep
    | with_reducible apply Keep.ite
    | with_reducible apply Keep.foldl
    | (intro x a hx; beta_reduce)

theorem State.loadModel_keep {r s : State} (h : Keep r s) (n : Nat) (d : W512) : Keep r (State.loadModel s n d) := by
  unfold State.loadModel
  repeat' first
    | with_reducible assumption
    | (extract_lets +onlyGivenNames x; try (refine Keep.cut (s := x) ?_ ?_; (on_goal 1 => subst x); (on_goal 2 => intro hx; clear_value x)))
    | with_reducible apply State.refuse_keep
    | with_reducible apply State.anyOf_keep
    | with_reducible apply State.replace_keep
    | with_reducible apply State.finish_keep
    | with_reducible apply State.routeReset_keep
    | with_reducible apply State.normReset_keep
    | with_reducible apply Keep.ite
    | (fail_if_no_progress with_reducible refine Keep.mk' ?_ rfl rfl rfl rfl rfl rfl rfl rfl rfl rfl)

theorem State.nak_keep {r s : State} (h : Keep r s) (l : Nat) : Keep r (State.nak s l) := by
  unfold State.nak
  repeat' first
    | with_reducible assumption
    | (extract_lets +onlyGivenNames x; try (refine Keep.cut (s := x) ?_ ?_; (on_goal 1 => subst x); (on_goal 2 => intro hx; clear_value x)))
    | with_reducible apply State.emit_keep
    | with_reducible apply State.setLink_keep
    | with_reducible apply Keep.ite

theorem State.newGranule_keep {r s : State} (h : Keep r s) (e : Granule) : Keep r (State.newGranule s e) := by
  unfold State.newGranule
  repeat' first
    | with_reducible assumption
    | (extract_lets +onlyGivenNames x; try (refine Keep.cut (s := x) ?_ ?_; (on_goal 1 => subst x); (on_goal 2 => intro hx; clear_value x)))
    | with_reducible apply State.pickFree_keep
    | with_reducible apply State.setGranules_keep

theorem State.nextOccupant_keep {r s : State} (h : Keep r s) : Keep r (State.nextOccupant s) := by
  unfold State.nextOccupant
  repeat' first
    | with_reducible assumption
    | (extract_lets +onlyGivenNames x; try (refine Keep.cut (s := x) ?_ ?_; (on_goal 1 => subst x); (on_goal 2 => intro hx; clear_value x)))
    | with_reducible apply State.query_keep
    | with_reducible apply State.setDisc_keep
    | split

theorem State.noteArrival_keep {r s : State} (h : Keep r s) : Keep r (State.noteArrival s) := by
  unfold State.noteArrival
  repeat' first
    | with_reducible assumption
    | (extract_lets +onlyGivenNames x; try (refine Keep.cut (s := x) ?_ ?_; (on_goal 1 => subst x); (on_goal 2 => intro hx; clear_value x)))
    | with_reducible apply Keep.ite
    | (fail_if_no_progress with_reducible refine Keep.mk' ?_ rfl rfl rfl rfl rfl rfl rfl rfl rfl rfl)

theorem State.passGate_keep {r s : State} (h : Keep r s) : Keep r (State.passGate s) := by
  unfold State.passGate
  repeat' first
    | with_reducible assumption
    | (extract_lets +onlyGivenNames x; try (refine Keep.cut (s := x) ?_ ?_; (on_goal 1 => subst x); (on_goal 2 => intro hx; clear_value x)))
    | (fail_if_no_progress with_reducible refine Keep.mk' ?_ rfl rfl rfl rfl rfl rfl rfl rfl rfl rfl)

theorem State.openCaddy_keep {r s : State} (h : Keep r s) : Keep r (State.openCaddy s) := by
  unfold State.openCaddy
  repeat' first
    | with_reducible assumption
    | (extract_lets +onlyGivenNames x; try (refine Keep.cut (s := x) ?_ ?_; (on_goal 1 => subst x); (on_goal 2 => intro hx; clear_value x)))
    | with_reducible apply State.note_keep
    | with_reducible apply State.jnl_keep
    | with_reducible apply State.passGate_keep
    | with_reducible refine State.setBanks_keep ?_ _ rfl rfl (id)
    | with_reducible refine State.setCaddy_upd ?_ (Bank.opened_data ..) (Bank.opened_data ..)
    | with_reducible apply Keep.ite
    | (fail_if_no_progress with_reducible refine Keep.mk' ?_ rfl rfl rfl rfl rfl rfl rfl rfl rfl rfl)
    | with_reducible refine State.setCaddy_upd ?_ rfl rfl
    | with_reducible apply Keep.foldl
    | (intro x a hx; beta_reduce)
    | split

theorem State.replicate_keep {r s : State} (h : Keep r s) (o : OutRel) : Keep r (State.replicate s o) := by
  unfold State.replicate
  repeat' first
    | with_reducible assumption
    | (extract_lets +onlyGivenNames x; try (refine Keep.cut (s := x) ?_ ?_; (on_goal 1 => subst x); (on_goal 2 => intro hx; clear_value x)))
    | with_reducible apply State.setDom_keep
    | with_reducible apply State.sendOwn_keep
    | with_reducible apply Keep.ite

theorem State.openDomain_keep {r s : State} (h : Keep r s) (q : DomReq) (st : DomState) :
    Keep r (State.openDomain s q st) := by
  unfold State.openDomain
  repeat' first
    | with_reducible assumption
    | with_reducible apply State.replicate_keep

theorem State.openSeq_keep {r s : State} (h : Keep r s) (n : Nat) (d : W512) : Keep r (State.openSeq s n d) := by
  unfold State.openSeq
  repeat' first
    | with_reducible assumption
    | (extract_lets +onlyGivenNames x; try (refine Keep.cut (s := x) ?_ ?_; (on_goal 1 => subst x); (on_goal 2 => intro hx; clear_value x)))
    | with_reducible apply State.setTenant_keep
    | with_reducible apply State.setSeq_keep
    | with_reducible apply State.finish_keep
    | with_reducible apply State.cacheTouch_keep

theorem State.pin_keep {r s : State} (h : Keep r s) (name : String) (high : Bool) : Keep r (State.pin s name high) := by
  unfold State.pin
  repeat' first
    | with_reducible assumption
    | with_reducible apply State.emit_keep

theorem State.ownOutput_keep {r s : State} (h : Keep r s) (m : Model) (t_0 : OpRun) (r_0 : List Byte) :
    Keep r (State.ownOutput s m t_0 r_0) := by
  unfold State.ownOutput
  repeat' first
    | with_reducible assumption
    | (extract_lets +onlyGivenNames x; try (refine Keep.cut (s := x) ?_ ?_; (on_goal 1 => subst x); (on_goal 2 => intro hx; clear_value x)))
    | with_reducible apply State.formLine_keep
    | with_reducible apply State.finishRun_keep
    | with_reducible apply Keep.ite
    | with_reducible apply Keep.foldl
    | (intro x a hx; beta_reduce)
    | split

theorem State.paceNext_keep {r s : State} (h : Keep r s) (m : WindowMeas) : Keep r (State.paceNext s m).2 := by
  unfold State.paceNext
  repeat' first
    | with_reducible assumption
    | (extract_lets +onlyGivenNames x; try (refine Keep.cut (s := x) ?_ ?_; (on_goal 1 => subst x); (on_goal 2 => intro hx; clear_value x)))
    | with_reducible apply State.drawBelow_keep
    | split

theorem State.postManagerLost_keep {r s : State} (h : Keep r s) : Keep r (State.postManagerLost s) := by
  unfold State.postManagerLost
  repeat' first
    | with_reducible assumption
    | (extract_lets +onlyGivenNames x; try (refine Keep.cut (s := x) ?_ ?_; (on_goal 1 => subst x); (on_goal 2 => intro hx; clear_value x)))
    | with_reducible apply State.drawByte_keep
    | with_reducible apply State.sendOwn_keep
    | with_reducible apply Keep.ite

theorem State.prefillFrom_keep {r s : State} (h : Keep r s) (g : Nat) : Keep r (State.prefillFrom s g) := by
  unfold State.prefillFrom
  repeat' first
    | with_reducible assumption
    | (extract_lets +onlyGivenNames x; try (refine Keep.cut (s := x) ?_ ?_; (on_goal 1 => subst x); (on_goal 2 => intro hx; clear_value x)))
    | with_reducible refine State.setCaddy_upd ?_ rfl rfl

theorem State.startOp_keep {r s : State} (h : Keep r s) (n : Nat) (d : W512) (kind : OpKind) (total : Nat) :
    Keep r (State.startOp s n d kind total).1 := by
  unfold State.startOp
  repeat' first
    | with_reducible assumption
    | (extract_lets +onlyGivenNames x; try (refine Keep.cut (s := x) ?_ ?_; (on_goal 1 => subst x); (on_goal 2 => intro hx; clear_value x)))
    | with_reducible apply State.onRing_keep
    | with_reducible apply State.reservedRecord_keep
    | (fail_if_no_progress with_reducible refine Keep.mk' ?_ rfl rfl rfl rfl rfl rfl rfl rfl rfl rfl)

theorem State.promptSeq_keep {r s : State} (h : Keep r s) (n : Nat) (d : W512) : Keep r (State.promptSeq s n d) := by
  unfold State.promptSeq
  repeat' first
    | with_reducible assumption
    | (extract_lets +onlyGivenNames x; try (refine Keep.cut (s := x) ?_ ?_; (on_goal 1 => subst x); (on_goal 2 => intro hx; clear_value x)))
    | with_reducible apply State.setSeq_keep
    | with_reducible apply State.cacheTouch_keep
    | with_reducible apply State.readRecord_keep
    | with_reducible apply State.startOp_keep
    | with_reducible apply State.onSeq_keep
    | with_reducible apply State.finish_keep
    | with_reducible apply Keep.ite

theorem State.propose_keep {r s : State} (h : Keep r s) (m : Model) (b : BatchItem) : Keep r (State.propose s m b) := by
  unfold State.propose
  repeat' first
    | with_reducible assumption
    | (extract_lets +onlyGivenNames x; try (refine Keep.cut (s := x) ?_ ?_; (on_goal 1 => subst x); (on_goal 2 => intro hx; clear_value x)))
    | with_reducible apply State.readError_keep
    | with_reducible apply State.setSteep_keep
    | split

theorem State.queryResult_keep {r s : State} (h : Keep r s) (n : Nat) (d : W512) (bs : List Byte) :
    Keep r (State.queryResult s n d bs) := by
  unfold State.queryResult
  repeat' first
    | with_reducible assumption
    | (extract_lets +onlyGivenNames x; try (refine Keep.cut (s := x) ?_ ?_; (on_goal 1 => subst x); (on_goal 2 => intro hx; clear_value x)))
    | with_reducible apply State.finish_keep
    | with_reducible apply State.emit_keep

theorem State.readWords_keep {r s : State} (h : Keep r s) (k off : Nat) : Keep r (State.readWords k s off).2 := by
  induction k generalizing s off with
  | zero => exact h
  | succ k ih =>
    unfold State.readWords
    repeat' first
      | with_reducible assumption
      | (extract_lets +onlyGivenNames x; try (refine Keep.cut (s := x) ?_ ?_; (on_goal 1 => subst x); (on_goal 2 => intro hx; clear_value x)))
      | with_reducible apply State.barRead_keep
      | apply ih

theorem State.realarm_keep {r s : State} (h : Keep r s) : Keep r (State.realarm s) := by
  unfold State.realarm
  repeat' first
    | with_reducible assumption
    | (extract_lets +onlyGivenNames x; try (refine Keep.cut (s := x) ?_ ?_; (on_goal 1 => subst x); (on_goal 2 => intro hx; clear_value x)))
    | with_reducible apply State.alarm_keep
    | with_reducible apply Keep.ite

theorem State.receiveWrite_keep {r s : State} (h : Keep r s) (p : FabPkt) (dup : State → Nat → State) (apply_ : State → State × Nat × Nat)
    (hd : ∀ t n, Keep r t → Keep r (dup t n)) (ha : ∀ t, Keep r t → Keep r (apply_ t).1) :
    Keep r (State.receiveWrite s p dup apply_) := by
  unfold State.receiveWrite
  split
  · exact h
  · split
    · exact hd _ _ h
    · exact State.fabSend_keep (State.keepOutcome_keep (ha _ h) ..) ..

theorem State.refuseFab_keep {r s : State} (h : Keep r s) (die engine : Nat) (compl status : Nat) (nodes : Option (List Nat)) :
    Keep r (State.refuseFab s die engine compl status nodes) := by
  unfold State.refuseFab
  repeat' first
    | with_reducible assumption
    | with_reducible apply State.complete_keep

theorem State.regranule_keep {r s : State} (h : Keep r s) (old new : ObjEntry) : Keep r (State.regranule s old new) := by
  unfold State.regranule
  repeat' first
    | with_reducible assumption
    | with_reducible apply State.setGranules_keep

theorem State.resendFrom_keep {r s : State} (h : Keep r s) (l i : Nat) : Keep r (State.resendFrom s l i) := by
  unfold State.resendFrom
  repeat' first
    | with_reducible assumption
    | (extract_lets +onlyGivenNames x; try (refine Keep.cut (s := x) ?_ ?_; (on_goal 1 => subst x); (on_goal 2 => intro hx; clear_value x)))
    | with_reducible apply State.setLink_keep
    | with_reducible apply State.emit_keep
    | with_reducible apply Keep.foldl
    | (intro x a hx; beta_reduce)

theorem State.resendRelease_keep {r s : State} (h : Keep r s) (r_0 : Replica) : Keep r (State.resendRelease s r_0) := by
  unfold State.resendRelease
  repeat' first
    | with_reducible assumption
    | (extract_lets +onlyGivenNames x; try (refine Keep.cut (s := x) ?_ ?_; (on_goal 1 => subst x); (on_goal 2 => intro hx; clear_value x)))
    | with_reducible apply State.setDisc_keep
    | with_reducible apply State.setDom_keep
    | with_reducible apply State.distribute_keep
    | with_reducible apply State.sendOwn_keep
    | with_reducible apply State.replyTo_keep
    | with_reducible apply Keep.ite
    | with_reducible apply Keep.foldl
    | (intro x a hx; beta_reduce)
    | split

theorem State.respond_keep {r s : State} (h : Keep r s) (q : SpdmReq) (code p1 p2 : Nat) (body : List Byte) :
    Keep r (State.respond s q code p1 p2 body) := by
  unfold State.respond
  repeat' first
    | with_reducible assumption
    | (extract_lets +onlyGivenNames x; try (refine Keep.cut (s := x) ?_ ?_; (on_goal 1 => subst x); (on_goal 2 => intro hx; clear_value x)))
    | with_reducible apply State.emit_keep
    | with_reducible apply Keep.ite
    | with_reducible refine State.setSec_upd ?_ rfl

theorem State.resumeOp_keep {r s : State} (h : Keep r s) (n : Nat) (d : W512) : Keep r (State.resumeOp s n d) := by
  unfold State.resumeOp
  repeat' first
    | with_reducible assumption
    | (extract_lets +onlyGivenNames x; try (refine Keep.cut (s := x) ?_ ?_; (on_goal 1 => subst x); (on_goal 2 => intro hx; clear_value x)))
    | with_reducible apply State.control_keep
    | with_reducible apply State.finish_keep
    | with_reducible apply State.answer_keep
    | with_reducible apply State.setOp_keep
    | with_reducible apply State.opNote_keep
    | (intro x a b hx; beta_reduce)
    | split

theorem State.rewriteGranule_keep {r s : State} (h : Keep r s) (g : Nat) (bs : List Byte) :
    Keep r (State.rewriteGranule s g bs) := by
  unfold State.rewriteGranule
  repeat' first
    | with_reducible assumption
    | with_reducible apply State.devWrite_keep
    | split

theorem State.row_keep {r s : State} (h : Keep r s) (n op : Nat) (sel : W512 → Bool) (f : W512 → State → State) (hf : ∀ v0 v1, Keep r v1 → Keep r (f v0 v1)) :
    KeepE r (State.row s n op sel f) := by
  unfold State.row
  repeat' first
    | with_reducible assumption
    | (extract_lets +onlyGivenNames x; try (refine Keep.cut (s := x) ?_ ?_; (on_goal 1 => subst x); (on_goal 2 => intro hx; clear_value x)))
    | with_reducible apply State.refuse_keep
    | with_reducible apply State.settleCloses_keep
    | with_reducible apply hf
    | with_reducible apply Keep.ite
    | with_reducible apply KeepE.next
    | (fail_if_no_progress with_reducible refine Keep.mk' ?_ rfl rfl rfl rfl rfl rfl rfl rfl rfl rfl)
    | split

theorem State.scrubLeaf_keep {r s : State} (h : Keep r s) (b : Nat) : Keep r (State.scrubLeaf s b) := by
  unfold State.scrubLeaf
  repeat' first
    | with_reducible assumption
    | (extract_lets +onlyGivenNames x; try (refine Keep.cut (s := x) ?_ ?_; (on_goal 1 => subst x); (on_goal 2 => intro hx; clear_value x)))
    | with_reducible apply State.setGranules_keep
    | with_reducible apply State.raise_keep
    | with_reducible apply Keep.ite
    | split

theorem act_keep {r s : State} (h : Keep r s) (c : Bool) (f : State → State) (hf : ∀ v0, Keep r v0 → Keep r (f v0)) :
    KeepE r (act c s f) := by
  unfold act
  repeat' first
    | with_reducible assumption
    | (extract_lets +onlyGivenNames x; try (refine Keep.cut (s := x) ?_ ?_; (on_goal 1 => subst x); (on_goal 2 => intro hx; clear_value x)))
    | with_reducible apply hf
    | with_reducible apply Keep.ite
    | with_reducible apply KeepE.next

theorem State.spdmError_keep {r s : State} (h : Keep r s) (q : SpdmReq) (err data : Nat) :
    Keep r (State.spdmError s q err data) := by
  unfold State.spdmError
  repeat' first
    | with_reducible assumption
    | with_reducible apply State.emit_keep

theorem State.spdm_keep {r s : State} (h : Keep r s) (q : SpdmReq) (step : Nat) (f : State → State) (hf : ∀ v0, Keep r v0 → Keep r (f v0)) :
    KeepE r (State.spdm s q step f) := by
  unfold State.spdm
  repeat' first
    | with_reducible assumption
    | (extract_lets +onlyGivenNames x; try (refine Keep.cut (s := x) ?_ ?_; (on_goal 1 => subst x); (on_goal 2 => intro hx; clear_value x)))
    | with_reducible apply act_keep
    | with_reducible apply State.spdmError_keep
    | with_reducible apply hf
    | with_reducible apply Keep.ite
    | (intro x hx; beta_reduce)

theorem State.secured_keep {r s : State} (h : Keep r s) (q : SpdmReq) (f : State → State) (hf : ∀ v0, Keep r v0 → Keep r (f v0)) :
    KeepE r (State.secured s q f) := by
  unfold State.secured
  repeat' first
    | with_reducible assumption
    | (extract_lets +onlyGivenNames x; try (refine Keep.cut (s := x) ?_ ?_; (on_goal 1 => subst x); (on_goal 2 => intro hx; clear_value x)))
    | with_reducible apply State.spdm_keep
    | with_reducible apply State.spdmError_keep
    | with_reducible apply hf
    | (intro x hx; beta_reduce)
    | split

theorem State.sendMsg_keep {r s : State} (h : Keep r s) (n : Nat) (d : W512) : Keep r (State.sendMsg s n d) := by
  unfold State.sendMsg
  repeat' first
    | with_reducible assumption
    | (extract_lets +onlyGivenNames x; try (refine Keep.cut (s := x) ?_ ?_; (on_goal 1 => subst x); (on_goal 2 => intro hx; clear_value x)))
    | with_reducible apply State.finish_keep
    | with_reducible apply State.hold_keep
    | with_reducible apply State.sendMessage_keep
    | with_reducible apply Keep.ite

theorem State.setStart_keep {r s : State} (h : Keep r s) (t_0 : Start) : Keep r (State.setStart s t_0) := by
  unfold State.setStart
  repeat' first
    | with_reducible assumption
    | (fail_if_no_progress with_reducible refine Keep.mk' ?_ rfl rfl rfl rfl rfl rfl rfl rfl rfl rfl)

theorem State.seqPlace_keep {r s : State} (h : Keep r s) : Keep r (State.seqPlace s) := by
  unfold State.seqPlace
  repeat' first
    | with_reducible assumption
    | (extract_lets +onlyGivenNames x; try (refine Keep.cut (s := x) ?_ ?_; (on_goal 1 => subst x); (on_goal 2 => intro hx; clear_value x)))
    | with_reducible apply State.note_keep
    | with_reducible apply State.setStart_keep
    | with_reducible apply State.placeCopies_keep
    | split

theorem State.serveWaiters_keep {r s : State} (h : Keep r s) (g : Nat) : Keep r (State.serveWaiters s g) := by
  unfold State.serveWaiters
  repeat' first
    | with_reducible assumption
    | (extract_lets +onlyGivenNames x; try (refine Keep.cut (s := x) ?_ ?_; (on_goal 1 => subst x); (on_goal 2 => intro hx; clear_value x)))
    | with_reducible apply State.emit_keep
    | (fail_if_no_progress with_reducible refine Keep.mk' ?_ rfl rfl rfl rfl rfl rfl rfl rfl rfl rfl)
    | with_reducible apply Keep.foldl
    | (intro x a hx; beta_reduce)
    | split

theorem State.setObject_keep {r s : State} (h : Keep r s) (n : Nat) (d : W512) : Keep r (State.setObject s n d) := by
  unfold State.setObject
  repeat' first
    | with_reducible assumption
    | (extract_lets +onlyGivenNames x; try (refine Keep.cut (s := x) ?_ ?_; (on_goal 1 => subst x); (on_goal 2 => intro hx; clear_value x)))
    | with_reducible apply State.regranule_keep
    | with_reducible apply State.settlePins_keep
    | with_reducible apply State.hold_keep
    | with_reducible apply State.finish_keep
    | with_reducible apply Keep.ite
    | (fail_if_no_progress with_reducible refine Keep.mk' ?_ rfl rfl rfl rfl rfl rfl rfl rfl rfl rfl)

theorem State.shareLimit_keep {r s : State} (h : Keep r s) (m : WindowMeas) : Keep r (State.shareLimit s m) := by
  unfold State.shareLimit
  repeat' first
    | with_reducible assumption
    | (extract_lets +onlyGivenNames x; try (refine Keep.cut (s := x) ?_ ?_; (on_goal 1 => subst x); (on_goal 2 => intro hx; clear_value x)))
    | with_reducible apply State.allowance_keep
    | with_reducible apply State.paceNext_keep
    | with_reducible apply State.setPwr_keep

theorem State.slew_keep {r s : State} (h : Keep r s) (pIn : Nat) : Keep r (State.slew s pIn) := by
  unfold State.slew
  repeat' first
    | with_reducible assumption
    | (extract_lets +onlyGivenNames x; try (refine Keep.cut (s := x) ?_ ?_; (on_goal 1 => subst x); (on_goal 2 => intro hx; clear_value x)))
    | with_reducible apply State.setPwr_keep
    | with_reducible apply State.note_keep
    | with_reducible apply Keep.ite

theorem State.standbyFailed_keep {r s : State} (h : Keep r s) (n : Nat) : Keep r (State.standbyFailed s n) := by
  unfold State.standbyFailed
  repeat' first
    | with_reducible assumption
    | (extract_lets +onlyGivenNames x; try (refine Keep.cut (s := x) ?_ ?_; (on_goal 1 => subst x); (on_goal 2 => intro hx; clear_value x)))
    | with_reducible apply State.nameStandby_keep
    | with_reducible apply State.setDisc_keep
    | with_reducible apply State.replicate_keep
    | with_reducible apply Keep.ite
    | split

theorem State.startBuild_keep {r s : State} (h : Keep r s) (handle : Nat) : Keep r (State.startBuild s handle) := by
  unfold State.startBuild
  repeat' first
    | with_reducible assumption
    | (extract_lets +onlyGivenNames x; try (refine Keep.cut (s := x) ?_ ?_; (on_goal 1 => subst x); (on_goal 2 => intro hx; clear_value x)))
    | with_reducible apply State.jnl_keep
    | with_reducible refine State.setBanks_keep ?_ _ rfl rfl (id)
    | with_reducible apply Keep.ite
    | (fail_if_no_progress with_reducible refine Keep.mk' ?_ rfl rfl rfl rfl rfl rfl rfl rfl rfl rfl)
    | with_reducible refine State.setCaddy_upd ?_ rfl rfl

theorem State.startBulk_keep {r s : State} (h : Keep r s) (n : Nat) (d : W512) (k : OpKind) :
    Keep r (State.startBulk s n d k) := by
  unfold State.startBulk
  repeat' first
    | with_reducible assumption
    | (extract_lets +onlyGivenNames x; try (refine Keep.cut (s := x) ?_ ?_; (on_goal 1 => subst x); (on_goal 2 => intro hx; clear_value x)))
    | with_reducible apply State.startOp_keep
    | with_reducible apply State.setOp_keep
    | split

theorem State.startFill_keep {r s : State} (h : Keep r s) (a : Nat) (waiters : List Nat) :
    KeepO r (State.startFill s a waiters) := by
  unfold State.startFill
  repeat' first
    | with_reducible assumption
    | (extract_lets +onlyGivenNames x; try (refine Keep.cut (s := x) ?_ ?_; (on_goal 1 => subst x); (on_goal 2 => intro hx; clear_value x)))
    | with_reducible apply State.newGranule_keep
    | with_reducible apply State.evict_keep
    | with_reducible apply KeepO.ite
    | with_reducible apply KeepO.some
    | (with_reducible exact KeepO.none)
    | (with_reducible refine KeepO.get ?_ _ (by with_reducible assumption))
    | split

theorem State.stopProgram_keep {r s : State} (h : Keep r s) (draft : Bool) (index status : Nat) (addr detail : Nat) :
    Keep r (State.stopProgram s draft index status addr detail) := by
  unfold State.stopProgram
  repeat' first
    | with_reducible assumption
    | (extract_lets +onlyGivenNames x; try (refine Keep.cut (s := x) ?_ ?_; (on_goal 1 => subst x); (on_goal 2 => intro hx; clear_value x)))
    | with_reducible apply State.setSteep_keep
    | with_reducible apply State.raise_keep

theorem State.suspendOp_keep {r s : State} (h : Keep r s) (n : Nat) (d : W512) : Keep r (State.suspendOp s n d) := by
  unfold State.suspendOp
  repeat' first
    | with_reducible assumption
    | (extract_lets +onlyGivenNames x; try (refine Keep.cut (s := x) ?_ ?_; (on_goal 1 => subst x); (on_goal 2 => intro hx; clear_value x)))
    | with_reducible apply State.control_keep
    | with_reducible apply State.setOp_keep
    | with_reducible apply State.finish_keep
    | with_reducible apply State.answer_keep
    | (intro x a b hx; beta_reduce)
    | split

theorem State.takeAck_keep {r s : State} (h : Keep r s) (l ack : Nat) : Keep r (State.takeAck s l ack) := by
  unfold State.takeAck
  repeat' first
    | with_reducible assumption
    | (extract_lets +onlyGivenNames x; try (refine Keep.cut (s := x) ?_ ?_; (on_goal 1 => subst x); (on_goal 2 => intro hx; clear_value x)))
    | with_reducible apply State.setLink_keep
    | with_reducible apply State.pump_keep
    | split

theorem State.takeGens_keep {r s : State} (h : Keep r s) (n : Nat) (gens : Option GenReport) :
    Keep r (State.takeGens s n gens) := by
  unfold State.takeGens
  repeat' first
    | with_reducible assumption
    | (extract_lets +onlyGivenNames x; try (refine Keep.cut (s := x) ?_ ?_; (on_goal 1 => subst x); (on_goal 2 => intro hx; clear_value x)))
    | with_reducible apply State.setDisc_keep
    | with_reducible apply State.emit_keep
    | with_reducible apply Keep.ite
    | split

theorem State.takeJoin_keep {r s : State} (h : Keep r s) (l : Nat) (f : Frame) (gens : Option GenReport) :
    Keep r (State.takeJoin s l f gens) := by
  unfold State.takeJoin
  repeat' first
    | with_reducible assumption
    | (extract_lets +onlyGivenNames x; try (refine Keep.cut (s := x) ?_ ?_; (on_goal 1 => subst x); (on_goal 2 => intro hx; clear_value x)))
    | with_reducible apply State.setDisc_keep
    | with_reducible apply State.takeGens_keep
    | with_reducible apply State.sendFrame_keep
    | with_reducible apply Keep.ite

theorem State.takeOrder_keep {r s : State} (h : Keep r s) (g : Word) : Keep r (State.takeOrder s g) := by
  unfold State.takeOrder
  repeat' first
    | with_reducible assumption
    | (extract_lets +onlyGivenNames x; try (refine Keep.cut (s := x) ?_ ?_; (on_goal 1 => subst x); (on_goal 2 => intro hx; clear_value x)))
    | with_reducible apply State.takeBank_keep
    | with_reducible apply Keep.ite

theorem State.tap_keep {r s : State} (h : Keep r s) (i : Nat) : Keep r (State.tap s i) := by
  unfold State.tap
  repeat' first
    | with_reducible assumption
    | (extract_lets +onlyGivenNames x; try (refine Keep.cut (s := x) ?_ ?_; (on_goal 1 => subst x); (on_goal 2 => intro hx; clear_value x)))
    | with_reducible apply State.setStart_keep

theorem State.verifySeq_keep {r s : State} (h : Keep r s) (m : Model) (b : BatchItem) : Keep r (State.verifySeq s m b) := by
  unfold State.verifySeq
  repeat' first
    | with_reducible assumption
    | (extract_lets +onlyGivenNames x; try (refine Keep.cut (s := x) ?_ ?_; (on_goal 1 => subst x); (on_goal 2 => intro hx; clear_value x)))
    | with_reducible apply State.readError_keep
    | with_reducible apply State.dataError_keep
    | with_reducible apply State.setSteep_keep
    | with_reducible apply Keep.ite
    | split

theorem dupAtomic_keep {r s : State} (h : Keep r s) (p : FabPkt) (st : Nat) : Keep r (dupAtomic p s st) := by
  unfold dupAtomic
  repeat' first
    | with_reducible assumption
    | (extract_lets +onlyGivenNames x; try (refine Keep.cut (s := x) ?_ ?_; (on_goal 1 => subst x); (on_goal 2 => intro hx; clear_value x)))
    | with_reducible apply State.fabSend_keep
    | with_reducible apply Keep.ite
    | split

theorem dupStatus_keep {r s : State} (h : Keep r s) (p : FabPkt) (st : Nat) : Keep r (dupStatus p s st) := by
  unfold dupStatus
  repeat' first
    | with_reducible assumption
    | with_reducible apply State.fabSend_keep

end Sys2Proof.Machine
end

