-- ==== Sys2Proof/Laws/Commands.lean ====
section
/-! SUPPORT. Every command but the resets and the openings of the first stage (Laws/Resets.lean): it answers a next
state, and leaves what `Keep` names. -/

namespace Sys2Proof.Machine

set_option Elab.async false
set_option linter.all false

theorem execRelease_keep {r s : State} (h : Keep r s) (inp : BoundaryIn) : KeepE r (execRelease inp s) := by
  unfold execRelease
  repeat' first
    | with_reducible assumption
    | (extract_lets +onlyGivenNames x; try (refine Keep.cut (s := x) ?_ ?_; (on_goal 1 => subst x); (on_goal 2 => intro hx; clear_value x)))
    | with_reducible apply State.take_keep
    | with_reducible apply State.applyRelease_keep
    | with_reducible apply State.raise_keep
    | with_reducible apply Keep.ite
    | with_reducible apply KeepE.next
    | split

theorem execOpeningRelease_keep {r s : State} (h : Keep r s) (inp : BoundaryIn) : KeepE r (execOpeningRelease inp s) := by
  unfold execOpeningRelease
  repeat' first
    | with_reducible assumption
    | (extract_lets +onlyGivenNames x; try (refine Keep.cut (s := x) ?_ ?_; (on_goal 1 => subst x); (on_goal 2 => intro hx; clear_value x)))
    | with_reducible apply State.writeBack_keep
    | with_reducible apply State.freeClosed_keep
    | with_reducible apply State.rehashAll_keep
    | with_reducible apply State.take_keep
    | with_reducible apply State.cut_keep
    | with_reducible apply State.enterState_keep
    | with_reducible apply State.adoptRevs_keep
    | with_reducible apply State.startSteep_keep
    | with_reducible apply Keep.ite
    | with_reducible apply KeepE.next
    | split

theorem execAdoptionRecord_keep {r s : State} (h : Keep r s) : KeepE r (execAdoptionRecord s) := by
  unfold execAdoptionRecord
  repeat' first
    | with_reducible assumption
    | (extract_lets +onlyGivenNames x; try (refine Keep.cut (s := x) ?_ ?_; (on_goal 1 => subst x); (on_goal 2 => intro hx; clear_value x)))
    | with_reducible apply State.adoptTaken_keep
    | with_reducible apply State.adoptRevs_keep
    | with_reducible apply State.take_keep
    | with_reducible apply Keep.ite
    | with_reducible apply KeepE.next
    | (fail_if_no_progress with_reducible refine Keep.mk' ?_ rfl rfl rfl rfl rfl rfl rfl rfl rfl rfl)
    | split

theorem execDraftPass_keep {r s : State} (h : Keep r s) : KeepE r (execDraftPass s) := by
  unfold execDraftPass
  repeat' first
    | with_reducible assumption
    | (extract_lets +onlyGivenNames x; try (refine Keep.cut (s := x) ?_ ?_; (on_goal 1 => subst x); (on_goal 2 => intro hx; clear_value x)))
    | with_reducible apply State.propose_keep
    | with_reducible apply State.setSteep_keep
    | with_reducible apply State.settleRoutes_keep
    | with_reducible apply State.storeOk_keep
    | with_reducible apply Keep.ite
    | with_reducible apply KeepE.next
    | with_reducible apply Keep.foldl
    | (intro x a hx; beta_reduce)
    | split

theorem execOperationIssue_keep {r s : State} (h : Keep r s) (draft : Bool) (index : Nat) (expert : Option Nat) (readFails : Bool) :
    KeepE r (execOperationIssue draft index expert readFails s) := by
  unfold execOperationIssue
  repeat' first
    | with_reducible assumption
    | (extract_lets +onlyGivenNames x; try (refine Keep.cut (s := x) ?_ ?_; (on_goal 1 => subst x); (on_goal 2 => intro hx; clear_value x)))
    | with_reducible apply State.settleRoutes_keep
    | with_reducible apply State.stopProgram_keep
    | with_reducible apply State.setSteep_keep
    | with_reducible apply Keep.ite
    | with_reducible apply KeepE.next
    | split

theorem execOperationOutput_keep {r s : State} (h : Keep r s) (draft : Bool) (index : Nat) (expert : Option Nat) :
    KeepE r (execOperationOutput draft index expert s) := by
  unfold execOperationOutput
  repeat' first
    | with_reducible assumption
    | (extract_lets +onlyGivenNames x; try (refine Keep.cut (s := x) ?_ ?_; (on_goal 1 => subst x); (on_goal 2 => intro hx; clear_value x)))
    | with_reducible apply State.completeAll_keep
    | with_reducible apply State.settleRoutes_keep
    | with_reducible apply State.expertOutput_keep
    | with_reducible apply State.ownOutput_keep
    | with_reducible apply Keep.ite
    | with_reducible apply KeepE.next
    | split

theorem execNormEscalation_keep {r s : State} (h : Keep r s) (index : Nat) : KeepE r (execNormEscalation index s) := by
  unfold execNormEscalation
  repeat' first
    | with_reducible assumption
    | (extract_lets +onlyGivenNames x; try (refine Keep.cut (s := x) ?_ ?_; (on_goal 1 => subst x); (on_goal 2 => intro hx; clear_value x)))
    | with_reducible apply State.escalateLine_keep
    | with_reducible apply State.onNorm_keep
    | with_reducible apply State.settleRoutes_keep
    | with_reducible apply State.finishRun_keep
    | with_reducible apply Keep.ite
    | with_reducible apply KeepE.next
    | with_reducible apply Keep.foldl
    | (intro x a hx; beta_reduce)
    | split

theorem execVerifyAndSample_keep {r s : State} (h : Keep r s) : KeepE r (execVerifyAndSample s) := by
  unfold execVerifyAndSample
  repeat' first
    | with_reducible assumption
    | (extract_lets +onlyGivenNames x; try (refine Keep.cut (s := x) ?_ ?_; (on_goal 1 => subst x); (on_goal 2 => intro hx; clear_value x)))
    | with_reducible apply State.settleRoutes_keep
    | with_reducible apply State.verifySeq_keep
    | with_reducible apply Keep.ite
    | with_reducible apply KeepE.next
    | with_reducible apply Keep.foldl
    | (intro x a hx; beta_reduce)
    | split

theorem execStageOutputs_keep {r s : State} (h : Keep r s) : KeepE r (execStageOutputs s) := by
  unfold execStageOutputs
  repeat' first
    | with_reducible assumption
    | (extract_lets +onlyGivenNames x; try (refine Keep.cut (s := x) ?_ ?_; (on_goal 1 => subst x); (on_goal 2 => intro hx; clear_value x)))
    | with_reducible apply act_keep
    | with_reducible apply State.completeAll_keep
    | with_reducible apply State.setSteep_keep
    | with_reducible apply State.barrierSwap_keep
    | (intro x hx; beta_reduce)

theorem execRoutingAdmission_keep {r s : State} (h : Keep r s) (layer : Nat) : KeepE r (execRoutingAdmission layer s) := by
  unfold execRoutingAdmission
  repeat' first
    | with_reducible assumption
    | (extract_lets +onlyGivenNames x; try (refine Keep.cut (s := x) ?_ ?_; (on_goal 1 => subst x); (on_goal 2 => intro hx; clear_value x)))
    | with_reducible apply State.failRows_keep
    | with_reducible apply State.settleRoutes_keep
    | with_reducible apply State.admitLayer_keep
    | with_reducible apply Keep.ite
    | with_reducible apply KeepE.next
    | split

theorem execDispatch_keep {r s : State} (h : Keep r s) (p : RoutePkt) : KeepE r (execDispatch p s) := by
  unfold execDispatch
  repeat' first
    | with_reducible assumption
    | (extract_lets +onlyGivenNames x; try (refine Keep.cut (s := x) ?_ ?_; (on_goal 1 => subst x); (on_goal 2 => intro hx; clear_value x)))
    | with_reducible apply State.routeIn_keep
    | with_reducible apply State.settleRoutes_keep
    | with_reducible apply State.takeDispatch_keep
    | with_reducible apply KeepE.next
    | (intro x hx; beta_reduce)

theorem execDispEnd_keep {r s : State} (h : Keep r s) (p : RoutePkt) : KeepE r (execDispEnd p s) := by
  unfold execDispEnd
  repeat' first
    | with_reducible assumption
    | (extract_lets +onlyGivenNames x; try (refine Keep.cut (s := x) ?_ ?_; (on_goal 1 => subst x); (on_goal 2 => intro hx; clear_value x)))
    | with_reducible apply State.routeIn_keep
    | with_reducible apply State.settleRoutes_keep
    | with_reducible apply State.takeDispEnd_keep
    | with_reducible apply KeepE.next
    | (intro x hx; beta_reduce)

theorem execPourSend_keep {r s : State} (h : Keep r s) (src expert slot : Nat) :
    KeepE r (execPourSend src expert slot s) := by
  unfold execPourSend
  repeat' first
    | with_reducible assumption
    | (extract_lets +onlyGivenNames x; try (refine Keep.cut (s := x) ?_ ?_; (on_goal 1 => subst x); (on_goal 2 => intro hx; clear_value x)))
    | with_reducible apply State.settleRoutes_keep
    | with_reducible apply State.pourLine_keep
    | with_reducible apply Keep.ite
    | with_reducible apply KeepE.next
    | split

theorem execPour_keep {r s : State} (h : Keep r s) (p : RoutePkt) : KeepE r (execPour p s) := by
  unfold execPour
  repeat' first
    | with_reducible assumption
    | (extract_lets +onlyGivenNames x; try (refine Keep.cut (s := x) ?_ ?_; (on_goal 1 => subst x); (on_goal 2 => intro hx; clear_value x)))
    | with_reducible apply State.routeIn_keep
    | with_reducible apply State.setRte_keep
    | with_reducible apply State.settleRoutes_keep
    | with_reducible apply State.discardDup_keep
    | with_reducible apply State.raise_keep
    | with_reducible apply State.combineRow_keep
    | with_reducible apply Keep.ite
    | with_reducible apply KeepE.next
    | (intro x hx; beta_reduce)
    | split

theorem execPourEnd_keep {r s : State} (h : Keep r s) (p : RoutePkt) : KeepE r (execPourEnd p s) := by
  unfold execPourEnd
  repeat' first
    | with_reducible assumption
    | (extract_lets +onlyGivenNames x; try (refine Keep.cut (s := x) ?_ ?_; (on_goal 1 => subst x); (on_goal 2 => intro hx; clear_value x)))
    | with_reducible apply State.routeIn_keep
    | with_reducible apply State.discardDup_keep
    | with_reducible apply State.settleRoutes_keep
    | with_reducible apply State.setRte_keep
    | with_reducible apply Keep.ite
    | with_reducible apply KeepE.next
    | (intro x hx; beta_reduce)

theorem execHomeTableCheck_keep {r s : State} (h : Keep r s) (r_0 : HomeRev) : KeepE r (execHomeTableCheck r_0 s) := by
  unfold execHomeTableCheck
  repeat' first
    | with_reducible assumption
    | (extract_lets +onlyGivenNames x; try (refine Keep.cut (s := x) ?_ ?_; (on_goal 1 => subst x); (on_goal 2 => intro hx; clear_value x)))
    | with_reducible apply act_keep
    | with_reducible apply State.emit_keep
    | with_reducible apply State.setRte_keep
    | with_reducible apply State.raise_keep
    | (intro x hx; beta_reduce)
    | split

theorem execFeederWorkItem_keep {r s : State} (h : Keep r s) (t_0 : TileAt) (item : WorkItem) (reads : List CoreRead) (fault : Option CoreFault) :
    KeepE r (execFeederWorkItem t_0 item reads fault s) := by
  unfold execFeederWorkItem
  repeat' first
    | with_reducible assumption
    | (extract_lets +onlyGivenNames x; try (refine Keep.cut (s := x) ?_ ?_; (on_goal 1 => subst x); (on_goal 2 => intro hx; clear_value x)))
    | with_reducible apply act_keep
    | with_reducible apply State.flushTile_keep
    | with_reducible apply State.carry_keep
    | with_reducible apply State.onTile_keep
    | with_reducible apply State.coreFault_keep
    | with_reducible apply State.feed_keep
    | (fail_if_no_progress with_reducible refine Keep.mk' ?_ rfl rfl rfl rfl rfl rfl rfl rfl rfl rfl)
    | (intro x hx; beta_reduce)
    | split
    | (clear_value *; split)

theorem execLeafRefetch_keep {r s : State} (h : Keep r s) (t_0 : TileAt) (first : Option (List Byte)) (second : Option (List Byte)) :
    KeepE r (execLeafRefetch t_0 first second s) := by
  unfold execLeafRefetch
  repeat' first
    | with_reducible assumption
    | (extract_lets +onlyGivenNames x; try (refine Keep.cut (s := x) ?_ ?_; (on_goal 1 => subst x); (on_goal 2 => intro hx; clear_value x)))
    | with_reducible apply State.feed_keep
    | with_reducible apply State.onTile_keep
    | with_reducible apply State.leafRecovered_keep
    | with_reducible apply State.resume_keep
    | with_reducible apply State.leafFailure_keep
    | with_reducible apply Keep.ite
    | with_reducible apply KeepE.next
    | (fail_if_no_progress with_reducible refine Keep.mk' ?_ rfl rfl rfl rfl rfl rfl rfl rfl rfl rfl)
    | split
    | (clear_value *; split)

theorem execGranuleRefetch_keep {r s : State} (h : Keep r s) (t_0 : TileAt) (first second : FillIn) :
    KeepE r (execGranuleRefetch t_0 first second s) := by
  unfold execGranuleRefetch
  repeat' first
    | with_reducible assumption
    | (extract_lets +onlyGivenNames x; try (refine Keep.cut (s := x) ?_ ?_; (on_goal 1 => subst x); (on_goal 2 => intro hx; clear_value x)))
    | with_reducible apply State.feedWaiters_keep
    | with_reducible apply State.serveWaiters_keep
    | with_reducible apply State.rewriteGranule_keep
    | with_reducible apply State.leafFailure_keep
    | with_reducible apply Keep.ite
    | with_reducible apply KeepE.next
    | (fail_if_no_progress with_reducible refine Keep.mk' ?_ rfl rfl rfl rfl rfl rfl rfl rfl rfl rfl)
    | split

theorem execCosyRampDown_keep {r s : State} (h : Keep r s) (t_0 : TileAt) (gapBeats steps : Nat) :
    KeepE r (execCosyRampDown t_0 gapBeats steps s) := by
  unfold execCosyRampDown
  repeat' first
    | with_reducible assumption
    | (extract_lets +onlyGivenNames x; try (refine Keep.cut (s := x) ?_ ?_; (on_goal 1 => subst x); (on_goal 2 => intro hx; clear_value x)))
    | with_reducible apply act_keep
    | with_reducible apply State.onTile_keep
    | (intro x hx; beta_reduce)

theorem execCosyRampUp_keep {r s : State} (h : Keep r s) (t_0 : TileAt) : KeepE r (execCosyRampUp t_0 s) := by
  unfold execCosyRampUp
  repeat' first
    | with_reducible assumption
    | (extract_lets +onlyGivenNames x; try (refine Keep.cut (s := x) ?_ ?_; (on_goal 1 => subst x); (on_goal 2 => intro hx; clear_value x)))
    | with_reducible apply act_keep
    | with_reducible apply State.onTile_keep
    | (intro x hx; beta_reduce)

theorem execBeatStall_keep {r s : State} (h : Keep r s) (t_0 : TileAt) : KeepE r (execBeatStall t_0 s) := by
  unfold execBeatStall
  repeat' first
    | with_reducible assumption
    | (extract_lets +onlyGivenNames x; try (refine Keep.cut (s := x) ?_ ?_; (on_goal 1 => subst x); (on_goal 2 => intro hx; clear_value x)))
    | with_reducible apply act_keep
    | with_reducible apply State.stallTile_keep
    | (intro x hx; beta_reduce)

theorem execDelayLineCalibration_keep {r s : State} (h : Keep r s) (die : Nat) :
    KeepE r (execDelayLineCalibration die s) := by
  unfold execDelayLineCalibration
  repeat' first
    | with_reducible assumption
    | (extract_lets +onlyGivenNames x; try (refine Keep.cut (s := x) ?_ ?_; (on_goal 1 => subst x); (on_goal 2 => intro hx; clear_value x)))
    | with_reducible apply act_keep
    | (fail_if_no_progress with_reducible refine Keep.mk' ?_ rfl rfl rfl rfl rfl rfl rfl rfl rfl rfl)
    | (intro x hx; beta_reduce)

theorem execEngineFailover_keep {r s : State} (h : Keep r s) (primaryLost : Bool) :
    KeepE r (execEngineFailover primaryLost s) := by
  unfold execEngineFailover
  repeat' first
    | with_reducible assumption
    | (extract_lets +onlyGivenNames x; try (refine Keep.cut (s := x) ?_ ?_; (on_goal 1 => subst x); (on_goal 2 => intro hx; clear_value x)))
    | with_reducible apply act_keep
    | with_reducible apply State.settleRoutes_keep
    | with_reducible apply State.raise_keep
    | (intro x hx; beta_reduce)

theorem execSeqTableRebuild_keep {r s : State} (h : Keep r s) : KeepE r (execSeqTableRebuild s) := by
  unfold execSeqTableRebuild
  repeat' first
    | with_reducible assumption
    | (extract_lets +onlyGivenNames x; try (refine Keep.cut (s := x) ?_ ?_; (on_goal 1 => subst x); (on_goal 2 => intro hx; clear_value x)))
    | with_reducible apply act_keep
    | with_reducible apply State.readRecord_keep
    | with_reducible apply State.writeBack_keep
    | with_reducible apply State.routeReset_keep
    | with_reducible apply State.normReset_keep
    | with_reducible apply State.dropBacklog_keep
    | (fail_if_no_progress with_reducible refine Keep.mk' ?_ rfl rfl rfl rfl rfl rfl rfl rfl rfl rfl)
    | with_reducible refine State.setErr_upd ?_ rfl rfl rfl rfl
    | with_reducible apply Keep.foldl
    | (intro x a hx; beta_reduce)
    | (intro x hx; beta_reduce)
    | split

theorem execGranuleMiss_keep {r s : State} (h : Keep r s) (addr requester : Nat) :
    KeepE r (execGranuleMiss addr requester s) := by
  unfold execGranuleMiss
  repeat' first
    | with_reducible assumption
    | (extract_lets +onlyGivenNames x; try (refine Keep.cut (s := x) ?_ ?_; (on_goal 1 => subst x); (on_goal 2 => intro hx; clear_value x)))
    | with_reducible apply act_keep
    | with_reducible apply State.setGranules_keep
    | with_reducible apply State.emit_keep
    | with_reducible apply State.startFill_keep
    | with_reducible apply Keep.ite
    | with_reducible apply Keep.getDO
    | (intro x hx; beta_reduce)
    | split

theorem execGranuleFillComplete_keep {r s : State} (h : Keep r s) (addr : Nat) (first second : FillIn) :
    KeepE r (execGranuleFillComplete addr first second s) := by
  unfold execGranuleFillComplete
  repeat' first
    | with_reducible assumption
    | (extract_lets +onlyGivenNames x; try (refine Keep.cut (s := x) ?_ ?_; (on_goal 1 => subst x); (on_goal 2 => intro hx; clear_value x)))
    | with_reducible apply act_keep
    | with_reducible apply State.startFill_keep
    | with_reducible apply State.fillDone_keep
    | with_reducible apply State.fillFailed_keep
    | with_reducible apply Keep.ite
    | with_reducible apply Keep.getDO
    | (intro x hx; beta_reduce)
    | split

theorem execSwapPrefill_keep {r s : State} (h : Keep r s) (granule : Nat) (fill : FillIn) :
    KeepE r (execSwapPrefill granule fill s) := by
  unfold execSwapPrefill
  repeat' first
    | with_reducible assumption
    | (extract_lets +onlyGivenNames x; try (refine Keep.cut (s := x) ?_ ?_; (on_goal 1 => subst x); (on_goal 2 => intro hx; clear_value x)))
    | with_reducible apply State.prefillFrom_keep
    | with_reducible apply State.newGranule_keep
    | with_reducible apply State.devWrite_keep
    | with_reducible apply Keep.ite
    | with_reducible apply KeepE.next
    | split

theorem execPatrolScrub_keep {r s : State} (h : Keep r s) (addr : Nat) (r_0 : BurstResult) :
    KeepE r (execPatrolScrub addr r_0 s) := by
  unfold execPatrolScrub
  repeat' first
    | with_reducible assumption
    | (extract_lets +onlyGivenNames x; try (refine Keep.cut (s := x) ?_ ?_; (on_goal 1 => subst x); (on_goal 2 => intro hx; clear_value x)))
    | with_reducible apply State.scrubLeaf_keep
    | with_reducible apply State.note_keep
    | with_reducible apply State.setGranules_keep
    | with_reducible apply State.badRead_keep
    | with_reducible apply Keep.ite
    | with_reducible apply KeepE.next
    | (fail_if_no_progress with_reducible refine Keep.mk' ?_ rfl rfl rfl rfl rfl rfl rfl rfl rfl rfl)
    | split

theorem execClearingScrub_keep {r s : State} (h : Keep r s) : KeepE r (execClearingScrub s) := by
  unfold execClearingScrub
  repeat' first
    | with_reducible assumption
    | (extract_lets +onlyGivenNames x; try (refine Keep.cut (s := x) ?_ ?_; (on_goal 1 => subst x); (on_goal 2 => intro hx; clear_value x)))
    | with_reducible apply act_keep
    | with_reducible exact Keep.updWf hx rfl rfl rfl (fun _ => rfl) id rfl rfl rfl rfl rfl rfl rfl
    | (intro x hx; beta_reduce)

theorem execLocalAtomic_keep {r s : State} (h : Keep r s) (op : AtomicOp) (wide : Bool) (addr : Nat) (operand compare : DWord) :
    KeepE r (execLocalAtomic op wide addr operand compare s) := by
  unfold execLocalAtomic
  repeat' first
    | with_reducible assumption
    | (extract_lets +onlyGivenNames x; try (refine Keep.cut (s := x) ?_ ?_; (on_goal 1 => subst x); (on_goal 2 => intro hx; clear_value x)))
    | with_reducible apply act_keep
    | with_reducible apply State.emit_keep
    | with_reducible apply State.atomicOp_keep
    | with_reducible apply Keep.ite
    | (intro x hx; beta_reduce)
    | split

theorem execChannelLoss_keep {r s : State} (h : Keep r s) (channel : Nat) : KeepE r (execChannelLoss channel s) := by
  unfold execChannelLoss
  repeat' first
    | with_reducible assumption
    | (extract_lets +onlyGivenNames x; try (refine Keep.cut (s := x) ?_ ?_; (on_goal 1 => subst x); (on_goal 2 => intro hx; clear_value x)))
    | with_reducible apply act_keep
    | with_reducible apply State.raise_keep
    | (intro x hx; beta_reduce)

theorem execCaddyOpen_keep {r s : State} (h : Keep r s) : KeepE r (execCaddyOpen s) := by
  unfold execCaddyOpen
  repeat' first
    | with_reducible assumption
    | (extract_lets +onlyGivenNames x; try (refine Keep.cut (s := x) ?_ ?_; (on_goal 1 => subst x); (on_goal 2 => intro hx; clear_value x)))
    | with_reducible apply act_keep
    | with_reducible apply State.latchStart_keep
    | with_reducible apply State.openCaddy_keep
    | (intro x hx; beta_reduce)

theorem execBuildChunk_keep {r s : State} (h : Keep r s) (handle : Nat) (inp : BuildIn) :
    KeepE r (execBuildChunk handle inp s) := by
  unfold execBuildChunk
  repeat' first
    | with_reducible assumption
    | (extract_lets +onlyGivenNames x; try (refine Keep.cut (s := x) ?_ ?_; (on_goal 1 => subst x); (on_goal 2 => intro hx; clear_value x)))
    | with_reducible apply State.endBuild_keep
    | with_reducible apply State.buildHeader_keep
    | with_reducible apply State.buildChunk_keep
    | with_reducible apply Keep.ite
    | with_reducible apply KeepE.next
    | split

theorem execSwapArmReceive_keep {r s : State} (h : Keep r s) (g : Word) (r_0 : HomeRev) :
    KeepE r (execSwapArmReceive g r_0 s) := by
  unfold execSwapArmReceive
  repeat' first
    | with_reducible assumption
    | (extract_lets +onlyGivenNames x; try (refine Keep.cut (s := x) ?_ ?_; (on_goal 1 => subst x); (on_goal 2 => intro hx; clear_value x)))
    | with_reducible apply act_keep
    | with_reducible apply State.armSelf_keep
    | with_reducible apply State.emit_keep
    | with_reducible apply Keep.ite
    | (intro x hx; beta_reduce)

theorem execSwapArmReply_keep {r s : State} (h : Keep r s) (node failed : Nat) :
    KeepE r (execSwapArmReply node failed s) := by
  unfold execSwapArmReply
  repeat' first
    | with_reducible assumption
    | (extract_lets +onlyGivenNames x; try (refine Keep.cut (s := x) ?_ ?_; (on_goal 1 => subst x); (on_goal 2 => intro hx; clear_value x)))
    | with_reducible apply State.armAccepted_keep
    | with_reducible apply State.armRefused_keep
    | with_reducible apply Keep.ite
    | with_reducible apply KeepE.next
    | split

theorem execSwapArmTimeout_keep {r s : State} (h : Keep r s) (node : Nat) : KeepE r (execSwapArmTimeout node s) := by
  unfold execSwapArmTimeout
  repeat' first
    | with_reducible assumption
    | (extract_lets +onlyGivenNames x; try (refine Keep.cut (s := x) ?_ ?_; (on_goal 1 => subst x); (on_goal 2 => intro hx; clear_value x)))
    | with_reducible apply State.armRefused_keep
    | with_reducible apply Keep.ite
    | with_reducible apply KeepE.next
    | split

theorem execQuickQuiesce_keep {r s : State} (h : Keep r s) : KeepE r (execQuickQuiesce s) := by
  unfold execQuickQuiesce
  repeat' first
    | with_reducible assumption
    | (extract_lets +onlyGivenNames x; try (refine Keep.cut (s := x) ?_ ?_; (on_goal 1 => subst x); (on_goal 2 => intro hx; clear_value x)))
    | with_reducible apply act_keep
    | with_reducible apply State.endBuild_keep
    | with_reducible apply State.leave_keep
    | (intro x hx; dsimp only)
    | with_reducible apply Keep.ite
    | (fail_if_no_progress with_reducible refine Keep.mk' ?_ rfl rfl rfl rfl rfl rfl rfl rfl rfl rfl)
    | split

theorem execSqTail_keep {r s : State} (h : Keep r s) (n : Nat) (tail : BitVec 16) : KeepE r (execSqTail n tail s) := by
  unfold execSqTail
  repeat' first
    | with_reducible assumption
    | (extract_lets +onlyGivenNames x; try (refine Keep.cut (s := x) ?_ ?_; (on_goal 1 => subst x); (on_goal 2 => intro hx; clear_value x)))
    | with_reducible apply act_keep
    | with_reducible apply State.onRing_keep
    | (intro x hx; beta_reduce)

theorem execCqHead_keep {r s : State} (h : Keep r s) (n : Nat) (arm : Bool) (head : BitVec 20) :
    KeepE r (execCqHead n arm head s) := by
  unfold execCqHead
  repeat' first
    | with_reducible assumption
    | (extract_lets +onlyGivenNames x; try (refine Keep.cut (s := x) ?_ ?_; (on_goal 1 => subst x); (on_goal 2 => intro hx; clear_value x)))
    | with_reducible apply act_keep
    | with_reducible apply State.onRing_keep
    | with_reducible apply State.armRing_keep
    | with_reducible apply State.settleCloses_keep
    | with_reducible apply State.drain_keep
    | with_reducible apply Keep.ite
    | (intro x hx; beta_reduce)

theorem execDescriptorRead_keep {r s : State} (h : Keep r s) (n : Nat) (desc : Option W512) :
    KeepE r (execDescriptorRead n desc s) := by
  unfold execDescriptorRead
  repeat' first
    | with_reducible assumption
    | (extract_lets +onlyGivenNames x; try (refine Keep.cut (s := x) ?_ ?_; (on_goal 1 => subst x); (on_goal 2 => intro hx; clear_value x)))
    | with_reducible apply act_keep
    | with_reducible apply State.note_keep
    | with_reducible apply State.onRing_keep
    | with_reducible apply State.accept_keep
    | with_reducible apply State.refuse_keep
    | with_reducible apply Keep.ite
    | (fail_if_no_progress with_reducible refine Keep.mk' ?_ rfl rfl rfl rfl rfl rfl rfl rfl rfl rfl)
    | (intro x hx; beta_reduce)
    | split

theorem execNop_keep {r s : State} (h : Keep r s) (n : Nat) : KeepE r (execNop n s) := by
  unfold execNop
  repeat' first
    | with_reducible assumption
    | (extract_lets +onlyGivenNames x; try (refine Keep.cut (s := x) ?_ ?_; (on_goal 1 => subst x); (on_goal 2 => intro hx; clear_value x)))
    | with_reducible apply State.row_keep
    | with_reducible apply State.finish_keep
    | (intro x a hx; beta_reduce)

theorem execModelLoad_keep {r s : State} (h : Keep r s) (n : Nat) : KeepE r (execModelLoad n s) := by
  unfold execModelLoad
  repeat' first
    | with_reducible assumption
    | (extract_lets +onlyGivenNames x; try (refine Keep.cut (s := x) ?_ ?_; (on_goal 1 => subst x); (on_goal 2 => intro hx; clear_value x)))
    | with_reducible apply State.row_keep
    | with_reducible apply State.loadModel_keep
    | (intro x a hx; beta_reduce)

theorem execModelUnload_keep {r s : State} (h : Keep r s) (n : Nat) : KeepE r (execModelUnload n s) := by
  unfold execModelUnload
  repeat' first
    | with_reducible assumption
    | (extract_lets +onlyGivenNames x; try (refine Keep.cut (s := x) ?_ ?_; (on_goal 1 => subst x); (on_goal 2 => intro hx; clear_value x)))
    | with_reducible apply State.row_keep
    | with_reducible apply State.finish_keep
    | with_reducible apply State.replace_keep
    | (fail_if_no_progress with_reducible refine Keep.mk' ?_ rfl rfl rfl rfl rfl rfl rfl rfl rfl rfl)
    | (intro x a hx; beta_reduce)

theorem execSwapArm_keep {r s : State} (h : Keep r s) (n : Nat) : KeepE r (execSwapArm n s) := by
  unfold execSwapArm
  repeat' first
    | with_reducible assumption
    | (extract_lets +onlyGivenNames x; try (refine Keep.cut (s := x) ?_ ?_; (on_goal 1 => subst x); (on_goal 2 => intro hx; clear_value x)))
    | with_reducible apply State.row_keep
    | with_reducible apply State.armSwap_keep
    | (intro x a hx; beta_reduce)

theorem execSwapDisarm_keep {r s : State} (h : Keep r s) (n : Nat) : KeepE r (execSwapDisarm n s) := by
  unfold execSwapDisarm
  repeat' first
    | with_reducible assumption
    | (extract_lets +onlyGivenNames x; try (refine Keep.cut (s := x) ?_ ?_; (on_goal 1 => subst x); (on_goal 2 => intro hx; clear_value x)))
    | with_reducible apply State.row_keep
    | with_reducible apply State.finish_keep
    | with_reducible apply State.sendDisarm_keep
    | with_reducible apply State.abortSwap_keep
    | (intro x a hx; beta_reduce)

theorem execTenantSet_keep {r s : State} (h : Keep r s) (n : Nat) : KeepE r (execTenantSet n s) := by
  unfold execTenantSet
  repeat' first
    | with_reducible assumption
    | (extract_lets +onlyGivenNames x; try (refine Keep.cut (s := x) ?_ ?_; (on_goal 1 => subst x); (on_goal 2 => intro hx; clear_value x)))
    | with_reducible apply State.row_keep
    | with_reducible apply State.atCut_keep
    | (intro x a hx; beta_reduce)

theorem execTenantRemove_keep {r s : State} (h : Keep r s) (n : Nat) : KeepE r (execTenantRemove n s) := by
  unfold execTenantRemove
  repeat' first
    | with_reducible assumption
    | (extract_lets +onlyGivenNames x; try (refine Keep.cut (s := x) ?_ ?_; (on_goal 1 => subst x); (on_goal 2 => intro hx; clear_value x)))
    | with_reducible apply State.row_keep
    | with_reducible apply State.atCut_keep
    | (intro x a hx; beta_reduce)

theorem execTenantQuery_keep {r s : State} (h : Keep r s) (n : Nat) : KeepE r (execTenantQuery n s) := by
  unfold execTenantQuery
  repeat' first
    | with_reducible assumption
    | (extract_lets +onlyGivenNames x; try (refine Keep.cut (s := x) ?_ ?_; (on_goal 1 => subst x); (on_goal 2 => intro hx; clear_value x)))
    | with_reducible apply State.row_keep
    | with_reducible apply State.queryResult_keep
    | (intro x a hx; beta_reduce)

theorem execSteerSet_keep {r s : State} (h : Keep r s) (n : Nat) : KeepE r (execSteerSet n s) := by
  unfold execSteerSet
  repeat' first
    | with_reducible assumption
    | (extract_lets +onlyGivenNames x; try (refine Keep.cut (s := x) ?_ ?_; (on_goal 1 => subst x); (on_goal 2 => intro hx; clear_value x)))
    | with_reducible apply State.row_keep
    | with_reducible apply State.atCut_keep
    | (intro x a hx; beta_reduce)

theorem execSeqOpen_keep {r s : State} (h : Keep r s) (n : Nat) : KeepE r (execSeqOpen n s) := by
  unfold execSeqOpen
  repeat' first
    | with_reducible assumption
    | (extract_lets +onlyGivenNames x; try (refine Keep.cut (s := x) ?_ ?_; (on_goal 1 => subst x); (on_goal 2 => intro hx; clear_value x)))
    | with_reducible apply State.row_keep
    | with_reducible apply State.openSeq_keep
    | (intro x a hx; beta_reduce)

theorem execSeqPrompt_keep {r s : State} (h : Keep r s) (n : Nat) : KeepE r (execSeqPrompt n s) := by
  unfold execSeqPrompt
  repeat' first
    | with_reducible assumption
    | (extract_lets +onlyGivenNames x; try (refine Keep.cut (s := x) ?_ ?_; (on_goal 1 => subst x); (on_goal 2 => intro hx; clear_value x)))
    | with_reducible apply State.row_keep
    | with_reducible apply State.promptSeq_keep
    | (intro x a hx; beta_reduce)

theorem execSeqSet_keep {r s : State} (h : Keep r s) (n : Nat) : KeepE r (execSeqSet n s) := by
  unfold execSeqSet
  repeat' first
    | with_reducible assumption
    | (extract_lets +onlyGivenNames x; try (refine Keep.cut (s := x) ?_ ?_; (on_goal 1 => subst x); (on_goal 2 => intro hx; clear_value x)))
    | with_reducible apply State.row_keep
    | with_reducible apply State.atCut_keep
    | (intro x a hx; beta_reduce)

theorem execSeqClose_keep {r s : State} (h : Keep r s) (n : Nat) : KeepE r (execSeqClose n s) := by
  unfold execSeqClose
  repeat' first
    | with_reducible assumption
    | (extract_lets +onlyGivenNames x; try (refine Keep.cut (s := x) ?_ ?_; (on_goal 1 => subst x); (on_goal 2 => intro hx; clear_value x)))
    | with_reducible apply State.row_keep
    | with_reducible apply State.closeSeq_keep
    | (intro x a hx; beta_reduce)

theorem execSeqCancel_keep {r s : State} (h : Keep r s) (n : Nat) : KeepE r (execSeqCancel n s) := by
  unfold execSeqCancel
  repeat' first
    | with_reducible assumption
    | (extract_lets +onlyGivenNames x; try (refine Keep.cut (s := x) ?_ ?_; (on_goal 1 => subst x); (on_goal 2 => intro hx; clear_value x)))
    | with_reducible apply State.row_keep
    | with_reducible apply State.closeSeq_keep
    | (intro x a hx; beta_reduce)

theorem execSeqQuery_keep {r s : State} (h : Keep r s) (n : Nat) : KeepE r (execSeqQuery n s) := by
  unfold execSeqQuery
  repeat' first
    | with_reducible assumption
    | (extract_lets +onlyGivenNames x; try (refine Keep.cut (s := x) ?_ ?_; (on_goal 1 => subst x); (on_goal 2 => intro hx; clear_value x)))
    | with_reducible apply State.row_keep
    | with_reducible apply State.queryResult_keep
    | with_reducible apply State.readRecord_keep
    | (intro x a hx; beta_reduce)

theorem execObjectSet_keep {r s : State} (h : Keep r s) (n : Nat) : KeepE r (execObjectSet n s) := by
  unfold execObjectSet
  repeat' first
    | with_reducible assumption
    | (extract_lets +onlyGivenNames x; try (refine Keep.cut (s := x) ?_ ?_; (on_goal 1 => subst x); (on_goal 2 => intro hx; clear_value x)))
    | with_reducible apply State.row_keep
    | with_reducible apply State.setObject_keep
    | (intro x a hx; beta_reduce)

theorem execBulkCopy_keep {r s : State} (h : Keep r s) (n : Nat) : KeepE r (execBulkCopy n s) := by
  unfold execBulkCopy
  repeat' first
    | with_reducible assumption
    | (extract_lets +onlyGivenNames x; try (refine Keep.cut (s := x) ?_ ?_; (on_goal 1 => subst x); (on_goal 2 => intro hx; clear_value x)))
    | with_reducible apply State.row_keep
    | with_reducible apply State.startBulk_keep
    | (intro x a hx; beta_reduce)

theorem execBulkConvert_keep {r s : State} (h : Keep r s) (n : Nat) : KeepE r (execBulkConvert n s) := by
  unfold execBulkConvert
  repeat' first
    | with_reducible assumption
    | (extract_lets +onlyGivenNames x; try (refine Keep.cut (s := x) ?_ ?_; (on_goal 1 => subst x); (on_goal 2 => intro hx; clear_value x)))
    | with_reducible apply State.row_keep
    | with_reducible apply State.startBulk_keep
    | (intro x a hx; beta_reduce)

theorem execBulkCompress_keep {r s : State} (h : Keep r s) (n : Nat) : KeepE r (execBulkCompress n s) := by
  unfold execBulkCompress
  repeat' first
    | with_reducible assumption
    | (extract_lets +onlyGivenNames x; try (refine Keep.cut (s := x) ?_ ?_; (on_goal 1 => subst x); (on_goal 2 => intro hx; clear_value x)))
    | with_reducible apply State.row_keep
    | with_reducible apply State.startBulk_keep
    | (intro x a hx; beta_reduce)

theorem execWeightInstall_keep {r s : State} (h : Keep r s) (n : Nat) : KeepE r (execWeightInstall n s) := by
  unfold execWeightInstall
  repeat' first
    | with_reducible assumption
    | (extract_lets +onlyGivenNames x; try (refine Keep.cut (s := x) ?_ ?_; (on_goal 1 => subst x); (on_goal 2 => intro hx; clear_value x)))
    | with_reducible apply State.row_keep
    | with_reducible apply State.startOp_keep
    | with_reducible apply State.startBuild_keep
    | (intro x a hx; beta_reduce)

theorem execSwapBuild_keep {r s : State} (h : Keep r s) (n : Nat) : KeepE r (execSwapBuild n s) := by
  unfold execSwapBuild
  repeat' first
    | with_reducible assumption
    | (extract_lets +onlyGivenNames x; try (refine Keep.cut (s := x) ?_ ?_; (on_goal 1 => subst x); (on_goal 2 => intro hx; clear_value x)))
    | with_reducible apply State.row_keep
    | with_reducible apply State.startOp_keep
    | with_reducible apply State.startBuild_keep
    | (intro x a hx; beta_reduce)

theorem execCaddyScrub_keep {r s : State} (h : Keep r s) (n : Nat) : KeepE r (execCaddyScrub n s) := by
  unfold execCaddyScrub
  repeat' first
    | with_reducible assumption
    | (extract_lets +onlyGivenNames x; try (refine Keep.cut (s := x) ?_ ?_; (on_goal 1 => subst x); (on_goal 2 => intro hx; clear_value x)))
    | with_reducible apply State.row_keep
    | with_reducible apply State.startOp_keep
    | (intro x a hx; beta_reduce)

theorem execOpSuspend_keep {r s : State} (h : Keep r s) (n : Nat) : KeepE r (execOpSuspend n s) := by
  unfold execOpSuspend
  repeat' first
    | with_reducible assumption
    | (extract_lets +onlyGivenNames x; try (refine Keep.cut (s := x) ?_ ?_; (on_goal 1 => subst x); (on_goal 2 => intro hx; clear_value x)))
    | with_reducible apply State.row_keep
    | with_reducible apply State.suspendOp_keep
    | (intro x a hx; beta_reduce)

theorem execOpResume_keep {r s : State} (h : Keep r s) (n : Nat) : KeepE r (execOpResume n s) := by
  unfold execOpResume
  repeat' first
    | with_reducible assumption
    | (extract_lets +onlyGivenNames x; try (refine Keep.cut (s := x) ?_ ?_; (on_goal 1 => subst x); (on_goal 2 => intro hx; clear_value x)))
    | with_reducible apply State.row_keep
    | with_reducible apply State.resumeOp_keep
    | (intro x a hx; beta_reduce)

theorem execOpCancel_keep {r s : State} (h : Keep r s) (n : Nat) : KeepE r (execOpCancel n s) := by
  unfold execOpCancel
  repeat' first
    | with_reducible assumption
    | (extract_lets +onlyGivenNames x; try (refine Keep.cut (s := x) ?_ ?_; (on_goal 1 => subst x); (on_goal 2 => intro hx; clear_value x)))
    | with_reducible apply State.row_keep
    | with_reducible apply State.cancelCtl_keep
    | (intro x a hx; beta_reduce)

theorem execOpQuery_keep {r s : State} (h : Keep r s) (n : Nat) : KeepE r (execOpQuery n s) := by
  unfold execOpQuery
  repeat' first
    | with_reducible assumption
    | (extract_lets +onlyGivenNames x; try (refine Keep.cut (s := x) ?_ ?_; (on_goal 1 => subst x); (on_goal 2 => intro hx; clear_value x)))
    | with_reducible apply State.row_keep
    | with_reducible apply State.control_keep
    | with_reducible apply State.finish_keep
    | (intro x a b hx; beta_reduce)
    | (intro x a hx; beta_reduce)

theorem execLongOpSafePoint_keep {r s : State} (h : Keep r s) (h_0 done : Nat) (inp : OpIn) :
    KeepE r (execLongOpSafePoint h_0 done inp s) := by
  unfold execLongOpSafePoint
  repeat' first
    | with_reducible assumption
    | (extract_lets +onlyGivenNames x; try (refine Keep.cut (s := x) ?_ ?_; (on_goal 1 => subst x); (on_goal 2 => intro hx; clear_value x)))
    | with_reducible apply State.sourceSegs_keep
    | with_reducible apply State.copyStep_keep
    | with_reducible apply State.endOp_keep
    | with_reducible apply State.bulkUndefined_keep
    | with_reducible apply State.passPoint_keep
    | with_reducible apply State.cancelOp_keep
    | with_reducible apply State.buildTo_keep
    | with_reducible apply State.takeSegs_keep
    | with_reducible apply Keep.iteSnd
    | with_reducible apply Keep.ite
    | with_reducible apply KeepE.next
    | (intro x hx; beta_reduce)
    | split

theorem execLongOpComplete_keep {r s : State} (h : Keep r s) (h_0 : Nat) (inp : OpIn) :
    KeepE r (execLongOpComplete h_0 inp s) := by
  unfold execLongOpComplete
  repeat' first
    | with_reducible assumption
    | (extract_lets +onlyGivenNames x; try (refine Keep.cut (s := x) ?_ ?_; (on_goal 1 => subst x); (on_goal 2 => intro hx; clear_value x)))
    | with_reducible apply State.setOp_keep
    | with_reducible apply State.endBuild_keep
    | with_reducible apply State.buildDone_keep
    | with_reducible apply State.endOp_keep
    | with_reducible apply State.takeSegs_keep
    | with_reducible apply State.bulkEnd_keep
    | with_reducible apply Keep.ite
    | with_reducible apply KeepE.next
    | split

theorem execSyncAdd_keep {r s : State} (h : Keep r s) (n : Nat) : KeepE r (execSyncAdd n s) := by
  unfold execSyncAdd
  repeat' first
    | with_reducible assumption
    | (extract_lets +onlyGivenNames x; try (refine Keep.cut (s := x) ?_ ?_; (on_goal 1 => subst x); (on_goal 2 => intro hx; clear_value x)))
    | with_reducible apply State.row_keep
    | with_reducible apply State.finish_keep
    | with_reducible apply State.objAdd_keep
    | (intro x a hx; beta_reduce)

theorem execSyncWait_keep {r s : State} (h : Keep r s) (n : Nat) : KeepE r (execSyncWait n s) := by
  unfold execSyncWait
  repeat' first
    | with_reducible assumption
    | (extract_lets +onlyGivenNames x; try (refine Keep.cut (s := x) ?_ ?_; (on_goal 1 => subst x); (on_goal 2 => intro hx; clear_value x)))
    | with_reducible apply State.row_keep
    | with_reducible apply State.endWait_keep
    | with_reducible apply Keep.ite
    | (fail_if_no_progress with_reducible refine Keep.mk' ?_ rfl rfl rfl rfl rfl rfl rfl rfl rfl rfl)
    | (intro x a hx; beta_reduce)

theorem execSyncTimeout_keep {r s : State} (h : Keep r s) (i : Nat) : KeepE r (execSyncTimeout i s) := by
  unfold execSyncTimeout
  repeat' first
    | with_reducible assumption
    | (extract_lets +onlyGivenNames x; try (refine Keep.cut (s := x) ?_ ?_; (on_goal 1 => subst x); (on_goal 2 => intro hx; clear_value x)))
    | with_reducible apply State.endWait_keep
    | with_reducible apply Keep.ite
    | with_reducible apply KeepE.next
    | split

theorem execMsgSend_keep {r s : State} (h : Keep r s) (n : Nat) : KeepE r (execMsgSend n s) := by
  unfold execMsgSend
  repeat' first
    | with_reducible assumption
    | (extract_lets +onlyGivenNames x; try (refine Keep.cut (s := x) ?_ ?_; (on_goal 1 => subst x); (on_goal 2 => intro hx; clear_value x)))
    | with_reducible apply State.row_keep
    | with_reducible apply State.sendMsg_keep
    | (intro x a hx; beta_reduce)

theorem execModerationTimeout_keep {r s : State} (h : Keep r s) (n : Nat) : KeepE r (execModerationTimeout n s) := by
  unfold execModerationTimeout
  repeat' first
    | with_reducible assumption
    | (extract_lets +onlyGivenNames x; try (refine Keep.cut (s := x) ?_ ?_; (on_goal 1 => subst x); (on_goal 2 => intro hx; clear_value x)))
    | with_reducible apply act_keep
    | with_reducible apply State.interrupt_keep
    | (intro x hx; beta_reduce)

theorem execRingEnable_keep {r s : State} (h : Keep r s) (n : Nat) (v : Word) : KeepE r (execRingEnable n v s) := by
  unfold execRingEnable
  repeat' first
    | with_reducible assumption
    | (extract_lets +onlyGivenNames x; try (refine Keep.cut (s := x) ?_ ?_; (on_goal 1 => subst x); (on_goal 2 => intro hx; clear_value x)))
    | with_reducible apply act_keep
    | with_reducible apply State.writeRingCtrl_keep
    | (intro x hx; beta_reduce)

theorem execRingDisable_keep {r s : State} (h : Keep r s) (n : Nat) (v : Word) : KeepE r (execRingDisable n v s) := by
  unfold execRingDisable
  repeat' first
    | with_reducible assumption
    | (extract_lets +onlyGivenNames x; try (refine Keep.cut (s := x) ?_ ?_; (on_goal 1 => subst x); (on_goal 2 => intro hx; clear_value x)))
    | with_reducible apply act_keep
    | with_reducible apply State.writeRingCtrl_keep
    | (intro x hx; beta_reduce)

theorem execRingDrainComplete_keep {r s : State} (h : Keep r s) (n : Nat) : KeepE r (execRingDrainComplete n s) := by
  unfold execRingDrainComplete
  repeat' first
    | with_reducible assumption
    | (extract_lets +onlyGivenNames x; try (refine Keep.cut (s := x) ?_ ?_; (on_goal 1 => subst x); (on_goal 2 => intro hx; clear_value x)))
    | with_reducible apply act_keep
    | with_reducible apply State.settleCloses_keep
    | with_reducible apply State.closeRing_keep
    | with_reducible apply State.orphanOps_keep
    | (intro x hx; beta_reduce)

theorem execOverflowClear_keep {r s : State} (h : Keep r s) (n : Nat) (v : Word) : KeepE r (execOverflowClear n v s) := by
  unfold execOverflowClear
  repeat' first
    | with_reducible assumption
    | (extract_lets +onlyGivenNames x; try (refine Keep.cut (s := x) ?_ ?_; (on_goal 1 => subst x); (on_goal 2 => intro hx; clear_value x)))
    | with_reducible apply act_keep
    | with_reducible apply State.writeRingCtrl_keep
    | (intro x hx; beta_reduce)

theorem execRegisterWrite_keep {r s : State} (h : Keep r s) (off size : Nat) (v : DWord) :
    KeepE r (execRegisterWrite off size v s) := by
  unfold execRegisterWrite
  repeat' first
    | with_reducible assumption
    | (extract_lets +onlyGivenNames x; try (refine Keep.cut (s := x) ?_ ?_; (on_goal 1 => subst x); (on_goal 2 => intro hx; clear_value x)))
    | with_reducible apply act_keep
    | with_reducible apply State.barWrite_keep
    | (intro x hx; beta_reduce)

theorem execLowWordRead_keep {r s : State} (h : Keep r s) (off size : Nat) : KeepE r (execLowWordRead off size s) := by
  unfold execLowWordRead
  repeat' first
    | with_reducible assumption
    | (extract_lets +onlyGivenNames x; try (refine Keep.cut (s := x) ?_ ?_; (on_goal 1 => subst x); (on_goal 2 => intro hx; clear_value x)))
    | with_reducible apply act_keep
    | with_reducible apply State.emit_keep
    | with_reducible apply State.barAccess_keep
    | with_reducible apply State.barRead_keep
    | with_reducible apply Keep.ite
    | (intro x hx; beta_reduce)

theorem execMemSliceWrite_keep {r s : State} (h : Keep r s) (off : Nat) (v : Word) :
    KeepE r (execMemSliceWrite off v s) := by
  unfold execMemSliceWrite
  repeat' first
    | with_reducible assumption
    | (extract_lets +onlyGivenNames x; try (refine Keep.cut (s := x) ?_ ?_; (on_goal 1 => subst x); (on_goal 2 => intro hx; clear_value x)))
    | with_reducible apply act_keep
    | with_reducible apply State.writeSlice_keep
    | (intro x hx; beta_reduce)

theorem execMemClassChCommit_keep {r s : State} (h : Keep r s) (c : Nat) (v : Word) :
    KeepE r (execMemClassChCommit c v s) := by
  unfold execMemClassChCommit
  repeat' first
    | with_reducible assumption
    | (extract_lets +onlyGivenNames x; try (refine Keep.cut (s := x) ?_ ?_; (on_goal 1 => subst x); (on_goal 2 => intro hx; clear_value x)))
    | with_reducible apply act_keep
    | with_reducible apply State.writeClassCh_keep
    | (intro x hx; beta_reduce)

theorem execExportStore_keep {r s : State} (h : Keep r s) (v : Word) : KeepE r (execExportStore v s) := by
  unfold execExportStore
  repeat' first
    | with_reducible assumption
    | (extract_lets +onlyGivenNames x; try (refine Keep.cut (s := x) ?_ ?_; (on_goal 1 => subst x); (on_goal 2 => intro hx; clear_value x)))
    | with_reducible apply act_keep
    | with_reducible apply State.writeExportCmd_keep
    | (intro x hx; beta_reduce)

theorem execExportLoad_keep {r s : State} (h : Keep r s) (v : Word) : KeepE r (execExportLoad v s) := by
  unfold execExportLoad
  repeat' first
    | with_reducible assumption
    | (extract_lets +onlyGivenNames x; try (refine Keep.cut (s := x) ?_ ?_; (on_goal 1 => subst x); (on_goal 2 => intro hx; clear_value x)))
    | with_reducible apply act_keep
    | with_reducible apply State.writeExportCmd_keep
    | (intro x hx; beta_reduce)

theorem execTrustedEnWrite_keep {r s : State} (h : Keep r s) (v : Word) : KeepE r (execTrustedEnWrite v s) := by
  unfold execTrustedEnWrite
  repeat' first
    | with_reducible assumption
    | (extract_lets +onlyGivenNames x; try (refine Keep.cut (s := x) ?_ ?_; (on_goal 1 => subst x); (on_goal 2 => intro hx; clear_value x)))
    | with_reducible apply act_keep
    | with_reducible apply State.writeTrusted_keep
    | (intro x hx; beta_reduce)

theorem execPwrCapWrite_keep {r s : State} (h : Keep r s) (v : Word) : KeepE r (execPwrCapWrite v s) := by
  unfold execPwrCapWrite
  repeat' first
    | with_reducible assumption
    | (extract_lets +onlyGivenNames x; try (refine Keep.cut (s := x) ?_ ?_; (on_goal 1 => subst x); (on_goal 2 => intro hx; clear_value x)))
    | with_reducible apply act_keep
    | with_reducible apply State.writeCap_keep
    | (intro x hx; beta_reduce)

theorem execDbgInject_keep {r s : State} (h : Keep r s) (v : Word) : KeepE r (execDbgInject v s) := by
  unfold execDbgInject
  repeat' first
    | with_reducible assumption
    | (extract_lets +onlyGivenNames x; try (refine Keep.cut (s := x) ?_ ?_; (on_goal 1 => subst x); (on_goal 2 => intro hx; clear_value x)))
    | with_reducible apply act_keep
    | with_reducible apply State.writeInject_keep
    | (intro x hx; beta_reduce)

theorem execErrLogSel_keep {r s : State} (h : Keep r s) (v : Word) : KeepE r (execErrLogSel v s) := by
  unfold execErrLogSel
  repeat' first
    | with_reducible assumption
    | (extract_lets +onlyGivenNames x; try (refine Keep.cut (s := x) ?_ ?_; (on_goal 1 => subst x); (on_goal 2 => intro hx; clear_value x)))
    | with_reducible apply act_keep
    | with_reducible apply State.writeLogSel_keep
    | (intro x hx; beta_reduce)

theorem execErrRingHead_keep {r s : State} (h : Keep r s) (v : Word) : KeepE r (execErrRingHead v s) := by
  unfold execErrRingHead
  repeat' first
    | with_reducible assumption
    | (extract_lets +onlyGivenNames x; try (refine Keep.cut (s := x) ?_ ?_; (on_goal 1 => subst x); (on_goal 2 => intro hx; clear_value x)))
    | with_reducible apply act_keep
    | with_reducible apply State.writeErrHead_keep
    | (intro x hx; beta_reduce)

theorem execHifBootGo_keep {r s : State} (h : Keep r s) (v : Word) : KeepE r (execHifBootGo v s) := by
  unfold execHifBootGo
  repeat' first
    | with_reducible assumption
    | (extract_lets +onlyGivenNames x; try (refine Keep.cut (s := x) ?_ ?_; (on_goal 1 => subst x); (on_goal 2 => intro hx; clear_value x)))
    | with_reducible apply act_keep
    | with_reducible apply State.bootGo_keep
    | (intro x hx; beta_reduce)

theorem execLinkEnable_keep {r s : State} (h : Keep r s) (l : Nat) (v : Word) : KeepE r (execLinkEnable l v s) := by
  unfold execLinkEnable
  repeat' first
    | with_reducible assumption
    | (extract_lets +onlyGivenNames x; try (refine Keep.cut (s := x) ?_ ?_; (on_goal 1 => subst x); (on_goal 2 => intro hx; clear_value x)))
    | with_reducible apply act_keep
    | with_reducible apply State.writeLnkCtrl_keep
    | (intro x hx; beta_reduce)

theorem execLinkDisable_keep {r s : State} (h : Keep r s) (l : Nat) (v : Word) : KeepE r (execLinkDisable l v s) := by
  unfold execLinkDisable
  repeat' first
    | with_reducible assumption
    | (extract_lets +onlyGivenNames x; try (refine Keep.cut (s := x) ?_ ?_; (on_goal 1 => subst x); (on_goal 2 => intro hx; clear_value x)))
    | with_reducible apply act_keep
    | with_reducible apply State.writeLnkCtrl_keep
    | (intro x hx; beta_reduce)

theorem execLinkTrainingComplete_keep {r s : State} (h : Keep r s) (l : Nat) (r_0 : TrainResult) :
    KeepE r (execLinkTrainingComplete l r_0 s) := by
  unfold execLinkTrainingComplete
  repeat' first
    | with_reducible assumption
    | (extract_lets +onlyGivenNames x; try (refine Keep.cut (s := x) ?_ ?_; (on_goal 1 => subst x); (on_goal 2 => intro hx; clear_value x)))
    | with_reducible apply act_keep
    | with_reducible apply State.setLink_keep
    | with_reducible apply State.raise_keep
    | with_reducible apply State.hello_keep
    | with_reducible apply Keep.ite
    | (fail_if_no_progress with_reducible refine Keep.mk' ?_ rfl rfl rfl rfl rfl rfl rfl rfl rfl rfl)
    | (intro x hx; beta_reduce)

theorem execFlitReceive_keep {r s : State} (h : Keep r s) (l : Nat) (f : Flit) : KeepE r (execFlitReceive l f s) := by
  unfold execFlitReceive
  repeat' first
    | with_reducible assumption
    | (extract_lets +onlyGivenNames x; try (refine Keep.cut (s := x) ?_ ?_; (on_goal 1 => subst x); (on_goal 2 => intro hx; clear_value x)))
    | with_reducible apply act_keep
    | with_reducible apply State.nak_keep
    | with_reducible apply State.takeAck_keep
    | with_reducible apply State.onLink_keep
    | with_reducible apply Keep.ite
    | (intro x hx; beta_reduce)

theorem execControlFlit_keep {r s : State} (h : Keep r s) (l : Nat) (f : Flit) (nak : Option Nat) (credits : List Nat) :
    KeepE r (execControlFlit l f nak credits s) := by
  unfold execControlFlit
  repeat' first
    | with_reducible assumption
    | (extract_lets +onlyGivenNames x; try (refine Keep.cut (s := x) ?_ ?_; (on_goal 1 => subst x); (on_goal 2 => intro hx; clear_value x)))
    | with_reducible apply act_keep
    | with_reducible apply State.takeAck_keep
    | with_reducible apply State.onLink_keep
    | with_reducible apply State.pump_keep
    | with_reducible apply State.resendFrom_keep
    | (intro x hx; beta_reduce)
    | split

theorem execLinkAckTimeout_keep {r s : State} (h : Keep r s) (l : Nat) : KeepE r (execLinkAckTimeout l s) := by
  unfold execLinkAckTimeout
  repeat' first
    | with_reducible assumption
    | (extract_lets +onlyGivenNames x; try (refine Keep.cut (s := x) ?_ ?_; (on_goal 1 => subst x); (on_goal 2 => intro hx; clear_value x)))
    | with_reducible apply act_keep
    | with_reducible apply State.resendFrom_keep
    | with_reducible apply State.onLink_keep
    | (intro x hx; beta_reduce)

theorem execCreditReturn_keep {r s : State} (h : Keep r s) (l : Nat) : KeepE r (execCreditReturn l s) := by
  unfold execCreditReturn
  repeat' first
    | with_reducible assumption
    | (extract_lets +onlyGivenNames x; try (refine Keep.cut (s := x) ?_ ?_; (on_goal 1 => subst x); (on_goal 2 => intro hx; clear_value x)))
    | with_reducible apply act_keep
    | with_reducible apply State.emit_keep
    | with_reducible apply State.setLink_keep
    | (intro x hx; beta_reduce)

theorem execLinkDown_keep {r s : State} (h : Keep r s) (l : Nat) (cause : DownCause) :
    KeepE r (execLinkDown l cause s) := by
  unfold execLinkDown
  repeat' first
    | with_reducible assumption
    | (extract_lets +onlyGivenNames x; try (refine Keep.cut (s := x) ?_ ?_; (on_goal 1 => subst x); (on_goal 2 => intro hx; clear_value x)))
    | with_reducible apply act_keep
    | with_reducible apply State.downLink_keep
    | (intro x hx; beta_reduce)

theorem execLinkRetrainExhausted_keep {r s : State} (h : Keep r s) (l : Nat) : KeepE r (execLinkRetrainExhausted l s) := by
  unfold execLinkRetrainExhausted
  repeat' first
    | with_reducible assumption
    | (extract_lets +onlyGivenNames x; try (refine Keep.cut (s := x) ?_ ?_; (on_goal 1 => subst x); (on_goal 2 => intro hx; clear_value x)))
    | with_reducible apply act_keep
    | with_reducible apply State.raise_keep
    | (intro x hx; beta_reduce)

theorem execHelloSend_keep {r s : State} (h : Keep r s) : KeepE r (execHelloSend s) := by
  unfold execHelloSend
  repeat' first
    | with_reducible assumption
    | (extract_lets +onlyGivenNames x; try (refine Keep.cut (s := x) ?_ ?_; (on_goal 1 => subst x); (on_goal 2 => intro hx; clear_value x)))
    | with_reducible apply act_keep
    | with_reducible apply State.setDisc_keep
    | with_reducible apply State.hello_keep
    | with_reducible apply Keep.foldl
    | (intro x a hx; beta_reduce)
    | (intro x hx; beta_reduce)

theorem execHello_keep {r s : State} (h : Keep r s) (l : Nat) (f : Frame) : KeepE r (execHello l f s) := by
  unfold execHello
  repeat' first
    | with_reducible assumption
    | (extract_lets +onlyGivenNames x; try (refine Keep.cut (s := x) ?_ ?_; (on_goal 1 => subst x); (on_goal 2 => intro hx; clear_value x)))
    | with_reducible apply act_keep
    | with_reducible apply State.setDisc_keep
    | with_reducible apply State.setLink_keep
    | with_reducible apply State.holdOut_keep
    | with_reducible apply State.onLink_keep
    | with_reducible apply State.reportLink_keep
    | with_reducible apply Keep.ite
    | with_reducible apply Keep.foldl
    | (intro x a hx; beta_reduce)
    | (intro x hx; beta_reduce)

theorem execClaimSend_keep {r s : State} (h : Keep r s) : KeepE r (execClaimSend s) := by
  unfold execClaimSend
  repeat' first
    | with_reducible assumption
    | (extract_lets +onlyGivenNames x; try (refine Keep.cut (s := x) ?_ ?_; (on_goal 1 => subst x); (on_goal 2 => intro hx; clear_value x)))
    | with_reducible apply act_keep
    | with_reducible apply State.setDisc_keep
    | with_reducible apply State.sendFrame_keep
    | with_reducible apply Keep.foldl
    | (intro x a hx; beta_reduce)
    | (intro x hx; beta_reduce)

theorem execClaim_keep {r s : State} (h : Keep r s) (l : Nat) (f : Frame) : KeepE r (execClaim l f s) := by
  unfold execClaim
  repeat' first
    | with_reducible assumption
    | (extract_lets +onlyGivenNames x; try (refine Keep.cut (s := x) ?_ ?_; (on_goal 1 => subst x); (on_goal 2 => intro hx; clear_value x)))
    | with_reducible apply act_keep
    | with_reducible apply State.setDisc_keep
    | with_reducible apply State.setDom_keep
    | with_reducible apply State.adoptManager_keep
    | with_reducible apply State.sendFrame_keep
    | with_reducible apply State.raise_keep
    | with_reducible apply Keep.ite
    | (intro x hx; beta_reduce)

theorem execElectionTimeout_keep {r s : State} (h : Keep r s) : KeepE r (execElectionTimeout s) := by
  unfold execElectionTimeout
  repeat' first
    | with_reducible assumption
    | (extract_lets +onlyGivenNames x; try (refine Keep.cut (s := x) ?_ ?_; (on_goal 1 => subst x); (on_goal 2 => intro hx; clear_value x)))
    | with_reducible apply act_keep
    | with_reducible apply State.setDisc_keep
    | with_reducible apply State.enterBringup_keep
    | with_reducible apply State.startRound_keep
    | with_reducible apply State.setDom_keep
    | with_reducible apply Keep.ite
    | (intro x hx; beta_reduce)

theorem execQuery_keep {r s : State} (h : Keep r s) (l : Nat) (f : Frame) : KeepE r (execQuery l f s) := by
  unfold execQuery
  repeat' first
    | with_reducible assumption
    | (extract_lets +onlyGivenNames x; try (refine Keep.cut (s := x) ?_ ?_; (on_goal 1 => subst x); (on_goal 2 => intro hx; clear_value x)))
    | with_reducible apply act_keep
    | with_reducible apply State.sendFrame_keep
    | (intro x hx; beta_reduce)

theorem execReply_keep {r s : State} (h : Keep r s) (l : Nat) (f : Frame) : KeepE r (execReply l f s) := by
  unfold execReply
  repeat' first
    | with_reducible assumption
    | (extract_lets +onlyGivenNames x; try (refine Keep.cut (s := x) ?_ ?_; (on_goal 1 => subst x); (on_goal 2 => intro hx; clear_value x)))
    | with_reducible apply State.setDisc_keep
    | with_reducible apply State.sendFrame_keep
    | with_reducible apply State.nextOccupant_keep
    | with_reducible apply State.raise_keep
    | with_reducible apply Keep.ite
    | with_reducible apply KeepE.next
    | split

theorem execQueryTimeout_keep {r s : State} (h : Keep r s) : KeepE r (execQueryTimeout s) := by
  unfold execQueryTimeout
  repeat' first
    | with_reducible assumption
    | (extract_lets +onlyGivenNames x; try (refine Keep.cut (s := x) ?_ ?_; (on_goal 1 => subst x); (on_goal 2 => intro hx; clear_value x)))
    | with_reducible apply State.setDisc_keep
    | with_reducible apply State.sendFrame_keep
    | with_reducible apply State.nextOccupant_keep
    | with_reducible apply Keep.ite
    | with_reducible apply KeepE.next
    | split

theorem execAssign_keep {r s : State} (h : Keep r s) (l : Nat) (f : Frame) : KeepE r (execAssign l f s) := by
  unfold execAssign
  repeat' first
    | with_reducible assumption
    | (extract_lets +onlyGivenNames x; try (refine Keep.cut (s := x) ?_ ?_; (on_goal 1 => subst x); (on_goal 2 => intro hx; clear_value x)))
    | with_reducible apply act_keep
    | with_reducible apply State.setDom_keep
    | with_reducible apply State.setDisc_keep
    | with_reducible apply State.sendFrame_keep
    | with_reducible apply Keep.foldl
    | (intro x a hx; beta_reduce)
    | (intro x hx; beta_reduce)

theorem execAssignAck_keep {r s : State} (h : Keep r s) (l : Nat) (f : Frame) : KeepE r (execAssignAck l f s) := by
  unfold execAssignAck
  repeat' first
    | with_reducible assumption
    | (extract_lets +onlyGivenNames x; try (refine Keep.cut (s := x) ?_ ?_; (on_goal 1 => subst x); (on_goal 2 => intro hx; clear_value x)))
    | with_reducible apply State.setDisc_keep
    | with_reducible apply State.admitMembers_keep
    | with_reducible apply State.nextOccupant_keep
    | with_reducible apply Keep.ite
    | with_reducible apply KeepE.next
    | split

theorem execLinkReport_keep {r s : State} (h : Keep r s) (l : Nat) (f : Frame) (gens : Option GenReport) :
    KeepE r (execLinkReport l f gens s) := by
  unfold execLinkReport
  repeat' first
    | with_reducible assumption
    | (extract_lets +onlyGivenNames x; try (refine Keep.cut (s := x) ?_ ?_; (on_goal 1 => subst x); (on_goal 2 => intro hx; clear_value x)))
    | with_reducible apply act_keep
    | with_reducible apply State.takeGens_keep
    | with_reducible apply State.setDisc_keep
    | with_reducible apply State.admitMembers_keep
    | with_reducible apply Keep.ite
    | (intro x hx; beta_reduce)

theorem execJoin_keep {r s : State} (h : Keep r s) (l : Nat) (f : Frame) (gens : Option GenReport) (order : Option Word) :
    KeepE r (execJoin l f gens order s) := by
  unfold execJoin
  repeat' first
    | with_reducible assumption
    | (extract_lets +onlyGivenNames x; try (refine Keep.cut (s := x) ?_ ?_; (on_goal 1 => subst x); (on_goal 2 => intro hx; clear_value x)))
    | with_reducible apply State.takeOrder_keep
    | with_reducible apply State.takeJoin_keep
    | with_reducible apply Keep.ite
    | with_reducible apply KeepE.next
    | split

theorem execMemberMask_keep {r s : State} (h : Keep r s) (mask : W256) (planes : List PlaneEntry) (adds : Bool) :
    KeepE r (execMemberMask mask planes adds s) := by
  unfold execMemberMask
  repeat' first
    | with_reducible assumption
    | (extract_lets +onlyGivenNames x; try (refine Keep.cut (s := x) ?_ ?_; (on_goal 1 => subst x); (on_goal 2 => intro hx; clear_value x)))
    | with_reducible apply act_keep
    | with_reducible apply State.takeMask_keep
    | (intro x hx; beta_reduce)

theorem execLoadIssue_keep {r s : State} (h : Keep r s) (die engine : Nat) (a : DWord) (n : Nat) (nocache raw : Bool) (compl : Nat) :
    KeepE r (execLoadIssue die engine a n nocache raw compl s) := by
  unfold execLoadIssue
  repeat' first
    | with_reducible assumption
    | (extract_lets +onlyGivenNames x; try (refine Keep.cut (s := x) ?_ ?_; (on_goal 1 => subst x); (on_goal 2 => intro hx; clear_value x)))
    | with_reducible apply act_keep
    | with_reducible apply State.refuseFab_keep
    | with_reducible apply State.install_keep
    | with_reducible apply State.complete_keep
    | with_reducible apply State.emit_keep
    | with_reducible apply State.request_keep
    | with_reducible apply State.setFab_keep
    | with_reducible apply Keep.ite
    | (with_reducible refine KeepO.get ?_ _ (by with_reducible assumption))
    | with_reducible apply Keep.foldl
    | (intro x a hx; beta_reduce)
    | (intro x hx; beta_reduce)
    | split

theorem execStoreIssue_keep {r s : State} (h : Keep r s) (die engine : Nat) (a : DWord) (data : List Byte) (raw : Bool) (compl : Nat) :
    KeepE r (execStoreIssue die engine a data raw compl s) := by
  unfold execStoreIssue
  repeat' first
    | with_reducible assumption
    | (extract_lets +onlyGivenNames x; try (refine Keep.cut (s := x) ?_ ?_; (on_goal 1 => subst x); (on_goal 2 => intro hx; clear_value x)))
    | with_reducible apply act_keep
    | with_reducible apply State.refuseFab_keep
    | with_reducible apply State.request_keep
    | with_reducible apply State.setFab_keep
    | (with_reducible refine KeepO.get ?_ _ (by with_reducible assumption))
    | (intro x hx; beta_reduce)
    | split

theorem execAtomicIssue_keep {r s : State} (h : Keep r s) (die engine : Nat) (op : AtomicOp) (wide : Bool) (a operand compare : DWord) (raw : Bool) (compl : Nat) :
    KeepE r (execAtomicIssue die engine op wide a operand compare raw compl s) := by
  unfold execAtomicIssue
  repeat' first
    | with_reducible assumption
    | (extract_lets +onlyGivenNames x; try (refine Keep.cut (s := x) ?_ ?_; (on_goal 1 => subst x); (on_goal 2 => intro hx; clear_value x)))
    | with_reducible apply act_keep
    | with_reducible apply State.refuseFab_keep
    | with_reducible apply State.request_keep
    | with_reducible apply State.setFab_keep
    | (with_reducible refine KeepO.get ?_ _ (by with_reducible assumption))
    | (intro x hx; beta_reduce)
    | split

theorem execInvalidateIssue_keep {r s : State} (h : Keep r s) (die engine : Nat) (a : DWord) (n : Nat) (nodes : W256) (compl : Nat) :
    KeepE r (execInvalidateIssue die engine a n nodes compl s) := by
  unfold execInvalidateIssue
  repeat' first
    | with_reducible assumption
    | (extract_lets +onlyGivenNames x; try (refine Keep.cut (s := x) ?_ ?_; (on_goal 1 => subst x); (on_goal 2 => intro hx; clear_value x)))
    | with_reducible apply act_keep
    | with_reducible apply State.setFab_keep
    | with_reducible apply State.sendInval_keep
    | with_reducible apply Keep.ite
    | (intro x hx; beta_reduce)

theorem execInvalidateWaitTimeout_keep {r s : State} (h : Keep r s) (i : Nat) :
    KeepE r (execInvalidateWaitTimeout i s) := by
  unfold execInvalidateWaitTimeout
  repeat' first
    | with_reducible assumption
    | (extract_lets +onlyGivenNames x; try (refine Keep.cut (s := x) ?_ ?_; (on_goal 1 => subst x); (on_goal 2 => intro hx; clear_value x)))
    | with_reducible apply State.endInval_keep
    | with_reducible apply Keep.ite
    | with_reducible apply KeepE.next
    | split

theorem execOwnXferIssue_keep {r s : State} (h : Keep r s) (die engine : Nat) (node job : Nat) (owner compl : Nat) :
    KeepE r (execOwnXferIssue die engine node job owner compl s) := by
  unfold execOwnXferIssue
  repeat' first
    | with_reducible assumption
    | (extract_lets +onlyGivenNames x; try (refine Keep.cut (s := x) ?_ ?_; (on_goal 1 => subst x); (on_goal 2 => intro hx; clear_value x)))
    | with_reducible apply act_keep
    | with_reducible apply State.refuseFab_keep
    | with_reducible apply State.setFab_keep
    | with_reducible apply State.sendXfer_keep
    | with_reducible apply Keep.ite
    | (intro x hx; beta_reduce)

theorem execFence_keep {r s : State} (h : Keep r s) (die engine compl : Nat) : KeepE r (execFence die engine compl s) := by
  unfold execFence
  repeat' first
    | with_reducible assumption
    | (extract_lets +onlyGivenNames x; try (refine Keep.cut (s := x) ?_ ?_; (on_goal 1 => subst x); (on_goal 2 => intro hx; clear_value x)))
    | with_reducible apply act_keep
    | with_reducible apply State.complete_keep
    | with_reducible apply State.setFab_keep
    | with_reducible apply Keep.ite
    | (intro x hx; beta_reduce)

theorem execFenceTimeout_keep {r s : State} (h : Keep r s) (i : Nat) : KeepE r (execFenceTimeout i s) := by
  unfold execFenceTimeout
  repeat' first
    | with_reducible assumption
    | (extract_lets +onlyGivenNames x; try (refine Keep.cut (s := x) ?_ ?_; (on_goal 1 => subst x); (on_goal 2 => intro hx; clear_value x)))
    | with_reducible apply State.endFence_keep
    | with_reducible apply Keep.ite
    | with_reducible apply KeepE.next
    | split

theorem execLoad_keep {r s : State} (h : Keep r s) (p : FabPkt) : KeepE r (execLoad p s) := by
  unfold execLoad
  repeat' first
    | with_reducible assumption
    | (extract_lets +onlyGivenNames x; try (refine Keep.cut (s := x) ?_ ?_; (on_goal 1 => subst x); (on_goal 2 => intro hx; clear_value x)))
    | with_reducible apply act_keep
    | with_reducible apply State.fabSend_keep
    | with_reducible apply Keep.ite
    | (intro x hx; beta_reduce)
    | split

theorem execStore_keep {r s : State} (h : Keep r s) (p : FabPkt) : KeepE r (execStore p s) := by
  unfold execStore
  repeat' first
    | with_reducible assumption
    | (extract_lets +onlyGivenNames x; try (refine Keep.cut (s := x) ?_ ?_; (on_goal 1 => subst x); (on_goal 2 => intro hx; clear_value x)))
    | with_reducible apply act_keep
    | with_reducible apply State.receiveWrite_keep
    | with_reducible apply dupStatus_keep
    | with_reducible apply State.store_keep
    | (intro x a hx; beta_reduce)
    | (intro x hx; beta_reduce)
    | split

theorem execAtomic_keep {r s : State} (h : Keep r s) (p : FabPkt) : KeepE r (execAtomic p s) := by
  unfold execAtomic
  repeat' first
    | with_reducible assumption
    | (extract_lets +onlyGivenNames x; try (refine Keep.cut (s := x) ?_ ?_; (on_goal 1 => subst x); (on_goal 2 => intro hx; clear_value x)))
    | with_reducible apply act_keep
    | with_reducible apply State.receiveWrite_keep
    | with_reducible apply dupAtomic_keep
    | with_reducible apply State.atomicOp_keep
    | with_reducible apply State.noteArrival_keep
    | with_reducible apply State.keepReplay_keep
    | (fail_if_no_progress with_reducible refine Keep.mk' ?_ rfl rfl rfl rfl rfl rfl rfl rfl rfl rfl)
    | (intro x a hx; beta_reduce)
    | (intro x hx; beta_reduce)
    | split

theorem execInvalidate_keep {r s : State} (h : Keep r s) (p : FabPkt) : KeepE r (execInvalidate p s) := by
  unfold execInvalidate
  repeat' first
    | with_reducible assumption
    | (extract_lets +onlyGivenNames x; try (refine Keep.cut (s := x) ?_ ?_; (on_goal 1 => subst x); (on_goal 2 => intro hx; clear_value x)))
    | with_reducible apply act_keep
    | with_reducible apply State.receiveWrite_keep
    | with_reducible apply dupStatus_keep
    | with_reducible apply State.applyInvalidate_keep
    | (intro x a hx; beta_reduce)
    | (intro x hx; beta_reduce)
    | split

theorem execOwnXfer_keep {r s : State} (h : Keep r s) (p : FabPkt) : KeepE r (execOwnXfer p s) := by
  unfold execOwnXfer
  repeat' first
    | with_reducible assumption
    | (extract_lets +onlyGivenNames x; try (refine Keep.cut (s := x) ?_ ?_; (on_goal 1 => subst x); (on_goal 2 => intro hx; clear_value x)))
    | with_reducible apply act_keep
    | with_reducible apply State.receiveWrite_keep
    | with_reducible apply dupStatus_keep
    | (fail_if_no_progress with_reducible refine Keep.mk' ?_ rfl rfl rfl rfl rfl rfl rfl rfl rfl rfl)
    | (intro x a hx; beta_reduce)
    | (intro x hx; beta_reduce)
    | split

theorem execFabricResponse_keep {r s : State} (h : Keep r s) (p : FabPkt) : KeepE r (execFabricResponse p s) := by
  unfold execFabricResponse
  repeat' first
    | with_reducible assumption
    | (extract_lets +onlyGivenNames x; try (refine Keep.cut (s := x) ?_ ?_; (on_goal 1 => subst x); (on_goal 2 => intro hx; clear_value x)))
    | with_reducible apply State.dropReq_keep
    | with_reducible apply State.invalAnswered_keep
    | with_reducible apply State.complete_keep
    | with_reducible apply State.install_keep
    | with_reducible apply State.emit_keep
    | with_reducible apply State.settleFabric_keep
    | with_reducible apply Keep.ite
    | with_reducible apply KeepE.next
    | with_reducible apply Keep.foldl
    | (intro x a hx; beta_reduce)
    | split

theorem execFabricRetry_keep {r s : State} (h : Keep r s) (tag : Word) : KeepE r (execFabricRetry tag s) := by
  unfold execFabricRetry
  repeat' first
    | with_reducible assumption
    | (extract_lets +onlyGivenNames x; try (refine Keep.cut (s := x) ?_ ?_; (on_goal 1 => subst x); (on_goal 2 => intro hx; clear_value x)))
    | with_reducible apply State.fabSend_keep
    | with_reducible apply State.setFab_keep
    | with_reducible apply State.settleFabric_keep
    | with_reducible apply State.complete_keep
    | with_reducible apply State.dropReq_keep
    | with_reducible apply State.raise_keep
    | with_reducible apply Keep.ite
    | with_reducible apply KeepE.next
    | split

theorem execReplayEntryExpiry_keep {r s : State} (h : Keep r s) (src die : Nat) (tag : Word) :
    KeepE r (execReplayEntryExpiry src die tag s) := by
  unfold execReplayEntryExpiry
  repeat' first
    | with_reducible assumption
    | (extract_lets +onlyGivenNames x; try (refine Keep.cut (s := x) ?_ ?_; (on_goal 1 => subst x); (on_goal 2 => intro hx; clear_value x)))
    | with_reducible apply State.setFab_keep
    | with_reducible apply Keep.ite
    | with_reducible apply KeepE.next
    | split

theorem execMessage_keep {r s : State} (h : Keep r s) (p : FabPkt) : KeepE r (execMessage p s) := by
  unfold execMessage
  repeat' first
    | with_reducible assumption
    | (extract_lets +onlyGivenNames x; try (refine Keep.cut (s := x) ?_ ?_; (on_goal 1 => subst x); (on_goal 2 => intro hx; clear_value x)))
    | with_reducible apply act_keep
    | with_reducible apply State.ackSend_keep
    | with_reducible apply State.setFab_keep
    | with_reducible apply State.post_keep
    | with_reducible apply Keep.ite
    | (with_reducible refine KeepO.get ?_ _ (by with_reducible assumption))
    | (intro x hx; beta_reduce)
    | split

theorem execMessageAck_keep {r s : State} (h : Keep r s) (p : FabPkt) : KeepE r (execMessageAck p s) := by
  unfold execMessageAck
  repeat' first
    | with_reducible assumption
    | (extract_lets +onlyGivenNames x; try (refine Keep.cut (s := x) ?_ ?_; (on_goal 1 => subst x); (on_goal 2 => intro hx; clear_value x)))
    | with_reducible apply State.endMessage_keep
    | with_reducible apply State.adoptTaken_keep
    | with_reducible apply Keep.ite
    | with_reducible apply KeepE.next
    | (fail_if_no_progress with_reducible refine Keep.mk' ?_ rfl rfl rfl rfl rfl rfl rfl rfl rfl rfl)
    | split

theorem execMessageRetry_keep {r s : State} (h : Keep r s) (i : Nat) : KeepE r (execMessageRetry i s) := by
  unfold execMessageRetry
  repeat' first
    | with_reducible assumption
    | (extract_lets +onlyGivenNames x; try (refine Keep.cut (s := x) ?_ ?_; (on_goal 1 => subst x); (on_goal 2 => intro hx; clear_value x)))
    | with_reducible apply State.sendFragments_keep
    | with_reducible apply State.setFab_keep
    | with_reducible apply State.endMessage_keep
    | with_reducible apply State.standbyFailed_keep
    | with_reducible apply Keep.ite
    | with_reducible apply KeepE.next
    | split

theorem execEnterTest_keep {r s : State} (h : Keep r s) (othersReady : Bool) : KeepE r (execEnterTest othersReady s) := by
  unfold execEnterTest
  repeat' first
    | with_reducible assumption
    | (extract_lets +onlyGivenNames x; try (refine Keep.cut (s := x) ?_ ?_; (on_goal 1 => subst x); (on_goal 2 => intro hx; clear_value x)))
    | with_reducible apply State.domainReq_keep
    | with_reducible apply State.openDomain_keep
    | with_reducible apply State.failReq_keep
    | with_reducible apply State.setDom_keep
    | with_reducible apply Keep.ite
    | with_reducible apply KeepE.next
    | (intro x a b hx; beta_reduce)
    | split

theorem execEnterService_keep {r s : State} (h : Keep r s) (othersReady : Bool) :
    KeepE r (execEnterService othersReady s) := by
  unfold execEnterService
  repeat' first
    | with_reducible assumption
    | (extract_lets +onlyGivenNames x; try (refine Keep.cut (s := x) ?_ ?_; (on_goal 1 => subst x); (on_goal 2 => intro hx; clear_value x)))
    | with_reducible apply State.domainReq_keep
    | with_reducible apply State.setDom_keep
    | with_reducible apply State.failReq_keep
    | with_reducible apply State.openDomain_keep
    | with_reducible apply Keep.ite
    | with_reducible apply KeepE.next
    | (intro x a b hx; beta_reduce)
    | split

theorem execReturnToBringup_keep {r s : State} (h : Keep r s) : KeepE r (execReturnToBringup s) := by
  unfold execReturnToBringup
  repeat' first
    | with_reducible assumption
    | (extract_lets +onlyGivenNames x; try (refine Keep.cut (s := x) ?_ ?_; (on_goal 1 => subst x); (on_goal 2 => intro hx; clear_value x)))
    | with_reducible apply State.domainReq_keep
    | with_reducible apply State.replyTo_keep
    | with_reducible apply State.startRound_keep
    | with_reducible apply State.enterBringup_keep
    | with_reducible apply State.setDom_keep
    | with_reducible apply Keep.ite
    | with_reducible apply KeepE.next
    | (intro x a b hx; beta_reduce)

theorem execAdoptHomeTable_keep {r s : State} (h : Keep r s) (refused : List (Nat × Nat)) :
    KeepE r (execAdoptHomeTable refused s) := by
  unfold execAdoptHomeTable
  repeat' first
    | with_reducible assumption
    | (extract_lets +onlyGivenNames x; try (refine Keep.cut (s := x) ?_ ?_; (on_goal 1 => subst x); (on_goal 2 => intro hx; clear_value x)))
    | with_reducible apply State.domainReq_keep
    | with_reducible apply State.failReq_keep
    | with_reducible apply State.refuseRev_keep
    | with_reducible apply State.sendRev_keep
    | with_reducible apply State.refusals_keep
    | with_reducible apply State.setRte_keep
    | with_reducible apply State.replicate_keep
    | with_reducible apply Keep.ite
    | with_reducible apply KeepE.next
    | (intro x a b hx; beta_reduce)
    | split

theorem execSteepClose_keep {r s : State} (h : Keep r s) (refused : List (Nat × Nat)) :
    KeepE r (execSteepClose refused s) := by
  unfold execSteepClose
  repeat' first
    | with_reducible assumption
    | (extract_lets +onlyGivenNames x; try (refine Keep.cut (s := x) ?_ ?_; (on_goal 1 => subst x); (on_goal 2 => intro hx; clear_value x)))
    | with_reducible apply act_keep
    | with_reducible apply State.countMisses_keep
    | with_reducible apply State.memberLost_keep
    | with_reducible apply State.closing_keep
    | with_reducible apply State.setDom_keep
    | with_reducible apply State.failReq_keep
    | with_reducible apply State.replicate_keep
    | with_reducible apply Keep.foldl
    | (intro x a hx; beta_reduce)
    | (intro x hx; beta_reduce)
    | (clear_value *; split)

theorem execReleasePost_keep {r s : State} (h : Keep r s) : KeepE r (execReleasePost s) := by
  unfold execReleasePost
  repeat' first
    | with_reducible assumption
    | (extract_lets +onlyGivenNames x; try (refine Keep.cut (s := x) ?_ ?_; (on_goal 1 => subst x); (on_goal 2 => intro hx; clear_value x)))
    | with_reducible apply State.setDom_keep
    | with_reducible apply State.distribute_keep
    | with_reducible apply State.objSet_keep
    | with_reducible apply State.sendOwn_keep
    | with_reducible apply State.replyTo_keep
    | with_reducible apply Keep.ite
    | with_reducible apply KeepE.next
    | with_reducible apply Keep.foldl
    | (intro x a hx; beta_reduce)
    | split

theorem execReplicationRecord_keep {r s : State} (h : Keep r s) : KeepE r (execReplicationRecord s) := by
  unfold execReplicationRecord
  repeat' first
    | with_reducible assumption
    | (extract_lets +onlyGivenNames x; try (refine Keep.cut (s := x) ?_ ?_; (on_goal 1 => subst x); (on_goal 2 => intro hx; clear_value x)))
    | with_reducible apply State.take_keep
    | with_reducible apply State.setDom_keep
    | with_reducible apply Keep.ite
    | with_reducible apply KeepE.next
    | split

theorem execStandbyTakeover_keep {r s : State} (h : Keep r s) : KeepE r (execStandbyTakeover s) := by
  unfold execStandbyTakeover
  repeat' first
    | with_reducible assumption
    | (extract_lets +onlyGivenNames x; try (refine Keep.cut (s := x) ?_ ?_; (on_goal 1 => subst x); (on_goal 2 => intro hx; clear_value x)))
    | with_reducible apply act_keep
    | with_reducible apply State.take_keep
    | with_reducible apply State.setDom_keep
    | with_reducible apply State.claimElected_keep
    | with_reducible apply State.abortSwap_keep
    | with_reducible apply State.resendRelease_keep
    | with_reducible apply State.nameStandby_keep
    | with_reducible apply State.barrierSwap_keep
    | with_reducible apply State.memberLost_keep
    | with_reducible apply Keep.ite
    | (intro x hx; beta_reduce)
    | (clear_value *; split)

theorem execBarrierArrivalTimeout_keep {r s : State} (h : Keep r s) (node : Nat) :
    KeepE r (execBarrierArrivalTimeout node s) := by
  unfold execBarrierArrivalTimeout
  repeat' first
    | with_reducible assumption
    | (extract_lets +onlyGivenNames x; try (refine Keep.cut (s := x) ?_ ?_; (on_goal 1 => subst x); (on_goal 2 => intro hx; clear_value x)))
    | with_reducible apply State.memberLost_keep
    | with_reducible apply Keep.ite
    | with_reducible apply KeepE.next
    | split

theorem execLeaveNotice_keep {r s : State} (h : Keep r s) : KeepE r (execLeaveNotice s) := by
  unfold execLeaveNotice
  repeat' first
    | with_reducible assumption
    | (extract_lets +onlyGivenNames x; try (refine Keep.cut (s := x) ?_ ?_; (on_goal 1 => subst x); (on_goal 2 => intro hx; clear_value x)))
    | with_reducible apply State.memberLost_keep
    | with_reducible apply State.take_keep
    | with_reducible apply Keep.ite
    | with_reducible apply KeepE.next
    | split

theorem execMgmtWatchdogExpiry_keep {r s : State} (h : Keep r s) : KeepE r (execMgmtWatchdogExpiry s) := by
  unfold execMgmtWatchdogExpiry
  repeat' first
    | with_reducible assumption
    | (extract_lets +onlyGivenNames x; try (refine Keep.cut (s := x) ?_ ?_; (on_goal 1 => subst x); (on_goal 2 => intro hx; clear_value x)))
    | with_reducible apply act_keep
    | with_reducible apply State.postManagerLost_keep
    | with_reducible apply State.setDom_keep
    | with_reducible apply State.raise_keep
    | with_reducible apply Keep.ite
    | (fail_if_no_progress with_reducible refine Keep.mk' ?_ rfl rfl rfl rfl rfl rfl rfl rfl rfl rfl)
    | (intro x hx; beta_reduce)

theorem execTclkLost_keep {r s : State} (h : Keep r s) : KeepE r (execTclkLost s) := by
  unfold execTclkLost
  repeat' first
    | with_reducible assumption
    | (extract_lets +onlyGivenNames x; try (refine Keep.cut (s := x) ?_ ?_; (on_goal 1 => subst x); (on_goal 2 => intro hx; clear_value x)))
    | with_reducible apply act_keep
    | with_reducible apply State.raise_keep
    | (fail_if_no_progress with_reducible refine Keep.mk' ?_ rfl rfl rfl rfl rfl rfl rfl rfl rfl rfl)
    | (intro x hx; beta_reduce)

theorem execTclkRestore_keep {r s : State} (h : Keep r s) : KeepE r (execTclkRestore s) := by
  unfold execTclkRestore
  repeat' first
    | with_reducible assumption
    | (extract_lets +onlyGivenNames x; try (refine Keep.cut (s := x) ?_ ?_; (on_goal 1 => subst x); (on_goal 2 => intro hx; clear_value x)))
    | with_reducible apply act_keep
    | (fail_if_no_progress with_reducible refine Keep.mk' ?_ rfl rfl rfl rfl rfl rfl rfl rfl rfl rfl)
    | (intro x hx; beta_reduce)

theorem execKettleWindowEnd_keep {r s : State} (h : Keep r s) (m : WindowMeas) : KeepE r (execKettleWindowEnd m s) := by
  unfold execKettleWindowEnd
  repeat' first
    | with_reducible assumption
    | (extract_lets +onlyGivenNames x; try (refine Keep.cut (s := x) ?_ ?_; (on_goal 1 => subst x); (on_goal 2 => intro hx; clear_value x)))
    | with_reducible apply act_keep
    | with_reducible apply State.keepWindow_keep
    | with_reducible apply State.setPwr_keep
    | with_reducible apply State.relimit_keep
    | with_reducible apply State.brakeOn_keep
    | with_reducible apply State.shareLimit_keep
    | with_reducible apply State.slew_keep
    | with_reducible apply Keep.ite
    | (intro x hx; beta_reduce)

theorem execVcoreStep_keep {r s : State} (h : Keep r s) : KeepE r (execVcoreStep s) := by
  unfold execVcoreStep
  repeat' first
    | with_reducible assumption
    | (extract_lets +onlyGivenNames x; try (refine Keep.cut (s := x) ?_ ?_; (on_goal 1 => subst x); (on_goal 2 => intro hx; clear_value x)))
    | with_reducible apply act_keep
    | with_reducible apply State.setPwr_keep
    | (intro x hx; beta_reduce)

theorem execThermalLimitUpdate_keep {r s : State} (h : Keep r s) (temps : TempMeas) :
    KeepE r (execThermalLimitUpdate temps s) := by
  unfold execThermalLimitUpdate
  repeat' first
    | with_reducible assumption
    | (extract_lets +onlyGivenNames x; try (refine Keep.cut (s := x) ?_ ?_; (on_goal 1 => subst x); (on_goal 2 => intro hx; clear_value x)))
    | with_reducible apply act_keep
    | with_reducible apply State.relimit_keep
    | with_reducible apply State.setPwr_keep
    | with_reducible apply State.note_keep
    | with_reducible apply Keep.ite
    | (intro x hx; beta_reduce)

theorem execDroopTrip_keep {r s : State} (h : Keep r s) (die det : Nat) : KeepE r (execDroopTrip die det s) := by
  unfold execDroopTrip
  repeat' first
    | with_reducible assumption
    | (extract_lets +onlyGivenNames x; try (refine Keep.cut (s := x) ?_ ?_; (on_goal 1 => subst x); (on_goal 2 => intro hx; clear_value x)))
    | with_reducible apply act_keep
    | with_reducible apply State.setPwr_keep
    | (intro x hx; beta_reduce)

theorem execDroopRelease_keep {r s : State} (h : Keep r s) (die det : Nat) : KeepE r (execDroopRelease die det s) := by
  unfold execDroopRelease
  repeat' first
    | with_reducible assumption
    | (extract_lets +onlyGivenNames x; try (refine Keep.cut (s := x) ?_ ?_; (on_goal 1 => subst x); (on_goal 2 => intro hx; clear_value x)))
    | with_reducible apply act_keep
    | with_reducible apply State.setPwr_keep
    | (intro x hx; beta_reduce)

theorem execPwrBrakeAssert_keep {r s : State} (h : Keep r s) (chatter : Bool) : KeepE r (execPwrBrakeAssert chatter s) := by
  unfold execPwrBrakeAssert
  repeat' first
    | with_reducible assumption
    | (extract_lets +onlyGivenNames x; try (refine Keep.cut (s := x) ?_ ?_; (on_goal 1 => subst x); (on_goal 2 => intro hx; clear_value x)))
    | with_reducible apply act_keep
    | with_reducible apply State.chatter_keep
    | with_reducible apply State.brakeOn_keep
    | with_reducible apply Keep.ite
    | (fail_if_no_progress with_reducible refine Keep.mk' ?_ rfl rfl rfl rfl rfl rfl rfl rfl rfl rfl)
    | (intro x hx; beta_reduce)

theorem execPwrBrakeRelease_keep {r s : State} (h : Keep r s) : KeepE r (execPwrBrakeRelease s) := by
  unfold execPwrBrakeRelease
  repeat' first
    | with_reducible assumption
    | (extract_lets +onlyGivenNames x; try (refine Keep.cut (s := x) ?_ ?_; (on_goal 1 => subst x); (on_goal 2 => intro hx; clear_value x)))
    | with_reducible apply act_keep
    | with_reducible apply State.relimit_keep
    | with_reducible apply State.setPwr_keep
    | (fail_if_no_progress with_reducible refine Keep.mk' ?_ rfl rfl rfl rfl rfl rfl rfl rfl rfl rfl)
    | (intro x hx; beta_reduce)

theorem execBrakeHeld_keep {r s : State} (h : Keep r s) : KeepE r (execBrakeHeld s) := by
  unfold execBrakeHeld
  repeat' first
    | with_reducible assumption
    | (extract_lets +onlyGivenNames x; try (refine Keep.cut (s := x) ?_ ?_; (on_goal 1 => subst x); (on_goal 2 => intro hx; clear_value x)))
    | with_reducible apply act_keep
    | with_reducible apply State.note_keep
    | with_reducible apply State.setPwr_keep
    | (intro x hx; beta_reduce)

theorem execFuseCheck_keep {r s : State} (h : Keep r s) (failed : List FuseField) : KeepE r (execFuseCheck failed s) := by
  unfold execFuseCheck
  repeat' first
    | with_reducible assumption
    | (extract_lets +onlyGivenNames x; try (refine Keep.cut (s := x) ?_ ?_; (on_goal 1 => subst x); (on_goal 2 => intro hx; clear_value x)))
    | with_reducible apply act_keep
    | with_reducible apply State.fuseCheck_keep
    | with_reducible refine State.setSec_upd ?_ rfl
    | (intro x hx; beta_reduce)

theorem execSecAlarm_keep {r s : State} (h : Keep r s) (src : AlarmSource) (chatter : Bool) :
    KeepE r (execSecAlarm src chatter s) := by
  unfold execSecAlarm
  repeat' first
    | with_reducible assumption
    | (extract_lets +onlyGivenNames x; try (refine Keep.cut (s := x) ?_ ?_; (on_goal 1 => subst x); (on_goal 2 => intro hx; clear_value x)))
    | with_reducible apply act_keep
    | with_reducible apply State.chatter_keep
    | with_reducible apply State.alarm_keep
    | with_reducible apply Keep.ite
    | with_reducible refine State.setSec_upd ?_ rfl
    | (intro x hx; beta_reduce)

theorem execIdeIntegrityFailure_keep {r s : State} (h : Keep r s) : KeepE r (execIdeIntegrityFailure s) := by
  unfold execIdeIntegrityFailure
  repeat' first
    | with_reducible assumption
    | (extract_lets +onlyGivenNames x; try (refine Keep.cut (s := x) ?_ ?_; (on_goal 1 => subst x); (on_goal 2 => intro hx; clear_value x)))
    | with_reducible apply act_keep
    | with_reducible apply State.note_keep
    | with_reducible refine State.setSec_upd ?_ rfl
    | (intro x hx; beta_reduce)

theorem execGetVersion_keep {r s : State} (h : Keep r s) (q : SpdmReq) : KeepE r (execGetVersion q s) := by
  unfold execGetVersion
  repeat' first
    | with_reducible assumption
    | (extract_lets +onlyGivenNames x; try (refine Keep.cut (s := x) ?_ ?_; (on_goal 1 => subst x); (on_goal 2 => intro hx; clear_value x)))
    | with_reducible apply State.spdm_keep
    | with_reducible apply State.respond_keep
    | with_reducible refine State.setSec_upd ?_ rfl
    | (intro x hx; beta_reduce)

theorem execGetCapabilities_keep {r s : State} (h : Keep r s) (q : SpdmReq) : KeepE r (execGetCapabilities q s) := by
  unfold execGetCapabilities
  repeat' first
    | with_reducible assumption
    | (extract_lets +onlyGivenNames x; try (refine Keep.cut (s := x) ?_ ?_; (on_goal 1 => subst x); (on_goal 2 => intro hx; clear_value x)))
    | with_reducible apply State.spdm_keep
    | with_reducible apply State.respond_keep
    | with_reducible refine State.setSec_upd ?_ rfl
    | (intro x hx; beta_reduce)

theorem execNegotiateAlgorithms_keep {r s : State} (h : Keep r s) (q : SpdmReq) (selected : List Nat) :
    KeepE r (execNegotiateAlgorithms q selected s) := by
  unfold execNegotiateAlgorithms
  repeat' first
    | with_reducible assumption
    | (extract_lets +onlyGivenNames x; try (refine Keep.cut (s := x) ?_ ?_; (on_goal 1 => subst x); (on_goal 2 => intro hx; clear_value x)))
    | with_reducible apply State.spdm_keep
    | with_reducible apply State.respond_keep
    | with_reducible apply State.spdmError_keep
    | with_reducible apply Keep.ite
    | with_reducible refine State.setSec_upd ?_ rfl
    | (intro x hx; beta_reduce)

theorem execGetDigests_keep {r s : State} (h : Keep r s) (q : SpdmReq) : KeepE r (execGetDigests q s) := by
  unfold execGetDigests
  repeat' first
    | with_reducible assumption
    | (extract_lets +onlyGivenNames x; try (refine Keep.cut (s := x) ?_ ?_; (on_goal 1 => subst x); (on_goal 2 => intro hx; clear_value x)))
    | with_reducible apply State.spdm_keep
    | with_reducible apply State.respond_keep
    | (intro x hx; beta_reduce)

theorem execGetCertificate_keep {r s : State} (h : Keep r s) (q : SpdmReq) (slot offset length : Nat) :
    KeepE r (execGetCertificate q slot offset length s) := by
  unfold execGetCertificate
  repeat' first
    | with_reducible assumption
    | (extract_lets +onlyGivenNames x; try (refine Keep.cut (s := x) ?_ ?_; (on_goal 1 => subst x); (on_goal 2 => intro hx; clear_value x)))
    | with_reducible apply State.spdm_keep
    | with_reducible apply State.spdmError_keep
    | with_reducible apply State.respond_keep
    | with_reducible apply Keep.ite
    | (intro x hx; beta_reduce)

theorem execChallenge_keep {r s : State} (h : Keep r s) (q : SpdmReq) (slot : Nat) : KeepE r (execChallenge q slot s) := by
  unfold execChallenge
  repeat' first
    | with_reducible assumption
    | (extract_lets +onlyGivenNames x; try (refine Keep.cut (s := x) ?_ ?_; (on_goal 1 => subst x); (on_goal 2 => intro hx; clear_value x)))
    | with_reducible apply State.spdm_keep
    | with_reducible apply State.spdmError_keep
    | with_reducible apply State.respond_keep
    | with_reducible apply Keep.ite
    | (intro x hx; beta_reduce)

theorem execGetMeasurements_keep {r s : State} (h : Keep r s) (q : SpdmReq) (index : Nat) (sign : Bool) :
    KeepE r (execGetMeasurements q index sign s) := by
  unfold execGetMeasurements
  repeat' first
    | with_reducible assumption
    | (extract_lets +onlyGivenNames x; try (refine Keep.cut (s := x) ?_ ?_; (on_goal 1 => subst x); (on_goal 2 => intro hx; clear_value x)))
    | with_reducible apply State.spdm_keep
    | with_reducible apply State.spdmError_keep
    | with_reducible apply State.respond_keep
    | with_reducible apply Keep.ite
    | (intro x hx; beta_reduce)

theorem execKeyExchange_keep {r s : State} (h : Keep r s) (q : SpdmReq) : KeepE r (execKeyExchange q s) := by
  unfold execKeyExchange
  repeat' first
    | with_reducible assumption
    | (extract_lets +onlyGivenNames x; try (refine Keep.cut (s := x) ?_ ?_; (on_goal 1 => subst x); (on_goal 2 => intro hx; clear_value x)))
    | with_reducible apply State.spdm_keep
    | with_reducible apply State.spdmError_keep
    | with_reducible apply State.respond_keep
    | with_reducible apply Keep.ite
    | with_reducible refine State.setSec_upd ?_ rfl
    | (intro x hx; beta_reduce)

theorem execFinish_keep {r s : State} (h : Keep r s) (q : SpdmReq) : KeepE r (execFinish q s) := by
  unfold execFinish
  repeat' first
    | with_reducible assumption
    | (extract_lets +onlyGivenNames x; try (refine Keep.cut (s := x) ?_ ?_; (on_goal 1 => subst x); (on_goal 2 => intro hx; clear_value x)))
    | with_reducible apply State.spdm_keep
    | with_reducible apply State.respond_keep
    | with_reducible apply State.spdmError_keep
    | with_reducible refine State.setSec_upd ?_ rfl
    | (intro x hx; beta_reduce)
    | split

theorem execKeyUpdate_keep {r s : State} (h : Keep r s) (q : SpdmReq) : KeepE r (execKeyUpdate q s) := by
  unfold execKeyUpdate
  repeat' first
    | with_reducible assumption
    | (extract_lets +onlyGivenNames x; try (refine Keep.cut (s := x) ?_ ?_; (on_goal 1 => subst x); (on_goal 2 => intro hx; clear_value x)))
    | with_reducible apply State.secured_keep
    | with_reducible apply State.respond_keep
    | (intro x hx; beta_reduce)

theorem execHeartbeat_keep {r s : State} (h : Keep r s) (q : SpdmReq) : KeepE r (execHeartbeat q s) := by
  unfold execHeartbeat
  repeat' first
    | with_reducible assumption
    | (extract_lets +onlyGivenNames x; try (refine Keep.cut (s := x) ?_ ?_; (on_goal 1 => subst x); (on_goal 2 => intro hx; clear_value x)))
    | with_reducible apply State.secured_keep
    | with_reducible apply State.respond_keep
    | (intro x hx; beta_reduce)

theorem execEndSession_keep {r s : State} (h : Keep r s) (q : SpdmReq) : KeepE r (execEndSession q s) := by
  unfold execEndSession
  repeat' first
    | with_reducible assumption
    | (extract_lets +onlyGivenNames x; try (refine Keep.cut (s := x) ?_ ?_; (on_goal 1 => subst x); (on_goal 2 => intro hx; clear_value x)))
    | with_reducible apply State.secured_keep
    | with_reducible apply State.respond_keep
    | with_reducible refine State.setSec_upd ?_ rfl
    | (intro x hx; beta_reduce)

theorem execChunkSend_keep {r s : State} (h : Keep r s) (q : SpdmReq) (handle seqNo : Nat) (last : Bool) (total : Nat) :
    KeepE r (execChunkSend q handle seqNo last total s) := by
  unfold execChunkSend
  repeat' first
    | with_reducible assumption
    | (extract_lets +onlyGivenNames x; try (refine Keep.cut (s := x) ?_ ?_; (on_goal 1 => subst x); (on_goal 2 => intro hx; clear_value x)))
    | with_reducible apply State.spdm_keep
    | with_reducible apply State.spdmError_keep
    | with_reducible apply State.respond_keep
    | (intro x hx; dsimp only)
    | with_reducible apply Keep.ite
    | with_reducible refine State.setSec_upd ?_ rfl
    | split

theorem execChunkGet_keep {r s : State} (h : Keep r s) (q : SpdmReq) (handle seqNo : Nat) :
    KeepE r (execChunkGet q handle seqNo s) := by
  unfold execChunkGet
  repeat' first
    | with_reducible assumption
    | (extract_lets +onlyGivenNames x; try (refine Keep.cut (s := x) ?_ ?_; (on_goal 1 => subst x); (on_goal 2 => intro hx; clear_value x)))
    | with_reducible apply State.spdm_keep
    | with_reducible apply State.spdmError_keep
    | with_reducible apply State.emit_keep
    | with_reducible apply Keep.ite
    | with_reducible refine State.setSec_upd ?_ rfl
    | (intro x hx; beta_reduce)
    | split

theorem execVendorDefinedRequest_keep {r s : State} (h : Keep r s) (q : SpdmReq) (ideKm : Bool) (keySet : List Byte) :
    KeepE r (execVendorDefinedRequest q ideKm keySet s) := by
  unfold execVendorDefinedRequest
  repeat' first
    | with_reducible assumption
    | (extract_lets +onlyGivenNames x; try (refine Keep.cut (s := x) ?_ ?_; (on_goal 1 => subst x); (on_goal 2 => intro hx; clear_value x)))
    | with_reducible apply State.spdm_keep
    | with_reducible apply State.spdmError_keep
    | with_reducible apply State.secured_keep
    | with_reducible apply State.respond_keep
    | with_reducible apply KeepE.ite
    | with_reducible refine State.setSec_upd ?_ rfl
    | (intro x hx; beta_reduce)

theorem execSpdmUnsupportedRequest_keep {r s : State} (h : Keep r s) (q : SpdmReq) (code : Nat) :
    KeepE r (execSpdmUnsupportedRequest q code s) := by
  unfold execSpdmUnsupportedRequest
  repeat' first
    | with_reducible assumption
    | (extract_lets +onlyGivenNames x; try (refine Keep.cut (s := x) ?_ ?_; (on_goal 1 => subst x); (on_goal 2 => intro hx; clear_value x)))
    | with_reducible apply State.spdm_keep
    | with_reducible apply State.spdmError_keep
    | (intro x hx; beta_reduce)

theorem execPackageResetRelease_keep {r s : State} (h : Keep r s) (straps : Straps) :
    KeepE r (execPackageResetRelease straps s) := by
  unfold execPackageResetRelease
  repeat' first
    | with_reducible assumption
    | (extract_lets +onlyGivenNames x; try (refine Keep.cut (s := x) ?_ ?_; (on_goal 1 => subst x); (on_goal 2 => intro hx; clear_value x)))
    | with_reducible apply act_keep
    | with_reducible apply State.setStart_keep
    | with_reducible apply State.realarm_keep
    | with_reducible apply State.setDom_keep
    | (intro x hx; beta_reduce)

theorem execPerstN_keep {r s : State} (h : Keep r s) (_chatter : Bool) : KeepE r (execPerstN _chatter s) := by
  unfold execPerstN
  repeat' first
    | with_reducible assumption
    | (extract_lets +onlyGivenNames x; try (refine Keep.cut (s := x) ?_ ?_; (on_goal 1 => subst x); (on_goal 2 => intro hx; clear_value x)))
    | with_reducible apply act_keep
    | with_reducible apply State.setStart_keep
    | with_reducible apply State.killRing_keep
    | with_reducible exact Keep.updWf hx rfl rfl rfl id (fun _ => rfl) rfl rfl rfl rfl rfl rfl rfl
    | with_reducible refine State.setErr_upd ?_ rfl rfl rfl rfl
    | with_reducible refine State.setSec_upd ?_ rfl
    | with_reducible apply Keep.foldl
    | (intro x a hx; beta_reduce)
    | (intro x hx; beta_reduce)

theorem execPerstNDeassert_keep {r s : State} (h : Keep r s) : KeepE r (execPerstNDeassert s) := by
  unfold execPerstNDeassert
  repeat' first
    | with_reducible assumption
    | (extract_lets +onlyGivenNames x; try (refine Keep.cut (s := x) ?_ ?_; (on_goal 1 => subst x); (on_goal 2 => intro hx; clear_value x)))
    | with_reducible apply act_keep
    | with_reducible apply State.setStart_keep
    | (intro x hx; beta_reduce)

theorem execTraySenseN_keep {r s : State} (h : Keep r s) (chatter : Bool) : KeepE r (execTraySenseN chatter s) := by
  unfold execTraySenseN
  repeat' first
    | with_reducible assumption
    | (extract_lets +onlyGivenNames x; try (refine Keep.cut (s := x) ?_ ?_; (on_goal 1 => subst x); (on_goal 2 => intro hx; clear_value x)))
    | with_reducible apply act_keep
    | with_reducible apply State.chatter_keep
    | with_reducible apply State.setStart_keep
    | (intro x hx; beta_reduce)

theorem execTraySenseDeassert_keep {r s : State} (h : Keep r s) : KeepE r (execTraySenseDeassert s) := by
  unfold execTraySenseDeassert
  repeat' first
    | with_reducible assumption
    | (extract_lets +onlyGivenNames x; try (refine Keep.cut (s := x) ?_ ?_; (on_goal 1 => subst x); (on_goal 2 => intro hx; clear_value x)))
    | with_reducible apply act_keep
    | with_reducible apply State.passGate_keep
    | with_reducible apply State.setStart_keep
    | (intro x hx; beta_reduce)

theorem execRackPgChange_keep {r s : State} (h : Keep r s) (input : Nat) (high : Bool) :
    KeepE r (execRackPgChange input high s) := by
  unfold execRackPgChange
  repeat' first
    | with_reducible assumption
    | (extract_lets +onlyGivenNames x; try (refine Keep.cut (s := x) ?_ ?_; (on_goal 1 => subst x); (on_goal 2 => intro hx; clear_value x)))
    | with_reducible apply act_keep
    | with_reducible apply State.setStart_keep
    | (intro x hx; beta_reduce)

theorem execBootImageVerify_keep {r s : State} (h : Keep r s) (image : Option (List Byte)) :
    KeepE r (execBootImageVerify image s) := by
  unfold execBootImageVerify
  repeat' first
    | with_reducible assumption
    | (extract_lets +onlyGivenNames x; try (refine Keep.cut (s := x) ?_ ?_; (on_goal 1 => subst x); (on_goal 2 => intro hx; clear_value x)))
    | with_reducible apply act_keep
    | with_reducible apply State.tryImage_keep
    | (intro x hx; beta_reduce)

theorem execCoreTileTest_keep {r s : State} (h : Keep r s) (cores : List (BitVec 64)) (tiles : List (BitVec 128)) :
    KeepE r (execCoreTileTest cores tiles s) := by
  unfold execCoreTileTest
  repeat' first
    | with_reducible assumption
    | (extract_lets +onlyGivenNames x; try (refine Keep.cut (s := x) ?_ ?_; (on_goal 1 => subst x); (on_goal 2 => intro hx; clear_value x)))
    | with_reducible apply act_keep
    | with_reducible apply State.setStart_keep
    | with_reducible apply State.latchStart_keep
    | with_reducible apply State.fatal_keep
    | (fail_if_no_progress with_reducible refine Keep.mk' ?_ rfl rfl rfl rfl rfl rfl rfl rfl rfl rfl)
    | (intro x hx; beta_reduce)
    | split

theorem execHbmTrainTest_keep {r s : State} (h : Keep r s) (lost : W512) : KeepE r (execHbmTrainTest lost s) := by
  unfold execHbmTrainTest
  repeat' first
    | with_reducible assumption
    | (extract_lets +onlyGivenNames x; try (refine Keep.cut (s := x) ?_ ?_; (on_goal 1 => subst x); (on_goal 2 => intro hx; clear_value x)))
    | with_reducible apply act_keep
    | with_reducible apply State.setStart_keep
    | with_reducible apply State.latchStart_keep
    | with_reducible apply State.seqPlace_keep
    | (fail_if_no_progress with_reducible refine Keep.mk' ?_ rfl rfl rfl rfl rfl rfl rfl rfl rfl rfl)
    | (intro x hx; beta_reduce)

theorem execSetdasa_keep {r s : State} (h : Keep r s) (addr : Nat) : KeepE r (execSetdasa addr s) := by
  unfold execSetdasa
  repeat' first
    | with_reducible assumption
    | (extract_lets +onlyGivenNames x; try (refine Keep.cut (s := x) ?_ ?_; (on_goal 1 => subst x); (on_goal 2 => intro hx; clear_value x)))
    | with_reducible apply act_keep
    | with_reducible apply State.setStart_keep
    | (intro x hx; beta_reduce)

theorem execSetaasa_keep {r s : State} (h : Keep r s) : KeepE r (execSetaasa s) := by
  unfold execSetaasa
  repeat' first
    | with_reducible assumption
    | (extract_lets +onlyGivenNames x; try (refine Keep.cut (s := x) ?_ ?_; (on_goal 1 => subst x); (on_goal 2 => intro hx; clear_value x)))
    | with_reducible apply act_keep
    | with_reducible apply State.setStart_keep
    | (intro x hx; beta_reduce)

theorem execSetEndpointId_keep {r s : State} (h : Keep r s) (eid : Nat) : KeepE r (execSetEndpointId eid s) := by
  unfold execSetEndpointId
  repeat' first
    | with_reducible assumption
    | (extract_lets +onlyGivenNames x; try (refine Keep.cut (s := x) ?_ ?_; (on_goal 1 => subst x); (on_goal 2 => intro hx; clear_value x)))
    | with_reducible apply act_keep
    | with_reducible apply State.emit_keep
    | with_reducible apply State.setStart_keep
    | with_reducible apply Keep.ite
    | (intro x hx; beta_reduce)

theorem execGetEndpointId_keep {r s : State} (h : Keep r s) : KeepE r (execGetEndpointId s) := by
  unfold execGetEndpointId
  repeat' first
    | with_reducible assumption
    | (extract_lets +onlyGivenNames x; try (refine Keep.cut (s := x) ?_ ?_; (on_goal 1 => subst x); (on_goal 2 => intro hx; clear_value x)))
    | with_reducible apply act_keep
    | with_reducible apply State.emit_keep
    | (intro x hx; beta_reduce)

theorem execGetMctpVersionSupport_keep {r s : State} (h : Keep r s) : KeepE r (execGetMctpVersionSupport s) := by
  unfold execGetMctpVersionSupport
  repeat' first
    | with_reducible assumption
    | (extract_lets +onlyGivenNames x; try (refine Keep.cut (s := x) ?_ ?_; (on_goal 1 => subst x); (on_goal 2 => intro hx; clear_value x)))
    | with_reducible apply act_keep
    | with_reducible apply State.emit_keep
    | (intro x hx; beta_reduce)

theorem execGetMessageTypeSupport_keep {r s : State} (h : Keep r s) : KeepE r (execGetMessageTypeSupport s) := by
  unfold execGetMessageTypeSupport
  repeat' first
    | with_reducible assumption
    | (extract_lets +onlyGivenNames x; try (refine Keep.cut (s := x) ?_ ?_; (on_goal 1 => subst x); (on_goal 2 => intro hx; clear_value x)))
    | with_reducible apply act_keep
    | with_reducible apply State.emit_keep
    | (intro x hx; beta_reduce)

theorem execGetVendorDefinedMessageSupport_keep {r s : State} (h : Keep r s) :
    KeepE r (execGetVendorDefinedMessageSupport s) := by
  unfold execGetVendorDefinedMessageSupport
  repeat' first
    | with_reducible assumption
    | (extract_lets +onlyGivenNames x; try (refine Keep.cut (s := x) ?_ ?_; (on_goal 1 => subst x); (on_goal 2 => intro hx; clear_value x)))
    | with_reducible apply act_keep
    | with_reducible apply State.emit_keep
    | (intro x hx; beta_reduce)

theorem execRead_keep {r s : State} (h : Keep r s) (count : Nat) (rsvd : BitVec 16) (arg : Word) :
    KeepE r (execRead count rsvd arg s) := by
  unfold execRead
  repeat' first
    | with_reducible assumption
    | (extract_lets +onlyGivenNames x; try (refine Keep.cut (s := x) ?_ ?_; (on_goal 1 => subst x); (on_goal 2 => intro hx; clear_value x)))
    | with_reducible apply act_keep
    | with_reducible apply State.emit_keep
    | with_reducible apply State.readWords_keep
    | with_reducible apply Keep.ite
    | (intro x hx; beta_reduce)

theorem execRackCap_keep {r s : State} (h : Keep r s) (rsvd : BitVec 16) (arg : Word) :
    KeepE r (execRackCap rsvd arg s) := by
  unfold execRackCap
  repeat' first
    | with_reducible assumption
    | (extract_lets +onlyGivenNames x; try (refine Keep.cut (s := x) ?_ ?_; (on_goal 1 => subst x); (on_goal 2 => intro hx; clear_value x)))
    | with_reducible apply act_keep
    | with_reducible apply State.emit_keep
    | with_reducible apply State.storeCap_keep
    | with_reducible apply Keep.ite
    | (intro x hx; beta_reduce)

theorem execFactoryTest_keep {r s : State} (h : Keep r s) (rsvd : BitVec 16) : KeepE r (execFactoryTest rsvd s) := by
  unfold execFactoryTest
  repeat' first
    | with_reducible assumption
    | (extract_lets +onlyGivenNames x; try (refine Keep.cut (s := x) ?_ ?_; (on_goal 1 => subst x); (on_goal 2 => intro hx; clear_value x)))
    | with_reducible apply act_keep
    | with_reducible apply State.emit_keep
    | with_reducible apply Keep.ite
    | (intro x hx; beta_reduce)

theorem execBypass_keep {r s : State} (h : Keep r s) : KeepE r (execBypass s) := by
  unfold execBypass
  repeat' first
    | with_reducible assumption
    | (extract_lets +onlyGivenNames x; try (refine Keep.cut (s := x) ?_ ?_; (on_goal 1 => subst x); (on_goal 2 => intro hx; clear_value x)))
    | with_reducible apply act_keep
    | with_reducible apply State.emit_keep
    | with_reducible apply State.tap_keep
    | (intro x hx; beta_reduce)

theorem execIdcode_keep {r s : State} (h : Keep r s) : KeepE r (execIdcode s) := by
  unfold execIdcode
  repeat' first
    | with_reducible assumption
    | (extract_lets +onlyGivenNames x; try (refine Keep.cut (s := x) ?_ ?_; (on_goal 1 => subst x); (on_goal 2 => intro hx; clear_value x)))
    | with_reducible apply act_keep
    | with_reducible apply State.emit_keep
    | with_reducible apply State.tap_keep
    | (intro x hx; beta_reduce)

theorem execSamplePreload_keep {r s : State} (h : Keep r s) (sample : Bool) (cells : List Bool) :
    KeepE r (execSamplePreload sample cells s) := by
  unfold execSamplePreload
  repeat' first
    | with_reducible assumption
    | (extract_lets +onlyGivenNames x; try (refine Keep.cut (s := x) ?_ ?_; (on_goal 1 => subst x); (on_goal 2 => intro hx; clear_value x)))
    | with_reducible apply act_keep
    | with_reducible apply State.emit_keep
    | with_reducible apply State.tap_keep
    | with_reducible apply State.setStart_keep
    | with_reducible apply Keep.ite
    | (intro x hx; beta_reduce)

theorem execExtest_keep {r s : State} (h : Keep r s) (cells : List Bool) : KeepE r (execExtest cells s) := by
  unfold execExtest
  repeat' first
    | with_reducible assumption
    | (extract_lets +onlyGivenNames x; try (refine Keep.cut (s := x) ?_ ?_; (on_goal 1 => subst x); (on_goal 2 => intro hx; clear_value x)))
    | with_reducible apply act_keep
    | with_reducible apply State.emit_keep
    | with_reducible apply State.tap_keep
    | with_reducible apply State.setStart_keep
    | with_reducible apply Keep.ite
    | (intro x hx; beta_reduce)

theorem execTrstN_keep {r s : State} (h : Keep r s) : KeepE r (execTrstN s) := by
  unfold execTrstN
  repeat' first
    | with_reducible assumption
    | (extract_lets +onlyGivenNames x; try (refine Keep.cut (s := x) ?_ ?_; (on_goal 1 => subst x); (on_goal 2 => intro hx; clear_value x)))
    | with_reducible apply act_keep
    | with_reducible apply State.setStart_keep
    | (intro x hx; beta_reduce)

theorem execManagementProcessorResetEnd_keep {r s : State} (h : Keep r s) :
    KeepE r (execManagementProcessorResetEnd s) := by
  unfold execManagementProcessorResetEnd
  repeat' first
    | with_reducible assumption
    | (extract_lets +onlyGivenNames x; try (refine Keep.cut (s := x) ?_ ?_; (on_goal 1 => subst x); (on_goal 2 => intro hx; clear_value x)))
    | with_reducible apply act_keep
    | (fail_if_no_progress with_reducible refine Keep.mk' ?_ rfl rfl rfl rfl rfl rfl rfl rfl rfl rfl)
    | (intro x hx; beta_reduce)

theorem execEmergencyOffDeassert_keep {r s : State} (h : Keep r s) : KeepE r (execEmergencyOffDeassert s) := by
  unfold execEmergencyOffDeassert
  repeat' first
    | with_reducible assumption
    | (extract_lets +onlyGivenNames x; try (refine Keep.cut (s := x) ?_ ?_; (on_goal 1 => subst x); (on_goal 2 => intro hx; clear_value x)))
    | with_reducible apply act_keep
    | with_reducible apply State.setStart_keep
    | (intro x hx; beta_reduce)

theorem execAlarmInputDeassert_keep {r s : State} (h : Keep r s) (src : AlarmSource) :
    KeepE r (execAlarmInputDeassert src s) := by
  unfold execAlarmInputDeassert
  repeat' first
    | with_reducible assumption
    | (extract_lets +onlyGivenNames x; try (refine Keep.cut (s := x) ?_ ?_; (on_goal 1 => subst x); (on_goal 2 => intro hx; clear_value x)))
    | with_reducible apply act_keep
    | with_reducible refine State.setSec_upd ?_ rfl
    | (intro x hx; beta_reduce)

theorem execDoeDiscovery_keep {r s : State} (h : Keep r s) (index : Nat) : KeepE r (execDoeDiscovery index s) := by
  unfold execDoeDiscovery
  repeat' first
    | with_reducible assumption
    | (extract_lets +onlyGivenNames x; try (refine Keep.cut (s := x) ?_ ?_; (on_goal 1 => subst x); (on_goal 2 => intro hx; clear_value x)))
    | with_reducible apply act_keep
    | with_reducible apply State.emit_keep
    | (intro x hx; beta_reduce)

end Sys2Proof.Machine
end

