-- ==== Sys2Proof/Laws/Records.lean ====
section
/-! SUPPORT. Everything that the record and ring operations can do: each answers the state with at most the named
fields replaced. A proof cites the `_frame` lemma of an operation and never unfolds it. -/

namespace Sys2Proof.Machine

theorem State.errRingPut_frame (s : State) (r : W512) :
    ∃ e o, s.errRingPut r = { s with err := e, out := o } := by
  unfold State.errRingPut
  dsimp only
  split
  · exact ⟨s.err, s.out, rfl⟩
  · split
    · exact ⟨_, _, rfl⟩
    · exact ⟨_, s.out, rfl⟩

theorem State.putRecord_frame (s : State) (r : W512) :
    ∃ e o, s.putRecord r = { s with err := e, out := o } := by
  obtain ⟨e, o, h⟩ := State.errRingPut_frame
    (s.setErr { s.err with log := s.err.log.set (s.err.total.toNat % 256) r, total := s.err.total + 1 }) r
  exact ⟨e, o, h⟩

theorem State.enterHandling_frame (s : State) (e : ErrIn) (j : Judged) :
    ∃ x, s.enterHandling e j = { s with err := x } := by
  unfold State.enterHandling
  split
  · exact ⟨s.err, rfl⟩
  · exact ⟨_, rfl⟩

theorem State.record_frame (s : State) (e : ErrIn) : ∃ x o, (s.record e).1 = { s with err := x, out := o } := by
  unfold State.record
  split
  · exact ⟨s.err, s.out, rfl⟩
  · dsimp only
    split
    · split
      · split
        · exact ⟨_, s.out, rfl⟩
        · obtain ⟨x, o, h⟩ := State.putRecord_frame (s.setErr { s.err with
            corr := updateIf s.err.corr (·.matches_ e) fun c => { c with at_ := s.now, pending := 0 } }) _
          exact ⟨x, o, h⟩
      · obtain ⟨x, o, h⟩ := State.putRecord_frame (s.setErr { s.err with corr := s.err.corr ++
          [{ status := e.status, unit := e.unit, die := e.die, pos := e.pos, at_ := s.now, pending := 0 }] }) _
        exact ⟨x, o, h⟩
    · obtain ⟨y, h⟩ := State.enterHandling_frame s e (s.judge e)
      obtain ⟨x, o, h'⟩ := State.putRecord_frame (s.enterHandling e (s.judge e)) (s.errRecord e (s.judge e) 1)
      refine ⟨x, o, ?_⟩
      rw [h', h]

/-- A record changes the error block and what is sent. -/
theorem State.note_frame (s : State) (e : ErrIn) : ∃ x o, s.note e = { s with err := x, out := o } :=
  State.record_frame s e

/-- A silent package records nothing (R448, R458). -/
theorem State.note_silent (s : State) (e : ErrIn) (h : s.err.silent = true) : s.note e = s := by
  simp [State.note, State.record, h]

theorem State.interrupt_frame (s : State) (n : Nat) : ∃ r o, s.interrupt n = { s with rings := r, out := o } := by
  unfold State.interrupt
  dsimp only
  split <;> split
  all_goals first
    | exact ⟨s.rings, s.out, rfl⟩
    | exact ⟨_, _, rfl⟩

theorem State.putCompletion_frame (s : State) (n : Nat) (rec : W256) :
    ∃ r o, s.putCompletion n rec = { s with rings := r, out := o } := by
  unfold State.putCompletion
  dsimp only
  obtain ⟨r, o, h⟩ := State.interrupt_frame (((s.setRing n _).emit _)) n
  exact ⟨r, o, h⟩

theorem State.drainBacklog_frame (k : Nat) : ∀ (s : State) (n : Nat),
    ∃ r o, State.drainBacklog k s n = { s with rings := r, out := o } := by
  induction k with
  | zero => intro s n; exact ⟨s.rings, s.out, rfl⟩
  | succ k ih =>
    intro s n
    unfold State.drainBacklog
    dsimp only
    split
    · exact ⟨s.rings, s.out, rfl⟩
    · split
      · obtain ⟨r, o, h⟩ := State.putCompletion_frame (s.setRing n { s.ring n with backlog := ‹_› }) n ‹_›
        obtain ⟨r', o', h'⟩ := ih ((s.setRing n { s.ring n with backlog := ‹_› }).putCompletion n ‹_›) n
        refine ⟨r', o', ?_⟩
        rw [h', h]
        rfl
      · exact ⟨s.rings, s.out, rfl⟩

theorem State.drain_frame (s : State) (n : Nat) : ∃ r o, s.drain n = { s with rings := r, out := o } :=
  State.drainBacklog_frame _ s n

theorem State.overflowRing_frame (s : State) (n : Nat) :
    ∃ r x o, s.overflowRing n = { s with rings := r, err := x, out := o } := by
  unfold State.overflowRing
  dsimp only
  split
  · exact ⟨_, s.err, s.out, rfl⟩
  · obtain ⟨x, o, h⟩ := State.note_frame (s.setRing n { s.ring n with drop := (s.ring n).drop + 1, overflow := true })
      { status := 0x0104, cls := 0, unit := 9, pos := 1, detail := n }
    exact ⟨_, x, o, h⟩

/-- A loose record changes the rings, and what is sent; its overflow is recorded. -/
theorem State.loose_frame (s : State) (n : Nat) (k : Loose) (rec : W256) :
    ∃ r x o, s.loose n k rec = { s with rings := r, err := x, out := o } := by
  unfold State.loose
  dsimp only
  split
  · split
    · exact ⟨_, s.err, s.out, rfl⟩
    · exact ⟨s.rings, s.err, s.out, rfl⟩
  · split
    · obtain ⟨r, o, h⟩ := State.putCompletion_frame s n rec
      exact ⟨r, s.err, o, h⟩
    · split
      · exact ⟨_, s.err, s.out, rfl⟩
      · split
        · exact ⟨s.rings, s.err, s.out, rfl⟩
        · exact State.overflowRing_frame s n

theorem State.reservedRecord_frame (s : State) (n k : Nat) (rec : W256) :
    ∃ r o, s.reservedRecord n k rec = { s with rings := r, out := o } := by
  unfold State.reservedRecord
  dsimp only
  split
  · obtain ⟨r, o, h⟩ := State.putCompletion_frame (s.release n k) n rec
    exact ⟨r, o, h⟩
  · exact ⟨_, s.out, rfl⟩

/-- A final record changes the rings and what is sent (R332, R333). -/
theorem State.finish_frame (s : State) (n : Nat) (d : W512) (status : Nat) (res : List (Nat × Nat × Nat)) :
    ∃ r o, s.finish n d status res = { s with rings := r, out := o } := by
  unfold State.finish
  dsimp only
  split
  · obtain ⟨r, o, h⟩ := State.drain_frame
      ((s.onRing n fun r => { r with open_ := r.open_ - 1 }).release n (dEntries d)) n
    exact ⟨r, o, h⟩
  · obtain ⟨r, o, h⟩ := State.reservedRecord_frame (s.onRing n fun r => { r with open_ := r.open_ - 1 }) n (dEntries d)
      (mkRecord (dTag d) true false 0 status res)
    obtain ⟨r', o', h'⟩ := State.drain_frame ((s.onRing n fun r => { r with open_ := r.open_ - 1 }).reservedRecord n
      (dEntries d) (mkRecord (dTag d) true false 0 status res)) n
    refine ⟨r', o', ?_⟩
    rw [h', h]
    rfl

/-- An event record changes the rings, and what is sent; its overflow is recorded (R336). -/
theorem State.event_frame (s : State) (q status : Nat) :
    ∃ r x o, s.event q status = { s with rings := r, err := x, out := o } :=
  State.loose_frame s _ _ _

theorem State.events_frame (status : Nat) (qs : List Nat) : ∀ s : State,
    ∃ r x o, s.events qs status = { s with rings := r, err := x, out := o } := by
  induction qs with
  | nil => intro s; exact ⟨s.rings, s.err, s.out, rfl⟩
  | cons q t ih =>
    intro s
    obtain ⟨r, x, o, h⟩ := State.event_frame s q status
    obtain ⟨r', x', o', h'⟩ := ih (s.event q status)
    refine ⟨r', x', o', ?_⟩
    show (s.event q status).events t status = _
    rw [h', h]

end Sys2Proof.Machine
end

