-- ==== Sys2Proof/Laws/Resets.lean ====
section
/-! SUPPORT. What the commands leave that are outside `Keep`: the resets, the opening of the first stage, and the raising
of the package rails, which writes the records that VAON owes. -/

namespace Sys2Proof.Machine

/-! ## The resets, the opening of the first stage, and the records that VAON owes -/

/-- What also a reset and the opening of the first stage leave: the queue, the part, and a canonical memory. -/
structure Left (s t : State) : Prop where
  pending : t.pending = s.pending
  part : t.part = s.part
  wf : s.memWf = true → t.memWf = true

theorem State.fresh_left (s : State) : Left s s.fresh :=
  ⟨rfl, rfl, fun h => by
    simp only [State.memWf, Bool.and_eq_true] at h ⊢
    exact ⟨⟨⟨rfl, rfl⟩, h.1.2⟩, h.2⟩⟩

theorem State.resetAll_left (s : State) : Left s s.resetAll :=
  ⟨rfl, rfl, (State.fresh_left { s with time := {} }).wf⟩

theorem State.openStage_left (s : State) : Left s s.openStage ∧ s.openStage.time = s.time := by
  unfold State.openStage
  dsimp only
  split <;> exact ⟨⟨rfl, rfl, (State.fresh_left s).wf⟩, rfl⟩

theorem State.openFlag_left (s : State) (c : OpenCause) : Left s (s.openFlag c) ∧ (s.openFlag c).time = s.time := by
  cases c <;> exact ⟨⟨rfl, rfl, id⟩, rfl⟩

theorem Left.trans {r s t : State} (h : Left r s) (k : Left s t) : Left r t :=
  ⟨k.pending.trans h.pending, k.part.trans h.part, k.wf ∘ h.wf⟩

theorem State.chatter_left (s : State) (i : Nat) (y : Bool) : Left s (s.chatter i y) ∧ (s.chatter i y).time = s.time := by
  cases y <;> exact ⟨⟨rfl, rfl, id⟩, rfl⟩

theorem act_left {s : State} {c : Bool} {f : State → State} {P : State → Prop} (h : P s) (k : P (f s)) : ∃ t, act c s f = .next t ∧ P t := by
  refine ⟨_, rfl, ?_⟩
  split <;> assumption

theorem execPowerOnReset_left (s : State) : ∃ t, execPowerOnReset s = .next t ∧ Left s t ∧ (t.time.count = s.time.count ∨ t.time.count = 0) :=
  act_left (P := fun t => Left s t ∧ (t.time.count = s.time.count ∨ t.time.count = 0)) ⟨⟨rfl, rfl, id⟩, .inl rfl⟩
    ⟨⟨rfl, rfl, (State.resetAll_left s).wf⟩, .inr rfl⟩

theorem execPkgResetN_left (s : State) : ∃ t, execPkgResetN s = .next t ∧ Left s t ∧ (t.time.count = s.time.count ∨ t.time.count = 0) := by
  refine act_left (P := fun t => Left s t ∧ (t.time.count = s.time.count ∨ t.time.count = 0)) ⟨⟨rfl, rfl, id⟩, .inl rfl⟩ ?_
  dsimp only
  split <;> exact ⟨⟨rfl, rfl, (State.resetAll_left s).wf⟩, .inr rfl⟩

theorem execVaonLoss_left (s : State) : ∃ t, execVaonLoss s = .next t ∧ Left s t ∧ (t.time.count = s.time.count ∨ t.time.count = 0) := by
  refine act_left (P := fun t => Left s t ∧ (t.time.count = s.time.count ∨ t.time.count = 0)) ⟨⟨rfl, rfl, id⟩, .inl rfl⟩ ?_
  extract_lets tr u p v k w t x y
  have hu : Left s u := by
    unfold u
    split
    · exact (State.openStage_left s).1
    · exact ⟨rfl, rfl, id⟩
  clear_value u
  split <;> exact ⟨⟨hu.pending, hu.part, hu.wf⟩, .inr rfl⟩

theorem execStartGateMet_left (v : Bool) (s : State) : ∃ t, execStartGateMet v s = .next t ∧ Left s t ∧
    (t.time.count = s.time.count ∨ t.time.count = 0 ∧ s.start.vinOpen = true) := by
  refine act_left (P := fun t => Left s t ∧ (t.time.count = s.time.count ∨ t.time.count = 0 ∧ s.start.vinOpen = true))
    ⟨⟨rfl, rfl, id⟩, .inl rfl⟩ ?_
  by_cases hv : s.start.vinOpen = true
  · simp only [hv, if_true]
    exact ⟨⟨rfl, rfl, (State.resetAll_left s).wf⟩, .inr ⟨rfl, trivial⟩⟩
  · simp only [hv]
    exact ⟨⟨rfl, rfl, id⟩, .inl rfl⟩

theorem execEmergencyOffN_left (c : Bool) (s : State) : ∃ t, execEmergencyOffN c s = .next t ∧ Left s t ∧ t.time.count = s.time.count := by
  refine act_left (P := fun t => Left s t ∧ t.time.count = s.time.count) ⟨⟨rfl, rfl, id⟩, rfl⟩ ?_
  extract_lets p u
  have hu : Left s u ∧ u.time = s.time :=
    have k := State.chatter_left (s.setStart { s.start with eoffPin := true, eoffLatch := true }) 2 c
    ⟨⟨k.1.pending, k.1.part, k.1.wf⟩, k.2⟩
  clear_value u
  split
  · exact ⟨hu.1.trans (State.openStage_left u).1, by rw [(State.openStage_left u).2, hu.2]⟩
  · exact ⟨hu.1, by rw [hu.2]⟩

theorem execThermalTrip_left (unit die pos : Nat) (s : State) : ∃ t, execThermalTrip unit die pos s = .next t ∧ Left s t ∧
    t.time.count = s.time.count := by
  refine act_left (P := fun t => Left s t ∧ t.time.count = s.time.count) ⟨⟨rfl, rfl, id⟩, rfl⟩ ?_
  extract_lets p u q
  have k := State.openStage_left { u with start := { u.start with faultHeld := true } }
  exact ⟨⟨k.1.pending, k.1.part, k.1.wf⟩, congrArg Time.count k.2⟩

theorem execFirstStageOpen_left (c : OpenCause) (s : State) : ∃ t, execFirstStageOpen c s = .next t ∧ Left s t ∧
    t.time.count = s.time.count :=
  act_left (P := fun t => Left s t ∧ t.time.count = s.time.count) ⟨⟨rfl, rfl, id⟩, rfl⟩
    ⟨(State.openFlag_left s c).1.trans (State.openStage_left _).1, by rw [(State.openStage_left _).2, (State.openFlag_left s c).2]⟩

/-- Relative to a state whose log is not silent nothing is said of the log. -/
theorem Keep.loud (s : State) : Keep { s with err := { s.err with silent := false } } s :=
  ⟨rfl, ⟨_, Nat.le_refl _, rfl⟩, rfl, id, id, id, fun h => nomatch h⟩

/-- A record that VAON owes is written even where the log is silent. -/
theorem State.owedRecord_keep {r s : State} (h : Keep r s) (hr : r.err.silent = false) (e : ErrIn) : Keep r (s.owedRecord e) := by
  unfold State.owedRecord State.putRecord
  apply State.errRingPut_keep
  exact ⟨h.pending, h.part, h.count, h.wf, h.fatal, h.locked, fun x => absurd x (by simp [hr])⟩

theorem State.payRecords_keep {r s : State} (h : Keep r s) (hr : r.err.silent = false) : Keep r s.payRecords := by
  unfold State.payRecords
  extract_lets p t q u
  have ht : Keep r t := by
    unfold t
    split
    · exact State.pin_keep (State.setPwr_keep (State.owedRecord_keep h hr _) _) ..
    · exact h
  clear_value t
  have hu : Keep r u := by
    unfold u
    split
    · exact State.setPwr_keep (State.owedRecord_keep ht hr _) _
    · exact ht
  clear_value u
  split
  · refine State.setSec_lock (State.owedRecord_keep hu hr _) ?_
    unfold State.owedRecord
    obtain ⟨e, o, k⟩ := State.putRecord_frame u (u.errRecord (u.alarmRecord (if u.alarmAction = 0 then 0 else 3)) _ 1)
    rw [k]
    exact id
  · exact hu

theorem execPkgPgHigh_keep {r s : State} (h : Keep r s) (hr : r.err.silent = false) (f : List FuseField) : KeepE r (execPkgPgHigh f s) := by
  unfold execPkgPgHigh
  apply act_keep h
  intro x hx
  extract_lets a b t d u w
  have hw : Keep r w := by
    refine State.payRecords_keep ?_ hr
    exact Keep.upd (State.pin_keep (State.setStart_keep hx _) ..) rfl rfl rfl rfl rfl rfl rfl rfl rfl rfl rfl rfl
  clear_value w
  refine State.fuseCheck_keep (State.setSec_upd hw ?_) _
  rfl

end Sys2Proof.Machine
end

