-- ==== Sys2Proof/Laws/State.lean ====
section
/-! SUPPORT. What each named update of the state does to each of its fields: one lemma for each field and update,
true by `rfl` and a simp lemma, so that no proof unfolds an update of the record. -/

namespace Sys2Proof.Machine

set_option Elab.async false

variable (s : State)

@[simp] theorem State.emit_pending (o : Out) : (s.emit o).pending = s.pending := rfl
@[simp] theorem State.emit_part (o : Out) : (s.emit o).part = s.part := rfl
@[simp] theorem State.emit_time (o : Out) : (s.emit o).time = s.time := rfl
@[simp] theorem State.emit_hif (o : Out) : (s.emit o).hif = s.hif := rfl
@[simp] theorem State.emit_rings (o : Out) : (s.emit o).rings = s.rings := rfl
@[simp] theorem State.emit_accepted (o : Out) : (s.emit o).accepted = s.accepted := rfl
@[simp] theorem State.emit_waiting (o : Out) : (s.emit o).waiting = s.waiting := rfl
@[simp] theorem State.emit_longOps (o : Out) : (s.emit o).longOps = s.longOps := rfl
@[simp] theorem State.emit_nextHandle (o : Out) : (s.emit o).nextHandle = s.nextHandle := rfl
@[simp] theorem State.emit_model (o : Out) : (s.emit o).model = s.model := rfl
@[simp] theorem State.emit_eng (o : Out) : (s.emit o).eng = s.eng := rfl
@[simp] theorem State.emit_serve (o : Out) : (s.emit o).serve = s.serve := rfl
@[simp] theorem State.emit_steep (o : Out) : (s.emit o).steep = s.steep := rfl
@[simp] theorem State.emit_rte (o : Out) : (s.emit o).rte = s.rte := rfl
@[simp] theorem State.emit_mem (o : Out) : (s.emit o).mem = s.mem := rfl
@[simp] theorem State.emit_caddy (o : Out) : (s.emit o).caddy = s.caddy := rfl
@[simp] theorem State.emit_links (o : Out) : (s.emit o).links = s.links := rfl
@[simp] theorem State.emit_disc (o : Out) : (s.emit o).disc = s.disc := rfl
@[simp] theorem State.emit_dom (o : Out) : (s.emit o).dom = s.dom := rfl
@[simp] theorem State.emit_fab (o : Out) : (s.emit o).fab = s.fab := rfl
@[simp] theorem State.emit_err (o : Out) : (s.emit o).err = s.err := rfl
@[simp] theorem State.emit_comp (o : Out) : (s.emit o).comp = s.comp := rfl
@[simp] theorem State.emit_pwr (o : Out) : (s.emit o).pwr = s.pwr := rfl
@[simp] theorem State.emit_sec (o : Out) : (s.emit o).sec = s.sec := rfl
@[simp] theorem State.emit_start (o : Out) : (s.emit o).start = s.start := rfl
@[simp] theorem State.emit_out (o : Out) : (s.emit o).out = s.out ++ [o] := rfl
@[simp] theorem State.emit_free (o : Out) : (s.emit o).free = s.free := rfl

@[simp] theorem State.setErr_pending (e : Err) : (s.setErr e).pending = s.pending := rfl
@[simp] theorem State.setErr_part (e : Err) : (s.setErr e).part = s.part := rfl
@[simp] theorem State.setErr_time (e : Err) : (s.setErr e).time = s.time := rfl
@[simp] theorem State.setErr_hif (e : Err) : (s.setErr e).hif = s.hif := rfl
@[simp] theorem State.setErr_rings (e : Err) : (s.setErr e).rings = s.rings := rfl
@[simp] theorem State.setErr_accepted (e : Err) : (s.setErr e).accepted = s.accepted := rfl
@[simp] theorem State.setErr_waiting (e : Err) : (s.setErr e).waiting = s.waiting := rfl
@[simp] theorem State.setErr_longOps (e : Err) : (s.setErr e).longOps = s.longOps := rfl
@[simp] theorem State.setErr_nextHandle (e : Err) : (s.setErr e).nextHandle = s.nextHandle := rfl
@[simp] theorem State.setErr_model (e : Err) : (s.setErr e).model = s.model := rfl
@[simp] theorem State.setErr_eng (e : Err) : (s.setErr e).eng = s.eng := rfl
@[simp] theorem State.setErr_serve (e : Err) : (s.setErr e).serve = s.serve := rfl
@[simp] theorem State.setErr_steep (e : Err) : (s.setErr e).steep = s.steep := rfl
@[simp] theorem State.setErr_rte (e : Err) : (s.setErr e).rte = s.rte := rfl
@[simp] theorem State.setErr_mem (e : Err) : (s.setErr e).mem = s.mem := rfl
@[simp] theorem State.setErr_caddy (e : Err) : (s.setErr e).caddy = s.caddy := rfl
@[simp] theorem State.setErr_links (e : Err) : (s.setErr e).links = s.links := rfl
@[simp] theorem State.setErr_disc (e : Err) : (s.setErr e).disc = s.disc := rfl
@[simp] theorem State.setErr_dom (e : Err) : (s.setErr e).dom = s.dom := rfl
@[simp] theorem State.setErr_fab (e : Err) : (s.setErr e).fab = s.fab := rfl
@[simp] theorem State.setErr_err (e : Err) : (s.setErr e).err = e := rfl
@[simp] theorem State.setErr_comp (e : Err) : (s.setErr e).comp = s.comp := rfl
@[simp] theorem State.setErr_pwr (e : Err) : (s.setErr e).pwr = s.pwr := rfl
@[simp] theorem State.setErr_sec (e : Err) : (s.setErr e).sec = s.sec := rfl
@[simp] theorem State.setErr_start (e : Err) : (s.setErr e).start = s.start := rfl
@[simp] theorem State.setErr_out (e : Err) : (s.setErr e).out = s.out := rfl
@[simp] theorem State.setErr_free (e : Err) : (s.setErr e).free = s.free := rfl

@[simp] theorem State.setRing_pending (n : Nat) (r : RingPair) : (s.setRing n r).pending = s.pending := rfl
@[simp] theorem State.setRing_part (n : Nat) (r : RingPair) : (s.setRing n r).part = s.part := rfl
@[simp] theorem State.setRing_time (n : Nat) (r : RingPair) : (s.setRing n r).time = s.time := rfl
@[simp] theorem State.setRing_hif (n : Nat) (r : RingPair) : (s.setRing n r).hif = s.hif := rfl
@[simp] theorem State.setRing_rings (n : Nat) (r : RingPair) : (s.setRing n r).rings = s.rings.set n r := rfl
@[simp] theorem State.setRing_accepted (n : Nat) (r : RingPair) : (s.setRing n r).accepted = s.accepted := rfl
@[simp] theorem State.setRing_waiting (n : Nat) (r : RingPair) : (s.setRing n r).waiting = s.waiting := rfl
@[simp] theorem State.setRing_longOps (n : Nat) (r : RingPair) : (s.setRing n r).longOps = s.longOps := rfl
@[simp] theorem State.setRing_nextHandle (n : Nat) (r : RingPair) : (s.setRing n r).nextHandle = s.nextHandle := rfl
@[simp] theorem State.setRing_model (n : Nat) (r : RingPair) : (s.setRing n r).model = s.model := rfl
@[simp] theorem State.setRing_eng (n : Nat) (r : RingPair) : (s.setRing n r).eng = s.eng := rfl
@[simp] theorem State.setRing_serve (n : Nat) (r : RingPair) : (s.setRing n r).serve = s.serve := rfl
@[simp] theorem State.setRing_steep (n : Nat) (r : RingPair) : (s.setRing n r).steep = s.steep := rfl
@[simp] theorem State.setRing_rte (n : Nat) (r : RingPair) : (s.setRing n r).rte = s.rte := rfl
@[simp] theorem State.setRing_mem (n : Nat) (r : RingPair) : (s.setRing n r).mem = s.mem := rfl
@[simp] theorem State.setRing_caddy (n : Nat) (r : RingPair) : (s.setRing n r).caddy = s.caddy := rfl
@[simp] theorem State.setRing_links (n : Nat) (r : RingPair) : (s.setRing n r).links = s.links := rfl
@[simp] theorem State.setRing_disc (n : Nat) (r : RingPair) : (s.setRing n r).disc = s.disc := rfl
@[simp] theorem State.setRing_dom (n : Nat) (r : RingPair) : (s.setRing n r).dom = s.dom := rfl
@[simp] theorem State.setRing_fab (n : Nat) (r : RingPair) : (s.setRing n r).fab = s.fab := rfl
@[simp] theorem State.setRing_err (n : Nat) (r : RingPair) : (s.setRing n r).err = s.err := rfl
@[simp] theorem State.setRing_comp (n : Nat) (r : RingPair) : (s.setRing n r).comp = s.comp := rfl
@[simp] theorem State.setRing_pwr (n : Nat) (r : RingPair) : (s.setRing n r).pwr = s.pwr := rfl
@[simp] theorem State.setRing_sec (n : Nat) (r : RingPair) : (s.setRing n r).sec = s.sec := rfl
@[simp] theorem State.setRing_start (n : Nat) (r : RingPair) : (s.setRing n r).start = s.start := rfl
@[simp] theorem State.setRing_out (n : Nat) (r : RingPair) : (s.setRing n r).out = s.out := rfl
@[simp] theorem State.setRing_free (n : Nat) (r : RingPair) : (s.setRing n r).free = s.free := rfl

@[simp] theorem State.setSeq_pending (q : Nat) (r : SeqRec) : (s.setSeq q r).pending = s.pending := rfl
@[simp] theorem State.setSeq_part (q : Nat) (r : SeqRec) : (s.setSeq q r).part = s.part := rfl
@[simp] theorem State.setSeq_time (q : Nat) (r : SeqRec) : (s.setSeq q r).time = s.time := rfl
@[simp] theorem State.setSeq_hif (q : Nat) (r : SeqRec) : (s.setSeq q r).hif = s.hif := rfl
@[simp] theorem State.setSeq_rings (q : Nat) (r : SeqRec) : (s.setSeq q r).rings = s.rings := rfl
@[simp] theorem State.setSeq_accepted (q : Nat) (r : SeqRec) : (s.setSeq q r).accepted = s.accepted := rfl
@[simp] theorem State.setSeq_waiting (q : Nat) (r : SeqRec) : (s.setSeq q r).waiting = s.waiting := rfl
@[simp] theorem State.setSeq_longOps (q : Nat) (r : SeqRec) : (s.setSeq q r).longOps = s.longOps := rfl
@[simp] theorem State.setSeq_nextHandle (q : Nat) (r : SeqRec) : (s.setSeq q r).nextHandle = s.nextHandle := rfl
@[simp] theorem State.setSeq_model (q : Nat) (r : SeqRec) : (s.setSeq q r).model = s.model := rfl
@[simp] theorem State.setSeq_eng (q : Nat) (r : SeqRec) : (s.setSeq q r).eng = { s.eng with seqs := s.eng.seqs.set q r } := rfl
@[simp] theorem State.setSeq_serve (q : Nat) (r : SeqRec) : (s.setSeq q r).serve = s.serve := rfl
@[simp] theorem State.setSeq_steep (q : Nat) (r : SeqRec) : (s.setSeq q r).steep = s.steep := rfl
@[simp] theorem State.setSeq_rte (q : Nat) (r : SeqRec) : (s.setSeq q r).rte = s.rte := rfl
@[simp] theorem State.setSeq_mem (q : Nat) (r : SeqRec) : (s.setSeq q r).mem = s.mem := rfl
@[simp] theorem State.setSeq_caddy (q : Nat) (r : SeqRec) : (s.setSeq q r).caddy = s.caddy := rfl
@[simp] theorem State.setSeq_links (q : Nat) (r : SeqRec) : (s.setSeq q r).links = s.links := rfl
@[simp] theorem State.setSeq_disc (q : Nat) (r : SeqRec) : (s.setSeq q r).disc = s.disc := rfl
@[simp] theorem State.setSeq_dom (q : Nat) (r : SeqRec) : (s.setSeq q r).dom = s.dom := rfl
@[simp] theorem State.setSeq_fab (q : Nat) (r : SeqRec) : (s.setSeq q r).fab = s.fab := rfl
@[simp] theorem State.setSeq_err (q : Nat) (r : SeqRec) : (s.setSeq q r).err = s.err := rfl
@[simp] theorem State.setSeq_comp (q : Nat) (r : SeqRec) : (s.setSeq q r).comp = s.comp := rfl
@[simp] theorem State.setSeq_pwr (q : Nat) (r : SeqRec) : (s.setSeq q r).pwr = s.pwr := rfl
@[simp] theorem State.setSeq_sec (q : Nat) (r : SeqRec) : (s.setSeq q r).sec = s.sec := rfl
@[simp] theorem State.setSeq_start (q : Nat) (r : SeqRec) : (s.setSeq q r).start = s.start := rfl
@[simp] theorem State.setSeq_out (q : Nat) (r : SeqRec) : (s.setSeq q r).out = s.out := rfl
@[simp] theorem State.setSeq_free (q : Nat) (r : SeqRec) : (s.setSeq q r).free = s.free := rfl

@[simp] theorem State.setTenant_pending (t : Nat) (e : Tenant) : (s.setTenant t e).pending = s.pending := rfl
@[simp] theorem State.setTenant_part (t : Nat) (e : Tenant) : (s.setTenant t e).part = s.part := rfl
@[simp] theorem State.setTenant_time (t : Nat) (e : Tenant) : (s.setTenant t e).time = s.time := rfl
@[simp] theorem State.setTenant_hif (t : Nat) (e : Tenant) : (s.setTenant t e).hif = s.hif := rfl
@[simp] theorem State.setTenant_rings (t : Nat) (e : Tenant) : (s.setTenant t e).rings = s.rings := rfl
@[simp] theorem State.setTenant_accepted (t : Nat) (e : Tenant) : (s.setTenant t e).accepted = s.accepted := rfl
@[simp] theorem State.setTenant_waiting (t : Nat) (e : Tenant) : (s.setTenant t e).waiting = s.waiting := rfl
@[simp] theorem State.setTenant_longOps (t : Nat) (e : Tenant) : (s.setTenant t e).longOps = s.longOps := rfl
@[simp] theorem State.setTenant_nextHandle (t : Nat) (e : Tenant) : (s.setTenant t e).nextHandle = s.nextHandle := rfl
@[simp] theorem State.setTenant_model (t : Nat) (e : Tenant) : (s.setTenant t e).model = s.model := rfl
@[simp] theorem State.setTenant_eng (t : Nat) (e : Tenant) : (s.setTenant t e).eng = { s.eng with tenants := s.eng.tenants.set t e } := rfl
@[simp] theorem State.setTenant_serve (t : Nat) (e : Tenant) : (s.setTenant t e).serve = s.serve := rfl
@[simp] theorem State.setTenant_steep (t : Nat) (e : Tenant) : (s.setTenant t e).steep = s.steep := rfl
@[simp] theorem State.setTenant_rte (t : Nat) (e : Tenant) : (s.setTenant t e).rte = s.rte := rfl
@[simp] theorem State.setTenant_mem (t : Nat) (e : Tenant) : (s.setTenant t e).mem = s.mem := rfl
@[simp] theorem State.setTenant_caddy (t : Nat) (e : Tenant) : (s.setTenant t e).caddy = s.caddy := rfl
@[simp] theorem State.setTenant_links (t : Nat) (e : Tenant) : (s.setTenant t e).links = s.links := rfl
@[simp] theorem State.setTenant_disc (t : Nat) (e : Tenant) : (s.setTenant t e).disc = s.disc := rfl
@[simp] theorem State.setTenant_dom (t : Nat) (e : Tenant) : (s.setTenant t e).dom = s.dom := rfl
@[simp] theorem State.setTenant_fab (t : Nat) (e : Tenant) : (s.setTenant t e).fab = s.fab := rfl
@[simp] theorem State.setTenant_err (t : Nat) (e : Tenant) : (s.setTenant t e).err = s.err := rfl
@[simp] theorem State.setTenant_comp (t : Nat) (e : Tenant) : (s.setTenant t e).comp = s.comp := rfl
@[simp] theorem State.setTenant_pwr (t : Nat) (e : Tenant) : (s.setTenant t e).pwr = s.pwr := rfl
@[simp] theorem State.setTenant_sec (t : Nat) (e : Tenant) : (s.setTenant t e).sec = s.sec := rfl
@[simp] theorem State.setTenant_start (t : Nat) (e : Tenant) : (s.setTenant t e).start = s.start := rfl
@[simp] theorem State.setTenant_out (t : Nat) (e : Tenant) : (s.setTenant t e).out = s.out := rfl
@[simp] theorem State.setTenant_free (t : Nat) (e : Tenant) : (s.setTenant t e).free = s.free := rfl

@[simp] theorem State.setPwr_pending (p : Power) : (s.setPwr p).pending = s.pending := rfl
@[simp] theorem State.setPwr_part (p : Power) : (s.setPwr p).part = s.part := rfl
@[simp] theorem State.setPwr_time (p : Power) : (s.setPwr p).time = s.time := rfl
@[simp] theorem State.setPwr_hif (p : Power) : (s.setPwr p).hif = s.hif := rfl
@[simp] theorem State.setPwr_rings (p : Power) : (s.setPwr p).rings = s.rings := rfl
@[simp] theorem State.setPwr_accepted (p : Power) : (s.setPwr p).accepted = s.accepted := rfl
@[simp] theorem State.setPwr_waiting (p : Power) : (s.setPwr p).waiting = s.waiting := rfl
@[simp] theorem State.setPwr_longOps (p : Power) : (s.setPwr p).longOps = s.longOps := rfl
@[simp] theorem State.setPwr_nextHandle (p : Power) : (s.setPwr p).nextHandle = s.nextHandle := rfl
@[simp] theorem State.setPwr_model (p : Power) : (s.setPwr p).model = s.model := rfl
@[simp] theorem State.setPwr_eng (p : Power) : (s.setPwr p).eng = s.eng := rfl
@[simp] theorem State.setPwr_serve (p : Power) : (s.setPwr p).serve = s.serve := rfl
@[simp] theorem State.setPwr_steep (p : Power) : (s.setPwr p).steep = s.steep := rfl
@[simp] theorem State.setPwr_rte (p : Power) : (s.setPwr p).rte = s.rte := rfl
@[simp] theorem State.setPwr_mem (p : Power) : (s.setPwr p).mem = s.mem := rfl
@[simp] theorem State.setPwr_caddy (p : Power) : (s.setPwr p).caddy = s.caddy := rfl
@[simp] theorem State.setPwr_links (p : Power) : (s.setPwr p).links = s.links := rfl
@[simp] theorem State.setPwr_disc (p : Power) : (s.setPwr p).disc = s.disc := rfl
@[simp] theorem State.setPwr_dom (p : Power) : (s.setPwr p).dom = s.dom := rfl
@[simp] theorem State.setPwr_fab (p : Power) : (s.setPwr p).fab = s.fab := rfl
@[simp] theorem State.setPwr_err (p : Power) : (s.setPwr p).err = s.err := rfl
@[simp] theorem State.setPwr_comp (p : Power) : (s.setPwr p).comp = s.comp := rfl
@[simp] theorem State.setPwr_pwr (p : Power) : (s.setPwr p).pwr = p := rfl
@[simp] theorem State.setPwr_sec (p : Power) : (s.setPwr p).sec = s.sec := rfl
@[simp] theorem State.setPwr_start (p : Power) : (s.setPwr p).start = s.start := rfl
@[simp] theorem State.setPwr_out (p : Power) : (s.setPwr p).out = s.out := rfl
@[simp] theorem State.setPwr_free (p : Power) : (s.setPwr p).free = s.free := rfl

@[simp] theorem State.setSec_pending (k : Security) : (s.setSec k).pending = s.pending := rfl
@[simp] theorem State.setSec_part (k : Security) : (s.setSec k).part = s.part := rfl
@[simp] theorem State.setSec_time (k : Security) : (s.setSec k).time = s.time := rfl
@[simp] theorem State.setSec_hif (k : Security) : (s.setSec k).hif = s.hif := rfl
@[simp] theorem State.setSec_rings (k : Security) : (s.setSec k).rings = s.rings := rfl
@[simp] theorem State.setSec_accepted (k : Security) : (s.setSec k).accepted = s.accepted := rfl
@[simp] theorem State.setSec_waiting (k : Security) : (s.setSec k).waiting = s.waiting := rfl
@[simp] theorem State.setSec_longOps (k : Security) : (s.setSec k).longOps = s.longOps := rfl
@[simp] theorem State.setSec_nextHandle (k : Security) : (s.setSec k).nextHandle = s.nextHandle := rfl
@[simp] theorem State.setSec_model (k : Security) : (s.setSec k).model = s.model := rfl
@[simp] theorem State.setSec_eng (k : Security) : (s.setSec k).eng = s.eng := rfl
@[simp] theorem State.setSec_serve (k : Security) : (s.setSec k).serve = s.serve := rfl
@[simp] theorem State.setSec_steep (k : Security) : (s.setSec k).steep = s.steep := rfl
@[simp] theorem State.setSec_rte (k : Security) : (s.setSec k).rte = s.rte := rfl
@[simp] theorem State.setSec_mem (k : Security) : (s.setSec k).mem = s.mem := rfl
@[simp] theorem State.setSec_caddy (k : Security) : (s.setSec k).caddy = s.caddy := rfl
@[simp] theorem State.setSec_links (k : Security) : (s.setSec k).links = s.links := rfl
@[simp] theorem State.setSec_disc (k : Security) : (s.setSec k).disc = s.disc := rfl
@[simp] theorem State.setSec_dom (k : Security) : (s.setSec k).dom = s.dom := rfl
@[simp] theorem State.setSec_fab (k : Security) : (s.setSec k).fab = s.fab := rfl
@[simp] theorem State.setSec_err (k : Security) : (s.setSec k).err = s.err := rfl
@[simp] theorem State.setSec_comp (k : Security) : (s.setSec k).comp = s.comp := rfl
@[simp] theorem State.setSec_pwr (k : Security) : (s.setSec k).pwr = s.pwr := rfl
@[simp] theorem State.setSec_sec (k : Security) : (s.setSec k).sec = k := rfl
@[simp] theorem State.setSec_start (k : Security) : (s.setSec k).start = s.start := rfl
@[simp] theorem State.setSec_out (k : Security) : (s.setSec k).out = s.out := rfl
@[simp] theorem State.setSec_free (k : Security) : (s.setSec k).free = s.free := rfl

@[simp] theorem State.setStart_pending (t : Start) : (s.setStart t).pending = s.pending := rfl
@[simp] theorem State.setStart_part (t : Start) : (s.setStart t).part = s.part := rfl
@[simp] theorem State.setStart_time (t : Start) : (s.setStart t).time = s.time := rfl
@[simp] theorem State.setStart_hif (t : Start) : (s.setStart t).hif = s.hif := rfl
@[simp] theorem State.setStart_rings (t : Start) : (s.setStart t).rings = s.rings := rfl
@[simp] theorem State.setStart_accepted (t : Start) : (s.setStart t).accepted = s.accepted := rfl
@[simp] theorem State.setStart_waiting (t : Start) : (s.setStart t).waiting = s.waiting := rfl
@[simp] theorem State.setStart_longOps (t : Start) : (s.setStart t).longOps = s.longOps := rfl
@[simp] theorem State.setStart_nextHandle (t : Start) : (s.setStart t).nextHandle = s.nextHandle := rfl
@[simp] theorem State.setStart_model (t : Start) : (s.setStart t).model = s.model := rfl
@[simp] theorem State.setStart_eng (t : Start) : (s.setStart t).eng = s.eng := rfl
@[simp] theorem State.setStart_serve (t : Start) : (s.setStart t).serve = s.serve := rfl
@[simp] theorem State.setStart_steep (t : Start) : (s.setStart t).steep = s.steep := rfl
@[simp] theorem State.setStart_rte (t : Start) : (s.setStart t).rte = s.rte := rfl
@[simp] theorem State.setStart_mem (t : Start) : (s.setStart t).mem = s.mem := rfl
@[simp] theorem State.setStart_caddy (t : Start) : (s.setStart t).caddy = s.caddy := rfl
@[simp] theorem State.setStart_links (t : Start) : (s.setStart t).links = s.links := rfl
@[simp] theorem State.setStart_disc (t : Start) : (s.setStart t).disc = s.disc := rfl
@[simp] theorem State.setStart_dom (t : Start) : (s.setStart t).dom = s.dom := rfl
@[simp] theorem State.setStart_fab (t : Start) : (s.setStart t).fab = s.fab := rfl
@[simp] theorem State.setStart_err (t : Start) : (s.setStart t).err = s.err := rfl
@[simp] theorem State.setStart_comp (t : Start) : (s.setStart t).comp = s.comp := rfl
@[simp] theorem State.setStart_pwr (t : Start) : (s.setStart t).pwr = s.pwr := rfl
@[simp] theorem State.setStart_sec (t : Start) : (s.setStart t).sec = s.sec := rfl
@[simp] theorem State.setStart_start (t : Start) : (s.setStart t).start = t := rfl
@[simp] theorem State.setStart_out (t : Start) : (s.setStart t).out = s.out := rfl
@[simp] theorem State.setStart_free (t : Start) : (s.setStart t).free = s.free := rfl

@[simp] theorem State.setDom_pending (d : Domain) : (s.setDom d).pending = s.pending := rfl
@[simp] theorem State.setDom_part (d : Domain) : (s.setDom d).part = s.part := rfl
@[simp] theorem State.setDom_time (d : Domain) : (s.setDom d).time = s.time := rfl
@[simp] theorem State.setDom_hif (d : Domain) : (s.setDom d).hif = s.hif := rfl
@[simp] theorem State.setDom_rings (d : Domain) : (s.setDom d).rings = s.rings := rfl
@[simp] theorem State.setDom_accepted (d : Domain) : (s.setDom d).accepted = s.accepted := rfl
@[simp] theorem State.setDom_waiting (d : Domain) : (s.setDom d).waiting = s.waiting := rfl
@[simp] theorem State.setDom_longOps (d : Domain) : (s.setDom d).longOps = s.longOps := rfl
@[simp] theorem State.setDom_nextHandle (d : Domain) : (s.setDom d).nextHandle = s.nextHandle := rfl
@[simp] theorem State.setDom_model (d : Domain) : (s.setDom d).model = s.model := rfl
@[simp] theorem State.setDom_eng (d : Domain) : (s.setDom d).eng = s.eng := rfl
@[simp] theorem State.setDom_serve (d : Domain) : (s.setDom d).serve = s.serve := rfl
@[simp] theorem State.setDom_steep (d : Domain) : (s.setDom d).steep = s.steep := rfl
@[simp] theorem State.setDom_rte (d : Domain) : (s.setDom d).rte = s.rte := rfl
@[simp] theorem State.setDom_mem (d : Domain) : (s.setDom d).mem = s.mem := rfl
@[simp] theorem State.setDom_caddy (d : Domain) : (s.setDom d).caddy = s.caddy := rfl
@[simp] theorem State.setDom_links (d : Domain) : (s.setDom d).links = s.links := rfl
@[simp] theorem State.setDom_disc (d : Domain) : (s.setDom d).disc = s.disc := rfl
@[simp] theorem State.setDom_dom (d : Domain) : (s.setDom d).dom = d := rfl
@[simp] theorem State.setDom_fab (d : Domain) : (s.setDom d).fab = s.fab := rfl
@[simp] theorem State.setDom_err (d : Domain) : (s.setDom d).err = s.err := rfl
@[simp] theorem State.setDom_comp (d : Domain) : (s.setDom d).comp = s.comp := rfl
@[simp] theorem State.setDom_pwr (d : Domain) : (s.setDom d).pwr = s.pwr := rfl
@[simp] theorem State.setDom_sec (d : Domain) : (s.setDom d).sec = s.sec := rfl
@[simp] theorem State.setDom_start (d : Domain) : (s.setDom d).start = s.start := rfl
@[simp] theorem State.setDom_out (d : Domain) : (s.setDom d).out = s.out := rfl
@[simp] theorem State.setDom_free (d : Domain) : (s.setDom d).free = s.free := rfl

@[simp] theorem State.setDisc_pending (d : Disc) : (s.setDisc d).pending = s.pending := rfl
@[simp] theorem State.setDisc_part (d : Disc) : (s.setDisc d).part = s.part := rfl
@[simp] theorem State.setDisc_time (d : Disc) : (s.setDisc d).time = s.time := rfl
@[simp] theorem State.setDisc_hif (d : Disc) : (s.setDisc d).hif = s.hif := rfl
@[simp] theorem State.setDisc_rings (d : Disc) : (s.setDisc d).rings = s.rings := rfl
@[simp] theorem State.setDisc_accepted (d : Disc) : (s.setDisc d).accepted = s.accepted := rfl
@[simp] theorem State.setDisc_waiting (d : Disc) : (s.setDisc d).waiting = s.waiting := rfl
@[simp] theorem State.setDisc_longOps (d : Disc) : (s.setDisc d).longOps = s.longOps := rfl
@[simp] theorem State.setDisc_nextHandle (d : Disc) : (s.setDisc d).nextHandle = s.nextHandle := rfl
@[simp] theorem State.setDisc_model (d : Disc) : (s.setDisc d).model = s.model := rfl
@[simp] theorem State.setDisc_eng (d : Disc) : (s.setDisc d).eng = s.eng := rfl
@[simp] theorem State.setDisc_serve (d : Disc) : (s.setDisc d).serve = s.serve := rfl
@[simp] theorem State.setDisc_steep (d : Disc) : (s.setDisc d).steep = s.steep := rfl
@[simp] theorem State.setDisc_rte (d : Disc) : (s.setDisc d).rte = s.rte := rfl
@[simp] theorem State.setDisc_mem (d : Disc) : (s.setDisc d).mem = s.mem := rfl
@[simp] theorem State.setDisc_caddy (d : Disc) : (s.setDisc d).caddy = s.caddy := rfl
@[simp] theorem State.setDisc_links (d : Disc) : (s.setDisc d).links = s.links := rfl
@[simp] theorem State.setDisc_disc (d : Disc) : (s.setDisc d).disc = d := rfl
@[simp] theorem State.setDisc_dom (d : Disc) : (s.setDisc d).dom = s.dom := rfl
@[simp] theorem State.setDisc_fab (d : Disc) : (s.setDisc d).fab = s.fab := rfl
@[simp] theorem State.setDisc_err (d : Disc) : (s.setDisc d).err = s.err := rfl
@[simp] theorem State.setDisc_comp (d : Disc) : (s.setDisc d).comp = s.comp := rfl
@[simp] theorem State.setDisc_pwr (d : Disc) : (s.setDisc d).pwr = s.pwr := rfl
@[simp] theorem State.setDisc_sec (d : Disc) : (s.setDisc d).sec = s.sec := rfl
@[simp] theorem State.setDisc_start (d : Disc) : (s.setDisc d).start = s.start := rfl
@[simp] theorem State.setDisc_out (d : Disc) : (s.setDisc d).out = s.out := rfl
@[simp] theorem State.setDisc_free (d : Disc) : (s.setDisc d).free = s.free := rfl

@[simp] theorem State.setCaddy_pending (c : Caddy) : (s.setCaddy c).pending = s.pending := rfl
@[simp] theorem State.setCaddy_part (c : Caddy) : (s.setCaddy c).part = s.part := rfl
@[simp] theorem State.setCaddy_time (c : Caddy) : (s.setCaddy c).time = s.time := rfl
@[simp] theorem State.setCaddy_hif (c : Caddy) : (s.setCaddy c).hif = s.hif := rfl
@[simp] theorem State.setCaddy_rings (c : Caddy) : (s.setCaddy c).rings = s.rings := rfl
@[simp] theorem State.setCaddy_accepted (c : Caddy) : (s.setCaddy c).accepted = s.accepted := rfl
@[simp] theorem State.setCaddy_waiting (c : Caddy) : (s.setCaddy c).waiting = s.waiting := rfl
@[simp] theorem State.setCaddy_longOps (c : Caddy) : (s.setCaddy c).longOps = s.longOps := rfl
@[simp] theorem State.setCaddy_nextHandle (c : Caddy) : (s.setCaddy c).nextHandle = s.nextHandle := rfl
@[simp] theorem State.setCaddy_model (c : Caddy) : (s.setCaddy c).model = s.model := rfl
@[simp] theorem State.setCaddy_eng (c : Caddy) : (s.setCaddy c).eng = s.eng := rfl
@[simp] theorem State.setCaddy_serve (c : Caddy) : (s.setCaddy c).serve = s.serve := rfl
@[simp] theorem State.setCaddy_steep (c : Caddy) : (s.setCaddy c).steep = s.steep := rfl
@[simp] theorem State.setCaddy_rte (c : Caddy) : (s.setCaddy c).rte = s.rte := rfl
@[simp] theorem State.setCaddy_mem (c : Caddy) : (s.setCaddy c).mem = s.mem := rfl
@[simp] theorem State.setCaddy_caddy (c : Caddy) : (s.setCaddy c).caddy = c := rfl
@[simp] theorem State.setCaddy_links (c : Caddy) : (s.setCaddy c).links = s.links := rfl
@[simp] theorem State.setCaddy_disc (c : Caddy) : (s.setCaddy c).disc = s.disc := rfl
@[simp] theorem State.setCaddy_dom (c : Caddy) : (s.setCaddy c).dom = s.dom := rfl
@[simp] theorem State.setCaddy_fab (c : Caddy) : (s.setCaddy c).fab = s.fab := rfl
@[simp] theorem State.setCaddy_err (c : Caddy) : (s.setCaddy c).err = s.err := rfl
@[simp] theorem State.setCaddy_comp (c : Caddy) : (s.setCaddy c).comp = s.comp := rfl
@[simp] theorem State.setCaddy_pwr (c : Caddy) : (s.setCaddy c).pwr = s.pwr := rfl
@[simp] theorem State.setCaddy_sec (c : Caddy) : (s.setCaddy c).sec = s.sec := rfl
@[simp] theorem State.setCaddy_start (c : Caddy) : (s.setCaddy c).start = s.start := rfl
@[simp] theorem State.setCaddy_out (c : Caddy) : (s.setCaddy c).out = s.out := rfl
@[simp] theorem State.setCaddy_free (c : Caddy) : (s.setCaddy c).free = s.free := rfl

@[simp] theorem State.setBuild_pending (b : Option Build) : (s.setBuild b).pending = s.pending := rfl
@[simp] theorem State.setBuild_part (b : Option Build) : (s.setBuild b).part = s.part := rfl
@[simp] theorem State.setBuild_time (b : Option Build) : (s.setBuild b).time = s.time := rfl
@[simp] theorem State.setBuild_hif (b : Option Build) : (s.setBuild b).hif = s.hif := rfl
@[simp] theorem State.setBuild_rings (b : Option Build) : (s.setBuild b).rings = s.rings := rfl
@[simp] theorem State.setBuild_accepted (b : Option Build) : (s.setBuild b).accepted = s.accepted := rfl
@[simp] theorem State.setBuild_waiting (b : Option Build) : (s.setBuild b).waiting = s.waiting := rfl
@[simp] theorem State.setBuild_longOps (b : Option Build) : (s.setBuild b).longOps = s.longOps := rfl
@[simp] theorem State.setBuild_nextHandle (b : Option Build) : (s.setBuild b).nextHandle = s.nextHandle := rfl
@[simp] theorem State.setBuild_model (b : Option Build) : (s.setBuild b).model = s.model := rfl
@[simp] theorem State.setBuild_eng (b : Option Build) : (s.setBuild b).eng = s.eng := rfl
@[simp] theorem State.setBuild_serve (b : Option Build) : (s.setBuild b).serve = s.serve := rfl
@[simp] theorem State.setBuild_steep (b : Option Build) : (s.setBuild b).steep = s.steep := rfl
@[simp] theorem State.setBuild_rte (b : Option Build) : (s.setBuild b).rte = s.rte := rfl
@[simp] theorem State.setBuild_mem (b : Option Build) : (s.setBuild b).mem = s.mem := rfl
@[simp] theorem State.setBuild_caddy (b : Option Build) : (s.setBuild b).caddy = { s.caddy with build := b } := rfl
@[simp] theorem State.setBuild_links (b : Option Build) : (s.setBuild b).links = s.links := rfl
@[simp] theorem State.setBuild_disc (b : Option Build) : (s.setBuild b).disc = s.disc := rfl
@[simp] theorem State.setBuild_dom (b : Option Build) : (s.setBuild b).dom = s.dom := rfl
@[simp] theorem State.setBuild_fab (b : Option Build) : (s.setBuild b).fab = s.fab := rfl
@[simp] theorem State.setBuild_err (b : Option Build) : (s.setBuild b).err = s.err := rfl
@[simp] theorem State.setBuild_comp (b : Option Build) : (s.setBuild b).comp = s.comp := rfl
@[simp] theorem State.setBuild_pwr (b : Option Build) : (s.setBuild b).pwr = s.pwr := rfl
@[simp] theorem State.setBuild_sec (b : Option Build) : (s.setBuild b).sec = s.sec := rfl
@[simp] theorem State.setBuild_start (b : Option Build) : (s.setBuild b).start = s.start := rfl
@[simp] theorem State.setBuild_out (b : Option Build) : (s.setBuild b).out = s.out := rfl
@[simp] theorem State.setBuild_free (b : Option Build) : (s.setBuild b).free = s.free := rfl

@[simp] theorem State.setFab_pending (f : Fabric) : (s.setFab f).pending = s.pending := rfl
@[simp] theorem State.setFab_part (f : Fabric) : (s.setFab f).part = s.part := rfl
@[simp] theorem State.setFab_time (f : Fabric) : (s.setFab f).time = s.time := rfl
@[simp] theorem State.setFab_hif (f : Fabric) : (s.setFab f).hif = s.hif := rfl
@[simp] theorem State.setFab_rings (f : Fabric) : (s.setFab f).rings = s.rings := rfl
@[simp] theorem State.setFab_accepted (f : Fabric) : (s.setFab f).accepted = s.accepted := rfl
@[simp] theorem State.setFab_waiting (f : Fabric) : (s.setFab f).waiting = s.waiting := rfl
@[simp] theorem State.setFab_longOps (f : Fabric) : (s.setFab f).longOps = s.longOps := rfl
@[simp] theorem State.setFab_nextHandle (f : Fabric) : (s.setFab f).nextHandle = s.nextHandle := rfl
@[simp] theorem State.setFab_model (f : Fabric) : (s.setFab f).model = s.model := rfl
@[simp] theorem State.setFab_eng (f : Fabric) : (s.setFab f).eng = s.eng := rfl
@[simp] theorem State.setFab_serve (f : Fabric) : (s.setFab f).serve = s.serve := rfl
@[simp] theorem State.setFab_steep (f : Fabric) : (s.setFab f).steep = s.steep := rfl
@[simp] theorem State.setFab_rte (f : Fabric) : (s.setFab f).rte = s.rte := rfl
@[simp] theorem State.setFab_mem (f : Fabric) : (s.setFab f).mem = s.mem := rfl
@[simp] theorem State.setFab_caddy (f : Fabric) : (s.setFab f).caddy = s.caddy := rfl
@[simp] theorem State.setFab_links (f : Fabric) : (s.setFab f).links = s.links := rfl
@[simp] theorem State.setFab_disc (f : Fabric) : (s.setFab f).disc = s.disc := rfl
@[simp] theorem State.setFab_dom (f : Fabric) : (s.setFab f).dom = s.dom := rfl
@[simp] theorem State.setFab_fab (f : Fabric) : (s.setFab f).fab = f := rfl
@[simp] theorem State.setFab_err (f : Fabric) : (s.setFab f).err = s.err := rfl
@[simp] theorem State.setFab_comp (f : Fabric) : (s.setFab f).comp = s.comp := rfl
@[simp] theorem State.setFab_pwr (f : Fabric) : (s.setFab f).pwr = s.pwr := rfl
@[simp] theorem State.setFab_sec (f : Fabric) : (s.setFab f).sec = s.sec := rfl
@[simp] theorem State.setFab_start (f : Fabric) : (s.setFab f).start = s.start := rfl
@[simp] theorem State.setFab_out (f : Fabric) : (s.setFab f).out = s.out := rfl
@[simp] theorem State.setFab_free (f : Fabric) : (s.setFab f).free = s.free := rfl

@[simp] theorem State.setLink_pending (l : Nat) (k : Link) : (s.setLink l k).pending = s.pending := rfl
@[simp] theorem State.setLink_part (l : Nat) (k : Link) : (s.setLink l k).part = s.part := rfl
@[simp] theorem State.setLink_time (l : Nat) (k : Link) : (s.setLink l k).time = s.time := rfl
@[simp] theorem State.setLink_hif (l : Nat) (k : Link) : (s.setLink l k).hif = s.hif := rfl
@[simp] theorem State.setLink_rings (l : Nat) (k : Link) : (s.setLink l k).rings = s.rings := rfl
@[simp] theorem State.setLink_accepted (l : Nat) (k : Link) : (s.setLink l k).accepted = s.accepted := rfl
@[simp] theorem State.setLink_waiting (l : Nat) (k : Link) : (s.setLink l k).waiting = s.waiting := rfl
@[simp] theorem State.setLink_longOps (l : Nat) (k : Link) : (s.setLink l k).longOps = s.longOps := rfl
@[simp] theorem State.setLink_nextHandle (l : Nat) (k : Link) : (s.setLink l k).nextHandle = s.nextHandle := rfl
@[simp] theorem State.setLink_model (l : Nat) (k : Link) : (s.setLink l k).model = s.model := rfl
@[simp] theorem State.setLink_eng (l : Nat) (k : Link) : (s.setLink l k).eng = s.eng := rfl
@[simp] theorem State.setLink_serve (l : Nat) (k : Link) : (s.setLink l k).serve = s.serve := rfl
@[simp] theorem State.setLink_steep (l : Nat) (k : Link) : (s.setLink l k).steep = s.steep := rfl
@[simp] theorem State.setLink_rte (l : Nat) (k : Link) : (s.setLink l k).rte = s.rte := rfl
@[simp] theorem State.setLink_mem (l : Nat) (k : Link) : (s.setLink l k).mem = s.mem := rfl
@[simp] theorem State.setLink_caddy (l : Nat) (k : Link) : (s.setLink l k).caddy = s.caddy := rfl
@[simp] theorem State.setLink_links (l : Nat) (k : Link) : (s.setLink l k).links = s.links.set l k := rfl
@[simp] theorem State.setLink_disc (l : Nat) (k : Link) : (s.setLink l k).disc = s.disc := rfl
@[simp] theorem State.setLink_dom (l : Nat) (k : Link) : (s.setLink l k).dom = s.dom := rfl
@[simp] theorem State.setLink_fab (l : Nat) (k : Link) : (s.setLink l k).fab = s.fab := rfl
@[simp] theorem State.setLink_err (l : Nat) (k : Link) : (s.setLink l k).err = s.err := rfl
@[simp] theorem State.setLink_comp (l : Nat) (k : Link) : (s.setLink l k).comp = s.comp := rfl
@[simp] theorem State.setLink_pwr (l : Nat) (k : Link) : (s.setLink l k).pwr = s.pwr := rfl
@[simp] theorem State.setLink_sec (l : Nat) (k : Link) : (s.setLink l k).sec = s.sec := rfl
@[simp] theorem State.setLink_start (l : Nat) (k : Link) : (s.setLink l k).start = s.start := rfl
@[simp] theorem State.setLink_out (l : Nat) (k : Link) : (s.setLink l k).out = s.out := rfl
@[simp] theorem State.setLink_free (l : Nat) (k : Link) : (s.setLink l k).free = s.free := rfl

@[simp] theorem State.setTile_pending (die pos : Nat) (t : Tile) : (s.setTile die pos t).pending = s.pending := rfl
@[simp] theorem State.setTile_part (die pos : Nat) (t : Tile) : (s.setTile die pos t).part = s.part := rfl
@[simp] theorem State.setTile_time (die pos : Nat) (t : Tile) : (s.setTile die pos t).time = s.time := rfl
@[simp] theorem State.setTile_hif (die pos : Nat) (t : Tile) : (s.setTile die pos t).hif = s.hif := rfl
@[simp] theorem State.setTile_rings (die pos : Nat) (t : Tile) : (s.setTile die pos t).rings = s.rings := rfl
@[simp] theorem State.setTile_accepted (die pos : Nat) (t : Tile) : (s.setTile die pos t).accepted = s.accepted := rfl
@[simp] theorem State.setTile_waiting (die pos : Nat) (t : Tile) : (s.setTile die pos t).waiting = s.waiting := rfl
@[simp] theorem State.setTile_longOps (die pos : Nat) (t : Tile) : (s.setTile die pos t).longOps = s.longOps := rfl
@[simp] theorem State.setTile_nextHandle (die pos : Nat) (t : Tile) : (s.setTile die pos t).nextHandle = s.nextHandle := rfl
@[simp] theorem State.setTile_model (die pos : Nat) (t : Tile) : (s.setTile die pos t).model = s.model := rfl
@[simp] theorem State.setTile_eng (die pos : Nat) (t : Tile) : (s.setTile die pos t).eng = s.eng := rfl
@[simp] theorem State.setTile_serve (die pos : Nat) (t : Tile) : (s.setTile die pos t).serve = s.serve := rfl
@[simp] theorem State.setTile_steep (die pos : Nat) (t : Tile) : (s.setTile die pos t).steep = s.steep := rfl
@[simp] theorem State.setTile_rte (die pos : Nat) (t : Tile) : (s.setTile die pos t).rte = s.rte := rfl
@[simp] theorem State.setTile_mem (die pos : Nat) (t : Tile) : (s.setTile die pos t).mem = s.mem := rfl
@[simp] theorem State.setTile_caddy (die pos : Nat) (t : Tile) : (s.setTile die pos t).caddy = s.caddy := rfl
@[simp] theorem State.setTile_links (die pos : Nat) (t : Tile) : (s.setTile die pos t).links = s.links := rfl
@[simp] theorem State.setTile_disc (die pos : Nat) (t : Tile) : (s.setTile die pos t).disc = s.disc := rfl
@[simp] theorem State.setTile_dom (die pos : Nat) (t : Tile) : (s.setTile die pos t).dom = s.dom := rfl
@[simp] theorem State.setTile_fab (die pos : Nat) (t : Tile) : (s.setTile die pos t).fab = s.fab := rfl
@[simp] theorem State.setTile_err (die pos : Nat) (t : Tile) : (s.setTile die pos t).err = s.err := rfl
@[simp] theorem State.setTile_comp (die pos : Nat) (t : Tile) : (s.setTile die pos t).comp = { s.comp with tiles := s.comp.tiles.set (tileKey die pos) t } := rfl
@[simp] theorem State.setTile_pwr (die pos : Nat) (t : Tile) : (s.setTile die pos t).pwr = s.pwr := rfl
@[simp] theorem State.setTile_sec (die pos : Nat) (t : Tile) : (s.setTile die pos t).sec = s.sec := rfl
@[simp] theorem State.setTile_start (die pos : Nat) (t : Tile) : (s.setTile die pos t).start = s.start := rfl
@[simp] theorem State.setTile_out (die pos : Nat) (t : Tile) : (s.setTile die pos t).out = s.out := rfl
@[simp] theorem State.setTile_free (die pos : Nat) (t : Tile) : (s.setTile die pos t).free = s.free := rfl

@[simp] theorem State.setRte_pending (r : Route) : (s.setRte r).pending = s.pending := rfl
@[simp] theorem State.setRte_part (r : Route) : (s.setRte r).part = s.part := rfl
@[simp] theorem State.setRte_time (r : Route) : (s.setRte r).time = s.time := rfl
@[simp] theorem State.setRte_hif (r : Route) : (s.setRte r).hif = s.hif := rfl
@[simp] theorem State.setRte_rings (r : Route) : (s.setRte r).rings = s.rings := rfl
@[simp] theorem State.setRte_accepted (r : Route) : (s.setRte r).accepted = s.accepted := rfl
@[simp] theorem State.setRte_waiting (r : Route) : (s.setRte r).waiting = s.waiting := rfl
@[simp] theorem State.setRte_longOps (r : Route) : (s.setRte r).longOps = s.longOps := rfl
@[simp] theorem State.setRte_nextHandle (r : Route) : (s.setRte r).nextHandle = s.nextHandle := rfl
@[simp] theorem State.setRte_model (r : Route) : (s.setRte r).model = s.model := rfl
@[simp] theorem State.setRte_eng (r : Route) : (s.setRte r).eng = s.eng := rfl
@[simp] theorem State.setRte_serve (r : Route) : (s.setRte r).serve = s.serve := rfl
@[simp] theorem State.setRte_steep (r : Route) : (s.setRte r).steep = s.steep := rfl
@[simp] theorem State.setRte_rte (r : Route) : (s.setRte r).rte = r := rfl
@[simp] theorem State.setRte_mem (r : Route) : (s.setRte r).mem = s.mem := rfl
@[simp] theorem State.setRte_caddy (r : Route) : (s.setRte r).caddy = s.caddy := rfl
@[simp] theorem State.setRte_links (r : Route) : (s.setRte r).links = s.links := rfl
@[simp] theorem State.setRte_disc (r : Route) : (s.setRte r).disc = s.disc := rfl
@[simp] theorem State.setRte_dom (r : Route) : (s.setRte r).dom = s.dom := rfl
@[simp] theorem State.setRte_fab (r : Route) : (s.setRte r).fab = s.fab := rfl
@[simp] theorem State.setRte_err (r : Route) : (s.setRte r).err = s.err := rfl
@[simp] theorem State.setRte_comp (r : Route) : (s.setRte r).comp = s.comp := rfl
@[simp] theorem State.setRte_pwr (r : Route) : (s.setRte r).pwr = s.pwr := rfl
@[simp] theorem State.setRte_sec (r : Route) : (s.setRte r).sec = s.sec := rfl
@[simp] theorem State.setRte_start (r : Route) : (s.setRte r).start = s.start := rfl
@[simp] theorem State.setRte_out (r : Route) : (s.setRte r).out = s.out := rfl
@[simp] theorem State.setRte_free (r : Route) : (s.setRte r).free = s.free := rfl

@[simp] theorem State.setSteep_pending (t : Steep) : (s.setSteep t).pending = s.pending := rfl
@[simp] theorem State.setSteep_part (t : Steep) : (s.setSteep t).part = s.part := rfl
@[simp] theorem State.setSteep_time (t : Steep) : (s.setSteep t).time = s.time := rfl
@[simp] theorem State.setSteep_hif (t : Steep) : (s.setSteep t).hif = s.hif := rfl
@[simp] theorem State.setSteep_rings (t : Steep) : (s.setSteep t).rings = s.rings := rfl
@[simp] theorem State.setSteep_accepted (t : Steep) : (s.setSteep t).accepted = s.accepted := rfl
@[simp] theorem State.setSteep_waiting (t : Steep) : (s.setSteep t).waiting = s.waiting := rfl
@[simp] theorem State.setSteep_longOps (t : Steep) : (s.setSteep t).longOps = s.longOps := rfl
@[simp] theorem State.setSteep_nextHandle (t : Steep) : (s.setSteep t).nextHandle = s.nextHandle := rfl
@[simp] theorem State.setSteep_model (t : Steep) : (s.setSteep t).model = s.model := rfl
@[simp] theorem State.setSteep_eng (t : Steep) : (s.setSteep t).eng = s.eng := rfl
@[simp] theorem State.setSteep_serve (t : Steep) : (s.setSteep t).serve = s.serve := rfl
@[simp] theorem State.setSteep_steep (t : Steep) : (s.setSteep t).steep = t := rfl
@[simp] theorem State.setSteep_rte (t : Steep) : (s.setSteep t).rte = s.rte := rfl
@[simp] theorem State.setSteep_mem (t : Steep) : (s.setSteep t).mem = s.mem := rfl
@[simp] theorem State.setSteep_caddy (t : Steep) : (s.setSteep t).caddy = s.caddy := rfl
@[simp] theorem State.setSteep_links (t : Steep) : (s.setSteep t).links = s.links := rfl
@[simp] theorem State.setSteep_disc (t : Steep) : (s.setSteep t).disc = s.disc := rfl
@[simp] theorem State.setSteep_dom (t : Steep) : (s.setSteep t).dom = s.dom := rfl
@[simp] theorem State.setSteep_fab (t : Steep) : (s.setSteep t).fab = s.fab := rfl
@[simp] theorem State.setSteep_err (t : Steep) : (s.setSteep t).err = s.err := rfl
@[simp] theorem State.setSteep_comp (t : Steep) : (s.setSteep t).comp = s.comp := rfl
@[simp] theorem State.setSteep_pwr (t : Steep) : (s.setSteep t).pwr = s.pwr := rfl
@[simp] theorem State.setSteep_sec (t : Steep) : (s.setSteep t).sec = s.sec := rfl
@[simp] theorem State.setSteep_start (t : Steep) : (s.setSteep t).start = s.start := rfl
@[simp] theorem State.setSteep_out (t : Steep) : (s.setSteep t).out = s.out := rfl
@[simp] theorem State.setSteep_free (t : Steep) : (s.setSteep t).free = s.free := rfl

@[simp] theorem State.setOp_pending (h : Nat) (o : LongOp) : (s.setOp h o).pending = s.pending := rfl
@[simp] theorem State.setOp_part (h : Nat) (o : LongOp) : (s.setOp h o).part = s.part := rfl
@[simp] theorem State.setOp_time (h : Nat) (o : LongOp) : (s.setOp h o).time = s.time := rfl
@[simp] theorem State.setOp_hif (h : Nat) (o : LongOp) : (s.setOp h o).hif = s.hif := rfl
@[simp] theorem State.setOp_rings (h : Nat) (o : LongOp) : (s.setOp h o).rings = s.rings := rfl
@[simp] theorem State.setOp_accepted (h : Nat) (o : LongOp) : (s.setOp h o).accepted = s.accepted := rfl
@[simp] theorem State.setOp_waiting (h : Nat) (o : LongOp) : (s.setOp h o).waiting = s.waiting := rfl
@[simp] theorem State.setOp_longOps (h : Nat) (o : LongOp) : (s.setOp h o).longOps = s.longOps.set h o := rfl
@[simp] theorem State.setOp_nextHandle (h : Nat) (o : LongOp) : (s.setOp h o).nextHandle = s.nextHandle := rfl
@[simp] theorem State.setOp_model (h : Nat) (o : LongOp) : (s.setOp h o).model = s.model := rfl
@[simp] theorem State.setOp_eng (h : Nat) (o : LongOp) : (s.setOp h o).eng = s.eng := rfl
@[simp] theorem State.setOp_serve (h : Nat) (o : LongOp) : (s.setOp h o).serve = s.serve := rfl
@[simp] theorem State.setOp_steep (h : Nat) (o : LongOp) : (s.setOp h o).steep = s.steep := rfl
@[simp] theorem State.setOp_rte (h : Nat) (o : LongOp) : (s.setOp h o).rte = s.rte := rfl
@[simp] theorem State.setOp_mem (h : Nat) (o : LongOp) : (s.setOp h o).mem = s.mem := rfl
@[simp] theorem State.setOp_caddy (h : Nat) (o : LongOp) : (s.setOp h o).caddy = s.caddy := rfl
@[simp] theorem State.setOp_links (h : Nat) (o : LongOp) : (s.setOp h o).links = s.links := rfl
@[simp] theorem State.setOp_disc (h : Nat) (o : LongOp) : (s.setOp h o).disc = s.disc := rfl
@[simp] theorem State.setOp_dom (h : Nat) (o : LongOp) : (s.setOp h o).dom = s.dom := rfl
@[simp] theorem State.setOp_fab (h : Nat) (o : LongOp) : (s.setOp h o).fab = s.fab := rfl
@[simp] theorem State.setOp_err (h : Nat) (o : LongOp) : (s.setOp h o).err = s.err := rfl
@[simp] theorem State.setOp_comp (h : Nat) (o : LongOp) : (s.setOp h o).comp = s.comp := rfl
@[simp] theorem State.setOp_pwr (h : Nat) (o : LongOp) : (s.setOp h o).pwr = s.pwr := rfl
@[simp] theorem State.setOp_sec (h : Nat) (o : LongOp) : (s.setOp h o).sec = s.sec := rfl
@[simp] theorem State.setOp_start (h : Nat) (o : LongOp) : (s.setOp h o).start = s.start := rfl
@[simp] theorem State.setOp_out (h : Nat) (o : LongOp) : (s.setOp h o).out = s.out := rfl
@[simp] theorem State.setOp_free (h : Nat) (o : LongOp) : (s.setOp h o).free = s.free := rfl

@[simp] theorem State.setHbm_pending (m : Memory) : (s.setHbm m).pending = s.pending := rfl
@[simp] theorem State.setHbm_part (m : Memory) : (s.setHbm m).part = s.part := rfl
@[simp] theorem State.setHbm_time (m : Memory) : (s.setHbm m).time = s.time := rfl
@[simp] theorem State.setHbm_hif (m : Memory) : (s.setHbm m).hif = s.hif := rfl
@[simp] theorem State.setHbm_rings (m : Memory) : (s.setHbm m).rings = s.rings := rfl
@[simp] theorem State.setHbm_accepted (m : Memory) : (s.setHbm m).accepted = s.accepted := rfl
@[simp] theorem State.setHbm_waiting (m : Memory) : (s.setHbm m).waiting = s.waiting := rfl
@[simp] theorem State.setHbm_longOps (m : Memory) : (s.setHbm m).longOps = s.longOps := rfl
@[simp] theorem State.setHbm_nextHandle (m : Memory) : (s.setHbm m).nextHandle = s.nextHandle := rfl
@[simp] theorem State.setHbm_model (m : Memory) : (s.setHbm m).model = s.model := rfl
@[simp] theorem State.setHbm_eng (m : Memory) : (s.setHbm m).eng = s.eng := rfl
@[simp] theorem State.setHbm_serve (m : Memory) : (s.setHbm m).serve = s.serve := rfl
@[simp] theorem State.setHbm_steep (m : Memory) : (s.setHbm m).steep = s.steep := rfl
@[simp] theorem State.setHbm_rte (m : Memory) : (s.setHbm m).rte = s.rte := rfl
@[simp] theorem State.setHbm_mem (m : Memory) : (s.setHbm m).mem = { s.mem with hbm := m } := rfl
@[simp] theorem State.setHbm_caddy (m : Memory) : (s.setHbm m).caddy = s.caddy := rfl
@[simp] theorem State.setHbm_links (m : Memory) : (s.setHbm m).links = s.links := rfl
@[simp] theorem State.setHbm_disc (m : Memory) : (s.setHbm m).disc = s.disc := rfl
@[simp] theorem State.setHbm_dom (m : Memory) : (s.setHbm m).dom = s.dom := rfl
@[simp] theorem State.setHbm_fab (m : Memory) : (s.setHbm m).fab = s.fab := rfl
@[simp] theorem State.setHbm_err (m : Memory) : (s.setHbm m).err = s.err := rfl
@[simp] theorem State.setHbm_comp (m : Memory) : (s.setHbm m).comp = s.comp := rfl
@[simp] theorem State.setHbm_pwr (m : Memory) : (s.setHbm m).pwr = s.pwr := rfl
@[simp] theorem State.setHbm_sec (m : Memory) : (s.setHbm m).sec = s.sec := rfl
@[simp] theorem State.setHbm_start (m : Memory) : (s.setHbm m).start = s.start := rfl
@[simp] theorem State.setHbm_out (m : Memory) : (s.setHbm m).out = s.out := rfl
@[simp] theorem State.setHbm_free (m : Memory) : (s.setHbm m).free = s.free := rfl

@[simp] theorem State.refuseWrite_pending (reason off : Nat) : (s.refuseWrite reason off).pending = s.pending := rfl
@[simp] theorem State.refuseWrite_part (reason off : Nat) : (s.refuseWrite reason off).part = s.part := rfl
@[simp] theorem State.refuseWrite_time (reason off : Nat) : (s.refuseWrite reason off).time = s.time := rfl
@[simp] theorem State.refuseWrite_hif (reason off : Nat) : (s.refuseWrite reason off).hif = { s.hif with refReason := reason, refOffset := off, refCnt := s.hif.refCnt + 1 } := rfl
@[simp] theorem State.refuseWrite_rings (reason off : Nat) : (s.refuseWrite reason off).rings = s.rings := rfl
@[simp] theorem State.refuseWrite_accepted (reason off : Nat) : (s.refuseWrite reason off).accepted = s.accepted := rfl
@[simp] theorem State.refuseWrite_waiting (reason off : Nat) : (s.refuseWrite reason off).waiting = s.waiting := rfl
@[simp] theorem State.refuseWrite_longOps (reason off : Nat) : (s.refuseWrite reason off).longOps = s.longOps := rfl
@[simp] theorem State.refuseWrite_nextHandle (reason off : Nat) : (s.refuseWrite reason off).nextHandle = s.nextHandle := rfl
@[simp] theorem State.refuseWrite_model (reason off : Nat) : (s.refuseWrite reason off).model = s.model := rfl
@[simp] theorem State.refuseWrite_eng (reason off : Nat) : (s.refuseWrite reason off).eng = s.eng := rfl
@[simp] theorem State.refuseWrite_serve (reason off : Nat) : (s.refuseWrite reason off).serve = s.serve := rfl
@[simp] theorem State.refuseWrite_steep (reason off : Nat) : (s.refuseWrite reason off).steep = s.steep := rfl
@[simp] theorem State.refuseWrite_rte (reason off : Nat) : (s.refuseWrite reason off).rte = s.rte := rfl
@[simp] theorem State.refuseWrite_mem (reason off : Nat) : (s.refuseWrite reason off).mem = s.mem := rfl
@[simp] theorem State.refuseWrite_caddy (reason off : Nat) : (s.refuseWrite reason off).caddy = s.caddy := rfl
@[simp] theorem State.refuseWrite_links (reason off : Nat) : (s.refuseWrite reason off).links = s.links := rfl
@[simp] theorem State.refuseWrite_disc (reason off : Nat) : (s.refuseWrite reason off).disc = s.disc := rfl
@[simp] theorem State.refuseWrite_dom (reason off : Nat) : (s.refuseWrite reason off).dom = s.dom := rfl
@[simp] theorem State.refuseWrite_fab (reason off : Nat) : (s.refuseWrite reason off).fab = s.fab := rfl
@[simp] theorem State.refuseWrite_err (reason off : Nat) : (s.refuseWrite reason off).err = s.err := rfl
@[simp] theorem State.refuseWrite_comp (reason off : Nat) : (s.refuseWrite reason off).comp = s.comp := rfl
@[simp] theorem State.refuseWrite_pwr (reason off : Nat) : (s.refuseWrite reason off).pwr = s.pwr := rfl
@[simp] theorem State.refuseWrite_sec (reason off : Nat) : (s.refuseWrite reason off).sec = s.sec := rfl
@[simp] theorem State.refuseWrite_start (reason off : Nat) : (s.refuseWrite reason off).start = s.start := rfl
@[simp] theorem State.refuseWrite_out (reason off : Nat) : (s.refuseWrite reason off).out = s.out := rfl
@[simp] theorem State.refuseWrite_free (reason off : Nat) : (s.refuseWrite reason off).free = s.free := rfl

@[simp] theorem State.stage_pending (off : Nat) (v : Word) : (s.stage off v).pending = s.pending := rfl
@[simp] theorem State.stage_part (off : Nat) (v : Word) : (s.stage off v).part = s.part := rfl
@[simp] theorem State.stage_time (off : Nat) (v : Word) : (s.stage off v).time = s.time := rfl
@[simp] theorem State.stage_hif (off : Nat) (v : Word) : (s.stage off v).hif = { s.hif with staged := s.hif.staged.set off v } := rfl
@[simp] theorem State.stage_rings (off : Nat) (v : Word) : (s.stage off v).rings = s.rings := rfl
@[simp] theorem State.stage_accepted (off : Nat) (v : Word) : (s.stage off v).accepted = s.accepted := rfl
@[simp] theorem State.stage_waiting (off : Nat) (v : Word) : (s.stage off v).waiting = s.waiting := rfl
@[simp] theorem State.stage_longOps (off : Nat) (v : Word) : (s.stage off v).longOps = s.longOps := rfl
@[simp] theorem State.stage_nextHandle (off : Nat) (v : Word) : (s.stage off v).nextHandle = s.nextHandle := rfl
@[simp] theorem State.stage_model (off : Nat) (v : Word) : (s.stage off v).model = s.model := rfl
@[simp] theorem State.stage_eng (off : Nat) (v : Word) : (s.stage off v).eng = s.eng := rfl
@[simp] theorem State.stage_serve (off : Nat) (v : Word) : (s.stage off v).serve = s.serve := rfl
@[simp] theorem State.stage_steep (off : Nat) (v : Word) : (s.stage off v).steep = s.steep := rfl
@[simp] theorem State.stage_rte (off : Nat) (v : Word) : (s.stage off v).rte = s.rte := rfl
@[simp] theorem State.stage_mem (off : Nat) (v : Word) : (s.stage off v).mem = s.mem := rfl
@[simp] theorem State.stage_caddy (off : Nat) (v : Word) : (s.stage off v).caddy = s.caddy := rfl
@[simp] theorem State.stage_links (off : Nat) (v : Word) : (s.stage off v).links = s.links := rfl
@[simp] theorem State.stage_disc (off : Nat) (v : Word) : (s.stage off v).disc = s.disc := rfl
@[simp] theorem State.stage_dom (off : Nat) (v : Word) : (s.stage off v).dom = s.dom := rfl
@[simp] theorem State.stage_fab (off : Nat) (v : Word) : (s.stage off v).fab = s.fab := rfl
@[simp] theorem State.stage_err (off : Nat) (v : Word) : (s.stage off v).err = s.err := rfl
@[simp] theorem State.stage_comp (off : Nat) (v : Word) : (s.stage off v).comp = s.comp := rfl
@[simp] theorem State.stage_pwr (off : Nat) (v : Word) : (s.stage off v).pwr = s.pwr := rfl
@[simp] theorem State.stage_sec (off : Nat) (v : Word) : (s.stage off v).sec = s.sec := rfl
@[simp] theorem State.stage_start (off : Nat) (v : Word) : (s.stage off v).start = s.start := rfl
@[simp] theorem State.stage_out (off : Nat) (v : Word) : (s.stage off v).out = s.out := rfl
@[simp] theorem State.stage_free (off : Nat) (v : Word) : (s.stage off v).free = s.free := rfl

@[simp] theorem State.unstage_pending (off : Nat) : (s.unstage off).pending = s.pending := rfl
@[simp] theorem State.unstage_part (off : Nat) : (s.unstage off).part = s.part := rfl
@[simp] theorem State.unstage_time (off : Nat) : (s.unstage off).time = s.time := rfl
@[simp] theorem State.unstage_hif (off : Nat) : (s.unstage off).hif = { s.hif with staged := s.hif.staged.erase off } := rfl
@[simp] theorem State.unstage_rings (off : Nat) : (s.unstage off).rings = s.rings := rfl
@[simp] theorem State.unstage_accepted (off : Nat) : (s.unstage off).accepted = s.accepted := rfl
@[simp] theorem State.unstage_waiting (off : Nat) : (s.unstage off).waiting = s.waiting := rfl
@[simp] theorem State.unstage_longOps (off : Nat) : (s.unstage off).longOps = s.longOps := rfl
@[simp] theorem State.unstage_nextHandle (off : Nat) : (s.unstage off).nextHandle = s.nextHandle := rfl
@[simp] theorem State.unstage_model (off : Nat) : (s.unstage off).model = s.model := rfl
@[simp] theorem State.unstage_eng (off : Nat) : (s.unstage off).eng = s.eng := rfl
@[simp] theorem State.unstage_serve (off : Nat) : (s.unstage off).serve = s.serve := rfl
@[simp] theorem State.unstage_steep (off : Nat) : (s.unstage off).steep = s.steep := rfl
@[simp] theorem State.unstage_rte (off : Nat) : (s.unstage off).rte = s.rte := rfl
@[simp] theorem State.unstage_mem (off : Nat) : (s.unstage off).mem = s.mem := rfl
@[simp] theorem State.unstage_caddy (off : Nat) : (s.unstage off).caddy = s.caddy := rfl
@[simp] theorem State.unstage_links (off : Nat) : (s.unstage off).links = s.links := rfl
@[simp] theorem State.unstage_disc (off : Nat) : (s.unstage off).disc = s.disc := rfl
@[simp] theorem State.unstage_dom (off : Nat) : (s.unstage off).dom = s.dom := rfl
@[simp] theorem State.unstage_fab (off : Nat) : (s.unstage off).fab = s.fab := rfl
@[simp] theorem State.unstage_err (off : Nat) : (s.unstage off).err = s.err := rfl
@[simp] theorem State.unstage_comp (off : Nat) : (s.unstage off).comp = s.comp := rfl
@[simp] theorem State.unstage_pwr (off : Nat) : (s.unstage off).pwr = s.pwr := rfl
@[simp] theorem State.unstage_sec (off : Nat) : (s.unstage off).sec = s.sec := rfl
@[simp] theorem State.unstage_start (off : Nat) : (s.unstage off).start = s.start := rfl
@[simp] theorem State.unstage_out (off : Nat) : (s.unstage off).out = s.out := rfl
@[simp] theorem State.unstage_free (off : Nat) : (s.unstage off).free = s.free := rfl

@[simp] theorem State.unwait_pending (w : Waiting) : (s.unwait w).pending = s.pending := rfl
@[simp] theorem State.unwait_part (w : Waiting) : (s.unwait w).part = s.part := rfl
@[simp] theorem State.unwait_time (w : Waiting) : (s.unwait w).time = s.time := rfl
@[simp] theorem State.unwait_hif (w : Waiting) : (s.unwait w).hif = s.hif := rfl
@[simp] theorem State.unwait_rings (w : Waiting) : (s.unwait w).rings = s.rings := rfl
@[simp] theorem State.unwait_accepted (w : Waiting) : (s.unwait w).accepted = s.accepted := rfl
@[simp] theorem State.unwait_waiting (w : Waiting) : (s.unwait w).waiting = s.waiting.erase w := rfl
@[simp] theorem State.unwait_longOps (w : Waiting) : (s.unwait w).longOps = s.longOps := rfl
@[simp] theorem State.unwait_nextHandle (w : Waiting) : (s.unwait w).nextHandle = s.nextHandle := rfl
@[simp] theorem State.unwait_model (w : Waiting) : (s.unwait w).model = s.model := rfl
@[simp] theorem State.unwait_eng (w : Waiting) : (s.unwait w).eng = s.eng := rfl
@[simp] theorem State.unwait_serve (w : Waiting) : (s.unwait w).serve = s.serve := rfl
@[simp] theorem State.unwait_steep (w : Waiting) : (s.unwait w).steep = s.steep := rfl
@[simp] theorem State.unwait_rte (w : Waiting) : (s.unwait w).rte = s.rte := rfl
@[simp] theorem State.unwait_mem (w : Waiting) : (s.unwait w).mem = s.mem := rfl
@[simp] theorem State.unwait_caddy (w : Waiting) : (s.unwait w).caddy = s.caddy := rfl
@[simp] theorem State.unwait_links (w : Waiting) : (s.unwait w).links = s.links := rfl
@[simp] theorem State.unwait_disc (w : Waiting) : (s.unwait w).disc = s.disc := rfl
@[simp] theorem State.unwait_dom (w : Waiting) : (s.unwait w).dom = s.dom := rfl
@[simp] theorem State.unwait_fab (w : Waiting) : (s.unwait w).fab = s.fab := rfl
@[simp] theorem State.unwait_err (w : Waiting) : (s.unwait w).err = s.err := rfl
@[simp] theorem State.unwait_comp (w : Waiting) : (s.unwait w).comp = s.comp := rfl
@[simp] theorem State.unwait_pwr (w : Waiting) : (s.unwait w).pwr = s.pwr := rfl
@[simp] theorem State.unwait_sec (w : Waiting) : (s.unwait w).sec = s.sec := rfl
@[simp] theorem State.unwait_start (w : Waiting) : (s.unwait w).start = s.start := rfl
@[simp] theorem State.unwait_out (w : Waiting) : (s.unwait w).out = s.out := rfl
@[simp] theorem State.unwait_free (w : Waiting) : (s.unwait w).free = s.free := rfl

@[simp] theorem State.pin_pending (name : String) (high : Bool) : (s.pin name high).pending = s.pending := rfl
@[simp] theorem State.pin_part (name : String) (high : Bool) : (s.pin name high).part = s.part := rfl
@[simp] theorem State.pin_time (name : String) (high : Bool) : (s.pin name high).time = s.time := rfl
@[simp] theorem State.pin_hif (name : String) (high : Bool) : (s.pin name high).hif = s.hif := rfl
@[simp] theorem State.pin_rings (name : String) (high : Bool) : (s.pin name high).rings = s.rings := rfl
@[simp] theorem State.pin_accepted (name : String) (high : Bool) : (s.pin name high).accepted = s.accepted := rfl
@[simp] theorem State.pin_waiting (name : String) (high : Bool) : (s.pin name high).waiting = s.waiting := rfl
@[simp] theorem State.pin_longOps (name : String) (high : Bool) : (s.pin name high).longOps = s.longOps := rfl
@[simp] theorem State.pin_nextHandle (name : String) (high : Bool) : (s.pin name high).nextHandle = s.nextHandle := rfl
@[simp] theorem State.pin_model (name : String) (high : Bool) : (s.pin name high).model = s.model := rfl
@[simp] theorem State.pin_eng (name : String) (high : Bool) : (s.pin name high).eng = s.eng := rfl
@[simp] theorem State.pin_serve (name : String) (high : Bool) : (s.pin name high).serve = s.serve := rfl
@[simp] theorem State.pin_steep (name : String) (high : Bool) : (s.pin name high).steep = s.steep := rfl
@[simp] theorem State.pin_rte (name : String) (high : Bool) : (s.pin name high).rte = s.rte := rfl
@[simp] theorem State.pin_mem (name : String) (high : Bool) : (s.pin name high).mem = s.mem := rfl
@[simp] theorem State.pin_caddy (name : String) (high : Bool) : (s.pin name high).caddy = s.caddy := rfl
@[simp] theorem State.pin_links (name : String) (high : Bool) : (s.pin name high).links = s.links := rfl
@[simp] theorem State.pin_disc (name : String) (high : Bool) : (s.pin name high).disc = s.disc := rfl
@[simp] theorem State.pin_dom (name : String) (high : Bool) : (s.pin name high).dom = s.dom := rfl
@[simp] theorem State.pin_fab (name : String) (high : Bool) : (s.pin name high).fab = s.fab := rfl
@[simp] theorem State.pin_err (name : String) (high : Bool) : (s.pin name high).err = s.err := rfl
@[simp] theorem State.pin_comp (name : String) (high : Bool) : (s.pin name high).comp = s.comp := rfl
@[simp] theorem State.pin_pwr (name : String) (high : Bool) : (s.pin name high).pwr = s.pwr := rfl
@[simp] theorem State.pin_sec (name : String) (high : Bool) : (s.pin name high).sec = s.sec := rfl
@[simp] theorem State.pin_start (name : String) (high : Bool) : (s.pin name high).start = s.start := rfl
@[simp] theorem State.pin_out (name : String) (high : Bool) : (s.pin name high).out = s.out ++ [.pin name high] := rfl
@[simp] theorem State.pin_free (name : String) (high : Bool) : (s.pin name high).free = s.free := rfl

end Sys2Proof.Machine
end

