-- ==== Sys2Proof/Tests/Slice0.lean ====
section
/-! SUPPORT. Tests of the model against the worked examples of the specification, the smoke test of well-formedness with
an ill-formed term for each check, and for every statement a state and operands that meet its hypotheses. -/

namespace Sys2Proof.Tests.IllFormed

set_option Elab.async false

open WellFormed

/-! ## An ill-formed term for each check of well-formedness -/


theorem test_wf_fields : ringOk 8192 = false ∧ dieOk 4 = false ∧ linkOk 72 = false ∧ nodeOk 256 = false ∧ engineOk 64 = false ∧
    fits 4 16 = false ∧ all (fits 1) [0, 2] = false ∧ segOk (2, 0) = false ∧ segOk (0, 3072) = false ∧
    opInOk ⟨[], false, [(2, 0)], []⟩ = false ∧ opInOk ⟨[], false, [], [(2, 0)]⟩ = false ∧
    coreFaultOk (.storeUncorr 256) = false ∧ strapsOk ⟨4, false, false, 0⟩ = false ∧ strapsOk ⟨0, false, false, 8⟩ = false ∧
    fuseOk (.alarmAction 4 0) = false ∧ fuseOk (.alarmAction 0 4) = false ∧ fuseOk (.startMode 4 0) = false ∧ fuseOk (.startMode 0 4) = false ∧
    fuseOk (.keyValid 2) = false ∧ fuseOk (.fwkeyHash 2) = false ∧ planeOk ⟨256, [], []⟩ = false ∧ planeOk ⟨0, [65536], []⟩ = false ∧
    planeOk ⟨0, [], [256]⟩ = false ∧ spdmOk ⟨none, 256, 0, [], true⟩ = false ∧ spdmOk ⟨none, 0, 256, [], true⟩ = false := by decide

/-- Readings of a package with two I/O dies. -/
def temps0 : TempMeas :=
  ⟨List.replicate 4 (List.replicate 32 0), List.replicate 2 (List.replicate 8 0), List.replicate 16 (List.replicate 4 0), List.replicate 2 [0, 0]⟩
theorem test_wf_items : tileOk ⟨4, 0, 0⟩ = false ∧ tileOk ⟨0, 64, 0⟩ = false ∧ tileOk ⟨0, 0, 2⟩ = false ∧
    itemOk ⟨false, 0, some 65536, 0, 0⟩ = false ∧ itemOk ⟨false, 2 ^ 32, none, 0, 0⟩ = false ∧ itemOk ⟨false, 0, none, 0, 0⟩ = true ∧
    coreFaultOk (.storeUncorr 64) = false ∧ coreFaultOk (.dieLine (2 ^ 48)) = false ∧
    boundaryOk ⟨[(2 ^ 20, none)], []⟩ = false ∧ boundaryOk ⟨[], [2 ^ 20]⟩ = false := by decide +kernel
theorem test_wf_temps : tempsOk temps0 = true ∧
    [{ temps0 with compute := [] }, { temps0 with io := [] }, { temps0 with base := List.replicate 17 [0, 0, 0, 0] }, { temps0 with caddy := [] },
      { temps0 with compute := List.replicate 4 [] }, { temps0 with io := [[], []] }, { temps0 with base := [[]] }, { temps0 with caddy := [[], []] }].all
      (fun t => !tempsOk t) = true := by decide +kernel

/-- A routing packet of zeros. -/
def route0 : RoutePkt := ⟨0, 0, 0, 0, 0, 0, 0, 0, 0, 0, 0, 0, 0, []⟩
theorem test_wf_route : [{ route0 with src := 256 }, { route0 with layer := 256 }, { route0 with homeNode := 256 }, { route0 with ptype := 256 },
    { route0 with slot := 65536 }, { route0 with expert := 4096 }, { route0 with elems := 65536 }, { route0 with localExpert := 65536 },
    { route0 with fmt := 16 }, { route0 with count := 2 ^ 32 }].all (fun p => !routePktOk p) = true ∧ routePktOk route0 = true ∧
    [⟨256, 0, false, 0, 0, 0⟩, ⟨0, 65536, false, 0, 0, 0⟩, ⟨0, 0, false, 256, 0, 0⟩, ⟨0, 0, false, 0, 65536, 0⟩, ⟨0, 0, false, 0, 0, 65536⟩].all
      (fun e => !homeEntryOk e) = true ∧ revOk ⟨0, [256], []⟩ = false ∧ revOk ⟨0, [], [⟨256, 0, false, 0, 0, 0⟩]⟩ = false := by decide

/-- A frame of zeros. -/
def frame0 : Frame := ⟨0, 0, false, false, 0, 0, 0, 0, 0, 0, 0, 0, 0, 0, 0, 0, 0, 0, false, true, 0⟩
theorem test_wf_frame : [{ frame0 with kind := 16 }, { frame0 with mgrPrio := 4 }, { frame0 with node := 256 }, { frame0 with manager := 256 },
    { frame0 with epoch := 65536 }, { frame0 with link := 256 }, { frame0 with variant := 16 }, { frame0 with lanes := 16 },
    { frame0 with swPort := 65536 }, { frame0 with targetPort := 65536 }, { frame0 with plane := 65536 }, { frame0 with assignNode := 256 },
    { frame0 with standby := 256 }, { frame0 with count := 512 }, { frame0 with dest := 256 }, { frame0 with senderKind := 4 }].all
      (fun f => !frameOk f) = true ∧ frameOk frame0 = true := by decide

/-- A fabric packet of zeros. -/
def fab0 : FabPkt := ⟨0, 0, 0, 0, false, false, false, false, 0, 0, 0, 0, 0, false, 0, 0, 0, []⟩
theorem test_wf_packet : [{ fab0 with op := 256 }, { fab0 with src := 256 }, { fab0 with dst := 256 }, { fab0 with srcDie := 4 },
    { fab0 with asub := 8 }, { fab0 with lenM1 := 4096 }, { fab0 with payload := List.replicate 4097 0 }].all (fun p => !fabPktOk p) = true ∧
    fabPktOk fab0 = true := by decide +kernel

/-- A flit of zeros. -/
def flit0 : Flit := ⟨0, 0, 0, 0, 0, List.replicate 508 0, true⟩
theorem test_wf_flit : [{ flit0 with ftype := 16 }, { flit0 with vc := 4 }, { flit0 with seq := 4096 }, { flit0 with ack := 4096 },
    { flit0 with payload := [] }].all (fun f => !flitOk f) = true ∧ flitOk flit0 = true := by decide +kernel

theorem test_wf_inputs : buildInOk (.header ⟨0, 0, 0, 2 ^ 64, 0, true, List.replicate 1632 0⟩) = false ∧
    buildInOk (.header ⟨0, 0, 0, 0, 2 ^ 32, true, List.replicate 1632 0⟩) = false ∧ buildInOk (.header ⟨0, 0, 0, 0, 0, true, []⟩) = false ∧
    buildInOk (.chunk ⟨2 ^ 48, 0, 0, 0, 0, true⟩ [] []) = false ∧ buildInOk (.chunk ⟨0, 2 ^ 32, 0, 0, 0, true⟩ [] []) = false ∧
    buildInOk (.chunk ⟨0, 0, 16, 0, 0, true⟩ [] []) = false ∧ buildInOk (.chunk ⟨0, 0, 0, 0, 2 ^ 48, true⟩ [] []) = false ∧
    fillOk ⟨false, some [], false⟩ = false ∧
    measOk ⟨0, 0, 0, 0, 0, 0, 0, 0, 0, 0, 0, [], [0, 0, 0, 0], temps0⟩ = false ∧ measOk ⟨0, 0, 0, 0, 0, 0, 0, 0, 0, 0, 0, [0, 0, 0, 0], [], temps0⟩ = false ∧
    measOk ⟨0, 0, 0, 0, 0, 0, 0, 0, 0, 0, 0, [0, 0, 0, 0], [0, 0, 0, 0], { temps0 with io := [] }⟩ = false ∧
    measOk ⟨0, 0, 0, 0, 0, 0, 0, 0, 0, 0, 0, [0, 0, 0, 0], [0, 0, 0, 0], temps0⟩ = true := by decide +kernel

/-! Ill-formed commands of the steep, the memory and the caddy. -/
def steepBAD : FillIn := ⟨false, some [], false⟩
def steepOK : FillIn := ⟨false, none, false⟩
def steepT : TileAt := ⟨4, 0, 0⟩
def steepI : TileAt := ⟨0, 0, 0⟩
def steepW : WorkItem := ⟨false, 0, none, 0, 0⟩
theorem test_wf_steep_0 : ([.release ⟨[], [2 ^ 20]⟩, .openingRelease ⟨[], [2 ^ 20]⟩, .operationIssue false 0 (some 65536) false, .operationOutput false 0 (some 65536)] : List Instr).all (fun c => !c.wf) = true := by decide +kernel
theorem test_wf_steep_1 : ([.routingAdmission 256, .dispatch { route0 with src := 256 }, .dispEnd { route0 with src := 256 }, .pour { route0 with src := 256 }, .pourEnd { route0 with src := 256 }] : List Instr).all (fun c => !c.wf) = true := by decide +kernel
theorem test_wf_steep_2 : ([.pourSend 256 0 0, .pourSend 0 4096 0, .pourSend 0 0 65536, .homeTableCheck ⟨0, [256], []⟩, .feederWorkItem steepT steepW [] none, .feederWorkItem steepI { steepW with index := 2 ^ 32 } [] none, .feederWorkItem steepI steepW [] (some (.storeUncorr 64))] : List Instr).all (fun c => !c.wf) = true := by decide +kernel
theorem test_wf_steep_3 : ([.leafRefetch steepT none none, .cosyRampDown steepT 0 0, .cosyRampDown steepI 49 0, .cosyRampDown steepI 0 17, .cosyRampUp steepT, .beatStall steepT, .granuleRefetch steepT steepOK steepOK, .granuleRefetch steepI steepBAD steepOK, .granuleRefetch steepI steepOK steepBAD] : List Instr).all (fun c => !c.wf) = true := by decide +kernel
theorem test_wf_steep_4 : ([.delayLineCalibration 4, .granuleMiss (2 ^ 48) 0, .granuleFillComplete (2 ^ 48) steepOK steepOK, .granuleFillComplete 0 steepBAD steepOK, .granuleFillComplete 0 steepOK steepBAD, .swapPrefill 0 steepBAD, .patrolScrub (2 ^ 48) .clean] : List Instr).all (fun c => !c.wf) = true := by decide +kernel
theorem test_wf_steep_5 : ([.patrolScrub 1 .clean, .localAtomic .swap false (2 ^ 48) 0 0, .channelLoss 512, .buildChunk 0 (.header ⟨0, 0, 0, 0, 0, true, []⟩), .swapArmReceive 0 ⟨0, [256], []⟩, .swapArmReply 256 0, .swapArmTimeout 256] : List Instr).all (fun c => !c.wf) = true := by decide +kernel

/-! Ill-formed commands of the rings and registers. -/
theorem test_wf_rings_0 : ([.sqTail 8192 0, .cqHead 8192 false 0, .descriptorRead 8192 none, .ringEnable 8192 0, .ringDisable 8192 0, .overflowClear 8192 0, .nop 8192] : List Instr).all (fun c => !c.wf) = true := by decide +kernel
theorem test_wf_rings_1 : ([.modelLoad 8192, .modelUnload 8192, .swapArm 8192, .swapDisarm 8192, .tenantSet 8192, .tenantRemove 8192, .tenantQuery 8192] : List Instr).all (fun c => !c.wf) = true := by decide +kernel
theorem test_wf_rings_2 : ([.steerSet 8192, .seqOpen 8192, .seqPrompt 8192, .seqSet 8192, .seqClose 8192, .seqCancel 8192, .seqQuery 8192] : List Instr).all (fun c => !c.wf) = true := by decide +kernel
theorem test_wf_rings_3 : ([.objectSet 8192, .bulkCopy 8192, .bulkConvert 8192, .bulkCompress 8192, .weightInstall 8192, .swapBuild 8192, .caddyScrub 8192] : List Instr).all (fun c => !c.wf) = true := by decide +kernel
theorem test_wf_rings_4 : ([.opSuspend 8192, .opResume 8192, .opCancel 8192, .opQuery 8192, .syncAdd 8192, .syncWait 8192, .msgSend 8192] : List Instr).all (fun c => !c.wf) = true := by decide +kernel
theorem test_wf_rings_5 : ([.moderationTimeout 8192, .ringDrainComplete 8192, .longOpSafePoint (2 ^ 32) 0 ⟨[], false, [], []⟩, .longOpSafePoint 0 0 ⟨[], false, [(2, 0)], []⟩, .longOpComplete (2 ^ 32) ⟨[], false, [], []⟩, .longOpComplete 0 ⟨[], false, [(2, 0)], []⟩, .registerWrite (2 ^ 24) 4 0] : List Instr).all (fun c => !c.wf) = true := by decide +kernel
theorem test_wf_rings_6 : ([.lowWordRead (2 ^ 24) 4, .memSliceWrite 0x12000C 0, .memClassChCommit 16 0] : List Instr).all (fun c => !c.wf) = true := by decide +kernel

/-! Ill-formed commands of the links, discovery and the fabric. -/
def linksR : TrainResult := ⟨0, 0, 0, false⟩
def linksF : Frame := { frame0 with kind := 16 }
def linksP : FabPkt := { fab0 with op := 256 }
theorem test_wf_links_0 : ([.linkEnable 72 0, .linkDisable 72 0, .linkTrainingComplete 72 linksR, .linkAckTimeout 72, .creditReturn 72, .linkDown 72 .resends, .linkRetrainExhausted 72] : List Instr).all (fun c => !c.wf) = true := by decide +kernel
theorem test_wf_links_1 : ([.flitReceive 72 flit0, .flitReceive 0 { flit0 with ftype := 16 }, .controlFlit 72 flit0 none [0, 0, 0, 0], .controlFlit 0 { flit0 with ftype := 16 } none [0, 0, 0, 0], .controlFlit 0 flit0 (some 4096) [0, 0, 0, 0], .controlFlit 0 flit0 none [], .controlFlit 0 flit0 none [65536, 0, 0, 0]] : List Instr).all (fun c => !c.wf) = true := by decide +kernel
theorem test_wf_links_2 : ([.hello 72 frame0, .hello 0 linksF, .claim 72 frame0, .claim 0 linksF, .query 72 frame0, .query 0 linksF, .reply 72 frame0] : List Instr).all (fun c => !c.wf) = true := by decide +kernel
theorem test_wf_links_3 : ([.reply 0 linksF, .assign 72 frame0, .assign 0 linksF, .assignAck 72 frame0, .assignAck 0 linksF, .linkReport 72 frame0 none, .linkReport 0 linksF none] : List Instr).all (fun c => !c.wf) = true := by decide +kernel
theorem test_wf_links_4 : ([.join 72 frame0 none none, .join 0 linksF none none, .memberMask 0 [⟨256, [], []⟩] false, .loadIssue 4 0 0 1 false false 0, .loadIssue 0 64 0 1 false false 0, .loadIssue 0 0 0 0 false false 0, .loadIssue 0 0 0 4097 false false 0] : List Instr).all (fun c => !c.wf) = true := by decide +kernel
theorem test_wf_links_5 : ([.storeIssue 4 0 0 [0] false 0, .storeIssue 0 64 0 [0] false 0, .storeIssue 0 0 0 [] false 0, .storeIssue 0 0 0 (List.replicate 4097 0) false 0, .atomicIssue 4 0 .swap false 0 0 0 false 0, .atomicIssue 0 64 .swap false 0 0 0 false 0, .invalidateIssue 4 0 0 0 0 0] : List Instr).all (fun c => !c.wf) = true := by decide +kernel
theorem test_wf_links_6 : ([.invalidateIssue 0 64 0 0 0 0, .fence 4 0 0, .fence 0 64 0, .ownXferIssue 4 0 0 0 0 0, .ownXferIssue 0 64 0 0 0 0, .ownXferIssue 0 0 256 0 0 0, .ownXferIssue 0 0 0 4096 0 0] : List Instr).all (fun c => !c.wf) = true := by decide +kernel
theorem test_wf_links_7 : ([.ownXferIssue 0 0 0 0 256 0, .load linksP, .store linksP, .atomic linksP, .invalidate linksP, .ownXfer linksP, .fabricResponse linksP] : List Instr).all (fun c => !c.wf) = true := by decide +kernel
theorem test_wf_links_8 : ([.message linksP, .messageAck linksP, .replayEntryExpiry 256 0 0, .replayEntryExpiry 0 4 0] : List Instr).all (fun c => !c.wf) = true := by decide +kernel

/-! Ill-formed commands of the domain, power, security, start-up and pins. -/
def restQ : SpdmReq := ⟨none, 256, 0, [], true⟩
def restR : SpdmReq := ⟨none, 0, 0, [], true⟩
theorem test_wf_rest_0 : ([.adoptHomeTable [(256, 0)], .adoptHomeTable [(0, 2 ^ 64)], .steepClose [(256, 0)], .steepClose [(0, 2 ^ 64)], .barrierArrivalTimeout 256, .kettleWindowEnd ⟨0, 0, 0, 0, 0, 0, 0, 0, 0, 0, 0, [], [], temps0⟩, .thermalLimitUpdate ⟨[], [], [], []⟩, .droopTrip 4 0, .droopTrip 0 16] : List Instr).all (fun c => !c.wf) = true := by decide +kernel
theorem test_wf_rest_1 : ([.droopRelease 4 0, .droopRelease 0 16, .thermalTrip 256 0 0, .thermalTrip 0 16 0, .thermalTrip 0 0 65536, .firstStageOpen (.railCurrent 16), .fuseCheck [.keyValid 2]] : List Instr).all (fun c => !c.wf) = true := by decide +kernel
theorem test_wf_rest_2 : ([.pkgPgHigh [.keyValid 2], .getVersion restQ, .getCapabilities restQ, .negotiateAlgorithms restQ [], .getDigests restQ, .keyExchange restQ, .finish restQ] : List Instr).all (fun c => !c.wf) = true := by decide +kernel
theorem test_wf_rest_3 : ([.keyUpdate restQ, .heartbeat restQ, .endSession restQ, .vendorDefinedRequest restQ false [], .getCertificate restQ 0 0 0, .getCertificate restR 16 0 0, .getCertificate restR 0 65536 0] : List Instr).all (fun c => !c.wf) = true := by decide +kernel
theorem test_wf_rest_4 : ([.getCertificate restR 0 0 65536, .challenge restQ 0, .challenge restR 256, .getMeasurements restQ 0 false, .getMeasurements restR 256 false, .chunkSend restQ 0 0 false 0, .chunkSend restR 256 0 false 0] : List Instr).all (fun c => !c.wf) = true := by decide +kernel
theorem test_wf_rest_5 : ([.chunkSend restR 0 65536 false 0, .chunkSend restR 0 0 false (2 ^ 32), .chunkGet restQ 0 0, .chunkGet restR 256 0, .chunkGet restR 0 65536, .spdmUnsupportedRequest restQ 0, .spdmUnsupportedRequest restR 256] : List Instr).all (fun c => !c.wf) = true := by decide +kernel
theorem test_wf_rest_6 : ([.packageResetRelease ⟨4, false, false, 0⟩, .rackPgChange 5 true, .coreTileTest [] [0, 0, 0, 0], .coreTileTest [0, 0, 0, 0] [], .setdasa 128, .setEndpointId 256, .read 256 0 0] : List Instr).all (fun c => !c.wf) = true := by decide +kernel
theorem test_wf_rest_7 : ([.doeDiscovery 256] : List Instr).all (fun c => !c.wf) = true := by decide +kernel

end Sys2Proof.Tests.IllFormed

open Sys2Proof Sys2Proof.Machine

namespace Sys2Proof.Tests

set_option Elab.async false
set_option linter.unusedVariables false

/-! ## Worked examples of the specification -/

/-- Steep 3 and a packet of steep 0xFFFF_FFFE (R12). -/
theorem test_steep_compare : older 0xFFFFFFFE 3 = true ∧ older 3 0xFFFFFFFE = false := by decide

/-- The CRC over the nine ASCII bytes "123456789" (R244). -/
theorem test_crc16 : crc16 [0x31, 0x32, 0x33, 0x34, 0x35, 0x36, 0x37, 0x38, 0x39] = 0x29B1 := by decide +kernel

/-- Device address 0x1500_1234_5600 of class 5, the next 256 bytes, and the address 4 KiB further on (R269). -/
theorem test_channel_hash : hashPlace 16 0x1C800000 0x12345600 = (3, 0x1DA34500) ∧
    (hashPlace 16 0x1C800000 0x12345700).1 = 4 ∧ (hashPlace 16 0x1C800000 0x12346600).1 = 12 := by decide

/-- Caddy window offset 0x0000_0123_4567 lies on die 1, in die data segment 0 (R291). -/
theorem test_caddy_place : winDie 0x01234567 = 1 ∧ winSeg 0x01234567 = 0 := by decide

/-- Capacity 220 over 72 members, and over 71 after node 0x05 failed (R174). -/
theorem test_quota : quotaOf (List.range 72) 220 3 = 4 ∧ quotaOf (List.range 72) 220 0x11 = 3 ∧
    quotaOf ((List.range 72).filter (· != 5)) 220 7 = 4 ∧ quotaOf ((List.range 72).filter (· != 5)) 220 8 = 3 ∧
    quotaOf ((List.range 72).filter (· != 5)) 220 0x11 = 3 := by decide +kernel

/-- E4M3 codes 0x7E and 0xFE are 448 and −448, and 0x7F is NaN (R59, R61). -/
theorem test_e4m3_codes : expand .e4m3 0 0x3F800000 0x7E = 0x43E00000 ∧ expand .e4m3 0 0x3F800000 0xFE = 0xC3E00000 ∧
    expand .e4m3 0 0x3F800000 0x7F = 0x7FC00000 := by decide +kernel

/-- Overflow and non-finite inputs on conversion: E4M3 saturates, BF16 gives infinity, NaN is canonical (R61, R72). -/
theorem test_overflow : (convLine .e4m3 0 none [0x447A0000, 0xFF800000, 0xFFC00001]).codes = [0x7E, 0xFE, 0x7F] ∧
    (convLine .bf16 0 none [0x7F7FFFFF, 0xFF800000, 0x7F800001]).codes = [0x7F80, 0xFF80, 0x7FC0] := by decide +kernel

/-- A block with an infinite input converts to a zero block in IB4 (R72). -/
theorem test_ib4_block_zeroed : convBlock .ib4 0x3F800000 none [0x3F800000, 0x7F800000] = ⟨0, [0, 0], true⟩ := by decide +kernel

/-- The segment of the worked compression example: leaves of 112, 96, 144 and 128 bytes at rate codes 1, 0, 3 and 2. -/
theorem test_leaf_sizes : [1, 0, 3, 2].map leafSize = [112, 96, 144, 128] := by decide

/-- Row 1,733 under the spill policy: its fourth choice of expert 0x2A7 is rejected and expert 0x0D3 takes position 2 with
slot 1 (R176, R177). -/
theorem test_admission :
    let quota := fun e => if e = 0x104 then 4 else if e = 0x35E then 0 else 3
    let st := admitRows quota 2 true [(211, [0x2A7, 0x0D3]), (904, [0x2A7, 5]), (1560, [0x2A7, 6]), (1733, [0x104, 0x2A7, 0x35E, 0x0D3])]
    st.rej = [(1733, 1)] ∧ st.adm.getLast? = some ⟨1733, 1, 0x0D3, 1, true⟩ := by decide +kernel

/-- The sideband writes 2,400 W, then the host 800 W: the limit in force and its source (R361). -/
theorem test_caps : let s := State.storeCap State.reset 2400 fun p w => { p with rackCap := w }
    let t := s.storeCap 800 fun p w => { p with cap := w }
    (s.pwr.limit, s.pwr.source) = (2400, 1) ∧ (t.pwr.limit, t.pwr.source, t.pwr.cap, t.pwr.clamped) = (1000, 0, 1000, true) := by decide +kernel


/-- A store keeps the canonical form: zeros are not listed (notes/assumptions/4.md). -/
theorem test_memory_write : Memory.write [(3, 1), (9, 9)] 2 [7, 0, 5] = [(2, 7), (4, 5), (9, 9)] := by decide

/-- A package with its rails up, its firmware running and an I3C address. -/
def up : State := { State.reset with
  hif := { mgmtRun := true }
  start := { State.reset.start with firstStage := true, pkgPg := true, i3cAddr := some 9 } }
/-- The same with PERST#, emergency off and the tray latch asserted. -/
def held : State := { up with start := { up.start with perst := true, eoffPin := true, trayPin := true } }

/-! ## Witnesses: The whole machine -/

namespace Machine

theorem witness_StepRunsTheFrontCommand : ({ up with pending := [.nop 3, .clearingScrub] } : State).pending = [.nop 3, .clearingScrub] ∧
    up.pending = [] ∧ up.start.vaon = true ∧ ({ up with start := { up.start with vaon := false } } : State).start.vaon = false := by decide
theorem witness_ResetRegistersReadTheirValues :
    let s : State := { up with start := { up.start with vaon := false } }
    s.start.vaon = false ∧ s.part.variant = 1 := by decide
theorem witness_StepsKeepTheMemoryForm :
    let s : State := { up with pending := [.clearingScrub], mem := { up.mem with hbm := [(5, 1), (9, 2)] } }
    s.memWf = true ∧ step s = .next { s with pending := [] } := ⟨by decide, rfl⟩
theorem witness_CommandsLeaveTheTimer_command : exec .clearingScrub up = .next up := rfl
theorem witness_CommandsLeaveTheTimer_reset : up.start.vaon = true ∧ up.start.inReset = false ∧ up.pending = [] := by decide
theorem witness_CommandsLeaveTheTimer_gate : exec (.startGateMet true) up = .next up := rfl
theorem witness_OnlyResetsEndAStop :
    let s : State := { up with err := { fatal := true, silent := true }, sec := { locked := true } }
    exec .clearingScrub s = .next s ∧ s.err.fatal = true ∧ s.sec.locked = true ∧ s.err.silent = true ∧ s.start.pkgPg = true := ⟨rfl, by decide⟩
theorem witness_DepthThreeIsPackageFatal :
    let h : Handling := { index := 7, cls := 1, unit := 2, die := 0, pos := 3, seqs := [], depth := 2, until_ := .item }
    let s : State := { up with err := { handling := [h] } }
    let e : ErrIn := { status := 0x0424, cls := 1, unit := 4 }
    s.err.silent = false ∧ s.err.fatal = false ∧ s.parentOf e = some h ∧ h.depth = 2 ∧ e.cls = 1 ∧ e.isData = false ∧ e.isCondition = false := by decide
theorem witness_AllowanceRisesBySixteen : up.kettleOn = true ∧ up.time.count.toNat % 200 = 0 ∧ up.pwr.windowAt ≠ some up.time.count := by decide
theorem witness_StandbyIsTheHighestPriority :
    let s : State := { up with dom := { node := 0, members := 7 }, disc := { prio := [(1, 2), (2, 2)] } }
    s.dom.members.getLsbD 255 = false ∧ s.pickStandby = 1 ∧ up.pickStandby = 0xFF := by decide +kernel

end Machine

/-! ## Witnesses: Set-up registers (spec 14) -/

namespace SetUp

/-- A pair whose fields an enable accepts: CQ_LOG2 6, SQ_LOG2 4. -/
def pair : RingPair := { cqLog2 := 6, sqLog2 := 4 }
/-- HIF_RING_CTRL with ENABLE, CQ_LOG2 6 and SQ_LOG2 4. -/
def ctrl : Word := 0x80620000
theorem witness_RingControlTakesWrites_ringEnableStartsAPair_good : up.hostUp = true ∧ 8191 < 8192 ∧ ctrl.getLsbD 31 = true ∧ (up.ring 8191).enable = false ∧
    up.start.mgmtReset = false ∧ up.start.mgmtHeld = false ∧ up.sec.locked = false ∧ ctrl.toNat / 2 ^ 20 % 32 = 6 ∧
    ctrl.toNat / 2 ^ 15 % 32 = 4 ∧ 1 ≤ (up.ring 8191).modCount ∧ ((up.ring 8191).overflow && !ctrl.getLsbD 28) = false ∧
    (up.start.trayPin && !up.start.gatePassed) = false := by decide
theorem witness_RingControlTakesWrites_ringEnableStartsAPair_bad : (0x80000000 : Word).getLsbD 31 = true ∧ ¬ (6 ≤ (0x80000000 : Word).toNat / 2 ^ 20 % 32) ∧
    ((up.ring 0).overflow && !(0x80000000 : Word).getLsbD 28) = false := by decide
theorem witness_RingControlTakesWrites_ringEnableStartsAPair_tray :
    let s : State := { up with start := { up.start with trayPin := true } }
    s.hostUp = true ∧ (s.ring 0).enable = false ∧ (s.start.trayPin && !s.start.gatePassed) = true := by decide
theorem witness_RingControlTakesWrites_ringDisableDrains_disable :
    let s : State := { up with rings := [(8191, { pair with enable := true })] }
    let v : Word := 0x00620000
    s.hostUp = true ∧ v.getLsbD 31 = false ∧ v.getLsbD 28 = false ∧ (s.ring 8191).enable = true ∧ (s.ring 8191).draining = false ∧
    (s.ring 8191).withCtrl v.toNat = s.ring 8191 ∧ (∀ w ∈ s.waiting, w.ring ≠ 8191) := by decide
theorem witness_RingControlTakesWrites_ringDisableDrains_complete :
    let s : State := { up with rings := [(0, { pair with enable := true, draining := true, backlog := [0] })] }
    (s.ring 0).draining = true ∧ (s.ring 0).open_ = 0 ∧ s.waiting = [] ∧ s.hostUp = true := by decide
theorem witness_RingControlTakesWrites_ringDisableDrains_overflow :
    let s : State := { up with rings := [(0, { pair with enable := true, overflow := true })] }
    let v : Word := 0x90620000
    v.getLsbD 28 = true ∧ v.getLsbD 31 = true ∧ (s.ring 0).enable = true ∧ (s.ring 0).draining = false ∧
    (s.ring 0).withCtrl v.toNat = s.ring 0 ∧ (s.start.trayPin && !s.start.gatePassed) = false := by decide
theorem witness_WideRegistersAreStaged_free : up.hostUp = true ∧ 8191 < 8192 ∧ (up.ring 8191).enable = false := by decide
theorem witness_WideRegistersAreStaged_enabled :
    ((({ up with rings := [(8191, { pair with enable := true })] } : State)).ring 8191).enable = true := by decide
theorem witness_RegistersTakeWrites_oneWordRegistersTakeWrites : up.hostUp = true ∧ up.start.mgmtReset = false ∧ up.start.mgmtHeld = false ∧
    up.sec.locked = false ∧ 1024 ≤ (262144 : DWord).toNat % 2 ^ 19 ∧ (262144 : DWord).toNat % 2 ^ 19 ≤ 262144 ∧
    (1023 : DWord).toNat < 1024 ∧ 0xFFFFFE < 0x1000000 ∧ 0xFFFFFE % 4 ≠ 0 := by decide
theorem witness_TimerReadsLatch : up.hostUp = true ∧ ((8 ≠ 4 ∧ 8 ≠ 8) ∨ 0x1C % 8 ≠ 0) := by decide
theorem witness_MemoryLayoutTakesWrites_sliceWritesLayMemoryOut_applied :
    up.hostUp = true ∧ up.dom.state = .bringup ∧ up.layoutBusy (up.mem.withSlice 0x120000 1000) = false ∧
    up.layoutBad (up.mem.withSlice 0x120000 1000) (0x120000 = 0x120004) = false := by decide +kernel
theorem witness_MemoryLayoutTakesWrites_sliceWritesLayMemoryOut_range :
    up.layoutBusy (up.mem.withSlice 0x120008 255) = false ∧ up.layoutBad (up.mem.withSlice 0x120008 255) (0x120008 = 0x120004) = true := by
  decide +kernel
theorem witness_MemoryLayoutTakesWrites_sliceWritesLayMemoryOut_busy :
    let s : State := { up with hif := { up.hif with backlogSize := 0x10000 } }
    s.hostUp = true ∧ s.dom.state = .bringup ∧ s.layoutBusy (s.mem.withSlice 0x120004 63) = true := by decide +kernel
theorem witness_MemoryLayoutTakesWrites_sliceWritesLayMemoryOut_state :
    ¬ (({ up with dom := { state := .service } } : State).dom.state = .bringup ∨
      ({ up with dom := { state := .service } } : State).dom.state = .test) := by decide
theorem witness_MemoryLayoutTakesWrites_classSetCommits_applied :
    up.hostUp = true ∧ 15 < 16 ∧ up.classOpen 15 = false ∧
    up.setBad 15 ((up.stage (classChOff 15 + 0x3C) 0x80000000).stagedSet 15) = false := by decide +kernel
/-- A tenant of class 15 has a sequence open. -/
def classHeld : State := { up with eng := { tenants := [(7, { valid := true, openSeqs := 1, cls := 15 })] } }
theorem witness_MemoryLayoutTakesWrites_classSetCommits_busy :
    ((classHeld.stage (classChOff 15 + 0x3C) 1).stagedSet 15 == classHeld.mem.classCh.get 0 15) = false ∧
    classHeld.classOpen 15 = true ∧ classHeld.hostUp = true := by decide +kernel
theorem witness_MemoryLayoutTakesWrites_classSetCommits_range :
    let s : State := { up with mem := { classCh := [(0, (1 : W512) <<< 511)] } }
    s.classOpen 15 = false ∧ s.setBad 15 ((s.stage (classChOff 15 + 0x3C) 0x80000000).stagedSet 15) = true := by decide +kernel
theorem witness_RegistersTakeWrites_exportsAndTrustedEnTakeWrites_refused : (2 : Word).getLsbD 1 = true ∧ (2 : Word).getLsbD 0 = false ∧
    exportBad up.exportWords = true := by decide +kernel
theorem witness_RegistersTakeWrites_exportsAndTrustedEnTakeWrites_store :
    let s : State := { up with hif := { up.hif with staged := [(0x140070, 0x1000)] } }
    (2 : Word).getLsbD 1 = true ∧ s.hostUp = true ∧ s.dom.exportSel ≠ 0xFFF ∧ exportBad s.exportWords = false := by decide +kernel
theorem witness_RegistersTakeWrites_exportsAndTrustedEnTakeWrites_load : (1 : Word).getLsbD 1 = false ∧ (1 : Word).getLsbD 0 = true ∧
    up.trustedOk = false ∧ up.hostUp = true := by decide
theorem witness_RegistersTakeWrites_exportsAndTrustedEnTakeWrites_trusted :
    let s : State := { up with part := { trustedOk := true } }
    s.hostUp = true ∧ s.trustedOk = true ∧ s.dom.state ≠ .service ∧ ({ s with dom := { state := .service } } : State).trustedOk = true := by
  decide
theorem witness_ErrorsAreReadAndInjected_errorLogIsReadAndRingConsumed_pass :
    let s : State := { up with err := { ringEn := true, ringLog2 := 6, ringUsed := 63 } }
    s.hostUp = true ∧ s.err.ringEn = true ∧ ((63 : Word).toNat % 65536 % 2 ^ 6 + 2 ^ 6 - s.err.ringHead) % 2 ^ 6 ≤ s.err.ringUsed := by decide +kernel
theorem witness_ErrorsAreReadAndInjected_errorLogIsReadAndRingConsumed_ignored :
    let s : State := { up with err := { ringEn := true, ringLog2 := 6, ringUsed := 62 } }
    s.err.ringUsed < ((63 : Word).toNat % 65536 % 2 ^ 6 + 2 ^ 6 - s.err.ringHead) % 2 ^ 6 := by decide +kernel
theorem witness_ErrorsAreReadAndInjected_errorLogIsReadAndRingConsumed_off : up.err.ringEn = false := by decide +kernel
theorem witness_ErrorsAreReadAndInjected_injectedErrorsAreRaised : up.hostUp = true ∧ up.debugLock = false ∧ (up.disc.inDomain = false ∨ up.dom.state = .test) ∧
    511 < up.part.channels ∧ 0 < up.part.links ∧ up.part.links ≤ 65535 := by decide +kernel
theorem witness_ErrorsAreReadAndInjected_injectedErrorsAreRaised_state :
    let s : State := { up with disc := { inDomain := true } }
    s.hostUp = true ∧ s.debugLock = false ∧ s.disc.inDomain = true ∧ s.dom.state ≠ .test := by decide +kernel
theorem witness_ErrorsAreReadAndInjected_injectedErrorsAreRaised_lock : (({ up with part := { debugLock := true } } : State)).debugLock = true := by decide +kernel
theorem witness_BootGoRunsTheWindow_go :
    let s : State := { up with hif := { bootWait := true }, start := { up.start with bootSource := 2 } }
    s.hostUp = true ∧ (0x80800000 : Word).getLsbD 31 = true ∧ s.hif.bootWait = true ∧ s.start.bootSource = 2 ∧
    (0x80800000 : Word).toNat % 2 ^ 24 ≤ 0x800000 := by decide
theorem witness_BootGoRunsTheWindow_refused : 0x800000 < (0x80800001 : Word).toNat % 2 ^ 24 ∧ up.hif.bootWait = false := by decide

end SetUp

/-! ## Witnesses: Memory tiers, the caddy, rings and descriptors (spec 11 to 13, 16, 17) -/

namespace Descriptors

/-- A pool granule entry of caddy granule 0 under generation 1. -/
def gran : Granule := { num := 0x20000000, gen := some 1, pool := 0, place := 0 }
/-- A package with bank A active, regions in HBM, a pool of eight granules at 0x10000000, and the given granules and objects. -/
def tiered (g : List Granule) (objects : Tab ObjEntry) : State := { up with
  caddy := { State.reset.caddy with active := 0, opened := true }
  mem := { State.reset.mem with
    sliceLocal := 4096, sliceShared := 4096, sliceSpare := 4096, genCurrent := 1, poolBase := 0x10000000, poolSize := 0x80000, streamGranules := 1
    granules := g, objects := objects } }
/-- An address of the caddy window. -/
def low : Nat := 0x200000000000
/-- A copy of zeros, and one that the tier could not read. -/
def okFill : FillIn := ⟨false, some [], false⟩
def badFill : FillIn := ⟨true, none, false⟩
theorem fillOk_no_model (s : State) (g : Nat) (bs : List Byte) (c : Bool) (h : s.model = none) :
    s.fillOk g ⟨false, some bs, c⟩ = some (bytesAt bs 0 0x10000) := by
  have h2 : ∀ x, s.granuleBad g x = none := by intro x; simp [State.granuleBad, State.granulePieces, State.tensors, h]
  simp [State.fillOk, State.tierRead, h2]
theorem witness_TiersServeReads_miss : let s := tiered [] []
    let u := tiered [gran] []
    s.live = true ∧ s.lowTier low = true ∧ s.resident (low / 0x10000) = none ∧ s.placeOf low ≠ 2 ∧ s.mainRoom = true ∧ s.mem.granules = [] ∧
    u.resident (low / 0x10000) = some gran ∧ u.comp.refetch.contains (low / 0x10000) = false ∧
    ({ u with comp := { u.comp with refetch := [low / 0x10000] } } : State).comp.refetch.contains (low / 0x10000) = true := by decide +kernel
theorem witness_TiersServeReads_fill : let e := { gran with filling := true, waiters := [4] }
    let s := tiered [e] []
    (s.mem.granules.find? (fun e => e.num = low / 0x10000 && e.filling && !e.drop && e.gen = s.genOf low) = some e ∧
      s.fillingOf (low / 0x10000) = some e ∧ s.resident (low / 0x10000) = none ∧ e.drop = false ∧
      e.gen = some s.mem.genCurrent ∧ e.place ≠ 2 ∧ s.mem.classDrop = [] ∧ ({ e with place := 2 } : Granule).place = 2 ∧
      s.fillOk (low / 0x10000) badFill = none ∧ (tiered [gran] []).fillingOf (low / 0x10000) = none ∧
      (tiered [gran] []).resident (low / 0x10000) ≠ none) ∧
    s.fillOk (low / 0x10000) okFill = some (bytesAt [] 0 0x10000) :=
  ⟨by decide +kernel, fillOk_no_model _ _ _ _ rfl⟩
/-- A package armed for generation 2 with one pinned caddy object of a granule. -/
def armedFor (g : List Granule) : State :=
  let u := tiered g [(0, { base := 0x200000000000, length := 0x10000, hostAddr := 0, place := 1, pasid := 0, valid := true })]
  { u with caddy := { u.caddy with armed := some 2 } }
theorem witness_TiersServeReads_prefill : let s := armedFor []
    let full := armedFor ((List.range 7).map fun k => { gran with num := 0x20000001 + k, pool := k })
    (s.live = true ∧ s.caddy.armed = some 2 ∧ s.start.quiesced = false ∧ s.prefillNext = some 0x20000000 ∧ s.mainRoom = true ∧
      full.prefillNext = some 0x20000000 ∧ full.mainRoom = false ∧ s.asIdle.fillOk 0x20000000 badFill = none) ∧
    s.asIdle.fillOk 0x20000000 okFill = some (bytesAt [] 0 0x10000) :=
  ⟨by decide +kernel, fillOk_no_model _ _ _ _ rfl⟩
theorem witness_TiersServeReads_scrub : let s := tiered [gran] []
    (s.place 0).isSome = true ∧ (s.place (s.poolAddr 0)).isSome = true ∧ s.chLost = 0 ∧ s.mem.badReads.length < 15 ∧ s.scrubBad (0 / 64) = none ∧
    s.scrubBad (s.poolAddr 0 / 64) = none ∧
    (∀ e ∈ s.mem.granules, (s.poolAddr e.pool ≤ 0 / 64 * 64 && 0 / 64 * 64 < s.poolAddr e.pool + 0x10000) = false) ∧
    (∃ e ∈ s.mem.granules, (s.poolAddr e.pool ≤ s.poolAddr 0 / 64 * 64 && s.poolAddr 0 / 64 * 64 < s.poolAddr e.pool + 0x10000) = true) ∧
    (∀ e ∈ s.mem.granules, e.filling = false) := by decide +kernel
theorem witness_TiersServeReads_atomic : let s := tiered [] []
    0x10000001 % 4 ≠ 0 ∧ 0x10000004 % 4 = 0 ∧ s.checkWrite 0x10000004 4 = none ∧ s.readable 0x10000004 4 = true ∧ s.checkWrite 0 4 = some 0x0240 := by
  decide +kernel
theorem witness_TiersServeReads_loss : let s : State := { up with mem := { State.reset.mem with lostAtStart := BitVec.allOnes 512 <<< 40, sliceShared := 1, sliceSpare := 1 } }
    let t : State := { up with mem := { State.reset.mem with lostAtStart := BitVec.allOnes 512 <<< 40, sliceShared := 1, sliceSpare := 0 } }
    31 < s.part.channels ∧ s.chLost.getLsbD 31 = false ∧ s.err.handling = [] ∧ s.err.silent = false ∧ s.redirectFits (s.redirectOf 31) = true ∧
    s.classOf 31 = none ∧ s.modelOn 31 = false ∧ t.redirectFits (t.redirectOf 31) = false := by decide +kernel
def image : ImageHdr := ⟨1, 2, 0, 0x10000, 1, true, List.replicate 1632 0⟩
def bulk (k : OpKind) (st : OpState) : LongOp := { kind := k, ring := 3, tag := 0, quiet := false, desc := 0, state := st, total := 0x8000001 }
theorem witness_CaddyOpensBuildsAndArms_build : let b : Build := { handle := 5, bank := 1 }
    let s : State := { tiered [] [] with
      caddy := { (tiered [] []).caddy with build := some b }, longOps := [(5, bulk .build .running)] }
    s.live = true ∧ s.start.quiesced = false ∧ s.caddy.build = some b ∧ s.longOps.find? b.handle = some (bulk .build .running) ∧
    (bulk .build .running).working = true ∧ b.hdr = none ∧ image.keyBlock.length = 1632 ∧ s.imageOk b image = true ∧
    s.imageOk b { image with formatVer := 2 } = false ∧ s.caddy.lostSegs = [] ∧ b.chunksDone < image.chunks ∧
    chunkOk { b with hdr := some image } image ⟨0, 8, 0, 0, 0, true⟩ = false := by decide +kernel
theorem witness_CaddyOpensBuildsAndArms_chunk : ∀ tag : BitVec 128, let b : Build := { handle := 5, bank := 1, hdr := some image }
    chunkOk b image ⟨0, 16, 0, tag, 0, true⟩ = true ∧ (List.replicate 16 (0 : Byte)).length = (⟨0, 16, 0, tag, 0, true⟩ : ChunkHdr).length :=
  fun tag => ⟨by simp [chunkOk, show image.winBytes = 0x10000 from rfl, opStep], rfl⟩
/-- A journal that commits bank 1 as generation 2. -/
def commits : List JRec := [⟨1, 2, 1, 2, 0, 0, 0, true⟩, ⟨2, 3, 1, 2, 0, 0, 1, true⟩]
theorem witness_CaddyOpensBuildsAndArms_open : let s : State := { up with caddy := { up.caddy with journal1 := commits } }
    up.mgmtUp = true ∧ up.caddy.opened = false ∧ up.caddy.erased = false ∧
    committed ((({ up.caddy with journal1 := up.caddy.journal } : Caddy).journal).filter jKnown) = none ∧
    s.mgmtUp = true ∧ s.caddy.opened = false ∧ s.caddy.erased = false ∧
    (committed ((({ s.caddy with journal1 := s.caddy.journal } : Caddy).journal).filter jKnown)).map (fun r => (r.bank, r.gen)) = some (1, 2) := by
  decide +kernel
/-- The manager of nodes 0 and 1 with an arm in progress that no member has answered. -/
def arming : State := { tiered [] [] with
  dom := { node := 1, members := 3, role := .manager, arm := some ⟨2, ⟨1, [0, 1], []⟩, [1], 0, false⟩ }, disc := { inDomain := true }, time := { count := 2500000 } }
theorem witness_CaddyOpensBuildsAndArms_arm :
    let s : State := { arming with dom := { arming.dom with role := .worker, arm := none } }
    s.live = true ∧ s.disc.inDomain = true ∧ s.dom.role ≠ .manager ∧ s.armCheck 2 ⟨1, [0, 1], []⟩ = 1 ∧
    (∃ a, arming.dom.arm = some a ∧ a.armed = false ∧ 0 ∉ a.accepted ∧ 2500000 ≤ (arming.time.count - a.sentAt).toNat) ∧
    arming.isMember 0 = true ∧ arming.dom.role = .manager ∧ arming.live = true := by decide +kernel
theorem witness_CaddyOpensBuildsAndArms_armed : let g : Bank := { State.reset.caddy.bankB with built := true, gen := 2 }
    let s : State := { arming with
      caddy := { arming.caddy with bankB := g }, dom := { arming.dom with role := .worker, arm := none }
      model := some { steepProg := 0, attnGeom := 0, routing := 0, floor := 0, wire := 0, header := [], draftOps := [], mainOps := [] } }
    s.live = true ∧ s.armCheck 2 ⟨1, [0, 1], []⟩ = 0 := by decide +kernel
theorem witness_CaddyOpensBuildsAndArms_quiesce :
    let s : State := { up with start := { up.start with trayPin := true, gatePassed := true } }
    s.live = true ∧ s.start.quiesced = false := by decide +kernel
/-- A privileged pair 3 of 64 entries. -/
def pair3 : RingPair := { enable := true, cqLog2 := 6, sqLog2 := 4, priv := true, modCount := 1 }
/-- A descriptor of the given opcode and further fields. -/
def descOf (op : Nat) (fields : List (Nat × Nat × Nat)) : W512 := BitVec.ofNat 512 (packAt ((0, 1, op) :: fields))
/-- Ring 3 of a package in no domain with one accepted descriptor. -/
def asked3 (d : W512) (r : RingPair) : State := { tiered [] [] with rings := [(3, r)], accepted := [⟨3, d⟩] }
/-- The state whose checks count no descriptor but the one acted on. -/
def alone (s : State) : State := { s with accepted := [] }
/-- The first accepted descriptor of ring 3 is `d`, and its checks pass. -/
abbrev passes (s : State) (d : W512) : Prop := s.accepted.find? (fun a => a.ring = 3) = some ⟨3, d⟩ ∧ (alone s).checkDesc 3 d = none
theorem witness_RingsTakeDescriptors_doorbells : let r := { pair3 with unread := [0, 0], armed := true }
    let s := asked3 0 r
    s.hostUp = true ∧ (s.ring 3) = r ∧ r.enable = true ∧ r.backlog = [] ∧ s.waiting = [] ∧
    ((1 : BitVec 20).toNat % 2 ^ r.cqLog2 + 2 ^ r.cqLog2 - r.cqHead) % 2 ^ r.cqLog2 < r.unread.length ∧
    ((2 : BitVec 20).toNat % 2 ^ r.cqLog2 + 2 ^ r.cqLog2 - r.cqHead) % 2 ^ r.cqLog2 = r.unread.length ∧
    r.unread.length < ((3 : BitVec 20).toNat % 2 ^ r.cqLog2 + 2 ^ r.cqLog2 - r.cqHead) % 2 ^ r.cqLog2 ∧
    r.armed = true ∧ r.modTime * 25 ≤ (s.time.count - 0).toNat ∧ pair3.armed = false := by decide +kernel
theorem witness_RingsTakeDescriptors_reads : let s := asked3 0 { pair3 with sqTail := 1 }
    let full := asked3 0 { pair3 with sqTail := 1, reserved := 64 }
    s.ringReads 3 = true ∧ s.canAccept 3 0 = true ∧ (s.accept 3 0).checkDesc 3 0 = none ∧
    (s.accept 3 (descOf 0xFF [])).checkDesc 3 (descOf 0xFF []) = some (0x0101, 0) ∧ full.ringReads 3 = true ∧ full.canAccept 3 0 = false := by
  decide +kernel
theorem witness_RingsTakeDescriptors_nop : let s := asked3 0 { pair3 with cqTail := 63, reserved := 1, open_ := 1 }
    let bad := asked3 (descOf 0 [(8, 4, 1)]) pair3
    s.live = true ∧ s.accepted.find? (fun a => a.ring = 3) = some ⟨3, 0⟩ ∧ dOpcode (0 : W512) = 0 ∧ (alone s).checkDesc 3 0 = none ∧
    bad.accepted.find? (fun a => a.ring = 3) = some ⟨3, descOf 0 [(8, 4, 1)]⟩ ∧ dOpcode (descOf 0 [(8, 4, 1)]) = 0 ∧
    (alone bad).checkDesc 3 (descOf 0 [(8, 4, 1)]) = some (0x0102, 8) ∧ dQuiet (0 : W512) = false ∧ (s.ring 3).backlog = [] ∧
    s.waiting = [] := by decide +kernel
theorem witness_PackageDescriptorsAct_load : let d (a : Nat) := descOf 0x01 [(8, 8, a), (16, 8, 1)]
    let s (a : Nat) := asked3 (d a) pair3
    let t : State := { s 0x20000000 with mem := { (s 0x20000000).mem with badBursts := [0x20000000 / 64] } }
    (s 0).live = true ∧ (∀ a ∈ [0x20000000, 0x20000001], passes (s a) (d a) ∧ dOpcode (d a) = 0x01) ∧ dField (d 0x20000001) 8 8 % 64 ≠ 0 ∧
    dField (d 0x20000000) 8 8 % 64 = 0 ∧ (alone (s 0x20000000)).readable 0x20000000 256 = true ∧ passes t (d 0x20000000) ∧
    (alone t).readable 0x20000000 256 = false ∧ ((alone (s 0x20000000)).loadCheck 0x20000000 1 0 0 0).1 ≠ [] := by
  decide +kernel
/-- A model of a lookup and a head of one element over 64, with tensor headers at its weights. -/
def lookOp : List Byte := leBytes 128 (packAt [(3, 1, 1), (4, 4, 0x11020000), (24, 8, 0x20003000), (40, 8, 0x010210000000), (80, 4, 64), (84, 4, 64)])
def headOp : List Byte := leBytes 128 (packAt
  [(1, 1, 1), (3, 1, 7), (4, 4, 0x11040000), (12, 4, 0x08000000), (16, 8, 0x010210000000), (24, 8, 0x20003000), (40, 8, 0x010210001000), (80, 4, 64), (84, 4, 2)])
def progBytes : List Byte := leBytes 256 (packAt
  [(0, 4, 0x50535154), (6, 2, 1), (16, 4, 2), (24, 8, 0x20001000), (84, 4, 64), (88, 4, 2), (104, 8, 0x010210002000)])
def loadMem : List Host.Cell :=
  Memory.write (Memory.write (Memory.write [] 0x20000000 progBytes) 0x20001000 (lookOp ++ headOp)) 0x20003000
    (leBytes 64 (packAt [(0, 4, 0x70000000), (4, 4, 0x3F800000), (8, 4, 2), (12, 4, 64), (40, 4, 1)]))
def loadable (u : State) : State := { u with mem := { u.mem with hbm := loadMem } }
theorem weight_ok (s : State) (h : tensorOk (s.devRead 0x20003000 64) = true) : s.weightOk 1 0x20003000 = true := by
  unfold State.weightOk
  rw [h, show plainScaleOk 1 0x20003000 = true by unfold plainScaleOk; simp [fmtOf, fmtIb, fmtFp8]]
  cases Config.compressedAt 0x20003000 <;> decide
def geom1 : DWord := 0x0000000100100000
theorem record_ok (s : State) (r : List Byte) (fe : Bool) (hw : tensorOk (s.devRead 0x20003000 64) = true)
    (hr : s.recWeights progBytes r = [0x20003000]) (hf : lpwWgt (rLpw r) = 1)
    (h : (s.recWeights progBytes r).all (s.weightOk (lpwWgt (rLpw r))) = true → s.recordOk progBytes geom1 0x100000000 false fe 0 r = true) :
    s.recordOk progBytes geom1 0x100000000 false fe 0 r = true := by
  apply h; rw [hr, hf]; simp [weight_ok s hw]
def loadDesc : W512 := descOf 0x01 [(8, 8, 0x20000000), (16, 8, 0x0000000100100000), (24, 8, 0x100000000)]
theorem witness_PackageDescriptorsAct_loads : let s := alone (loadable (asked3 loadDesc pair3))
    (s.live = true ∧ s.checkDesc 3 loadDesc = none ∧ dOpcode loadDesc = 0x01 ∧ dField loadDesc 8 8 % 64 = 0 ∧ s.readable (dField loadDesc 8 8) 256 = true) ∧
    (s.loadCheck (dField loadDesc 8 8) (BitVec.ofNat 64 (dField loadDesc 16 8)) (BitVec.ofNat 64 (dField loadDesc 24 8))
      (BitVec.ofNat 32 (dField loadDesc 32 4)) (BitVec.ofNat 32 (dField loadDesc 36 4))).1 = [] := by
  intro s
  refine ⟨by decide +kernel, ?_⟩
  have f1 : dField loadDesc 8 8 = 0x20000000 ∧ BitVec.ofNat 64 (dField loadDesc 16 8) = geom1 ∧ BitVec.ofNat 64 (dField loadDesc 24 8) = 0x100000000 ∧
      BitVec.ofNat 32 (dField loadDesc 32 4) = 0 ∧ BitVec.ofNat 32 (dField loadDesc 36 4) = 0 := by decide +kernel
  rw [f1.1, f1.2.1, f1.2.2.1, f1.2.2.2.1, f1.2.2.2.2]
  have hh : s.devRead 0x20000000 256 = progBytes := by decide +kernel
  have hm : s.readList progBytes false = [lookOp, headOp] := by decide +kernel
  have hd : s.readList progBytes true = [] := by decide +kernel
  have hw : tensorOk (s.devRead 0x20003000 64) = true := by decide +kernel
  have r1 : s.recordOk progBytes geom1 0x100000000 false (firstExpert [lookOp, headOp] 0) 0 lookOp = true := by
    refine record_ok s lookOp _ hw (by decide +kernel) (by decide +kernel) fun h => ?_
    unfold State.recordOk; dsimp only; rw [Bool.and_eq_true]; exact ⟨by decide +kernel, h⟩
  have r2 : s.recordOk progBytes geom1 0x100000000 false (firstExpert [lookOp, headOp] 1) 0 headOp = true := by
    refine record_ok s headOp _ hw (by decide +kernel) (by decide +kernel) fun h => ?_
    unfold State.recordOk; dsimp only; rw [Bool.and_eq_true]; exact ⟨by decide +kernel, h⟩
  have hf : (geomOk geom1 && routingOk 0x100000000 && floorOk 0 && wireOk 0 0x100000000 && s.headerOk progBytes geom1 [lookOp, headOp] &&
      listOk false (geoLayers geom1) [lookOp, headOp]) = true := by decide +kernel
  have hg : geoLayers geom1 - 1 = 0 := by decide
  have hp : ([lookOp, headOp].all (recordPair geom1) && [lookOp, headOp].all (fun r => meetsFloor 0 (rLpw r)) &&
      decide (s.draftBytes progBytes geom1 [] ≤ 8 * 2 ^ 30)) = true := by decide +kernel
  unfold State.loadCheck; dsimp only
  rw [hh, hm, hd, hf, hg]
  rw [Bool.and_eq_true, Bool.and_eq_true] at hp
  obtain ⟨⟨h1, h2⟩, h3⟩ := hp
  have ha : ((List.range [lookOp, headOp].length).all fun i => s.recordOk progBytes geom1 0x100000000 false (firstExpert [lookOp, headOp] i) 0
      ([lookOp, headOp].getD i [])) = true := by
    rw [List.all_eq_true]; intro i hi
    have : i = 0 ∨ i = 1 := by simp at hi; omega
    rcases this with rfl | rfl
    · exact r1
    · exact r2
  rw [ha, List.append_nil, h1, h2, if_pos (of_decide_eq_true h3)]; rfl
theorem witness_PackageDescriptorsAct_unload : let d := descOf 0x02 []
    let s : State := { asked3 d pair3 with model := some { steepProg := 0, attnGeom := 0, routing := 0, floor := 0, wire := 0, header := [], draftOps := [], mainOps := [] } }
    s.live = true ∧ passes s d ∧ dOpcode d = 0x02 := by decide +kernel
/-- The manager of nodes 0 and 1 with a loaded model and the given arm in progress. -/
def arms (d : W512) (a : Option Arming) : State := { asked3 d pair3 with
  dom := { node := 1, members := 3, role := .manager, arm := a }, disc := { inDomain := true }
  model := some { steepProg := 0, attnGeom := 0xFFFFFFFFFFFFF00F, routing := 0, floor := 0, wire := 0, header := [], draftOps := [], mainOps := [] } }
/-- The same with the idle bank built for the model. -/
def armsBuilt (d : W512) : State :=
  { arms d none with caddy := { (arms d none).caddy with bankB := { State.reset.caddy.bankB with built := true, gen := 2, geom := 0xFFFFFFFFFFFFF00F } } }
theorem witness_PackageDescriptorsAct_arm : let d (a : Nat) := descOf 0x03 [(8, 4, 2), (16, 8, a), (24, 4, 1)]
    let s := arms (d 0x20000000) none
    let t : State := { s with mem := { s.mem with badBursts := [0x20000000 / 64] } }
    let e : HomeEntry := ⟨0, 0, false, 0, 0, 0⟩
    s.live = true ∧ passes s (d 0x20000000) ∧ dOpcode (d 0) = 0x03 ∧ s.dom.arm.isSome = false ∧
    (arms (d 0x20000000) (some ⟨2, ⟨1, [0, 1], []⟩, [1], 0, false⟩)).dom.arm.isSome = true ∧
    (alone s).readHomeTable 0x20000000 = some [e] ∧ passes t (d 0x20000000) ∧ (alone t).readHomeTable 0x20000000 = none ∧
    (alone s).armCheck 2 ⟨1, s.memberList, [e]⟩ ≠ 0 ∧ passes (armsBuilt (d 0x20000000)) (d 0x20000000) ∧
    (alone (armsBuilt (d 0x20000000))).armCheck 2 ⟨1, s.memberList, [e]⟩ = 0 ∧
    passes (arms (descOf 0x04 []) none) (descOf 0x04 []) ∧ dOpcode (descOf 0x04 []) = 0x04 := by
  decide +kernel
/-- A package of a domain with tenant 1 as given and class 0 usable or not. -/
def tenants (op : Nat) (d : Domain) (e : Tenant) (ch : Nat) : State := { asked3 (descOf op [(2, 2, 0x0010)]) pair3 with
  dom := d, disc := { inDomain := true }, eng := { State.reset.eng with tenants := [(1, e)] }
  mem := { (tiered [] []).mem with classCh := [(0, BitVec.ofNat 512 ch)], classWays := [(0, 0x0001000100010001)] } }
theorem witness_PackageDescriptorsAct_tenants : let t (op : Nat) := descOf op [(2, 2, 0x0010)]
    let s (op : Nat) (d : Domain) := tenants op d { valid := true } 1
    (s 0x08 {}).live = true ∧ (∀ op ∈ [0x08, 0x09, 0x0A, 0x0B], passes (s op {}) (t op) ∧ dOpcode (t op) = op ∧ (s op {}).noSteeps = true ∧
      passes (s op { state := .service }) (t op) ∧ (s op { state := .service }).noSteeps = false) ∧
    dTenant (t 0x08) = 1 ∧ (s 0x08 {}).classUsable (dClass (t 0x08)) = true ∧ ((s 0x08 {}).tenant 1).valid = true ∧
    ((s 0x08 {}).tenant 1).openSeqs = 0 ∧ passes (tenants 0x08 {} {} 1) (t 0x08) ∧ ((tenants 0x08 {} {} 1).tenant 1).valid = false ∧
    passes (tenants 0x08 {} {} 0) (t 0x08) ∧ (tenants 0x08 {} {} 0).classUsable (dClass (t 0x08)) = false ∧
    passes (tenants 0x08 {} { valid := true, cls := 5, openSeqs := 1 } 1) (t 0x08) ∧
    passes (tenants 0x09 {} { valid := true, openSeqs := 1 } 1) (t 0x09) := by
  decide +kernel
theorem witness_PackageDescriptorsAct_object : let d := descOf 0x20 [(16, 8, 0x200000000000), (24, 8, 0x10000), (40, 4, 0x40000001)]
    (asked3 d pair3).live = true ∧ passes (asked3 d pair3) d ∧ dOpcode d = 0x20 := by decide +kernel
/-- A package with tenant 0 and sequence 4 of ring 3 in the given state. -/
def sequenced (d : W512) (st : SeqState) (dom : Domain) : State := { asked3 d pair3 with
  dom := dom, disc := { inDomain := true }
  eng := { State.reset.eng with tenants := [(0, { valid := true, openSeqs := 1 })], seqs := [(4, { state := st, ring := 3, committed := 9 })] }
  model := some { steepProg := 0, attnGeom := 0, routing := 0, floor := 0, wire := 0, header := [], draftOps := [], mainOps := [] } }
theorem witness_SequenceDescriptorsAct : let prompt := descOf 0x11 [(8, 4, 4), (24, 4, 32769)]
    let set_ := descOf 0x12 [(28, 4, 0x02000004)]
    let of_ (op : Nat) := descOf op [(8, 4, 4)]
    let service : Domain := { state := .service }
    (sequenced prompt .idle service).live = true ∧ passes (sequenced (descOf 0x10 []) .idle service) (descOf 0x10 []) ∧ dOpcode (descOf 0x10 []) = 0x10 ∧
    (∀ st ∈ [SeqState.idle, .finished], passes (sequenced prompt st service) prompt) ∧ dOpcode prompt = 0x11 ∧ 32768 < dField prompt 24 4 ∧
    (sequenced prompt .idle service).err.handling = [] ∧
    (∀ d ∈ [service, {}], passes (sequenced set_ .decode d) set_ ∧ ∀ op ∈ [0x13, 0x14, 0x15], passes (sequenced (of_ op) .decode d) (of_ op) ∧
      dOpcode (of_ op) = op) ∧ dOpcode set_ = 0x12 ∧ dField set_ 28 4 % 2 ^ 20 = 4 ∧ ((sequenced set_ .decode {}).seq 4).state ≠ .free ∧
    (sequenced set_ .decode service).noSteeps = false ∧ (sequenced set_ .decode {}).noSteeps = true := by
  decide +kernel
/-- Ring 3's one accepted descriptor is to be acted on. -/
abbrev acts (d : W512) : Prop := passes (asked3 d pair3) d ∧ (asked3 d pair3).controlBefore ⟨3, d⟩ = false
theorem witness_LongOperationsRun_start : acts (descOf 0x21 [(8, 4, 3), (32, 8, 1)]) ∧ acts (descOf 0x28 []) := by decide +kernel
theorem witness_LongOperationsRun_start2 : acts (descOf 0x29 []) ∧ acts (descOf 0x2A [(8, 4, 3)]) ∧
    bcFunc (descOf 0x21 [(8, 4, 3), (32, 8, 1)]) = 0 ∧ dOpcode (descOf 0x21 [(8, 4, 3), (32, 8, 1)]) = 0x21 := by decide +kernel
/-- The parameter block of a bulk copy from FP32 lines: its first word, lines and elements of a line. -/
def params (w lines k : Nat) : List Byte :=
  leBytes 64 (packAt [(0, 4, w), (4, 4, 0x3F800000), (8, 4, 0x3F800000), (16, 4, lines), (20, 4, k), (32, 8, 0x24000000), (40, 8, 0x26000000), (48, 8, 4096)])
/-- Its descriptor. -/
def bulkDesc (f : Nat) : W512 := descOf 0x21 [(8, 4, putBits f 31 28), (16, 8, 0x30000000), (24, 8, 0x21000000), (40, 8, 0x22000000)]
theorem witness_LongOperationsRun_bulk :
    let s (f : Nat) (p : List Byte) : State := { asked3 (bulkDesc f) pair3 with mem := { (tiered [] []).mem with hbm := Memory.write [] 0x22000000 p } }
    let conv := leBytes 64 (packAt [(4, 4, 0x3F800000), (8, 4, 0x3F800000), (16, 4, 1), (20, 4, 1)])
    passes (s 1 conv) (bulkDesc 1) ∧ bcFunc (bulkDesc 1) = 1 ∧ (s 1 conv).controlBefore ⟨3, bulkDesc 1⟩ = false ∧
    passes (s 2 (params (putBits 9 27 24 + putBits 1 23 19) 1 1)) (bulkDesc 2) ∧ bcFunc (bulkDesc 2) = 2 := by
  decide +kernel
theorem witness_LongOperationsRun_control : let d (op : Nat) := descOf op [(8, 4, 5)]
    let s (op : Nat) (k : OpKind) (st : OpState) : State := { asked3 (d op) pair3 with longOps := [(5, bulk k st)] }
    (∀ op ∈ [0x30, 0x31, 0x32, 0x33], dOpcode (d op) = op ∧ ∀ st ∈ [OpState.running, .suspendPending, .suspended, .cancelPending, .resumePending],
      passes (s op .copy st) (d op) ∧ (s op .copy st).controlBefore ⟨3, d op⟩ = false) ∧
    (s 0x30 .copy .running).longOps.find? (dField (d 0x30) 8 4) = some (bulk .copy .running) := by
  decide +kernel
/-- A long operation 5 alone, with the build of the idle bank that a build or install has. -/
def operated (o : LongOp) (b : Option Build) : State :=
  { tiered [] [] with longOps := [(5, o)], caddy := { (tiered [] []).caddy with build := b } }
theorem witness_LongOperationsRun_points : (bulk .convert .running).pointAt opStep = true ∧ (bulk .convert .running).pointAt 1 = false ∧
    (bulk .convert .suspendPending).working = true ∧ (bulk .copy .suspended).working = false ∧
    (operated (bulk .convert .running) none).bulkFault (bulkReads 0 []) (bulkWrites 0 [] ++ bulkHeader 0) = none ∧
    (bulk .scrub .running).pointAt opStep = true ∧ (bulk .scrub .cancelPending).working = true := by decide +kernel
theorem witness_LongOperationsRun_copies : let h := { bulk .copy .running with desc := descOf 0x21 [(8, 4, 3)] }
    let m := { bulk .copy .running with desc := descOf 0x21 [(8, 4, 1), (24, 8, 0x21000000)] }
    bcFunc h.desc = 0 ∧ bcSrcHost h.desc = true ∧ bcDstHost h.desc = true ∧ h.pointAt opStep = true ∧ bcFunc m.desc = 0 ∧ bcSrcHost m.desc = true ∧
    bcDstHost m.desc = false ∧ m.pointAt opStep = true ∧ (operated m none).checkWrite (bcDst m.desc + 0) (opStep - 0) = none := by decide +kernel
/-- A compress whose first pass has chosen the rate of every segment of its 64 MiB of source. -/
def compressing : LongOp :=
  { bulk .compress .running with desc := bulkDesc 2, param := params (putBits 9 27 24 + putBits 1 23 19) 65536 256, rates := List.replicate 1024 0 }
theorem witness_LongOperationsRun_compress : let o := compressing
    let s := operated o none
    s.longOps.find? 5 = some o ∧ o.working = true ∧ o.pointAt opStep = true ∧
    s.bulkFault (bulkReads o.desc o.param) (bulkWrites o.desc o.param ++ bulkHeader o.desc) = none ∧ bulkOverlap o.desc o.param = false ∧
    (s.compressTo o opStep).1 = 0 := by decide +kernel
theorem witness_LongOperationsRun_ends : let o := { bulk .copy .running with desc := descOf 0x21 [(8, 4, 3)], total := 4 }
    let b : Build := { handle := 5, bank := 1, hdr := some image, chunksDone := 1 }
    let s := operated (bulk .install .running) (some b)
    bcFunc o.desc = 0 ∧ bcSrcHost o.desc = true ∧ bcDstHost o.desc = true ∧ o.total ≤ o.nextPoint ∧ o.working = true ∧
    ({ bulk .scrub .running with total := 4 } : LongOp).total ≤ ({ bulk .scrub .running with total := 4 } : LongOp).nextPoint ∧
    s.caddy.build = some b ∧ b.chunksDone = image.chunks ∧ s.start.quiesced = false ∧ (bulk .build .running).working = true := by decide +kernel
theorem witness_ObjectsAndMessagesWork_sync : let add := descOf 0x38 [(8, 2, 5), (16, 8, 0xFFFFFFFFFFFFFFFF)]
    let wait (thr : Nat) := descOf 0x39 [(8, 2, 5), (16, 8, thr), (24, 4, 2)]
    (asked3 add pair3).live = true ∧ passes (asked3 add pair3) add ∧ dOpcode add = 0x38 ∧ (∀ k ∈ [0, 1], passes (asked3 (wait k) pair3) (wait k)) ∧
    dOpcode (wait 0) = 0x39 ∧ (asked3 (wait 1) pair3).objGet (dField (wait 1) 8 2) < dField (wait 1) 16 8 ∧
    dField (wait 0) 16 8 ≤ (asked3 (wait 0) pair3).objGet (dField (wait 0) 8 2) := by
  decide +kernel
/-- Node 1 of nodes 0 and 1 with a domain port 0 and a plain port 1, its message buffer readable or not. -/
def sends (d : W512) (bad : List Nat) : State := { asked3 d pair3 with
  dom := { node := 1, members := 3 }, disc := { inDomain := true, portKind := [(0, 1)] }, mem := { (tiered [] []).mem with badBursts := bad } }
theorem witness_ObjectsAndMessagesWork_send :
    let d (port node : Nat) := descOf 0x3A [(8, 4, port), (16, 8, putBits node 31 24), (24, 8, 0x20000000), (32, 4, 4)]
    dOpcode (d 0 1) = 0x3A ∧ (∀ bad ∈ [[], [0x20000000 / 64]], passes (sends (d 0 1) bad) (d 0 1)) ∧ (sends (d 0 1) []).readable 0x20000000 4 = true ∧
    (sends (d 0 1) [0x20000000 / 64]).readable 0x20000000 4 = false ∧ dField (d 0 1) 24 8 = 0x20000000 ∧ dField (d 0 1) 32 4 = 4 ∧
    (sends (d 0 1) []).messageRoute 0 (BitVec.ofNat 64 (dField (d 0 1) 16 8)) = true ∧ passes (sends (d 0 0) []) (d 0 0) ∧
    (sends (d 0 0) []).messageRoute 0 (BitVec.ofNat 64 (dField (d 0 0) 16 8)) = false := by
  decide +kernel
theorem witness_ObjectsAndMessagesWork_timeouts : let w : Waiting := ⟨3, 0, .sync 5 1 0 2⟩
    let m : MsgOut := { ring := some 3, port := 0, dest := 62, number := 1, bytes := [], sentAt := 0 }
    let s (c : Nat) (m : MsgOut) : State := { tiered [] [] with waiting := [w], time := { count := BitVec.ofNat 64 c }, fab := { msgOut := [m] } }
    (s 5000 m).waiting[0]? = some w ∧ 2 * 25 ≤ ((s 5000 m).time.count - 0).toNat ∧ ((s 49 m).time.count - 0).toNat < 2 * 25 ∧
    (s 5000 m).fab.msgOut[0]? = some m ∧ 5000 ≤ ((s 5000 m).time.count - m.sentAt).toNat ∧ m.retries < 4 ∧
    ((s 4999 m).time.count - m.sentAt).toNat < 5000 ∧ 4 ≤ ({ m with retries := 4 } : MsgOut).retries := by decide +kernel
/-- A message of a ring or of the domain that waits for its acknowledgement. -/
def outMsg (r : Option Nat) (dest : DWord) : MsgOut := { ring := r, port := 0, dest := dest, number := 1, bytes := [], sentAt := 0 }
def ackPkt (dest : DWord) : FabPkt := { blankPkt with op := 0x98, addr := dest, dseq := 1 }
theorem acked (m : MsgOut) (p : FabPkt) (h1 : m.dest = p.addr) (h2 : BitVec.ofNat 32 m.number = p.dseq) :
    ({ tiered [] [] with fab := { msgOut := [m] } } : State).ackedMessage p = some m := by
  simp [State.ackedMessage, h1, h2]
theorem witness_ObjectsAndMessagesWork_acks :
    (∀ r dest, ({ tiered [] [] with fab := { msgOut := [outMsg r dest] } } : State).ackedMessage (ackPkt dest) = some (outMsg r dest)) ∧
    (ackPkt 62).op = 0x98 ∧ (ackPkt 62).rsvd = 0 ∧ bits (outMsg none 62).dest.toNat 5 0 = 62 ∧ bits (outMsg none 63).dest.toNat 5 0 = 63 ∧
    (outMsg (some 3) 63).ring.isSome = true ∧ (outMsg none 62).ring = none :=
  ⟨fun _ _ => acked _ _ rfl rfl, by decide +kernel⟩
theorem witness_ObjectsAndMessagesWork_message : let p : FabPkt := { blankPkt with op := 0x18, dst := 1, dseq := 1, addr := 62, payload := [7] }
    let s : State := { tiered [] [] with dom := { node := 1, members := 3, role := .standby }, disc := { inDomain := true } }
    let dup : State := { s with fab := { lastMsg := [(0, p.src, p.srcDie, p.addr, p.dseq)] } }
    s.live = true ∧ p.rsvd = 0 ∧ p.dst = s.dom.node ∧ p.operand.toNat < 2 ^ 48 ∧ s.isMember p.src = true ∧ p.operand.toNat / 2 ^ 27 + 1 ≤ 4096 ∧
    p.operand.toNat / 2 ^ 18 % 512 = 0 ∧ p.payload.length = p.operand.toNat / 2 ^ 27 + 1 ∧ s.fab.lastMsg = [] ∧ s.fab.msgIn = [] ∧
    (0, p.src, p.srcDie, p.addr, p.dseq) ∈ dup.fab.lastMsg ∧ (s.post (p.addr.toNat % 64) p.payload p.src p.srcDie 0).isSome = true ∧
    (({ s with dom := { s.dom with role := .worker } } : State).post (p.addr.toNat % 64) p.payload p.src p.srcDie 0).isNone = true := by decide +kernel

end Descriptors

/-! ## Witnesses: Steeps, routing and tiles (spec 01, 03 to 08, 10, 18) -/

namespace Serving

/-- Node 1 of nodes 0 and 1 in SERVICE, with one release record in mailbox 63 and the given steep. -/
def released (r : RelRec) (st : Steep) : State :=
  let msg := relBytes r
  let hbm := Memory.write (Memory.write (Memory.write [] (objAddr (0xFF80 + 126)) [1]) (noticeAddr 63 0)
    (leBytes 16 (packAt [(0, 8, bufferAddr 0), (8, 4, msg.length)]))) (bufferAddr 0) msg
  { up with
    dom := { node := 1, members := 3, state := .service }, disc := { inDomain := true }, steep := st
    mem := { State.reset.mem with sliceLocal := 4096, hbm := hbm }, eng := { State.reset.eng with seqs := [(4, { committed := 9 })] } }
/-- A release that closes steep 7 with REPEAT. -/
def rel7 : RelRec := ⟨7, 8, 0, 0, 0, .service, false, false, false, true⟩
theorem witness_ReleasesAreApplied : let s := released rel7 { running := true, number := 7 }
    s.relHead = some rel7 ∧ s.serving = true ∧ s.steep.running = true ∧ rel7.open_ = false ∧ rel7.adopt = false ∧ rel7.closed = s.steep.number ∧
    rel7.repeat_ = true ∧ s.longOps = [] ∧ (∀ p ∈ s.eng.seqs, p.2.closing = false) ∧ s.err.handling = [] ∧ up.relHead = none ∧
    (released rel7 { running := true, number := 6 }).relHead = some rel7 ∧ rel7.closed ≠ 6 := by decide +kernel
theorem witness_ReleasesAreApplied_others :
    (released { rel7 with open_ := true, repeat_ := false } {}).relHead = some { rel7 with open_ := true, repeat_ := false } ∧
    (released { rel7 with adopt := true, repeat_ := false } {}).relHead = some { rel7 with adopt := true, repeat_ := false } ∧
    (released rel7 {}).rte.next = none ∧ (released rel7 {}).steep.running = false ∧ (released rel7 {}).rte.table.rev = rel7.htRev ∧
    ({ released rel7 {} with rte := { table := { members := [0, 1] } } } : State).memberList = sortBy (· ≤ ·) [0, 1] ∧
    (released { rel7 with state := .bringup } { running := true, number := 7 }).relHead = some { rel7 with state := .bringup } := by
  decide +kernel
/-- Output lines of the one operation below go here. -/
def outAt : Nat := 0x010210000000
/-- A matrix operation of one element to a line whose lines leave in FP32 at `outAt`. -/
def plainOp : List Byte :=
  leBytes 128 (packAt [(3, 1, 2), (16, 8, outAt + 4096), (24, 8, outAt + 8192), (40, 8, outAt), (80, 4, 1), (84, 4, 1)])
/-- A steep program of one such operation in each list, its records at 0x20000000 and 0x20001000, its batch area at 0x20002000. -/
def program : Model :=
  { steepProg := 0x1FFFF000, attnGeom := 0xFFFFFFFFFFFFFFFF, routing := 0, floor := 0, wire := 0
    header := leBytes 256 (packAt [(4, 4, 1), (16, 4, 1), (20, 4, 1), (24, 8, 0x20001000), (32, 8, 0x20000000), (104, 8, 0x20002000)])
    draftOps := [plainOp], mainOps := [plainOp] }
/-- The memory of that program with the given main record. -/
def programMem (main : List Byte) : Mem := { State.reset.mem with
  sliceLocal := 4096, sliceShared := 4096
  hbm := Memory.write (Memory.write (Memory.write [] 0x20000000 plainOp) 0x20001000 main) 0x20002000 (leBytes 8 0x100000001) }
/-- A package that runs the program for sequence 4 in decode. -/
def running (st : Steep) : State := { up with
  model := some program, mem := programMem plainOp
  steep := { st with running := true, batch := [{ seq := 4, lines := 1, firstPos := 9, firstRow := 0, prefill := false, final := false
                                                  draft := 0, probe := false, tokens := [1], die := 0 }] }
  eng := { State.reset.eng with seqs := [(4, { state := .decode, committed := 9 })] } }
/-- A run of the first operation of a list over one line, whose result is in. -/
def run0 (draft : Bool) : OpRun := { draft := draft, index := 0, expert := 0, lines := 1, sums := [(0, 0, [0x3F800000])] }
theorem witness_SteepProgramRuns_issue : let s := running { draftPasses := 1 }
    s.model = some program ∧ s.live = true ∧ s.issueReady program false 0 none = true ∧ (running {}).issueReady program true 0 none = true ∧
    (running {}).issueReady program false 0 none = false ∧ s.readable ((hList program.header false).1 + 128 * 0) 128 = true ∧
    meetsFloor program.floor (rLpw (s.record_ program false 0)) = true ∧ s.issueLines program false none = 1 ∧
    s.err.handling = [] ∧ s.err.silent = false := by decide +kernel
theorem witness_SteepProgramRuns_output : let s := running { draftPasses := 1, issued := [run0 false] }
    let r := s.record_ program false 0
    let l : OpLine := ⟨4, 9, 1⟩
    s.steep.running = true ∧ s.steep.staged8 = false ∧ s.completeAll = s ∧ s.runOf false 0 0 = some (run0 false) ∧ s.runOf true 0 0 = none ∧
    (run0 false).done = false ∧ s.resultsIn (run0 false) r = true ∧ escalates (rLpw r) = false ∧ s.comp.tiles = [] ∧ s.routedList = [] ∧
    (run0 false).lines = 1 ∧ s.ownLines false = [l] ∧ s.gone 4 = false ∧ rKind r = 2 ∧ rAct r = 0 ∧ rScale r = 0 ∧ rBias r = false ∧
    rNormk r = 0 ∧ rResid r = false ∧ rSteer r = false ∧ rKvw r = false ∧ rEscw r = false ∧ lpwNact (rLpw r) = 0 ∧
    lpwSround (rLpw r) = false ∧ fmtOf (lpwOut (rLpw r)) = some .fp32 ∧ (run0 false).line 0 (opBlocks r) (rN r) = some [0x3F800000] ∧
    s.rowFault program false (run0 false) r 0 l = none ∧ s.checkWrite (rOut r) (4 * 1) = none ∧ s.mem.classDrop = [] := by decide +kernel
/-- An EXPERT operation of an empty contraction after a ROUTER. -/
def expertOp : List Byte := leBytes 128 (packAt [(3, 1, 5), (40, 8, outAt), (84, 4, 1)])
def routeOp : List Byte :=
  leBytes 128 (packAt [(3, 1, 4), (16, 8, outAt + 4096), (24, 8, outAt + 8192), (40, 8, outAt), (80, 4, 1), (84, 4, 1)])
/-- A model of those two records at 0x20001000, lines of 256 elements, dispatched as compressed leaves of rate code 0. -/
def routed : Model := { program with
  routing := 0x0A00000000, wire := 8, mainOps := [routeOp, expertOp]
  header := leBytes 256 (packAt [(4, 4, 1), (16, 4, 2), (20, 4, 1), (24, 8, 0x20001000), (32, 8, 0x20000000), (84, 4, 256), (104, 8, 0x20002000)]) }
/-- Node 1 of nodes 0 and 1 that runs it and homes its one expert, with a line of node 0 in a receive area at a host address. -/
def expertRuns (issued : List OpRun) (r : Route) : State := { running { issued := issued, number := 5 } with
  model := some routed, mem := programMem (routeOp ++ expertOp), dom := { node := 1, members := 3, manager := 0 }, disc := { inDomain := true }
  rte := { r with
    quotaMembers := [0, 1], recvBase := 0x300000000000, table := { members := [0, 1], entries := [⟨1, 0, false, 0, 0, 2⟩] }
    lines := [{ src := 0, expert := 0, slot := 0, layer := 0, homeNode := 1, tag := 0, steep := 5 }] } }
/-- The expert's run over that line. -/
def run1 : OpRun := { draft := false, index := 1, expert := 0, lines := 1, sums := [(0, 0, [0])] }
theorem witness_SteepProgramRuns_expert : let s := expertRuns [run1] {}
    s.model = some routed ∧ s.live = true ∧ s.steep.running = true ∧ s.steep.staged8 = false ∧ s.completeAll = s ∧ s.runOf false 1 0 = some run1 ∧
    rKind (s.record_ routed false 1) = 5 ∧ run1.done = false ∧ s.expertIn_ run1 (s.record_ routed false 1) = true ∧
    (s.openLines run1 (s.record_ routed false 1)).length = 1 := by decide +kernel
theorem witness_SteepProgramRuns_escalation : let k : OpRun := { run0 false with kept := [(0, [0x3F800000])], jumped := [0] }
    let s := running { draftPasses := 1, issued := [k] }
    s.runOf false 0 0 = some k ∧ s.steep.running = true ∧ k.jumped ≠ [] ∧ k.done = false ∧ (run0 false).jumped = [] ∧ s.runOf false 1 0 = none := by
  decide +kernel
theorem witness_SteepProgramRuns_draft : let s := running { issued := [{ run0 true with done := true }] }
    program.hasDraft = true ∧ s.steep.draftPasses + 1 ≤ s.draftTop ∧ s.steep.stopped = none ∧ s.opDone true (program.headAt true) = true ∧
    (running { issued := [run0 true] }).opDone true (program.headAt true) = false := by decide +kernel
theorem witness_SteepProgramRuns_verify : let s := running { draftPasses := 1, issued := [{ run0 false with done := true }] }
    s.opDone false (program.headAt false) = true ∧ (running {}).opDone false (program.headAt false) = false ∧ s.routedList = [] ∧
    (∀ b ∈ s.steep.batch, s.gone b.seq = false ∧ b.prefill = false ∧ ((s.steep.drafts.get [] b.seq).take b.draft).length = b.draft ∧
      s.logitFault program false (BatchItem_rows b) = none ∧
      (verify (s.seq b.seq) (b.firstPos + 1) ((s.steep.drafts.get [] b.seq).take b.draft) ((BatchItem_rows b).map (s.logits program false))).isSome = true) ∧
    s.steep.staged = [] := by decide +kernel
theorem witness_SteepProgramRuns_stage :
    (running { draftPasses := 1, issued := [{ run0 false with done := true }], staged := [⟨4, [(1, false)], 0, 0, false, false⟩] }).stageReady = true ∧
    (running {}).stageReady = false ∧ (running {}).serving = true ∧ (running {}).steep.staged8 = false := by decide +kernel
/-- Node 1 of nodes 0 and 1 in steep 5, with the given routing state and a quota of one line each for expert 0 of layer 0. -/
def routing (r : Route) : State := { up with
  model := some { program with routing := 1, mainOps := [leBytes 128 (packAt [(3, 1, 4)])] }
  steep := { running := true, number := 5, ended := [8], failed := [9] }, dom := { node := 1, members := 3, manager := 0 }, disc := { inDomain := true }
  rte := { r with quotaMembers := [0, 1], table := { members := [0, 1], entries := List.replicate 64 ⟨1, 0, false, 0, 0, 2⟩ } } }
def routePkt (ptype : Nat) : RoutePkt :=
  { src := 0, steep := 5, layer := 0, homeNode := 0, ptype := ptype, slot := 0, expert := 0, elems := 0, localExpert := 0, tag := 0, fmt := 0
    rowScale := 0, count := 1, payload := [] }
theorem witness_RoutingPacketsAreFiltered : let s := routing {}
    s.live = true ∧ (routePkt 5).ptype = 5 ∧ s.steepness 5 = .current ∧ s.steepness 4 = .old ∧ s.steepness 6 = .next ∧ s.steepness 7 = .far ∧
    s.quota 0 0 0 = 1 ∧ s.rte.lines = [] ∧ s.rte.dispEnds = [] ∧ s.rte.pourEnds = [] ∧ s.pourChoice (routePkt 3) = none ∧
    s.err.handling = [] ∧ s.err.silent = false := by decide +kernel
theorem witness_RoutingPacketsAreFiltered_kept :
    let c (q : Nat) (p : Option (List Word)) : Choice := { layer := 0, row := 0, seq := q, pos := 0, k := 0, expert := 0, node := 0, slot := 0, tag := 0, gate := 0, pour := p }
    let s (q : Nat) (p : Option (List Word)) := routing { lines := [⟨0, 0, 0, 0, 0, 0, 5, 0, none, false⟩], dispEnds := [⟨0, 0, 1, 5⟩], pourEnds := [⟨0, 0, 1, 5⟩], choices := [c q p] }
    (∃ l ∈ (s 4 none).rte.lines, l.src = 0 ∧ l.layer = 0 ∧ l.expert = 0 ∧ l.slot = 0) ∧ (∃ d ∈ (s 4 none).rte.dispEnds, d.layer = 0 ∧ d.node = 0) ∧
    (∃ d ∈ (s 4 none).rte.pourEnds, d.layer = 0 ∧ d.node = 0) ∧ (s 4 none).pourChoice (routePkt 3) = some (c 4 none) ∧
    (s 8 none).pourChoice (routePkt 3) = some (c 8 none) ∧ 8 ∈ (s 8 none).steep.ended ∧ (s 9 none).pourChoice (routePkt 3) = some (c 9 none) ∧
    9 ∉ (s 9 none).steep.ended ∧ 9 ∈ (s 9 none).steep.failed ∧ (s 4 (some [])).pourChoice (routePkt 3) = some (c 4 (some [])) ∧
    (s 4 none).gone 4 = false ∧ (routePkt 3).elems = 0 := by decide +kernel
theorem witness_RoutingSendsOnce : let s := expertRuns [{ run0 false with done := true }] {}
    s.live = true ∧ s.model = some routed ∧ routed.routerOf 0 = some 0 ∧ 0 ∉ s.rte.dispSent ∧ s.steep.running = true ∧ s.opDone false 0 = true ∧
    s.layersBefore 0 = true ∧ (s.routeRows routed 0 (s.record_ routed false 0)).length = 1 ∧ rBias2 (s.record_ routed false 0) = 0 ∧
    (∀ w ∈ s.routeRows routed 0 (s.record_ routed false 0), s.routeFault routed (s.record_ routed false 0) w.row = none ∧ badRow [] w.logits = false) ∧
    0 ∈ (expertRuns [] { dispSent := [0] }).rte.dispSent := by decide +kernel
theorem witness_RoutingSendsOnce_pours : let s := expertRuns [] { shaped := [0] }
    s.openLine 0 0 1 = none ∧ (s.openLine 0 0 0).map (fun l => (l.layer, l.out)) = some (0, none) ∧ s.expertStopped 0 = false ∧
    (({ s with steep := { s.steep with stopped := some (false, 1) } } : State).expertStopped 0 = true) ∧ 0 ∈ s.rte.shaped ∧ 1 ∉ s.rte.shaped ∧
    s.steep.running = true ∧ s.disc.inDomain = true := by decide +kernel
theorem witness_RoutingSendsOnce_revisions : let s := { routing {} with model := none }
    s.checkRevision ⟨1, [0, 1], []⟩ = none ∧ (routing {}).checkRevision ⟨1, [0, 1], []⟩ = some 0 := by decide +kernel
/-- The work item of the first main operation's one line and column. -/
def item : WorkItem := { draft := false, index := 0, expert := none, group := 0, block := 0 }
/-- The work item of the expert's line. -/
def wireItem : WorkItem := { draft := false, index := 1, expert := some 0, group := 0, block := 0 }
def tileLast : TileAt := ⟨3, 63, 1⟩
def withTile (s : State) (k : Tile) (r : List Nat) : State :=
  { s with comp := { State.reset.comp with tiles := [(tileKey 3 127, k)], refetch := r } }
/-- The state in which the tile checks its new item. -/
def fresh : State := withTile (running { draftPasses := 1, issued := [{ run0 false with sums := [] }] }) {} []
def fed : State :=
  ((fresh.flushTile tileLast).onTile tileLast fun k => { k with items := [item] }).onTile tileLast fun k => { k with shadow := some (item, 0), gap := 0 }
def weight0 : Wgt := ⟨outAt + 8192, .fp32, 1, 1⟩
theorem fed_weight : fed.opWgt program (fed.itemRecord item) 0 = weight0 := by
  have h : rKind (fed.itemRecord item) = 2 ∧ rWgt (fed.itemRecord item) = outAt + 8192 ∧ rN (fed.itemRecord item) = 1 ∧ rK (fed.itemRecord item) = 1 ∧
      lpwWgt (rLpw (fed.itemRecord item)) = 0 := by decide +kernel
  unfold State.opWgt; dsimp only
  rw [h.1, if_neg (by decide), h.2.1, h.2.2.1, h.2.2.2.1, h.2.2.2.2]
  unfold State.wgtAt
  cases Config.compressedAt (outAt + 8192) <;> decide +kernel
theorem fed_leaves : fed.linePieces weight0 0 = [] := by
  unfold State.linePieces; cases Config.compressedAt weight0.addr <;> decide +kernel
theorem fed_scale (s : State) (a : Nat) (b : List Byte) : s.pieceOk (Wgt.scalePiece ⟨a, .fp32, 1, 1⟩) b = true := by
  unfold State.pieceOk Wgt.scalePiece; dsimp only; cases Config.compressedAt a <;> rfl
theorem witness_TilesAndEnginesGoOn_items :
    fresh.live = true ∧ fresh.steep.running = true ∧ fresh.steep.staged8 = false ∧ fresh.tileFree tileLast = true ∧ fresh.itemOk item = true ∧
    fresh.comp.reissue = [] ∧ fresh.err.handling = [] ∧ fresh.err.silent = false ∧ fresh.eng.primary = true ∧ fresh.eng.mirror = true ∧
    fresh.mem.rebuild = false ∧ fresh.cosy = true ∧ fresh.withheld tileLast = false ∧ (fresh.tileOf tileLast).ramp = 0 ∧
    fresh.requestPending tileLast = false ∧ (fresh.tileOf tileLast).hold = none := by decide +kernel
theorem witness_TilesAndEnginesGoOn_feeds : (∀ p ∈ fed.itemRanges item, fed.readFault p = none) ∧
    ∀ p ∈ fed.itemPieces item, ∃ b, fed.readPiece [] (fed.itemPieces item) p = some (false, b) := by
  have hm : fed.model = some program := rfl
  have hr : fed.itemRun item = some { run0 false with sums := [] } := by decide +kernel
  have hc : itemCols (fed.itemRecord item) item = [0] := by decide +kernel
  have hk : rKind (fed.itemRecord item) = 2 := by decide +kernel
  refine ⟨?_, ?_⟩
  · have hw : ∀ p ∈ fed.wgtRanges weight0 0, fed.readFault p = none := by
      unfold State.wgtRanges; rw [fed_leaves]; cases Config.compressedAt weight0.addr <;> decide +kernel
    have hi : ∀ p ∈ ((itemRows { run0 false with sums := [] } item).flatMap fun i =>
        lineRanges (actFmt (fed.itemRecord item)) 1 (rK (fed.itemRecord item)) (rIn (fed.itemRecord item)) i), fed.readFault p = none := by decide +kernel
    unfold State.itemRanges
    rw [hm, hr]; dsimp only
    rw [hc, hk, show item.expert.getD 0 = 0 from rfl, fed_weight, if_neg (by decide)]
    intro p hp
    rcases List.mem_append.mp hp with h | h
    · exact hw p (by simpa using h)
    · exact hi p h
  · have hp : fed.itemPieces item = [Wgt.scalePiece weight0] := by
      unfold State.itemPieces
      rw [hm]; dsimp only
      rw [hc, hk, show item.expert.getD 0 = 0 from rfl, fed_weight]
      simp [fed_leaves]
    rw [hp]
    intro p h
    rw [List.mem_singleton.mp h]
    exact ⟨_, if_pos (fed_scale fed _ _)⟩
/-- The expert's tile in a hold for the line's leaf, which memory does not hold. -/
def holding (w : Tile) (r : List Nat) : State := withTile (expertRuns [{ run1 with sums := [] }] { shaped := [0] }) w r
def wireLeaf : Piece := { tensor := 0x300000000000, index := 0, fmt := .ib4, rate := 0, addr := 0x300000000000, entryOk := true, scale := false }
theorem holding_bad (s : State) (hm : s.model = some routed)
    (h : rKind (s.itemRecord wireItem) = 5 ∧ rWgt (s.itemRecord wireItem) = 0 ∧ rN (s.itemRecord wireItem) = 1 ∧
      rK (s.itemRecord wireItem) = 0 ∧ lpwWgt (rLpw (s.itemRecord wireItem)) = 0 ∧ (s.localExpert routed.header 0).wIn = 0 ∧
      s.devNum 0 4 = 0 ∧ s.leavesPerLine 0 = 0 ∧ itemCols (s.itemRecord wireItem) wireItem = [0] ∧
      s.expertIn routed wireItem.index = (.ib4, true) ∧ (s.itemHeld wireItem).flatMap s.wirePieces = [wireLeaf] ∧
      s.pieceOk wireLeaf (s.pieceBytes wireLeaf) = false ∧ bit s.wire.toNat 3 = true) : s.badPiece wireItem [] = some wireLeaf := by
  obtain ⟨h1, h2, h3, h4, h5, h6, h7, h8, h9, h10, h11, h12, h13⟩ := h
  have hw : s.opWgt routed (s.itemRecord wireItem) 0 = ⟨0, .fp32, 1, 0⟩ := by
    unfold State.opWgt; dsimp only
    rw [h1, if_pos rfl, h2, if_pos rfl, h3, h4, h5, h6]
    unfold State.wgtAt; rw [h7]
    cases Config.compressedAt 0 <;> rfl
  have hl : s.linePieces ⟨0, .fp32, 1, 0⟩ 0 = [] := by
    unfold State.linePieces; dsimp only; rw [h8]; cases Config.compressedAt 0 <;> rfl
  have ho : ∀ b, s.pieceOk (Wgt.scalePiece ⟨0, .fp32, 1, 0⟩) b = true := by
    intro b; unfold State.pieceOk Wgt.scalePiece; dsimp only; cases Config.compressedAt 0 <;> rfl
  have hp : s.itemPieces wireItem = [Wgt.scalePiece ⟨0, .fp32, 1, 0⟩, wireLeaf] := by
    unfold State.itemPieces
    rw [hm]; dsimp only
    rw [h1, h9, h10, h11, h13, show wireItem.expert.getD 0 = 0 from rfl, hw]
    simp [hl]
  unfold State.badPiece; dsimp only
  rw [hp]
  have r1 : s.readPiece [] [Wgt.scalePiece ⟨0, .fp32, 1, 0⟩, wireLeaf] (Wgt.scalePiece ⟨0, .fp32, 1, 0⟩) =
      some (false, s.pieceBytes (Wgt.scalePiece ⟨0, .fp32, 1, 0⟩)) := if_pos (ho _)
  have r2 : s.readPiece [] [Wgt.scalePiece ⟨0, .fp32, 1, 0⟩, wireLeaf] wireLeaf = none := by
    unfold State.readPiece
    simp [h12]
  simp [List.find?, r1, r2]
/-- A leaf of rate code 0 that passes. -/
def goodLeaf : List Byte := mkLeaf 0 0 0 [] (List.replicate 80 0)
theorem witness_TilesAndEnginesGoOn_held :
    let s := holding { hold := some (wireItem, []) } []
    let d : State := { s with pwr := { s.pwr with droop := [(3, 15)] } }
    s.badPiece wireItem [] = some wireLeaf ∧ d.badPiece wireItem [] = some wireLeaf ∧ s.tileUsable tileLast = true ∧ (s.tileOf tileLast).hold = some (wireItem, []) ∧
    wireLeaf.addr / 0x10000 ∉ s.comp.refetch ∧ s.pieceOk wireLeaf (s.pieceBytes wireLeaf) = false ∧ belowHbm wireLeaf.addr = true ∧
    d.pieceOk wireLeaf goodLeaf = true ∧ d.withheld tileLast = true ∧ d.err.handling = [] ∧
    wireLeaf.addr / 0x10000 ∈ (holding { hold := some (wireItem, []) } [0x30000000]).comp.refetch := by
  refine ⟨holding_bad _ rfl (by decide +kernel), holding_bad _ rfl (by decide +kernel), ?_⟩
  decide +kernel
theorem witness_TilesAndEnginesGoOn_cosy : let s := withTile (running {}) { ramp := 16, items := [item] } []
    let u := withTile (running {}) { ramp := 3, items := [item], firings := 1 } []
    s.cosy = true ∧ s.withheld tileLast = false ∧ (s.tileOf tileLast).ramp ≠ 0 ∧ s.requestPending tileLast = false ∧
    u.requestPending tileLast = true ∧ (u.tileOf tileLast).parked = false ∧ 0 < (u.tileOf tileLast).firings ∧ u.tileUsable tileLast = true ∧
    (withTile (running {}) { items := [item] } []).requestPending tileLast = true ∧ u.err.fatal = false := by decide +kernel
theorem witness_TilesAndEnginesGoOn_engines :
    let s : State := { up with eng := { State.reset.eng with mirror := false, seqs := [(4, {})], cache := [4] }, mem := { State.reset.mem with rebuild := true } }
    s.live = true ∧ s.eng.primary = true ∧ s.eng.mirror = false ∧ s.mem.rebuild = true ∧ (∀ p ∈ s.eng.seqs, s.eng.cache.contains p.1 = true) := by
  decide +kernel

end Serving

/-! ## Witnesses: The domain (spec 17) -/

namespace Domain

/-- Node 1 of nodes 0 to 2 in SERVICE, with one notice of the given message from node 2 in a mailbox. -/
def noticed (m : Nat) (msg : List Byte) (d : Domain) : State :=
  let hbm := Memory.write (Memory.write (Memory.write [] (objAddr (0xFF80 + 2 * m)) [1]) (noticeAddr m 0)
    (leBytes 16 (packAt [(0, 8, bufferAddr 0), (8, 4, msg.length), (12, 4, putBits 2 31 24)]))) (bufferAddr 0) msg
  { up with
    dom := { d with node := 1, members := 7 }, disc := { inDomain := true }
    mem := { State.reset.mem with sliceLocal := 4096, hbm := hbm } }
/-- The 16 bytes of a domain request: code, reply object 0xFF00 of node 2, table at 0. -/
def request (code : Nat) : List Byte := leBytes 16 (packAt [(0, 4, code), (4, 4, putBits 0xFF00 31 16 + 2)])
def asked (code : Nat) : DomReq := { code := code, replyObj := 0xFF00, replyNode := 2 }
theorem witness_DomainRequestsAct_domainRequestsAreTaken : let s := noticed 60 (request 1) { role := .manager, state := .service, request := some (asked 2) }
    s.mgmtUp = true ∧ s.dom.role = .manager ∧ s.notice 60 = some (request 1, 2) ∧ parseReq (request 1) = some (asked 1, 0) ∧
    s.reqPending = true ∧ s.notice 61 = none ∧ parseReq (request 5) = none ∧
    (noticed 60 (request 5) { role := .manager }).notice 60 = some (request 5, 2) ∧ s.err.handling = [] := by decide +kernel
theorem witness_DomainRequestsAct_common (c : Nat) (h : c = 1 ∨ c = 2 ∨ c = 3 ∨ c = 4) : let s := noticed 60 (request c) { role := .manager, state := .service }
    s.mgmtUp = true ∧ s.dom.role = .manager ∧ s.notice 60 = some (request c, 2) ∧ parseReq (request c) = some (asked c, 0) ∧
    s.dom.request = none ∧ s.dom.outRelease = none ∧ s.dom.adopting = none ∧ s.dom.state = .service ∧ s.noSteeps = false := by
  rcases h with rfl | rfl | rfl | rfl <;> decide +kernel
theorem witness_DomainRequestsAct_opens : let u := noticed 60 (request 1) { role := .manager, state := .bringup }
    let s : State := { u with
      start := { u.start with seqPlaced := true }, mem := { u.mem with sliceLocal := 4096 }, rte := { table := { members := [0, 1, 2] } } }
    s.dom.state = .bringup ∧ s.disc.inDomain = true ∧ (s.take 60).canOpen true = true ∧ (s.take 60).canOpen false = false ∧ s.noSteeps = true ∧
    sortBy (· ≤ ·) s.rte.table.members = s.memberList ∧ (s.take 60).readHomeTable 0 = none ∧
    ({ s with model := none } : State).model = none := by decide +kernel
/-- A model with no routed layer. -/
def unrouted : Model := { steepProg := 0, attnGeom := 0, routing := 0, floor := 0, wire := 0, header := [], draftOps := [], mainOps := [] }
theorem witness_DomainRequestsAct_adopts : let u := noticed 60 (request 4) { role := .manager, state := .bringup }
    let s : State := { u with model := some unrouted, mem := { u.mem with sliceShared := 4096 } }
    s.noSteeps = true ∧ s.disc.inDomain = true ∧ ((s.take 60).readHomeTable 0).isSome = true ∧ s.dom.adopting = none ∧
    (∀ es ∈ (s.take 60).readHomeTable 0, (s.take 60).checkRevision ⟨s.rte.table.rev + 1, s.memberList, es⟩ = none) ∧
    (∀ r ∈ [(9, 0)], s.isMember r.1 = false) ∧ (∃ r ∈ [(2, 0)], s.isMember r.1 = true) ∧ s.err.handling = [] := by decide +kernel
theorem witness_DomainRequestsAct_service : let u := noticed 60 (request 2) { role := .manager, state := .recovery }
    let s : State := { u with
      model := some unrouted, start := { u.start with seqPlaced := true }, rte := { table := { members := [0, 1, 2] } } }
    s.dom.state = .recovery ∧ s.disc.inDomain = true ∧ s.model.isSome = true ∧ (s.take 60).canOpen true = true ∧
    sortBy (· ≤ ·) s.rte.table.members = s.memberList ∧ parseReq (request 2) = some (asked 2, 0) ∧ s.notice 60 = some (request 2, 2) ∧
    ({ s with dom := { s.dom with state := .test } } : State).model.isSome = true := by decide +kernel
theorem witness_BarrierCloses : let s := noticed 61 [0] { role := .manager, state := .service, firstArrival := some 0 }
    let r : State := { s with steep := { running := true, number := 5 }, time := { count := 50000000 } }
    let c : State := { r with dom := { r.dom with missed := [0, 1, 2] } }
    r.mgmtUp = true ∧ r.dom.role = .manager ∧ r.steep.running = true ∧ r.dom.outRelease = none ∧ r.closable = false ∧ c.closable = true ∧
    c.released = false ∧ c.noSteeps = false ∧ c.err.handling = [] ∧ (∃ n ∈ c.memberList, n ∈ c.dom.missed) ∧ r.noSteeps = false ∧ 50000000 ≤ (r.time.count - 0).toNat ∧ r.arrived 0 = false ∧
    r.isMember 0 = true ∧ 0 ∉ r.dom.lost ∧ 0 ≠ r.dom.node ∧ r.notice 61 = some ([0], 2) ∧ r.isMember 2 = true ∧ 2 ≠ r.dom.node := by
  decide +kernel
theorem witness_BarrierCloses_go :
    let s := { noticed 61 [0] { role := .manager, state := .service } with steep := { running := true, number := 0 } }
    s.closable = true ∧ s.released = false ∧ s.noSteeps = false ∧ s.err.handling = [] ∧ (∀ n ∈ s.memberList, n ∉ s.dom.missed ∧ s.missedAt n = false ∧ n ∉ s.dom.lost) := by decide +kernel
theorem witness_BarrierCloses_post :
    let o : OutRel := { rel := relOf (request 0), members := 7, reply := none, waiting := false }
    let s := noticed 61 [0] { role := .manager, outRelease := some o }
    s.dom.outRelease = some o ∧ o.waiting = false ∧ o.members = s.dom.members ∧ ({ o with waiting := true } : OutRel).waiting = true := by
  decide +kernel
theorem witness_TakeoverAndRecovery_standbyTakesOver_record : let s := noticed 62 (List.replicate 128 0) { role := .standby }
    s.mgmtUp = true ∧ s.dom.role = .standby ∧ s.notice 62 = some (List.replicate 128 0, 2) ∧ (List.replicate 128 (0 : Byte)).length = 128 := by
  decide +kernel
theorem witness_TakeoverAndRecovery_standbyTakesOver_notice :
    let u := noticed 62 [1] { role := .standby, manager := 0, replica := some { replicaOf [] with members := 7, request := none } }
    let s : State := { u with
      links := [(7, { enable := true, train := .up, peerKind := 1, peerNode := 0, lanes := 4 })], disc := { u.disc with portKind := [(0, 1)] } }
    s.notice 62 = some ([1], 2) ∧ (s.linkFor s.dom.manager 0).isSome = true ∧ s.steep.running = false ∧
    s.dom.replica.isSome = true ∧ (∀ r ∈ s.dom.replica, r.members = s.dom.members ∧ r.request = none) := by decide +kernel
theorem witness_TakeoverAndRecovery_processorAndClockRecover :
    let s : State := { up with
      start := { up.start with expiries := [0, 1, 2] }, time := { count := 90000000000, switchedAt := some 89999750000 }
      dom := { role := .manager } }
    s.live = true ∧ s.hif.mgmtRun = true ∧ s.start.mgmtReset = false ∧ s.err.handling = [] ∧ s.err.silent = false ∧
    50000000 ≤ (s.time.count - s.start.served).toNat ∧ (s.start.expiries.filter fun t => (s.time.count - t).toNat < 90000000000).length = 2 ∧ s.start.vaon = true ∧
    250000 ≤ (s.time.count - 89999750000).toNat ∧ (s.time.count - 89999750001).toNat < 250000 ∧ s.time.tclkLost = false ∧
    ({ s with start := { s.start with mgmtReset := true } } : State).live = true := by decide +kernel

end Domain

/-! ## Witnesses: Discovery (spec 15 R376 to R388) -/

namespace Discovery

/-- A package with link 7 up to a peer of the given kind on a domain port, and the given discovery and domain state. -/
def peered (kind : Nat) (d : Disc) (m : Domain) : State := { up with
  links := [(7, { enable := true, train := .up, peerKind := kind, peerNode := 3 })], disc := { d with portKind := [(0, 1)] }, dom := m }
/-- A discovery frame of a type. -/
def discFrame (kind : Nat) : Frame := { up.frame 7 kind with node := 3 }
theorem witness_NeighboursAndMembers_helloIsSentAndRecorded : let s := { peered 1 { lastHello := some 0 } {} with time := { count := 25000 } }
    s.live = true ∧ s.disc.lastHello = some 0 ∧ 25000 ≤ (s.time.count - 0).toNat ∧ 7 < s.part.links ∧
    (s.link 7).isUp = true ∧ (discFrame 1).intact = true ∧ (discFrame 1).kind = 1 ∧ s.portKind (s.link 7).port = 1 ∧
    (discFrame 1).senderKind ≠ 1 ∧ ({ discFrame 1 with intact := false } : Frame).intact = false := by decide +kernel
theorem witness_NeighboursAndMembers_helloIsSentAndRecorded_soon : let s := { peered 1 { lastHello := some 1 } {} with time := { count := 25000 } }
    s.live = true ∧ s.disc.lastHello = some 1 ∧ (s.time.count - 1).toNat < 25000 := by decide +kernel
theorem witness_ElectionNamesAManager_claimsDecideTheElection : let s := peered 1 { candidate := true, firstUp := some 0 } { mgrPrio := 2 }
    s.live = true ∧ s.mgmtUp = true ∧ s.dom.mgrPrio ≠ 0 ∧ s.disc.candidate = true ∧ s.disc.firstUp.isSome = true ∧ s.disc.lastClaim = none ∧
    s.domainLink 7 = true ∧ s.dom.role ≠ .manager ∧ (discFrame 2).kind = 2 ∧ (discFrame 2).elected = false ∧
    (discFrame 2).mgrPrio < s.dom.mgrPrio ∧ s.dom.mgrPrio < ({ discFrame 2 with mgrPrio := 3 } : Frame).mgrPrio ∧
    s.dom.mgrPrio = ({ discFrame 2 with mgrPrio := 2 } : Frame).mgrPrio ∧ ({ discFrame 2 with elected := true } : Frame).elected = true ∧
    s.caddy.armed = none ∧ s.steep.running = false ∧ s.err.handling = [] ∧ ({ s with disc := { s.disc with candidate := false } } : State).disc.candidate = false := by decide +kernel
theorem witness_ElectionNamesAManager_electionStartsARound :
    let s := { peered 1 { candidate := true, firstUp := some 0, lastHigher := some 0 } { mgrPrio := 2 } with time := { count := 2500000 } }
    s.mgmtUp = true ∧ s.dom.mgrPrio ≠ 0 ∧ s.dom.role ≠ .manager ∧ s.disc.firstUp = some 0 ∧ 2500000 ≤ (s.time.count - 0).toNat ∧
    s.disc.lastHigher = some 0 ∧ s.disc.candidate = true ∧ s.disc.inDomain = false ∧
    ({ s with disc := { s.disc with candidate := false } } : State).disc.candidate = false ∧
    ({ s with time := { count := 2499999 } } : State).time.count.toNat < 2500000 := by decide +kernel
theorem witness_NumberingAssignsNodes_worker : let s := peered 1 {} {}
    s.live = true ∧ 7 < s.part.links ∧ (discFrame 3).intact = true ∧ (discFrame 3).kind = 3 ∧ s.domainLink 7 = true ∧
    (discFrame 5).kind = 5 ∧ s.dom.role ≠ .manager := by decide +kernel
theorem witness_NumberingAssignsNodes_reply :
    let w : Sweep := { todo := [(7, 0xFFFF)], next := 0xFF }
    let s := { peered 1 { sweep := some w } { role := .manager, node := 0, members := 1 } with time := { count := 2500 } }
    let f := { discFrame 4 with node := 0xFF }
    s.live = true ∧ s.mgmtUp = true ∧ s.dom.role = .manager ∧ s.disc.sweep = some w ∧ w.todo = (7, 0xFFFF) :: [] ∧ w.assigning = false ∧
    f.kind = 4 ∧ f.senderKind = 0 ∧ f.node = 0xFF ∧ w.next ≤ 0xFF ∧ 2500 ≤ (s.time.count - w.sentAt).toNat ∧ w.tries < 3 ∧
    3 ≤ ({ w with tries := 3 } : Sweep).tries := by decide +kernel
theorem witness_NumberingAssignsNodes_join : let s := peered 1 { found := [0, 1, 3] } { role := .manager, node := 0, members := 3 }
    s.mgmtUp = true ∧ s.dom.role = .manager ∧ s.disc.sweep = none ∧ s.domainLink 7 = true ∧ (discFrame 6).kind = 6 ∧ (discFrame 8).kind = 8 ∧
    2 ∉ s.disc.found ++ nodesOf s.dom.members ∧ (∀ i, i < 2 → i ∈ s.disc.found ++ nodesOf s.dom.members) := by decide +kernel
theorem witness_NumberingAssignsNodes_order : let u := peered 1 {} {}
    let s : State := { u with caddy := u.caddy.setBank u.caddy.idle { built := true, gen := 7 } }
    s.live = true ∧ 7 < s.part.links ∧ (discFrame 8).intact = true ∧ s.dom.role ≠ .manager ∧ s.dom.state = .bringup ∧ s.start.quiesced = false ∧
    (s.caddy.bank s.caddy.idle).built = true ∧ (s.caddy.bank s.caddy.idle).gen = 7 ∧ s.mem.genCurrent ≠ 7 := by decide +kernel
theorem witness_NeighboursAndMembers_membershipIsTaken_report :
    let s := peered 1 { sweep := some { todo := [], next := 1 } } { role := .manager, node := 0, members := 1 }
    s.mgmtUp = true ∧ s.dom.role = .manager ∧ 7 < s.part.links ∧ (discFrame 7).intact = true ∧ (discFrame 7).kind = 7 ∧
    (discFrame 7).senderKind = 0 ∧ s.disc.sweep = some { todo := [], next := 1 } := by decide +kernel
theorem witness_NeighboursAndMembers_membershipIsTaken_mask : let s := peered 1 {} { node := 254, members := 1 }
    let mask : W256 := 1 + (1 : W256) <<< 254
    s.live = true ∧ s.dom.role ≠ .manager ∧ s.dom.node < 255 ∧ mask.getLsbD s.dom.node = true ∧ s.dom.members &&& ~~~mask = 0 ∧
    s.disc.inDomain = false ∧ s.fab.invals = [] ∧ s.fab.xfers = [] ∧ s.dom.members.getLsbD 254 = false ∧
    (1 : W256).getLsbD s.dom.node = false ∧ s.err.handling = [] := by decide +kernel

end Discovery

/-! ## Witnesses: The memory-semantic fabric (spec 16) -/

namespace Fabric

/-- Node 1 of a domain of nodes 0 and 1, with the given fabric agent and export of job 5. -/
def joined (f : Fabric) (e : W256) : State := { up with
  dom := { node := 1, members := 3, manager := 0, exports := [(5, e)] }, disc := { inDomain := true }, fab := f }
/-- A fabric address: node 0, job 5, offset 4,080. -/
def fa : DWord := 0x0000500000000FF0
/-- A packet from node 0 to node 1, job 5 at offset 0. -/
def pkt (op : Nat) : FabPkt := { blankPkt with op := op, src := 0, dst := 1, dseq := 7, addr := 0x0100500000000000, lenM1 := 7 }
/-- VALID, READ, WRITE, ATOMIC, CACHE, OWNER 0, BASE 0x10210000000, LENGTH 4,096. -/
def opened : W256 := 0x00000000000010000000010210000000_00000000F8000000
/-- A write of die 0 to node 0 outstanding. -/
def aWrite (op : Nat) : FabReq := { die := 0, engine := 1, pkt := { pkt op with dst := 0, tag := 9 }, numbered := true, sentAt := 0, compl := 0 }
theorem witness_RequestsAreIssued : let s := joined { cache := [(0, 0x0000500000000F80, [])] } 0
    s.live = true ∧ 0 < s.part.ioDies ∧ s.isMember (faNode fa) = true ∧ faJob fa ≠ 0xFFF ∧ faOffset fa % 4096 + 16 = 4096 ∧
    4096 < faOffset fa % 4096 + 17 ∧ s.isMember (faNode 0x0200500000000000) = false ∧ (s.engineReqs 0 63).length < 512 ∧
    faJob 0x00FFF00000000000 = 0xFFF ∧ ¬ ((0 : Nat) = 0 ∧ (63 : Nat) = 0) ∧
    (∃ k ∈ linesOf (fa + 128) 1, ∀ c ∈ s.fab.cache, c.2.1.toNat / 128 ≠ k) ∧
    (∀ k ∈ linesOf fa 16, ∃ c ∈ s.fab.cache, c.2.1.toNat / 128 = k) ∧ s.unacked 0 (faNode fa) = [] := by decide +kernel
theorem witness_OrderedOperationsWait : let s := joined { reqs := [aWrite 0x11], dseq := [(0, 8)] } 0
    let free := joined {} 0
    s.live = true ∧ s.openWrites = [(0, 7)] ∧ s.openWrites.filter (fun u => u.1 % 256 = 0) ≠ [] ∧ free.openWrites = [] ∧ free.fab.owed = [] ∧
    (free.engineReqs 0 63).length < 512 ∧ free.unacked 0 0 = [] ∧ 0 < s.part.ioDies ∧ free.isMember 0 = true ∧ free.isMember 2 = false ∧
    (∀ r ∈ free.fab.reqs, r.numbered = false) ∧ s.openUpTo 0 0 7 = true ∧ (free.engineReqs 0 0).length ≤ 256 ∧
    free.isMember free.dom.node = true := by decide +kernel
theorem witness_OrderedOperationsWait_timeouts :
    let v : Inval := { die := 0, engine := 1, addr := 0, len := 128, nodes := [0], compl := 0, issuedAt := 0 }
    let f : Fence := { die := 0, engine := 1, compl := 0, upto := [(0, 7)], issuedAt := 0 }
    let s := { joined { reqs := [aWrite 0x11], invals := [v], fences := [f] } 0 with time := { count := 250000 } }
    s.fab.invals[0]? = some v ∧ v.sent = false ∧ 250000 ≤ (s.time.count - v.issuedAt).toNat ∧ s.fab.fences[0]? = some f ∧
    s.fenceOpen f ++ s.fenceGone f ≠ [] ∧ (249999 : DWord).toNat < 250000 := by decide +kernel
theorem witness_RetriesAndResponses_requestsAreRetried :
    let e : Replay := { src := 0, die := 0, tag := 9, dseq := 7, result := 0, status := 0, at_ := 0 }
    let s := { joined { reqs := [aWrite 0x12], replay := [e] } 0 with time := { count := 50000 } }
    s.live = true ∧ s.fab.reqs.find? (fun r => r.pkt.tag = 9) = some (aWrite 0x12) ∧ 5000 ≤ (s.time.count - 0).toNat ∧
    (aWrite 0x12).retries < 4 ∧ ({ aWrite 0x12 with retries := 4 } : FabReq).retries = 4 ∧ (aWrite 0x11).pkt.op ≠ 0x12 ∧
    s.err.handling = [] ∧ s.fab.owed = [] ∧ s.fab.invals = [] ∧ s.fab.xfers = [] ∧ s.fab.fences = [] ∧
    s.fab.replay.find? (fun r => r.src = 0 && r.die = 0 && r.tag = 9) = some e ∧ 50000 ≤ (s.time.count - e.at_).toNat := by decide +kernel
theorem witness_LoadsAreServed : let s := { joined {} opened with mem := { sliceLocal := 4096 } }
    let p := pkt 0x10
    s.takes_ p 0x10 = true ∧ p.raw = false ∧ (s.export (faJob p.addr)).getLsbD 31 = true ∧ s.dom.trustedEn = false ∧
    faOffset p.addr + (p.lenM1 + 1) ≤ xLength (s.export (faJob p.addr)) ∧ (s.export (faJob p.addr)).getLsbD 30 = true ∧
    s.checkRead (xBase (s.export (faJob p.addr)) + faOffset p.addr) (p.lenM1 + 1) = none ∧
    ({ s with mem := {} } : State).checkRead (xBase opened + faOffset p.addr) 8 = some 0x0241 ∧ xLength opened < 4089 + 8 ∧
    s.takes_ { p with raw := true } 0x10 = true ∧ (0 : W256).getLsbD 31 = false ∧ (0xB8000000 : W256).getLsbD 30 = false := by decide +kernel
theorem witness_WritesApplyOnce : let s := { joined { outcomes := [⟨0, 0, 6, 0⟩] } opened with mem := { sliceLocal := 4096 } }
    let p := pkt 0x11
    s.takes_ p p.op = true ∧ s.tooOld p = false ∧ s.outcome p = none ∧ s.tooOld { p with dseq := 0xFFFFFC06 } = true ∧
    s.outcome { p with dseq := 6 } = some 0 ∧ s.tooOld { p with dseq := 6 } = false ∧ p.raw = false ∧ (s.export (faJob p.addr)).getLsbD 29 = true ∧
    xOwner (s.export (faJob p.addr)) = p.src ∧ s.checkWrite (xBase (s.export (faJob p.addr)) + faOffset p.addr) (p.lenM1 + 1) = none ∧
    (∀ o ∈ s.outcomesOf p.src p.srcDie, (p.dseq - o.dseq).toNat < 1024) ∧ s.mem.classDrop = [] ∧
    (s.export (faJob p.addr)).getLsbD 28 = true ∧ (xBase (s.export (faJob p.addr)) + faOffset p.addr) % 4 = 0 ∧
    (xBase (s.export (faJob p.addr)) + 2) % 4 ≠ 0 ∧ s.readable (xBase (s.export (faJob p.addr)) + faOffset p.addr) 4 = true ∧
    s.takes_ (pkt 0x12) 0x12 = true ∧ (opOfAsub (pkt 0x12).asub).isSome = true ∧ s.takes_ (pkt 0x13) 0x13 = true ∧ s.takes_ { pkt 0x13 with raw := true } 0x13 = true ∧ s.dom.trustedEn = false ∧
    s.takes_ (pkt 0x14) 0x14 = true ∧ faJob (pkt 0x14).addr ≠ 0xFFF ∧ (0xF8000100 : W256).getLsbD 31 = true ∧
    xOwner 0xF8000200 ≠ p.src := by decide +kernel
theorem witness_RetriesAndResponses_responsesComplete : let s := joined { reqs := [aWrite 0x10, { aWrite 0x12 with pkt := { pkt 0x12 with tag := 10 } }] } 0
    let p := { pkt 0x90 with tag := 9 }
    s.live = true ∧ p.rsvd = 0 ∧ p.dst = s.dom.node ∧
    s.fab.reqs.find? (fun r => r.pkt.tag = p.tag && r.pkt.op + 0x80 = p.op) = some (aWrite 0x10) ∧
    s.fab.reqs.find? (fun r => r.pkt.tag = 8 && r.pkt.op + 0x80 = p.op) = none ∧ p.status = 0 ∧ p.cacheable = false ∧
    (s.fab.reqs.find? (fun r => r.pkt.tag = 10 && r.pkt.op + 0x80 = 0x92)).isSome = true ∧
    s.fab.owed = [] ∧ s.fab.invals = [] ∧ s.fab.xfers = [] ∧ s.fab.fences = [] := by decide +kernel

end Fabric

/-! ## Witnesses: Links (spec 15 R366 to R376, spec 14 R359) -/

namespace Links

/-- A package with link 71 up, training or held down, in no domain. -/
def linked (k : Link) : State := { up with part := { variant := 2 }, links := [(7, k)] }
def flit (ftype seq : Nat) : Flit := ⟨ftype, 0, 0, seq, 0, [], true⟩
theorem witness_LinkControlTakesWrites_enable : let s := linked { enable := false }
    s.hostUp = true ∧ 7 < s.part.links ∧ s.start.mgmtReset = false ∧ s.start.mgmtHeld = false ∧ s.sec.locked = false ∧
    (0x8F070000 : Word).getLsbD 31 = true ∧ s.setUpState = true ∧ (s.link 7).enable = false := by decide
theorem witness_LinkControlTakesWrites_enabled : let s := linked { enable := true, port := 15 }
    (s.link 7).enable = true ∧ (s.link 7).port = (0x8F070000 : Word).toNat / 2 ^ 24 % 16 ∧
    (s.link 7).port ≠ (0x80070000 : Word).toNat / 2 ^ 24 % 16 ∧ (0x80070000 : Word).getLsbD 31 = true ∧
    (0x0F070000 : Word).getLsbD 31 = false ∧ (s.link 7).port = (0x0F070000 : Word).toNat / 2 ^ 24 % 16 := by decide
theorem witness_LinkControlTakesWrites_state :
    let s : State := { linked {} with disc := { inDomain := true }, dom := { state := .service } }
    s.hostUp = true ∧ s.setUpState = false := by decide
theorem witness_TrainingBringsLinksUp_fails : let s := linked { train := .training, fails := 2 }
    s.live = true ∧ 7 < s.part.links ∧ (s.link 7).train = .training ∧ s.trayHeld = false ∧ (s.link 7).enable = true ∧
    (s.link 7).fails < 3 := by decide
theorem witness_TrainingBringsLinksUp_up : let s := linked { train := .training }
    let r : TrainResult := ⟨7, 4, 3, false⟩
    s.live = true ∧ ((s.link 7).classAllow.getLsbD 2 && r.peerAllow.getLsbD 2 && r.passes.getLsbD 2) = true ∧
    (∀ i, i < 2 → ((s.link 7).classAllow.getLsbD i && r.peerAllow.getLsbD i && r.passes.getLsbD i) = false) ∧
    r.loop = false ∧ s.err.handling = [] := by decide
theorem witness_TrainingBringsLinksUp_out : let s := linked { train := .training, fails := 3 }
    s.live = true ∧ (s.link 7).train = .training ∧ 3 ≤ (s.link 7).fails ∧ s.err.silent = false ∧ s.err.handling = [] := by decide
theorem witness_FlitsTravelInOrder_flitsAreTakenInOrder : let s := linked { train := .up, rxSeq := 4095, owed := [0, 0, 0, 1] }
    s.live = true ∧ 7 < s.part.links ∧ (s.link 7).isUp = true ∧ (s.link 7).replay = [] ∧ (flit 1 4095).clean = true ∧
    (flit 1 4095).seq = (s.link 7).rxSeq ∧ 2048 ≤ ((flit 1 4094).seq + 4096 - (s.link 7).rxSeq) % 4096 ∧
    ((flit 1 0).seq + 4096 - (s.link 7).rxSeq) % 4096 < 2048 ∧ 4 ≤ (flit 4 0).ftype ∧ (∃ c ∈ (s.link 7).owed, 0 < c) := by decide
theorem witness_FlitsTravelInOrder_flitsAreResent :
    let s : State := { linked { train := .up, replay := [⟨4095, 0, [], 0, none⟩, ⟨0, 0, [], 0, none⟩], resends := 8 } with
      time := { count := 125 } }
    s.live = true ∧ 7 < s.part.links ∧ (s.link 7).isUp = true ∧ flitGood (flit 2 0) = true ∧ (flit 2 0).ftype = 2 ∧
    (s.link 7).queue = [] ∧ (s.link 7).replay.findIdx? (·.seq = 0) = some 1 ∧ 125 ≤ (s.time.count - 0).toNat ∧ 8 ≤ (s.link 7).resends := by
  decide

end Links

/-! ## Witnesses: Power (spec 19, spec 14 R361) -/

namespace Power

theorem witness_CapsAreClampedAndLimit : up.hostUp = true ∧ up.start.mgmtReset = false ∧ up.start.mgmtHeld = false ∧
    up.sec.locked = false ∧ up.sideUp = true ∧ (999 : Word).toNat < 65536 := by decide
theorem witness_WindowMovesTheEnforcedLimit : up.kettleOn = true ∧ up.time.count.toNat % 200 = 0 ∧
    up.pwr.windowAt ≠ some up.time.count ∧ up.start.brakePin = up.pwr.brake := by decide
/-- A package whose kettle has held a millisecond of equal windows. -/
def held1ms (w : KettleWindow) : State := { up with
  time := { count := 50000 }, pwr := { windows := List.replicate 125 w, vcoreAt := some 25000, thermalAt := some 25000 } }
theorem witness_VoltageBrakeAndTemperature_voltageStepsAndDroop_rise : let s := held1ms ⟨970, 1000, [256, 256, 256, 256]⟩
    s.kettleOn = true ∧ s.pwr.windows.length = 125 ∧ s.elapsed s.pwr.vcoreAt 25000 = true ∧
    (∀ x ∈ s.pwr.windows.map fun w => w.allowance.getD 3 256, x = 256) ∧ (∀ w ∈ s.pwr.windows, 100 * w.input ≤ 97 * w.enforced) := by decide +kernel
theorem witness_VoltageBrakeAndTemperature_voltageStepsAndDroop_fall : let s := held1ms ⟨971, 1000, [191, 192, 192, 192]⟩
    ¬ (∀ w ∈ s.pwr.windows, 100 * w.input ≤ 97 * w.enforced) ∧ (s.pwr.windows.map fun w => w.allowance.getD 0 256).sum < 192 * 125 ∧
    ¬ (s.pwr.windows.map fun w => w.allowance.getD 1 256).sum < 192 * 125 := by decide +kernel
theorem witness_VoltageBrakeAndTemperature_voltageStepsAndDroop_early : up.pwr.windows.length ≠ 125 ∧
    ({ held1ms ⟨0, 0, []⟩ with time := { count := 49999 } } : State).elapsed (some 25000) 25000 = false := by decide
theorem witness_VoltageBrakeAndTemperature_voltageStepsAndDroop_trip : up.kettleOn = true ∧ up.powered = true ∧ 3 < 4 ∧ 15 < 16 ∧ (3, 15) ∉ up.pwr.droop := by
  decide
theorem witness_VoltageBrakeAndTemperature_voltageStepsAndDroop_release :
    let s : State := { up with pwr := { droop := [(3, 15)] } }
    s.powered = true ∧ (3, 15) ∈ s.pwr.droop := by decide
theorem witness_VoltageBrakeAndTemperature_brakeHoldsTheFloor_assert : up.start.vaon = true ∧ up.start.brakePin = false ∧ up.kettleOn = true := by decide
theorem witness_VoltageBrakeAndTemperature_brakeHoldsTheFloor_release :
    let s : State := { up with start := { up.start with brakePin := true } }
    s.start.vaon = true ∧ s.start.brakePin = true := by decide
theorem witness_VoltageBrakeAndTemperature_brakeHoldsTheFloor_long :
    let s : State := { up with time := { count := 250000000 }, pwr := { brake := true, brakeStart := some 0 } }
    s.kettleOn = true ∧ s.pwr.brake = true ∧ s.pwr.brakeHeld = false ∧ s.pwr.brakeStart = some 0 ∧
    250000000 ≤ (s.time.count - 0).toNat := by decide
theorem witness_VoltageBrakeAndTemperature_brakeHoldsTheFloor_short :
    let s : State := { up with time := { count := 249999999 }, pwr := { brake := true, brakeStart := some 0 } }
    s.kettleOn = true ∧ s.pwr.brake = true ∧ s.pwr.brakeHeld = false ∧ (s.time.count - 0).toNat < 250000000 := by decide
/-- Readings all of one value but for one caddy die's sensor. -/
def readings (x hot : Int) : TempMeas :=
  ⟨List.replicate 4 (List.replicate 32 x), List.replicate 2 (List.replicate 8 x), List.replicate 16 (List.replicate 4 x), [[x, hot], [x, x]]⟩
theorem witness_VoltageBrakeAndTemperature_thermalLimitFollowsTemperature : let s := held1ms ⟨970, 1000, [256, 256, 256, 256]⟩
    let m := readings 60 86
    s.kettleOn = true ∧ s.pwr.windows.length = 125 ∧ s.elapsed s.pwr.thermalAt 25000 = true ∧
    (let r := (m.compute ++ m.io).flatten.map (· - 105) ++ m.base.flatten.map (· - 95) ++ m.caddy.flatten.map (· - 85)
     1 ∈ r ∧ ∀ x ∈ r, x ≤ 1) := by decide +kernel
theorem witness_VoltageBrakeAndTemperature_thermalLimitFollowsTemperature_cool : let m := readings 60 82
    (let r := (m.compute ++ m.io).flatten.map (· - 105) ++ m.base.flatten.map (· - 95) ++ m.caddy.flatten.map (· - 85)
     r.contains (-3) = true ∧ ∀ x ∈ r, x ≤ -3) := by decide +kernel

end Power

/-! ## Witnesses: Security (spec 20, spec 13 R316) -/

namespace Security

/-- An SPDM request in clear, and one in session 5. -/
def clear : SpdmReq := ⟨none, 0, 0, [], true⟩
def inSession : SpdmReq := ⟨some 5, 0, 0, [], true⟩
/-- Negotiated, without and with a session. -/
def agreed : State := { up with sec := { spdmStep := 3 } }
def keyed : State := { up with sec := { spdmStep := 3, session := some (5, true) } }
/-- The same package with a fuse profile whose ALARM_ACTION is `a`. -/
def alarmed (a : Nat) : State := { up with part := { alarmAction := a } }
theorem witness_AlarmTakesItsAction : up.start.vaon = true ∧ up.sec.asserted.getLsbD (sourceBit .enclosure) = false ∧
    up.sec.locked = false ∧ up.start.firstStage = true ∧ (alarmed 0).alarmAction = 0 ∧ (alarmed 1).alarmAction = 1 ∧
    2 ≤ (alarmed 3).alarmAction := by decide
theorem witness_AlarmTakesItsAction_locked : ({ up with sec := { locked := true } } : State).sec.locked = true := by decide
theorem witness_AlarmTakesItsAction_open : State.reset.start.vaon = true ∧ State.reset.start.firstStage = false ∧
    State.reset.sec.locked = false := by decide
theorem witness_FuseAndIntegrityChecks : let s : State := { up with time := { count := 25000000 }, sec := { fuseAt := some 0 } }
    s.powered = true ∧ s.sec.fuseAt = some 0 ∧ 25000000 ≤ (s.time.count - 0).toNat ∧ s.sec.restrict = [] := by decide
theorem witness_FuseAndIntegrityChecks_release :
    let s : State := { up with sec := { asserted := 1 } }
    s.start.vaon = true ∧ s.sec.asserted.getLsbD (sourceBit .tamperMesh) = true := by decide
theorem witness_FuseAndIntegrityChecks_ide : ({ up with sec := { ideSecure := true } } : State).sec.ideSecure = true ∧ up.hostUp = true := by
  decide
theorem witness_SpdmNegotiatesAndChunks_spdmNegotiatesInOrder_early : up.responder = true ∧ clear.session = none ∧ up.sec.spdmStep < 1 := by decide
theorem witness_SpdmNegotiatesAndChunks_spdmNegotiatesInOrder_late : agreed.responder = true ∧ 2 ≤ agreed.sec.spdmStep ∧ 4 ≠ 0 ∧ 255 < 256 ∧
    ([] : List Byte).length ≤ 4096 := by decide
theorem witness_AttestationAnswers : agreed.responder = true ∧ clear.session = none ∧ 3 ≤ agreed.sec.spdmStep ∧
    agreed.sec.restrict.contains .secret = false ∧ 1 < 2 ∧ 9 ≤ 254 ∧ 254 ≠ 0xFF := by decide
theorem witness_AttestationAnswers_restricted :
    ({ agreed with sec := { agreed.sec with restrict := [.secret] } } : State).sec.restrict.contains .secret = true := by decide
theorem witness_AttestationAnswers_block : ∃ v, agreed.measurement 8 = some v ∧ 8 ≠ 0 ∧ 8 ≠ 0xFF := ⟨_, rfl, by decide, by decide⟩
theorem witness_SecuredSessionKeysTheStream_open : agreed.responder = true ∧ 3 ≤ agreed.sec.spdmStep ∧ clear.session = none ∧
    agreed.sec.session = none ∧ agreed.sec.restrict.contains .secret = false := by decide
theorem witness_SecuredSessionKeysTheStream_handshake :
    ({ agreed with sec := { agreed.sec with session := some (5, false) } } : State).sec.session = some (5, false) ∧
    inSession.session = some 5 ∧ inSession.authentic = true := by decide
theorem witness_SecuredSessionKeysTheStream_session : keyed.responder = true ∧ 3 ≤ keyed.sec.spdmStep ∧
    keyed.sec.session = some (5, true) ∧ inSession.session = some 5 ∧ inSession.authentic = true := by decide
theorem witness_SecuredSessionKeysTheStream_none : inSession.session = some 5 ∧ (inSession.authentic = false ∨ agreed.sec.session = none) := by
  decide
theorem witness_SpdmNegotiatesAndChunks_chunksAndDoeDiscovery : agreed.responder = true ∧ clear.session = none ∧ 3 ≤ agreed.sec.spdmStep ∧
    agreed.sec.chunkIn = none ∧ agreed.hostUp = true ∧ 3 ≤ 255 := by decide
theorem witness_SpdmNegotiatesAndChunks_chunksAndDoeDiscovery_chunks :
    let s : State := { agreed with sec := { agreed.sec with chunkIn := some (1, 1, []), chunkOut := some (4, 1, []) } }
    s.responder = true ∧ s.sec.chunkIn = some (1, 1, []) ∧ s.sec.chunkOut = some (4, 1, []) ∧ 2 ≠ 1 := by decide

end Security

/-! ## Witnesses: Resets and start-up (spec 21) -/

namespace Start

theorem witness_ResetsAndTheirEnd_resetsReturnTheStartState_package : up.start.vaon = true ∧ up.start.inReset = false := by decide
theorem witness_ResetsAndTheirEnd_resetsReturnTheStartState_power :
    ({ up with start := { up.start with vaon := false } } : State).start.vaon = false := by decide
theorem witness_ResetsAndTheirEnd_resetEndSamplesStraps :
    let s : State := { up with start := { up.start with inReset := true } }
    s.start.vaon = true ∧ s.start.inReset = true ∧ s.sec.asserted = 0 := by decide
theorem witness_PerstEndsRings :
    let s : State := { up with rings := [(8191, { enable := true })] }
    s.start.vaon = true ∧ s.start.perst = false ∧ 8191 ∈ s.rings.keys := by decide
theorem witness_FirstStageOpensAndCloses_firstStageOpens : up.start.vaon = true ∧ up.start.firstStage = true ∧ up.start.eoffPin = false := by decide
theorem witness_FirstStageOpensAndCloses_startGateClosesFirstStage_native :
    let s := State.reset
    s.start.vaon = true ∧ s.start.firstStage = false ∧ s.start.inReset = false ∧ s.start.eoffPin = false ∧
    s.start.eoffLatch = false ∧ s.start.faultHeld = false ∧ ¬ (s.startMode = 2 ∨ (s.startMode = 0 ∧ s.start.straps.seqStart = true)) ∧
    s.start.vinOpen = false := by decide
theorem witness_FirstStageOpensAndCloses_startGateClosesFirstStage_sequenced :
    let s : State := { State.reset with
      part := { startMode := 2 }
      start := { State.reset.start with rackPg := [true, true, true, true, true], vinOpen := true } }
    s.startMode = 2 ∧ s.start.rackPg.findIdx? (!·) = none ∧ s.start.vinOpen = true := by decide
theorem witness_FirstStageOpensAndCloses_startGateClosesFirstStage_held : ({ State.reset with start := { State.reset.start with eoffLatch := true } } : State).start.eoffLatch = true := by
  decide
theorem witness_BootRomRunsAnImage_railsUpStartTheBootRom :
    let s : State := { State.reset with start := { State.reset.start with firstStage := true } }
    s.start.vaon = true ∧ s.start.firstStage = true ∧ s.start.inReset = false ∧ s.start.pkgPg = false ∧ s.pwr.trip = none ∧
    s.pwr.railFault = none ∧ s.sec.owed = false := by decide
theorem witness_BootRomRunsAnImage_bootImageRunsOrIsRefused :
    let s : State := { up with hif := {} }
    s.powered = true ∧ s.sec.locked = false ∧ s.hif.mgmtRun = false ∧ s.start.mgmtReset = false ∧ s.start.mgmtHeld = false ∧
    s.start.bootSource < 2 ∧ s.fwAuthentic [] = false := by decide
theorem witness_StartTestsMapOut : up.mgmtUp = true ∧ up.start.coresTested = false ∧ up.start.hbmTested = false ∧
    (1 : BitVec 64) ≠ BitVec.allOnes 64 := by decide

end Start

/-! ## Witnesses: Pins, sideband, boundary scan (spec 21) -/

namespace Pins

theorem witness_PinsAndTestPortAnswer_pinLevelsAreKept_asserted : held.start.vaon = true ∧ held.start.perst = true ∧ held.start.eoffPin = true ∧
    held.start.trayPin = true ∧ 4 < 5 := by decide
theorem witness_PinsAndTestPortAnswer_pinLevelsAreKept_idle : up.start.vaon = true ∧ up.start.trayPin = false := by decide
theorem witness_PinsAndTestPortAnswer_tapInstructionsShiftOut_open :
    let s : State := { up with start := { up.start with jtagEn := true } }
    s.powered = true ∧ s.debugLock = false ∧ s.start.jtagEn = true := by decide
theorem witness_PinsAndTestPortAnswer_tapInstructionsShiftOut_closed : up.powered = true ∧ (up.debugLock = true ∨ up.start.jtagEn = false) := by decide
theorem witness_SidebandLinkAnswers_mctpControlAnswers : up.sideUp = true ∧ 0 < 8 ∧ 8 < 0xFF ∧ (0 = 0 ∨ 0xFF ≤ 0) := by decide
theorem witness_SidebandLinkAnswers_dynamicAddressTakenOnce_without :
    let s : State := { up with start := { up.start with i3cAddr := none } }
    s.powered = true ∧ s.start.i3cAddr = none ∧ 127 < 128 := by decide
theorem witness_SidebandLinkAnswers_dynamicAddressTakenOnce_with : up.powered = true ∧ up.start.i3cAddr = some 9 := by decide
theorem witness_SidebandLinkAnswers_sidebandRequestsAnswer_read : up.sideUp = true ∧ (0xFFFFC0 : Word).toNat % 4 = 0 ∧ 1 ≤ 16 ∧
    (0xFFFFC0 : Word).toNat + 4 * 16 ≤ 0x1000000 := by decide
theorem witness_SidebandLinkAnswers_sidebandRequestsAnswer_refused : (1 : BitVec 16) ≠ 0 ∧ (17 = 0 ∨ 16 < 17 ∨ (0 : Word).toNat % 4 ≠ 0) := by decide
theorem witness_SidebandLinkAnswers_sidebandRequestsAnswer_locked :
    let s : State := { up with sec := { locked := true } }
    s.sideUp = true ∧ s.sec.locked = true := by decide
theorem witness_SidebandLinkAnswers_sidebandRequestsAnswer_open : up.sideUp = true ∧ up.sec.locked = false ∧ up.debugLock = false := by decide
theorem witness_SidebandLinkAnswers_sidebandRequestsAnswer_debugLock :
    let s : State := { up with part := { debugLock := true } }
    s.sideUp = true ∧ s.sec.locked = false ∧ s.debugLock = true := by decide

end Pins

end Sys2Proof.Tests
end

section
/-! PROOF. Laws that register writes share: sparse tables, ring pairs, and the refusals that come first (R346). -/

namespace Sys2Proof.Machine

/-! ## Sparse tables -/

theorem Tab.find?_set_self {α : Type} (t : Tab α) (k : Nat) (v : α) : (t.set k v).find? k = some v := by
  induction t with
  | nil => simp [Tab.set, Tab.find?]
  | cons p t ih =>
    obtain ⟨i, a⟩ := p
    rcases Nat.lt_trichotomy k i with h | rfl | h
    · simp [Tab.set, Tab.find?, h]
    · simp [Tab.set, Tab.find?]
    · simp [Tab.set, Tab.find?, Nat.not_lt.2 h.le, h.ne, h.ne', ih]

theorem Tab.find?_set_ne {α : Type} (t : Tab α) {j k : Nat} (v : α) (hj : j ≠ k) : (t.set k v).find? j = t.find? j := by
  induction t with
  | nil => simp [Tab.set, Tab.find?, hj.symm]
  | cons p t ih =>
    obtain ⟨i, a⟩ := p
    rcases Nat.lt_trichotomy k i with h | rfl | h
    · simp [Tab.set, Tab.find?, h, hj.symm]
    · simp [Tab.set, Tab.find?, hj.symm]
    · simp [Tab.set, Tab.find?, Nat.not_lt.2 h.le, h.ne', ih]

@[simp] theorem Tab.get_set_self {α : Type} (t : Tab α) (d : α) (k : Nat) (v : α) : (t.set k v).get d k = v := by
  simp [Tab.get, Tab.find?_set_self]

theorem Tab.get_set_ne {α : Type} (t : Tab α) (d : α) {j k : Nat} (v : α) (hj : j ≠ k) :
    (t.set k v).get d j = t.get d j := by
  simp [Tab.get, Tab.find?_set_ne t v hj]

/-! ## Ring pairs -/

@[simp] theorem State.ring_setRing_self (s : State) (n : Nat) (r : RingPair) : (s.setRing n r).ring n = r :=
  Tab.get_set_self s.rings _ n r

theorem State.ring_setRing_ne (s : State) {k n : Nat} (r : RingPair) (hk : k ≠ n) : (s.setRing n r).ring k = s.ring k :=
  Tab.get_set_ne s.rings _ r hk

@[simp] theorem State.ring_onRing_self (s : State) (n : Nat) (f : RingPair → RingPair) : (s.onRing n f).ring n = f (s.ring n) :=
  State.ring_setRing_self s n _

theorem State.ring_onRing_ne (s : State) {k n : Nat} (f : RingPair → RingPair) (hk : k ≠ n) : (s.onRing n f).ring k = s.ring k :=
  State.ring_setRing_ne s _ hk

/-! ## Commands of the host and the refusals of a write -/

theorem act_of_true {c : Bool} (hc : c = true) (s : State) (f : State → State) : act c s f = .next (f s) := by
  simp [act, hc]

theorem State.powered_of_hostUp {s : State} (hu : s.hostUp = true) : s.powered = true := by
  simp only [State.hostUp, Bool.and_eq_true] at hu
  exact hu.1

/-- Neither MGMT nor LOCKED holds of a package that serves its management processor and is not locked (R346). -/
theorem State.blocked_eq_none {s : State} (hr : s.start.mgmtReset = false) (hh : s.start.mgmtHeld = false)
    (hl : s.sec.locked = false) : s.blocked = none := by
  simp [State.blocked, hr, hh, hl]

theorem State.regWrite_of_unblocked {s : State} (hb : s.blocked = none) (off : Nat) (state busy range : Bool) (f : State → State) :
    s.regWrite off state busy range f =
      if state then s.refuseWrite 2 off else if busy then s.refuseWrite 3 off else if range then s.refuseWrite 1 off else f s := by
  simp only [State.regWrite, hb]

end Sys2Proof.Machine
end

section
/-! PROOF. Writes of HIF_RING_CTRL: a pair starts, drains, closes and clears OVERFLOW (R319, R350, R351). -/

namespace Sys2Proof.Machine

variable {s : State} {n : Nat}

/-! ## What a write of the register does -/

/-- The fields that an enable checks, as the write gives them (R351). -/
theorem RingPair.badEnable_eq_false_iff (r : RingPair) :
    r.badEnable = false ↔
      6 ≤ r.cqLog2 ∧ r.cqLog2 ≤ 20 ∧ 4 ≤ r.sqLog2 ∧ r.sqLog2 ≤ 16 ∧ r.vector < 2048 ∧ 1 ≤ r.modCount ∧ r.modCount ≤ 256 ∧
        r.sqBase.toNat % 4096 = 0 ∧ r.cqBase.toNat % 4096 = 0 ∧ r.shadow.toNat % 8 = 0 := by
  simp [RingPair.badEnable, and_assoc]

/-- ENABLE 1 on a pair that is not enabled: STATE at the tray gate, BUSY with OVERFLOW set, RANGE for a field, else the pair
starts (R346, R351, R515). -/
theorem State.writeRingCtrl_enable {v : Nat} (hb : s.blocked = none) (he : (s.ring n).enable = false) (hv : bit v 31 = true) :
    s.writeRingCtrl n v =
      if s.trayHeld then s.refuseWrite 2 (0x10000 + n * 0x40)
      else if (s.ring n).overflow && !bit v 28 then s.refuseWrite 3 (0x10000 + n * 0x40)
      else if (((s.ring n).withCtrl v).clearOverflow v).badEnable then s.refuseWrite 1 (0x10000 + n * 0x40)
      else s.setRing n (((s.ring n).withCtrl v).clearOverflow v).started := by
  simp only [State.writeRingCtrl, hb, he, hv, Bool.false_eq_true, if_false, Bool.not_true]
  rfl

/-- ENABLE 0 on an enabled pair whose other fields stay: OVERFLOW as written, and the drain starts (R319, R350). -/
theorem State.writeRingCtrl_disable {v : Nat} (hb : s.blocked = none) (he : (s.ring n).enable = true)
    (hd : (s.ring n).draining = false) (hv : bit v 31 = false) (hw : (s.ring n).withCtrl v = s.ring n) :
    s.writeRingCtrl n v = (s.setRing n ((s.ring n).clearOverflow v)).disableRing n := by
  simp [State.writeRingCtrl, hb, he, hd, hv, hw]

/-- ENABLE 1 on an enabled pair whose other fields stay: OVERFLOW as written, and nothing else (R350). -/
theorem State.writeRingCtrl_rewrite {v : Nat} (hb : s.blocked = none) (he : (s.ring n).enable = true)
    (hd : (s.ring n).draining = false) (hv : bit v 31 = true) (hw : (s.ring n).withCtrl v = s.ring n) (ht : s.trayHeld = false) :
    s.writeRingCtrl n v = s.setRing n ((s.ring n).clearOverflow v) := by
  simp [State.writeRingCtrl, hb, he, hd, hv, hw, ht]

/-- The pair that an enable starts, field by field (R319, R350). -/
theorem RingPair.started_eq (r : RingPair) {v : Nat} (hc : (r.overflow && !bit v 28) = false) :
    ((r.withCtrl v).clearOverflow v).started = { r with
      enable := true, draining := false, overflow := false, priv := bit v 30, pasidEn := bit v 29
      cqLog2 := v / 2 ^ 20 % 32, sqLog2 := v / 2 ^ 15 % 32, tenant := v % 4096
      sqHead := 0, sqTail := 0, cqHead := 0, cqTail := 0, phase := true, reserved := 0
      unread := [], armed := true, stopped := false, backlog := [] } := by
  simp [RingPair.started, RingPair.clearOverflow, RingPair.withCtrl, hc, bits]

/-- Without a SYNC_WAIT of the pair, the start of its drain touches that pair alone (R319). -/
theorem State.disableRing_of_no_wait (hw : ∀ w ∈ s.waiting, w.ring ≠ n) :
    s.disableRing n = s.onRing n fun r => { r with draining := true } := by
  have hnone : (s.waiting.filter fun w => w.ring = n && w.what.object.isSome) = [] :=
    List.filter_eq_nil_iff.2 fun w h => by simp [hw w h]
  show (s.waiting.filter _).foldl _ _ = _
  rw [hnone, List.foldl_nil]

theorem RingPair.clearOverflow_of_clear {r : RingPair} {v : Nat} (hv : bit v 28 = false) : r.clearOverflow v = r := by
  simp [RingPair.clearOverflow, hv]

theorem RingPair.clearOverflow_of_set {r : RingPair} {v : Nat} (hv : bit v 28 = true) :
    r.clearOverflow v = { r with overflow := false } := by
  simp [RingPair.clearOverflow, hv]

/-- With no request waiting there is no close to complete. -/
theorem State.settleCloses_of_no_wait (hw : s.waiting = []) : s.settleCloses = s := by
  simp [State.settleCloses, hw]

@[simp] theorem State.ring_orphanOps (k : Nat) : (s.orphanOps n).ring k = s.ring k := rfl

/-! ## The commands -/

section Commands

variable (hu : s.hostUp = true) (hn : n < 8192)

include hu hn

theorem exec_ringEnable {v : Word} (hv : v.getLsbD 31 = true) :
    exec (.ringEnable n v) s = .next (s.writeRingCtrl n v.toNat) := by
  show execRingEnable n v s = _
  exact act_of_true (by simp [hu, hn, hv]) s _

theorem exec_ringDisable {v : Word} (hv : v.getLsbD 31 = false) :
    exec (.ringDisable n v) s = .next (s.writeRingCtrl n v.toNat) := by
  show execRingDisable n v s = _
  exact act_of_true (by rw [hv]; simp [hu, hn]) s _

theorem exec_overflowClear {v : Word} (hv : v.getLsbD 28 = true) :
    exec (.overflowClear n v) s = .next (s.writeRingCtrl n v.toNat) := by
  show execOverflowClear n v s = _
  exact act_of_true (by simp [hu, hn, hv]) s _

/-- The drain ends with nothing waiting: the pair closes, its long operations go on without it (R319). -/
theorem exec_ringDrainComplete (hd : (s.ring n).draining = true) (ho : (s.ring n).open_ = 0) (hw : s.waiting = []) :
    exec (.ringDrainComplete n) s = .next ((s.orphanOps n).closeRing n) := by
  have hwait : ((s.orphanOps n).closeRing n).waiting = [] := hw
  rw [← State.settleCloses_of_no_wait hwait]
  show execRingDrainComplete n s = _
  exact act_of_true (by simp [State.powered_of_hostUp hu, hn, hd, ho]) s _

end Commands

/-- Settles O12: each clause is the equation of the write that its hypotheses select. -/
theorem ringControlTakesWrites : Obligations.RingControlTakesWrites := by
  unfold Obligations.RingControlTakesWrites
  refine ⟨?enable, ?drain⟩
  case enable =>
    intro s n v hu hn hv he hr hh hl r cq sq good clear
    have hgood : (((s.ring n).withCtrl v.toNat).clearOverflow v.toNat).badEnable = false ↔ good :=
      RingPair.badEnable_eq_false_iff _
    rw [exec_ringEnable hu hn hv, State.writeRingCtrl_enable (State.blocked_eq_none hr hh hl) he hv]
    refine ⟨fun hg (hc : ((s.ring n).overflow && !bit v.toNat 28) = false) (ht : s.trayHeld = false) => ?starts,
      fun hg (hc : ((s.ring n).overflow && !bit v.toNat 28) = false) (ht : s.trayHeld = false) => ?range,
      fun (ht : s.trayHeld = true) => ?tray⟩
    case starts =>
      simp only [ht, hc, hgood.2 hg, RingPair.started_eq (s.ring n) hc, Bool.false_eq_true, if_false]
      rfl
    case range =>
      have hbad : (((s.ring n).withCtrl v.toNat).clearOverflow v.toNat).badEnable = true :=
        Bool.eq_true_of_not_eq_false fun h => hg (hgood.1 h)
      simp only [ht, hc, hbad, Bool.false_eq_true, if_false, if_true]
      rfl
    case tray =>
      simp only [ht, if_true]
      rfl
  case drain =>
    intro s n hu hn hr hh hl r
    have hb : s.blocked = none := State.blocked_eq_none hr hh hl
    refine ⟨fun v hv h28 he hd hw hwait => ?starts, fun hd ho hwait => ?completes, fun v h28 hv he hd hw ht => ?clears⟩
    case starts =>
      have hwrite : s.writeRingCtrl n v.toNat = (s.setRing n r).onRing n fun r => { r with draining := true } := by
        rw [State.writeRingCtrl_disable hb he hd hv hw, RingPair.clearOverflow_of_clear h28,
          State.disableRing_of_no_wait (s := s.setRing n r) hwait]
      rw [exec_ringDisable hu hn hv, hwrite]
      refine ⟨_, rfl, by simp, rfl, rfl, fun k hk => ?_⟩
      rw [State.ring_onRing_ne _ _ hk, State.ring_setRing_ne _ _ hk]
    case completes =>
      refine ⟨_, exec_ringDrainComplete hu hn hd ho hwait, ?_⟩
      rw [State.closeRing]
      refine ⟨by simp, by simp, by simp, by simp [r], fun k hk => ?_⟩
      rw [State.ring_onRing_ne _ _ hk, State.ring_orphanOps]
    case clears =>
      rw [exec_overflowClear hu hn h28, State.writeRingCtrl_rewrite hb he hd hv hw ht, RingPair.clearOverflow_of_set h28]
      rfl

end Sys2Proof.Machine
end

section
/-! PROOF. Writes of one-word registers, the table of exports and TRUSTED_EN (R211, R346, R352, R357, R358, R360). -/

namespace Sys2Proof.Machine

variable {s : State}

/-! ## One-word registers -/

/-- An access that R317 does not allow is recorded, and nothing else. -/
theorem exec_registerWrite_bad {off size : Nat} {v : DWord} (hu : s.hostUp = true) (ho : off < 0x1000000)
    (hbad : badAccess off size = true) : exec (.registerWrite off size v) s = .next s.barAccess := by
  have hwrite : s.barWrite off size v = s.barAccess := by simp [State.barWrite, hbad]
  rw [← hwrite]
  show execRegisterWrite _ _ v s = _
  exact act_of_true (by simp [hu, ho]) s _

theorem badAccess_iff (off size : Nat) : badAccess off size = true ↔ (size ≠ 4 ∧ size ≠ 8) ∨ off % size ≠ 0 := by
  simp only [badAccess, Bool.not_eq_true', Bool.and_eq_false_iff, Bool.or_eq_false_iff, decide_eq_false_iff_not, ne_eq]

/-- An aligned write of 32 bits is one write of its word. -/
theorem exec_registerWrite_word {off : Nat} (hu : s.hostUp = true) (ho : off < 0x1000000) (ha : off % 4 = 0) (v : DWord) :
    exec (.registerWrite off 4 v) s = .next (s.writeOne off 4 v) := by
  have hbad : badAccess off 4 = false := by simp [badAccess, ha]
  have hwrite : s.barWrite off 4 v = s.writeOne off 4 v := by simp [State.barWrite, hbad]
  rw [← hwrite]
  show execRegisterWrite _ _ v s = _
  exact act_of_true (by simp [hu, ho]) s _

section Unblocked

variable (hb : s.blocked = none)

include hb

theorem State.writeOne_lineBudget (v : DWord) : s.writeOne 0x100000 4 v = s.writeServe 0x100000 (v.setWidth 32) := by
  simp [State.writeOne, hb]

theorem State.writeOne_pwrStatus (v : DWord) : s.writeOne 0x17000C 4 v = s.writePwr 0x17000C (v.setWidth 32) := by
  simp [State.writeOne, hb]

theorem State.writeOne_unimplemented (v : DWord) : s.writeOne 0x1B0000 4 v = s := by
  simp [State.writeOne, hb]

/-- The line budget: RANGE outside 1,024 to 262,144, else the limit as written (R211, R352). -/
theorem State.writeServe_lineBudget (v : Word) : s.writeServe 0x100000 v =
    if 1024 ≤ v.toNat % 2 ^ 19 ∧ v.toNat % 2 ^ 19 ≤ 262144 then s.setLimits fun l => { l with lineBudget := v.toNat % 2 ^ 19 }
    else s.refuseWrite 1 0x100000 := by
  have hbits : bits v.toNat 18 0 = v.toNat % 2 ^ 19 := by simp [bits]
  simp only [State.writeServe, hbits, State.regWrite_of_unblocked hb]
  by_cases hrange : 1024 ≤ v.toNat % 2 ^ 19 ∧ v.toNat % 2 ^ 19 ≤ 262144
  · rw [if_pos hrange, decide_eq_true hrange.1, decide_eq_true hrange.2]
    rfl
  · rw [if_neg hrange, ← Bool.decide_and, decide_eq_false hrange]
    rfl

/-- A 1 written to CLAMPED clears it (R10, R360). -/
theorem State.writePwr_status (v : Word) :
    s.writePwr 0x17000C v = s.setPwr { s.pwr with clamped := s.pwr.clamped && !v.getLsbD 1 } := by
  simp [State.writePwr, State.regWrite_of_unblocked hb]

end Unblocked

/-! ## The table of exports -/

@[simp] theorem State.unstageExport_dom (s : State) : s.unstageExport.dom = s.dom := by
  simp [State.unstageExport, List.range_succ]

@[simp] theorem State.unstageExport_mem (s : State) : s.unstageExport.mem = s.mem := by
  simp [State.unstageExport, List.range_succ]

/-- What STORE and LOAD leave: the domain's block as they set it, and memory. -/
theorem State.setDom_unstageExport (s : State) (d : Domain) :
    (s.setDom d).unstageExport.dom = d ∧ (s.setDom d).unstageExport.mem = s.mem :=
  ⟨by rw [State.unstageExport_dom, State.setDom_dom], by rw [State.unstageExport_mem, State.setDom_mem]⟩

theorem exec_exportStore {v : Word} (hu : s.hostUp = true) (hv : v.getLsbD 1 = true) :
    exec (.exportStore v) s = .next (s.writeExportCmd v) := by
  show execExportStore v s = _
  exact act_of_true (by simp [hu, hv]) s _

theorem exec_exportLoad {v : Word} (hu : s.hostUp = true) (h1 : v.getLsbD 1 = false) (h0 : v.getLsbD 0 = true) :
    exec (.exportLoad v) s = .next (s.writeExportCmd v) := by
  show execExportLoad v s = _
  exact act_of_true (by rw [hu, h1, h0]; rfl) s _

/-- STORE: RANGE with LOAD set too, for entry 0xFFF and for an entry that breaks its table, else the entry takes the data
words (R358, R395, R434). -/
theorem State.writeExportCmd_store {v : Word} (hb : s.blocked = none) (hv : v.getLsbD 1 = true) : s.writeExportCmd v =
    if v.getLsbD 0 = true ∨ s.dom.exportSel = 0xFFF ∨ exportBad s.exportWords = true then s.refuseWrite 1 0x140044
    else (s.setDom { s.dom with
      exportData := s.exportWords, exports := s.dom.exports.set s.dom.exportSel s.exportWords }).unstageExport := by
  simp [State.writeExportCmd, State.regWrite_of_unblocked hb, hv, or_assoc]

/-- LOAD alone: the data words take the entry selected, the domain's own at 0xFFF (R358, R395, R434). -/
theorem State.writeExportCmd_load {v : Word} (hb : s.blocked = none) (h1 : v.getLsbD 1 = false) (h0 : v.getLsbD 0 = true) :
    s.writeExportCmd v = (s.setDom { s.dom with
      exportData := if s.dom.exportSel = 0xFFF then domainEntry else s.dom.exports.get 0 s.dom.exportSel }).unstageExport := by
  simp only [State.writeExportCmd, State.regWrite_of_unblocked hb, h1, h0, Bool.false_eq_true, if_false, if_true]
  rfl

/-! ## TRUSTED_EN -/

theorem exec_trustedEnWrite (hu : s.hostUp = true) (v : Word) : exec (.trustedEnWrite v) s = .next (s.writeTrusted v) := by
  show execTrustedEnWrite v s = _
  exact act_of_true hu s _

/-- TRUSTED_EN: a 1 is refused with LOCKED where TRUSTED_OK reads 0 and with STATE in SERVICE (R358). -/
theorem State.writeTrusted_of_unblocked (hb : s.blocked = none) (v : Word) : s.writeTrusted v =
    if v.getLsbD 0 = true ∧ s.trustedOk = false then s.refuseWrite 4 0x140008
    else if v.getLsbD 0 = true ∧ s.dom.state = .service then s.refuseWrite 2 0x140008
    else s.setDom { s.dom with trustedEn := v.getLsbD 0 } := by
  simp [State.writeTrusted, hb]

/-! ## What the commands answer -/

section Commands

variable (hu : s.hostUp = true) (hb : s.blocked = none)

include hu hb

theorem exec_registerWrite_lineBudget {v : DWord} (hmin : 1024 ≤ v.toNat % 2 ^ 19) (hmax : v.toNat % 2 ^ 19 ≤ 262144)
    (hfit : v.toNat < 2 ^ 32) : exec (.registerWrite 0x100000 4 v) s =
      .next (s.setLimits fun l => { l with lineBudget := v.toNat % 2 ^ 19 }) := by
  have hword : (v.setWidth 32).toNat = v.toNat := by simpa [BitVec.toNat_setWidth] using hfit
  rw [exec_registerWrite_word hu (by decide) (by decide), State.writeOne_lineBudget hb, State.writeServe_lineBudget hb, hword,
    if_pos ⟨hmin, hmax⟩]

theorem exec_registerWrite_lineBudget_low {v : DWord} (hlow : v.toNat < 1024) :
    exec (.registerWrite 0x100000 4 v) s = .next (s.refuseWrite 1 0x100000) := by
  have hword : (v.setWidth 32).toNat = v.toNat := by rw [BitVec.toNat_setWidth]; omega
  have hrange : ¬ (1024 ≤ v.toNat % 2 ^ 19 ∧ v.toNat % 2 ^ 19 ≤ 262144) := by omega
  rw [exec_registerWrite_word hu (by decide) (by decide), State.writeOne_lineBudget hb, State.writeServe_lineBudget hb, hword,
    if_neg hrange]

theorem exec_registerWrite_clamped :
    exec (.registerWrite 0x17000C 4 2) s = .next (s.setPwr { s.pwr with clamped := false }) := by
  rw [exec_registerWrite_word hu (by decide) (by decide), State.writeOne_pwrStatus hb, State.writePwr_status hb]
  simp

theorem exec_registerWrite_unimplemented (v : DWord) : exec (.registerWrite 0x1B0000 4 v) s = .next s := by
  rw [exec_registerWrite_word hu (by decide) (by decide), State.writeOne_unimplemented hb]

theorem exec_exportStore_stores {v : Word} (h1 : v.getLsbD 1 = true) (h0 : v.getLsbD 0 = false) (hsel : s.dom.exportSel ≠ 0xFFF)
    (hok : exportBad s.exportWords = false) : exec (.exportStore v) s = .next (s.setDom { s.dom with
      exportData := s.exportWords, exports := s.dom.exports.set s.dom.exportSel s.exportWords }).unstageExport := by
  have hgood : ¬ (v.getLsbD 0 = true ∨ s.dom.exportSel = 0xFFF ∨ exportBad s.exportWords = true) := by
    rintro (h | h | h)
    · exact Bool.false_ne_true (h0.symm.trans h)
    · exact hsel h
    · exact Bool.false_ne_true (hok.symm.trans h)
  rw [exec_exportStore hu h1, State.writeExportCmd_store hb h1, if_neg hgood]

theorem exec_exportStore_refused {v : Word} (h1 : v.getLsbD 1 = true)
    (hbad : v.getLsbD 0 = true ∨ s.dom.exportSel = 0xFFF ∨ exportBad s.exportWords = true) :
    exec (.exportStore v) s = .next (s.refuseWrite 1 0x140044) := by
  rw [exec_exportStore hu h1, State.writeExportCmd_store hb h1, if_pos hbad]

theorem exec_exportLoad_loads {v : Word} (h1 : v.getLsbD 1 = false) (h0 : v.getLsbD 0 = true) : exec (.exportLoad v) s =
    .next (s.setDom { s.dom with
      exportData := if s.dom.exportSel = 0xFFF then domainEntry else s.dom.exports.get 0 s.dom.exportSel }).unstageExport := by
  rw [exec_exportLoad hu h1 h0, State.writeExportCmd_load hb h1 h0]

theorem exec_trustedEnWrite_off {v : Word} (h0 : v.getLsbD 0 = false) :
    exec (.trustedEnWrite v) s = .next (s.setDom { s.dom with trustedEn := false }) := by
  rw [exec_trustedEnWrite hu, State.writeTrusted_of_unblocked hb, h0, if_neg (by simp), if_neg (by simp)]

theorem exec_trustedEnWrite_on {v : Word} (h0 : v.getLsbD 0 = true) (hok : s.trustedOk = true) (hst : s.dom.state ≠ .service) :
    exec (.trustedEnWrite v) s = .next (s.setDom { s.dom with trustedEn := true }) := by
  rw [exec_trustedEnWrite hu, State.writeTrusted_of_unblocked hb, h0, if_neg (by simp [hok]), if_neg (by simp [hst])]

theorem exec_trustedEnWrite_service {v : Word} (h0 : v.getLsbD 0 = true) (hok : s.trustedOk = true)
    (hst : s.dom.state = .service) : exec (.trustedEnWrite v) s = .next (s.refuseWrite 2 0x140008) := by
  rw [exec_trustedEnWrite hu, State.writeTrusted_of_unblocked hb, if_neg (by simp [hok]), if_pos ⟨h0, hst⟩]

theorem exec_trustedEnWrite_untrusted {v : Word} (h0 : v.getLsbD 0 = true) (hok : s.trustedOk = false) :
    exec (.trustedEnWrite v) s = .next (s.refuseWrite 4 0x140008) := by
  rw [exec_trustedEnWrite hu, State.writeTrusted_of_unblocked hb, if_pos ⟨h0, hok⟩]

end Commands

/-- Settles O14: each clause is the equation of the write that its hypotheses select. -/
theorem registersTakeWrites : Obligations.RegistersTakeWrites := by
  unfold Obligations.RegistersTakeWrites
  refine ⟨?oneWord, ?exports⟩
  case oneWord =>
    intro s hu hr hh hl
    have hb : s.blocked = none := State.blocked_eq_none hr hh hl
    exact ⟨fun v hmin hmax hfit => exec_registerWrite_lineBudget hu hb hmin hmax hfit,
      fun v hlow => exec_registerWrite_lineBudget_low hu hb hlow, exec_registerWrite_clamped hu hb,
      exec_registerWrite_unimplemented hu hb,
      fun off size v ho hbad => exec_registerWrite_bad hu ho ((badAccess_iff off size).2 hbad)⟩
  case exports =>
    intro s v hu hr hh hl no
    have hb : s.blocked = none := State.blocked_eq_none hr hh hl
    exact ⟨fun h1 => ⟨fun h0 hsel hok => ⟨_, exec_exportStore_stores hu hb h1 h0 hsel hok, State.setDom_unstageExport s _⟩,
        fun hbad => exec_exportStore_refused hu hb h1 hbad⟩,
      fun h1 h0 => ⟨_, exec_exportLoad_loads hu hb h1 h0, State.setDom_unstageExport s _⟩,
      fun h0 => exec_trustedEnWrite_off hu hb h0,
      fun h0 => ⟨fun hok hst => exec_trustedEnWrite_on hu hb h0 hok hst, fun hok hst => exec_trustedEnWrite_service hu hb h0 hok hst,
        fun hok => exec_trustedEnWrite_untrusted hu hb h0 hok⟩⟩

end Sys2Proof.Machine
end

section
/-! PROOF. Everything that sending on links, final records and writes of device memory can do: each answers the state with at
most the named fields replaced (spec 15 R371 to R377, spec 16 R393, spec 17 R424 to R437). -/

namespace Sys2Proof.Machine

/-! ## Sending -/

theorem State.pump_frame (k : Nat) : ∀ (s : State) (l : Nat), ∃ ks o, State.pump k s l = { s with links := ks, out := o } := by
  induction k with
  | zero => exact fun s l => ⟨s.links, s.out, rfl⟩
  | succ k ih =>
    intro s l
    unfold State.pump
    dsimp only
    split
    · exact ⟨s.links, s.out, rfl⟩
    · split
      · obtain ⟨ks, o, h⟩ := ih ((s.setLink l _).emit _) l
        exact ⟨ks, o, h⟩
      · exact ⟨s.links, s.out, rfl⟩

theorem State.linkSend_frame (s : State) (l vc : Nat) (bs : List Byte) (p : Option SentPkt) :
    ∃ ks o, s.linkSend l vc bs p = { s with links := ks, out := o } := by
  unfold State.linkSend
  obtain ⟨ks, o, h⟩ := State.pump_frame _ (s.onLink l _) l
  exact ⟨ks, o, h⟩

theorem State.sendFrame_frame (s : State) (l : Nat) (f : Frame) : ∃ ks o, s.sendFrame l f = { s with links := ks, out := o } := by
  obtain ⟨ks, o, h⟩ := State.linkSend_frame (s.emit (.frame l f)) l 4 (frameBytes f) none
  exact ⟨ks, o, h⟩

theorem State.fabOn_frame (s : State) (l : Nat) (p : FabPkt) : ∃ ks o, s.fabOn l p = { s with links := ks, out := o } := by
  obtain ⟨ks, o, h⟩ := State.linkSend_frame (s.emit (.fab l p)) l (fabVc p) (fabBytes p) (some (.fab p))
  exact ⟨ks, o, h⟩

theorem State.fabSend_frame (s : State) (p : FabPkt) : ∃ ks o, s.fabSend p = { s with links := ks, out := o } := by
  unfold State.fabSend
  split
  · exact ⟨s.links, _, rfl⟩
  · split
    · exact State.fabOn_frame s _ p
    · exact ⟨s.links, s.out, rfl⟩

theorem State.routeSend_frame (s : State) (n : Nat) (p : RoutePkt) : ∃ ks o, s.routeSend n p = { s with links := ks, out := o } := by
  unfold State.routeSend
  split
  · exact ⟨s.links, _, rfl⟩
  · split
    · obtain ⟨ks, o, h⟩ := State.linkSend_frame (s.emit (.route ‹_› p)) ‹_› 2 (routeBytes p) (some (.route n p))
      exact ⟨ks, o, h⟩
    · exact ⟨s.links, s.out, rfl⟩

/-- A fold of steps that each replace links and what is sent does no more. -/
theorem foldl_links_frame {α : Type} {f : State → α → State}
    (hf : ∀ s a, ∃ ks o, f s a = { s with links := ks, out := o }) (l : List α) :
    ∀ s : State, ∃ ks o, l.foldl f s = { s with links := ks, out := o } := by
  induction l with
  | nil => exact fun s => ⟨s.links, s.out, rfl⟩
  | cons a l ih =>
    intro s
    obtain ⟨ks, o, h⟩ := hf s a
    obtain ⟨ks', o', h'⟩ := ih (f s a)
    exact ⟨ks', o', by rw [List.foldl_cons, h', h]⟩

theorem State.request_frame {s t : State} {die engine : Nat} {write : Bool} {p : FabPkt} {compl : Nat}
    (h : s.request die engine write p compl = some t) : ∃ f ks o, t = { s with fab := f, links := ks, out := o } := by
  unfold State.request at h
  dsimp only at h
  split at h
  · cases h
  · obtain rfl := Option.some.inj h
    obtain ⟨ks, o, h⟩ := State.fabSend_frame (s.setFab _) _
    exact ⟨_, ks, o, h⟩

theorem State.requestLater_frame (s : State) (die engine : Nat) (p : FabPkt) :
    ∃ f ks o, s.requestLater die engine p = { s with fab := f, links := ks, out := o } := by
  unfold State.requestLater
  dsimp only
  split
  · cases h : s.request die engine true p 0 with
    | none => exact ⟨_, s.links, s.out, rfl⟩
    | some t => exact State.request_frame h
  · exact ⟨_, s.links, s.out, rfl⟩

theorem State.sendFragments_frame (s : State) (port : Nat) (dest : DWord) (number : Nat) (bytes : List Byte) :
    ∃ ks o, s.sendFragments port dest number bytes = { s with links := ks, out := o } := by
  unfold State.sendFragments
  split
  · exact foldl_links_frame (fun s _ => ⟨s.links, _, rfl⟩) _ s
  · split
    · exact foldl_links_frame (fun s p => State.fabOn_frame s _ p) _ s
    · exact ⟨s.links, s.out, rfl⟩

theorem State.sendMessage_frame (s : State) (ring : Option Nat) (port : Nat) (dest : DWord) (bytes : List Byte) :
    ∃ f ks o, s.sendMessage ring port dest bytes = { s with fab := f, links := ks, out := o } := by
  unfold State.sendMessage
  dsimp only
  obtain ⟨ks, o, h⟩ := State.sendFragments_frame (s.setFab _) port dest (s.fab.msgNumber.get 1 (msgKey port dest)) bytes
  exact ⟨_, ks, o, h⟩

/-! ## Final records of waiting descriptors -/

theorem State.finishControl_frame (s : State) (c : OpControl) (status : Nat) :
    ∃ r o, s.finishControl c status = { s with rings := r, out := o } := by
  unfold State.finishControl
  dsimp only
  split
  · obtain ⟨r, o, h⟩ := State.drain_frame ((s.onRing c.ring fun r => { r with open_ := r.open_ - 1 }).release c.ring 1) c.ring
    exact ⟨r, o, h⟩
  · obtain ⟨r, o, h⟩ := State.reservedRecord_frame (s.onRing c.ring fun r => { r with open_ := r.open_ - 1 }) c.ring 1
      (mkRecord c.tag true false 0 status [])
    obtain ⟨r', o', h'⟩ := State.drain_frame ((s.onRing c.ring fun r => { r with open_ := r.open_ - 1 }).reservedRecord c.ring 1
      (mkRecord c.tag true false 0 status [])) c.ring
    exact ⟨r', o', by rw [h', h]; rfl⟩

/-- A fold of steps that each replace the rings and what is sent does no more. -/
theorem foldl_rings_frame {α : Type} {f : State → α → State}
    (hf : ∀ s a, ∃ r o, f s a = { s with rings := r, out := o }) (l : List α) :
    ∀ s : State, ∃ r o, l.foldl f s = { s with rings := r, out := o } := by
  induction l with
  | nil => exact fun s => ⟨s.rings, s.out, rfl⟩
  | cons a l ih =>
    intro s
    obtain ⟨r, o, h⟩ := hf s a
    obtain ⟨r', o', h'⟩ := ih (f s a)
    exact ⟨r', o', by rw [List.foldl_cons, h', h]⟩

/-- A long operation that ends leaves the list, and its records go out (R338, R339, R341). -/
theorem State.endOp_frame (s : State) (h status ctl : Nat) :
    ∃ l r o, s.endOp h status ctl false = { s with longOps := l, rings := r, out := o } := by
  unfold State.endOp
  split
  · exact ⟨s.longOps, s.rings, s.out, rfl⟩
  · rename_i op _
    simp only [Bool.false_eq_true, if_false]
    have hclose : ∀ u : State, ∃ r o, op.waiters.foldl (fun s c => s.finishControl c ctl) u = { u with rings := r, out := o } :=
      foldl_rings_frame (fun s c => State.finishControl_frame s c ctl) op.waiters
    split
    · obtain ⟨r, o, hd⟩ := State.drain_frame (State.release { s with longOps := s.longOps.erase h } op.ring 1) op.ring
      obtain ⟨r', o', hc⟩ := hclose ((State.release { s with longOps := s.longOps.erase h } op.ring 1).drain op.ring)
      exact ⟨_, r', o', by rw [hc, hd]; rfl⟩
    · obtain ⟨r, o, hr⟩ := State.reservedRecord_frame { s with longOps := s.longOps.erase h } op.ring 1
        (State.opRecord { s with longOps := s.longOps.erase h } h op true status)
      obtain ⟨r', o', hd⟩ := State.drain_frame (State.reservedRecord { s with longOps := s.longOps.erase h } op.ring 1
        (State.opRecord { s with longOps := s.longOps.erase h } h op true status)) op.ring
      obtain ⟨r'', o'', hc⟩ := hclose ((State.reservedRecord { s with longOps := s.longOps.erase h } op.ring 1
        (State.opRecord { s with longOps := s.longOps.erase h } h op true status)).drain op.ring)
      exact ⟨_, r'', o'', by rw [hc, hd, hr]⟩

/-- A waiting descriptor that ends leaves the waiting ones, and its record goes out. -/
theorem State.endWait_frame (s : State) (w : Waiting) (status : Nat) :
    ∃ l r o, s.endWait w status = { s with waiting := l, rings := r, out := o } := by
  unfold State.endWait
  obtain ⟨r, o, h⟩ := State.finish_frame { s with waiting := s.waiting.erase w } w.ring w.desc status
    [(16, 8, match w.what.object with | some o => s.objGet o | none => 0)]
  exact ⟨_, r, o, h⟩

/-- A fold of steps that each replace waiting descriptors, rings and what is sent does no more. -/
theorem foldl_waits_frame {α : Type} {f : State → α → State}
    (hf : ∀ s a, ∃ w r o, f s a = { s with waiting := w, rings := r, out := o }) (l : List α) :
    ∀ s : State, ∃ w r o, l.foldl f s = { s with waiting := w, rings := r, out := o } := by
  induction l with
  | nil => exact fun s => ⟨s.waiting, s.rings, s.out, rfl⟩
  | cons a l ih =>
    intro s
    obtain ⟨w, r, o, h⟩ := hf s a
    obtain ⟨w', r', o', h'⟩ := ih (f s a)
    exact ⟨w', r', o', by rw [List.foldl_cons, h', h]⟩

theorem State.wake_frame (s : State) : ∃ w r o, s.wake = { s with waiting := w, rings := r, out := o } :=
  foldl_waits_frame (fun s w => State.endWait_frame s w 0) _ s

/-- A descriptor taken out of the waiting ones with its final record. -/
theorem State.unwait_finish_frame (s : State) (w : Waiting) (status : Nat) (res : List (Nat × Nat × Nat)) :
    ∃ l r o, (s.unwait w).finish w.ring w.desc status res = { s with waiting := l, rings := r, out := o } := by
  obtain ⟨r, o, h⟩ := State.finish_frame (s.unwait w) w.ring w.desc status res
  exact ⟨_, r, o, h⟩

theorem State.endClose_frame (s : State) (n : Nat) (d : W512) (q committed : Nat) :
    ∃ r o, s.endClose n d q committed = { s with rings := r, out := o } := State.finish_frame s n d _ _

theorem State.settleCloses_frame (s : State) : ∃ w r o, s.settleCloses = { s with waiting := w, rings := r, out := o } := by
  refine foldl_waits_frame (fun s w => ?_) _ s
  split
  · split
    · exact ⟨s.waiting, s.rings, s.out, rfl⟩
    · obtain ⟨r, o, h⟩ := State.endClose_frame { s with waiting := s.waiting.erase w } w.ring w.desc _ _
      exact ⟨_, r, o, h⟩
  · exact ⟨s.waiting, s.rings, s.out, rfl⟩

/-! ## Writes of device memory -/

/-- A write replaces bytes of HBM, drops die-store copies and mends bursts; waiters that it satisfies end (R271, R432). -/
theorem State.store_frame (s : State) (a : Nat) (bs : List Byte) : ∃ h d b w r o, s.store a bs =
    { s with mem := { s.mem with hbm := h, dieStore := d, badBursts := b }, waiting := w, rings := r, out := o } := by
  unfold State.store
  dsimp only
  split
  · obtain ⟨w, r, o, h⟩ := State.wake_frame (s.devWrite a bs)
    exact ⟨_, _, _, w, r, o, h⟩
  · exact ⟨_, _, _, s.waiting, s.rings, s.out, rfl⟩

theorem State.objSet_frame (s : State) (i v : Nat) : ∃ h d b w r o, s.objSet i v =
    { s with mem := { s.mem with hbm := h, dieStore := d, badBursts := b }, waiting := w, rings := r, out := o } :=
  State.store_frame s _ _

theorem State.take_frame (s : State) (m : Nat) : ∃ h d b w r o, s.take m =
    { s with mem := { s.mem with hbm := h, dieStore := d, badBursts := b }, waiting := w, rings := r, out := o } :=
  State.objSet_frame s _ _

theorem State.storeOk_frame (s : State) (a : Nat) (bs : List Byte) : ∃ h d b w r o, s.storeOk a bs =
    { s with mem := { s.mem with hbm := h, dieStore := d, badBursts := b }, waiting := w, rings := r, out := o } := by
  unfold State.storeOk
  split
  · exact ⟨s.mem.hbm, s.mem.dieStore, s.mem.badBursts, s.waiting, s.rings, s.out, rfl⟩
  · exact State.store_frame s a bs

/-- A fold of steps that each write device memory does no more. -/
theorem foldl_stores_frame {α : Type} {f : State → α → State} (hf : ∀ s a, ∃ h d b w r o, f s a =
      { s with mem := { s.mem with hbm := h, dieStore := d, badBursts := b }, waiting := w, rings := r, out := o }) (l : List α) :
    ∀ s : State, ∃ h d b w r o, l.foldl f s =
      { s with mem := { s.mem with hbm := h, dieStore := d, badBursts := b }, waiting := w, rings := r, out := o } := by
  induction l with
  | nil => exact fun s => ⟨s.mem.hbm, s.mem.dieStore, s.mem.badBursts, s.waiting, s.rings, s.out, rfl⟩
  | cons a l ih =>
    intro s
    obtain ⟨h, d, b, w, r, o, e⟩ := hf s a
    obtain ⟨h', d', b', w', r', o', e'⟩ := ih (f s a)
    exact ⟨h', d', b', w', r', o', by rw [List.foldl_cons, e', e]⟩

theorem State.post_frame {s t : State} {m : Nat} {msg : List Byte} {node die dom : Nat} (h : s.post m msg node die dom = some t) :
    ∃ h d b w r o, t =
      { s with mem := { s.mem with hbm := h, dieStore := d, badBursts := b }, waiting := w, rings := r, out := o } := by
  unfold State.post at h
  dsimp only at h
  split at h
  · cases h
  · obtain rfl := Option.some.inj h
    obtain ⟨h1, d1, b1, w1, r1, o1, e1⟩ := State.store_frame s (bufferAddr (lowestFree s.usedBuffers s.bufferCount)) msg
    rw [e1]
    obtain ⟨h2, d2, b2, w2, r2, o2, e2⟩ := State.store_frame _ (noticeAddr m (s.posts m)) _
    rw [e2]
    exact State.objSet_frame _ _ _

/-- A message of the package's own: posted here, or sent over the fabric (R424). -/
theorem State.sendOwn_frame (s : State) (node m : Nat) (bytes : List Byte) : ∃ h d b w r f ks o, s.sendOwn node m bytes =
    { s with mem := { s.mem with hbm := h, dieStore := d, badBursts := b }, waiting := w, rings := r, fab := f, links := ks, out := o } := by
  unfold State.sendOwn
  split
  · cases hp : s.post m bytes node 0 0 with
    | none => exact ⟨s.mem.hbm, s.mem.dieStore, s.mem.badBursts, s.waiting, s.rings, s.fab, s.links, s.out, rfl⟩
    | some t =>
      obtain ⟨h, d, b, w, r, o, e⟩ := State.post_frame hp
      exact ⟨h, d, b, w, r, s.fab, s.links, o, e⟩
  · obtain ⟨f, ks, o, e⟩ := State.sendMessage_frame s none ((s.domainPort node).getD 0) (destWord node m) bytes
    exact ⟨s.mem.hbm, s.mem.dieStore, s.mem.badBursts, s.waiting, s.rings, f, ks, o, e⟩

/-- The manager's own arrival is kept here, another's goes out as an atomic (R423). -/
theorem State.barrierSwap_frame (s : State) (v : Nat) : ∃ a h d b w r f ks o, s.barrierSwap v =
    { s with dom := { s.dom with firstArrival := a }, mem := { s.mem with hbm := h, dieStore := d, badBursts := b },
             waiting := w, rings := r, fab := f, links := ks, out := o } := by
  unfold State.barrierSwap
  split
  · dsimp only
    split
    · obtain ⟨h, d, b, w, r, o, e⟩ := State.objSet_frame { s with dom := { s.dom with firstArrival := some s.now } }
        (0xFE00 + s.dom.node) v
      exact ⟨_, h, d, b, w, r, s.fab, s.links, o, e⟩
    · obtain ⟨h, d, b, w, r, o, e⟩ := State.objSet_frame s (0xFE00 + s.dom.node) v
      exact ⟨_, h, d, b, w, r, s.fab, s.links, o, e⟩
  · obtain ⟨f, ks, o, e⟩ := State.requestLater_frame s 0 0 { blankPkt with
      op := 0x12, dst := s.dom.manager, asub := 1, asize := true, lenM1 := 7
      addr := BitVec.ofNat 64 (s.dom.manager * 2 ^ 56 + 0xFFF * 2 ^ 44 + 8 * s.dom.node), operand := BitVec.ofNat 64 v }
    exact ⟨s.dom.firstArrival, s.mem.hbm, s.mem.dieStore, s.mem.badBursts, s.waiting, s.rings, f, ks, o, e⟩

/-- A reply: added here, or sent as an atomic (R421, R434). -/
theorem State.replyTo_frame (s : State) (q : DomReq) (v : Nat) : ∃ h d b w r f ks o, s.replyTo q v =
    { s with mem := { s.mem with hbm := h, dieStore := d, badBursts := b }, waiting := w, rings := r, fab := f, links := ks, out := o } := by
  unfold State.replyTo
  split
  · obtain ⟨h, d, b, w, r, o, e⟩ := State.objSet_frame s q.replyObj ((s.objGet q.replyObj + v) % 2 ^ 64)
    exact ⟨h, d, b, w, r, s.fab, s.links, o, e⟩
  · obtain ⟨f, ks, o, e⟩ := State.requestLater_frame s 0 0 { blankPkt with
      op := 0x12, dst := q.replyNode, asub := 0, asize := true, lenM1 := 7
      addr := BitVec.ofNat 64 (q.replyNode * 2 ^ 56 + 0xFFF * 2 ^ 44 + 8 * (q.replyObj - 0xFE00)), operand := BitVec.ofNat 64 v }
    exact ⟨s.mem.hbm, s.mem.dieStore, s.mem.badBursts, s.waiting, s.rings, f, ks, o, e⟩

/-- An arm that ends: the revision, the arm and what it prefilled go, its request ends (R279, R305, R307). -/
theorem State.endArm_frame (s : State) (status : Nat) (res : List (Nat × Nat × Nat)) : ∃ n w r o, s.endArm status res =
    { s with rte := { s.rte with next := n }, caddy := { s.caddy with armed := none },
             mem := { s.mem with granules := s.mem.granules.filter fun g => !g.prefill }, dom := { s.dom with arm := none },
             waiting := w, rings := r, out := o } := by
  unfold State.endArm
  dsimp only
  obtain ⟨w, r, o, h⟩ := foldl_waits_frame (fun s w => State.unwait_finish_frame s w status res) (s.waiting.filter fun w => w.what = .arm)
    { s with
      rte := { s.rte with next := s.rte.next.filter fun t => some t.rev != (match s.caddy.armed with | some _ => some s.caddy.armedRev | none => none) }
      caddy := { s.caddy with armed := none }
      mem := { s.mem with granules := s.mem.granules.filter fun g => !g.prefill }
      dom := { s.dom with arm := none } }
  exact ⟨_, w, r, o, h⟩

end Sys2Proof.Machine
end

section
/-! PROOF. `Kept`: what the handling of an error leaves of the steep in progress, the domain and the sequences (spec 01 R19,
R20, spec 18 R442 to R458). Stated from an older state `r`, so that the lemmas chain by `apply`. -/

namespace Sys2Proof.Machine

/-! ## The relation -/

/-- A steep goes on: its program, batch and runs stay; failures only grow, and what is staged stays or its sequence fails. -/
structure Steep.Kept (a b : Steep) : Prop where
  running : b.running = a.running
  number : b.number = a.number
  batch : b.batch = a.batch
  stopped : b.stopped = a.stopped
  draftPasses : b.draftPasses = a.draftPasses
  issued : b.issued = a.issued
  failed : ∀ q ∈ a.failed, q ∈ b.failed
  staged : ∀ g ∈ a.staged, g ∈ b.staged ∨ g.seq ∈ b.failed

theorem Steep.Kept.refl (a : Steep) : Steep.Kept a a := ⟨rfl, rfl, rfl, rfl, rfl, rfl, fun _ h => h, fun _ h => .inl h⟩

theorem Steep.Kept.trans {a b c : Steep} (h : Steep.Kept a b) (k : Steep.Kept b c) : Steep.Kept a c where
  running := k.running.trans h.running
  number := k.number.trans h.number
  batch := k.batch.trans h.batch
  stopped := k.stopped.trans h.stopped
  draftPasses := k.draftPasses.trans h.draftPasses
  issued := k.issued.trans h.issued
  failed := fun q hq => k.failed q (h.failed q hq)
  staged := fun g hg => (h.staged g hg).elim (k.staged g) fun hf => .inr (k.failed _ hf)

/-- No sequence is closing (R27). -/
def NoneClosing (l : Tab SeqRec) : Prop := ∀ p ∈ l, p.2.closing = false

/-- Sequence records keep their committed length, and none begins to close. -/
structure SeqsKept (a b : Tab SeqRec) : Prop where
  committed : ∀ q, (b.get {} q).committed = (a.get {} q).committed
  closing : NoneClosing a → NoneClosing b

theorem SeqsKept.refl (a : Tab SeqRec) : SeqsKept a a := ⟨fun _ => rfl, id⟩

theorem SeqsKept.trans {a b c : Tab SeqRec} (h : SeqsKept a b) (k : SeqsKept b c) : SeqsKept a c :=
  ⟨fun q => (k.committed q).trans (h.committed q), k.closing ∘ h.closing⟩

theorem Tab.mem_of_find? {α : Type} {t : Tab α} {k : Nat} {v : α} (h : t.find? k = some v) : (k, v) ∈ t := by
  induction t with
  | nil => simp [Tab.find?] at h
  | cons p t ih =>
    obtain ⟨i, a⟩ := p
    simp only [Tab.find?] at h
    split at h
    · rename_i hi
      cases h
      exact hi ▸ List.mem_cons_self
    · exact List.mem_cons_of_mem _ (ih h)

theorem Tab.mem_set {α : Type} {t : Tab α} {k : Nat} {v : α} {p : Nat × α} (h : p ∈ t.set k v) : p = (k, v) ∨ p ∈ t := by
  induction t with
  | nil => exact .inl (by simpa [Tab.set] using h)
  | cons a t ih =>
    obtain ⟨i, a⟩ := a
    simp only [Tab.set] at h
    split at h
    · exact List.mem_cons.1 h
    · split at h
      · exact (List.mem_cons.1 h).imp_right (List.mem_cons_of_mem _)
      · rcases List.mem_cons.1 h with rfl | h
        · exact .inr List.mem_cons_self
        · exact (ih h).imp_right (List.mem_cons_of_mem _)

theorem NoneClosing.get {l : Tab SeqRec} (h : NoneClosing l) (q : Nat) : (l.get {} q).closing = false := by
  unfold Tab.get
  cases hf : l.find? q with
  | none => rfl
  | some r => exact h _ (Tab.mem_of_find? hf)

/-- A record set again with its committed length and its closing mark. -/
theorem SeqsKept.set {l : Tab SeqRec} {q : Nat} {x : SeqRec} (hc : x.committed = (l.get {} q).committed)
    (hx : x.closing = (l.get {} q).closing) : SeqsKept l (l.set q x) where
  committed := fun k => by
    rcases eq_or_ne k q with rfl | hk
    · rw [Tab.get_set_self, hc]
    · rw [Tab.get_set_ne _ _ _ hk]
  closing := fun h p hp => by
    rcases Tab.mem_set hp with rfl | hp
    · exact hx.trans (h.get q)
    · exact h p hp

theorem Tab.find?_mapVals {α : Type} (t : Tab α) (f : Nat → α → α) (k : Nat) : (t.mapVals f).find? k = (t.find? k).map (f k) := by
  induction t with
  | nil => rfl
  | cons p t ih =>
    obtain ⟨i, a⟩ := p
    rcases eq_or_ne i k with rfl | hk
    · simp [Tab.mapVals, Tab.find?]
    · simpa [Tab.mapVals, Tab.find?, hk] using ih

/-- Records all changed alike, with their committed lengths and closing marks. -/
theorem SeqsKept.mapVals {l : Tab SeqRec} {f : Nat → SeqRec → SeqRec} (hc : ∀ q x, (f q x).committed = x.committed)
    (hx : ∀ q x, (f q x).closing = x.closing) : SeqsKept l (l.mapVals f) where
  committed := fun k => by
    unfold Tab.get
    rw [Tab.find?_mapVals]
    cases l.find? k with
    | none => rfl
    | some x => exact hc k x
  closing := fun h p hp => by
    obtain ⟨a, ha, rfl⟩ := List.mem_map.1 hp
    exact (hx _ _).trans (h a ha)

theorem mem_foldl_addNew {x : Nat} (qs : List Nat) : ∀ l : List Nat, x ∈ qs.foldl addNew l ↔ x ∈ l ∨ x ∈ qs := by
  induction qs with
  | nil => simp
  | cons q qs ih =>
    intro l
    have hadd : x ∈ addNew l q ↔ x ∈ l ∨ x = q := by
      unfold addNew
      split
      · rename_i hq
        have : q ∈ l := by simpa using hq
        exact ⟨.inl, fun h => h.elim id fun e => e ▸ this⟩
      · simp
    rw [List.foldl_cons, ih, hadd, List.mem_cons, or_assoc]

/-- Sequences that fail a steep: they join the failed ones, and nothing of theirs stays staged. -/
theorem Steep.kept_fail (st : Steep) (qs : List Nat) :
    Steep.Kept st { st with failed := qs.foldl addNew st.failed, staged := st.staged.filter fun g => !qs.contains g.seq } where
  running := rfl
  number := rfl
  batch := rfl
  stopped := rfl
  draftPasses := rfl
  issued := rfl
  failed := fun q hq => (mem_foldl_addNew qs _).2 (.inl hq)
  staged := fun g hg => by
    by_cases hq : g.seq ∈ qs
    · exact .inr ((mem_foldl_addNew qs _).2 (.inr hq))
    · exact .inl (List.mem_filter.2 ⟨hg, by simpa using hq⟩)

/-- The fields that no error changes: clock, serving limits, power, locks, model, domain state and membership revision. -/
def State.rest (s : State) : Time × Serve × Power × Security × Option Model × DomState × Word :=
  (s.time, s.serve, s.pwr, s.sec, s.model, s.dom.state, s.dom.memberRev)

/-- What the handling of an error leaves. -/
structure Kept (s t : State) : Prop where
  rest : t.rest = s.rest
  steep : Steep.Kept s.steep t.steep
  seqs : SeqsKept s.eng.seqs t.eng.seqs

namespace Kept

variable {r s t : State}

theorem refl (s : State) : Kept s s := ⟨rfl, .refl _, .refl _⟩

theorem trans (h : Kept r s) (k : Kept s t) : Kept r t :=
  ⟨k.rest.trans h.rest, h.steep.trans k.steep, h.seqs.trans k.seqs⟩

/-- An update of fields that none of these look at. -/
theorem upd (h : Kept r s) (e : (t.rest, t.steep, t.eng.seqs) = (s.rest, s.steep, s.eng.seqs)) : Kept r t := by
  obtain ⟨hr, hs, he⟩ := Prod.mk.inj e |>.imp_right Prod.mk.inj
  exact h.trans ⟨hr, hs ▸ .refl _, he ▸ .refl _⟩

/-- An operation known by its frame, where the frame leaves these fields. -/
theorem eq (h : Kept r s) {u : State} (e : t = u) (hc : (u.rest, u.steep, u.eng.seqs) = (s.rest, s.steep, s.eng.seqs)) :
    Kept r t :=
  e ▸ h.upd hc

/-- An update of the steep. -/
theorem updSteep (h : Kept r s) {st : Steep} (k : Steep.Kept s.steep st) : Kept r (s.setSteep st) :=
  h.trans ⟨rfl, k, .refl _⟩

theorem foldl {α : Type} (h : Kept r s) {f : State → α → State} (hf : ∀ {t} a, Kept r t → Kept r (f t a)) (l : List α) :
    Kept r (l.foldl f s) := by
  induction l generalizing s with
  | nil => exact h
  | cons a l ih => exact ih (hf a h)

theorem ite {c : Prop} [Decidable c] (h : Kept r s) (k : Kept r t) : Kept r (if c then s else t) := by
  split <;> assumption

theorem time (h : Kept s t) : t.time = s.time := congrArg Prod.fst h.rest
theorem serve (h : Kept s t) : t.serve = s.serve := congrArg (·.2.1) h.rest
theorem pwr (h : Kept s t) : t.pwr = s.pwr := congrArg (·.2.2.1) h.rest
theorem sec (h : Kept s t) : t.sec = s.sec := congrArg (·.2.2.2.1) h.rest
theorem model (h : Kept s t) : t.model = s.model := congrArg (·.2.2.2.2.1) h.rest
theorem domState (h : Kept s t) : t.dom.state = s.dom.state := congrArg (·.2.2.2.2.2.1) h.rest
theorem memberRev (h : Kept s t) : t.dom.memberRev = s.dom.memberRev := congrArg (·.2.2.2.2.2.2) h.rest
theorem committed (h : Kept s t) (q : Nat) : (t.seq q).committed = (s.seq q).committed := h.seqs.committed q

end Kept

/-! ## Records, events and sending -/

section

variable {r s : State} (h : Kept r s)

include h

theorem State.note_kept (e : ErrIn) : Kept r (s.note e) := by
  obtain ⟨x, o, k⟩ := State.note_frame s e
  exact h.eq k rfl

theorem State.events_kept (qs : List Nat) (status : Nat) : Kept r (s.events qs status) := by
  obtain ⟨x, y, o, k⟩ := State.events_frame status qs s
  exact h.eq k rfl

theorem State.event_kept (q status : Nat) : Kept r (s.event q status) := by
  obtain ⟨x, y, o, k⟩ := State.event_frame s q status
  exact h.eq k rfl

theorem State.endOp_kept (n status ctl : Nat) : Kept r (s.endOp n status ctl false) := by
  obtain ⟨l, x, o, k⟩ := State.endOp_frame s n status ctl
  exact h.eq k rfl

theorem State.endWait_kept (w : Waiting) (status : Nat) : Kept r (s.endWait w status) := by
  obtain ⟨l, x, o, k⟩ := State.endWait_frame s w status
  exact h.eq k rfl

theorem State.store_kept (a : Nat) (bs : List Byte) : Kept r (s.store a bs) := by
  obtain ⟨hb, d, b, w, x, o, k⟩ := State.store_frame s a bs
  exact h.eq k rfl

theorem State.storeOk_kept (a : Nat) (bs : List Byte) : Kept r (s.storeOk a bs) := by
  obtain ⟨hb, d, b, w, x, o, k⟩ := State.storeOk_frame s a bs
  exact h.eq k rfl

theorem State.routeSend_kept (n : Nat) (p : RoutePkt) : Kept r (s.routeSend n p) := by
  obtain ⟨l, o, k⟩ := State.routeSend_frame s n p
  exact h.eq k rfl

theorem State.signalMiss_kept : Kept r s.signalMiss := by
  obtain ⟨a, hb, d, b, w, x, f, l, o, k⟩ := State.barrierSwap_frame s (2 ^ 63 + s.steep.number.toNat)
  exact h.eq k rfl

theorem State.leave_kept : Kept r s.leave := by
  obtain ⟨hb, d, b, w, x, f, l, o, k⟩ := State.sendOwn_frame s.drawByte.2 s.dom.manager 61 [s.drawByte.1]
  exact h.eq k rfl

theorem State.onSeq_kept (q : Nat) {f : SeqRec → SeqRec} (hf : ∀ x, ((f x).committed, (f x).closing) = (x.committed, x.closing)) :
    Kept r (s.onSeq q f) :=
  h.trans ⟨rfl, .refl _, .set (Prod.mk.inj (hf _)).1 (Prod.mk.inj (hf _)).2⟩

/-! ## Failures of sequences and of the package (R20, R442, R458) -/

theorem State.failSeqs_kept (qs : List Nat) (status : Nat) : Kept r (s.failSeqs qs status) :=
  State.events_kept (h.updSteep (Steep.kept_fail s.steep qs)) qs status

theorem State.stopPackage_kept : Kept r s.stopPackage := by
  unfold State.stopPackage
  have hmiss : Kept r (if s.steep.running then s.signalMiss else s) := .ite (State.signalMiss_kept h) h
  have hleave := Kept.ite (c := (if s.steep.running then s.signalMiss else s).dom.manager = 0xFF) hmiss (State.leave_kept hmiss)
  exact hleave.upd rfl

theorem State.fatal_kept (e : ErrIn) : Kept r (s.fatal e) :=
  (State.events_kept (State.note_kept (.ite h (State.stopPackage_kept h)) e) _ 0x0502).upd rfl

/-! ## Units that are lost (R442, R450 to R455) -/

theorem State.settleItems_kept : Kept r s.settleItems := h.upd rfl

theorem State.reissueTile_kept (die pos : Nat) (index : Word) : Kept r (s.reissueTile die pos index) :=
  .ite h (h.upd (by rfl))

theorem State.mapOutTile_kept (die pos : Nat) (index : Word) : Kept r (s.mapOutTile die pos index) :=
  (State.reissueTile_kept h die pos index).upd rfl

theorem State.mapOutCore_kept (die core : Nat) (index : Word) : Kept r (s.mapOutCore die core index) :=
  (State.reissueTile_kept (State.reissueTile_kept h die (2 * core) index) die (2 * core + 1) index).upd rfl

theorem State.withdrawFrames_kept (c : Nat) : Kept r (s.withdrawFrames c) := .ite h (h.upd (by rfl))

theorem State.classRehash_kept (c ch : Nat) : Kept r (s.classRehash c ch) := State.withdrawFrames_kept (h.upd (by rfl)) c

theorem State.dropChannel_kept (ch : Nat) : Kept r (s.dropChannel ch) := by
  unfold State.dropChannel
  dsimp only
  split
  · split
    · exact h.upd rfl
    · exact State.classRehash_kept (h.upd (by rfl)) _ _
  · exact h.upd rfl

theorem State.endPrefill_kept (q status : Nat) : Kept r (s.endPrefill q status) :=
  .ite h (State.onSeq_kept (State.endOp_kept h _ status 0x0605) q (fun _ => rfl))

theorem State.loseSeqs_kept (qs : List Nat) : Kept r (s.loseSeqs qs) := by
  unfold State.loseSeqs
  dsimp only
  have hlost := h.foldl (f := fun s q => (s.endPrefill q 0x0502).onSeq q fun r =>
      { r with state := .lost, paused := false, held := false, suspended := false })
    (fun q hk => State.onSeq_kept (State.endPrefill_kept hk q 0x0502) q (fun _ => rfl)) qs
  exact State.events_kept (hlost.updSteep (Steep.kept_fail _ qs)) qs 0x0502

theorem State.syncLoss_kept : Kept r s.syncLoss := by
  unfold State.syncLoss
  dsimp only
  have hclear : Kept r s.syncClear := h.upd rfl
  have hends := hclear.foldl (f := fun s w => s.endWait w 0x0425) (fun w hk => State.endWait_kept hk w 0x0425)
    (s.syncClear.waiting.filter fun w => w.what.object.isSome)
  exact .ite (hends.upd (by rfl)) hends

theorem State.loseChannel_kept (e : ErrIn) : Kept r (s.loseChannel e) := by
  unfold State.loseChannel
  refine .ite (State.fatal_kept (h.upd (by rfl)) _) (.ite (State.fatal_kept (State.dropChannel_kept h _) _) ?_)
  have hlost (x : ErrIn) := State.loseSeqs_kept (State.dropChannel_kept (State.note_kept h x) e.pos) (s.lostSeqs (s.classOf e.pos))
  have hsync (x : ErrIn) := Kept.ite (c := e.pos / 32 = 1) (State.syncLoss_kept (hlost x)) (hlost x)
  exact .ite (State.signalMiss_kept (hsync _)) (hsync _)

theorem State.jnl_kept (type bank : Nat) (gen : Word) (geom : DWord) (digest : W256) (ref : Word) :
    Kept r (s.jnl type bank gen geom digest ref) := .ite h (h.upd (by rfl))

theorem State.setCaddy_kept (c : Caddy) : Kept r (s.setCaddy c) := h.upd rfl

theorem State.loseSegment_kept (die seg : Nat) : Kept r (s.loseSegment die seg) := by
  unfold State.loseSegment
  have hmark := State.setCaddy_kept h { s.caddy with
    lostSegs := if s.caddy.lostSegs.contains (die, seg) then s.caddy.lostSegs else s.caddy.lostSegs ++ [(die, seg)] }
  dsimp only
  split
  · exact hmark
  · exact .ite hmark (State.setCaddy_kept (State.jnl_kept hmark 5 _ 0 0 0 0) _)

theorem State.failover_kept (e : ErrIn) (primaryLost : Bool) : Kept r (s.failover e primaryLost) := by
  unfold State.failover
  have hn := State.note_kept h { e with detail := b2n primaryLost }
  dsimp only
  split
  · exact .ite (State.failSeqs_kept (hn.upd (by rfl)) _ _) (hn.upd (by rfl))
  · exact hn.upd rfl

theorem State.unitLost_kept (e : ErrIn) : Kept r (s.unitLost e) := by
  unfold State.unitLost
  have hn := State.note_kept h e
  dsimp only
  split
  case h_1 =>
    have ht := State.settleItems_kept (State.mapOutTile_kept hn e.die e.pos s.err.total)
    refine .ite (.ite (State.fatal_kept ht _) ?_) ht
    exact State.settleItems_kept (State.mapOutCore_kept (State.note_kept ht _) _ _ _)
  case h_2 =>
    have hc := State.settleItems_kept (State.mapOutCore_kept hn e.die e.pos s.err.total)
    exact .ite (State.fatal_kept h _) (.ite (State.fatal_kept hc _) hc)
  case h_3 => exact State.loseChannel_kept h e
  case h_4 => exact (State.note_kept h _).upd rfl
  case h_5 => exact State.loseSegment_kept (State.note_kept h _) _ _
  case h_6 => exact .ite (State.failover_kept h e _) (State.fatal_kept h _)
  case h_7 => exact hn.upd rfl
  case h_8 => exact State.fatal_kept h _

/-! ## Errors as they are detected (R442 to R447) -/

theorem State.raise_kept (e : ErrIn) : Kept r (s.raise e) := by
  unfold State.raise
  split
  · exact h
  · dsimp only
    split
    · exact State.note_kept h e
    · exact State.failSeqs_kept (State.note_kept h e) _ _
    · exact State.unitLost_kept h _
    · exact State.fatal_kept h e

theorem State.dataError_kept (status : Nat) (seqs : List Nat) (unit die pos addr detail : Nat) :
    Kept r (s.dataError status seqs unit die pos addr detail) := State.raise_kept h _

theorem State.readError_kept (q : Nat) (e : Nat × Nat × Nat) : Kept r (s.readError q e) :=
  State.dataError_kept h e.1 [q] _ _ _ _ _

end

/-! ## With no error in handling (R445) -/

/-- With no error in handling, an error keeps its class. -/
theorem State.judge_of_idle {s : State} (h : s.err.handling = []) (e : ErrIn) : s.judge e = ⟨none, e.cls, false, 0⟩ := by
  simp [State.judge, State.parentOf, h]

/-- A corrected error with none in handling is one record. -/
theorem State.raise_of_idle {s : State} (h : s.err.handling = []) {e : ErrIn} (hc : e.cls = 0) :
    ∃ x o, s.raise e = { s with err := x, out := o } := by
  unfold State.raise
  split
  · exact ⟨s.err, s.out, rfl⟩
  · rw [State.judge_of_idle h, hc]
    exact State.note_frame s e

end Sys2Proof.Machine
end

section
/-! PROOF. The work of a steep keeps its program, batch and runs: the output path and the norm watch, routing packets and the
duties of routed layers (spec 03 R85 to R91, spec 05 R124 to R126, spec 07 R182 to R192). -/

namespace Sys2Proof.Machine

/-- The fields of a steep that `Steep.Kept` looks at. -/
def Steep.core (a : Steep) : Bool × Word × List BatchItem × Option (Bool × Nat) × Nat × List OpRun × List Nat × List Staged :=
  (a.running, a.number, a.batch, a.stopped, a.draftPasses, a.issued, a.failed, a.staged)

theorem Steep.Kept.of_core {a b : Steep} (h : b.core = a.core) : Steep.Kept a b := by
  simp only [Steep.core, Prod.mk.injEq] at h
  obtain ⟨hr, hn, hb, hs, hd, hi, hf, hg⟩ := h
  exact ⟨hr, hn, hb, hs, hd, hi, fun q hq => hf ▸ hq, fun g hq => .inl (hg ▸ hq)⟩

/-- An update of the results that a steep gathers. -/
theorem Kept.mark {r s : State} (h : Kept r s) {st : Steep} (hs : st.core = s.steep.core) : Kept r (s.setSteep st) :=
  h.updSteep (.of_core hs)

section

variable {r s : State} (h : Kept r s)

include h

/-! ## The output path (R85 to R91, R124, R151) -/

theorem State.onNorm_kept (i : Nat) (f : NormAcc → NormAcc) : Kept r (s.onNorm i f) := h.mark rfl

theorem State.flagLine_kept (index q : Nat) (n : Word) : Kept r (s.flagLine index q n) := by
  unfold State.flagLine
  have hn (f : NormAcc → NormAcc) (x : List Nat) : Kept r ((s.onNorm index f).setSteep { (s.onNorm index f).steep with flagged := x }) :=
    (State.onNorm_kept h index f).mark rfl
  exact .ite (State.dataError_kept (hn _ _) _ _ _ _ _ _ _) (hn _ _)

theorem State.normCheck_kept (m : Model) (index : Nat) (rec : List Byte) (q : Nat) (x : List Word) :
    Kept r (s.normCheck m index rec q x) :=
  .ite h (.ite (State.flagLine_kept h index q _) (State.onNorm_kept h index _))

theorem State.storeLine_kept (q a : Nat) (bs : List Byte) : Kept r (s.storeLine q a bs) := by
  unfold State.storeLine
  split
  · exact h
  · split
    · exact State.dataError_kept h _ _ _ _ _ _ _
    · exact State.store_kept h a bs

theorem State.writeSlot_kept (m : Model) (draft : Bool) (rec : List Byte) (l : OpLine) (line : List Word) :
    Kept r (s.writeSlot m draft rec l line) := by
  unfold State.writeSlot
  dsimp only
  split
  · exact h
  · exact (State.storeLine_kept h _ _ _).mark rfl

theorem State.steps6to8_kept (m : Model) (draft : Bool) (index : Nat) (rec : List Byte) (lines row : Nat) (l : OpLine)
    (x : List Word) : Kept r (s.steps6to8 m draft index rec lines row l x) := by
  unfold State.steps6to8
  extract_lets n ft x₁ x₂ f y a s₁ s₂ s₃
  have h₁ : Kept r s₁ := State.storeLine_kept (State.storeLine_kept h _ _ _) _ _ _
  have h₂ : Kept r s₂ := .ite (State.storeLine_kept h₁ _ _ _) h₁
  have h₃ : Kept r s₃ := .ite h₂ (State.onNorm_kept h₂ index _)
  exact .ite (State.writeSlot_kept h₃ m draft rec l _) h₃

/-! ## Routed layers (R182 to R192) -/

theorem State.setRte_kept (x : Route) : Kept r (s.setRte x) := h.upd rfl

theorem State.sendDispEnds_kept (layer : Nat) : Kept r (s.sendDispEnds layer) :=
  .ite h (State.setRte_kept (h.foldl (fun n hk => State.routeSend_kept hk n _) s.memberList) _)

theorem State.sendPourEnds_kept (layer : Nat) : Kept r (s.sendPourEnds layer) :=
  .ite h (State.setRte_kept (h.foldl (fun n hk => State.routeSend_kept hk n _) s.memberList) _)

theorem State.failedDuties_kept : Kept r s.failedDuties :=
  .ite (h.foldl (fun l hk => .ite (State.sendDispEnds_kept hk l) hk) s.routedList) h

theorem State.finishLayer_kept (m : Model) (layer : Nat) : Kept r (s.finishLayer m layer) := by
  unfold State.finishLayer
  dsimp only
  refine State.setRte_kept ?_ _
  split
  · exact h
  · exact (h.foldl (fun p hk => State.normCheck_kept hk m _ _ _ _) _).foldl
      (fun p hk => .ite hk (State.steps6to8_kept hk m false _ _ _ _ _ _)) _

theorem State.settleRoutes_kept : Kept r s.settleRoutes := by
  unfold State.settleRoutes
  split
  · exact h
  · refine h.foldl (fun l hk => ?_) _
    have hd := State.failedDuties_kept hk
    exact .ite (State.failedDuties_kept (State.finishLayer_kept hd _ l)) hd

/-! ## Arrivals (R182 to R186, R190) -/

theorem State.discardOld_kept : Kept r s.discardOld := h.upd rfl
theorem State.discardInvalid_kept : Kept r s.discardInvalid := h.upd rfl
theorem State.discardDup_kept : Kept r s.discardDup := h.upd rfl

theorem State.holdPkt_kept (p : RoutePkt) : Kept r (s.holdPkt p) :=
  .ite (State.discardInvalid_kept h) (.ite (State.discardDup_kept h) (State.setRte_kept h _))

theorem State.routeIn_kept (p : RoutePkt) (ptype : Nat) (next : Bool) {f : State → State} (hf : Kept r (f s)) :
    Kept r (s.routeIn p ptype next f) := by
  refine .ite h (.ite (State.discardInvalid_kept h) (.ite h ?_))
  split
  · exact State.discardOld_kept h
  · exact State.discardInvalid_kept h
  · exact hf
  · exact .ite (State.holdPkt_kept h p) (State.discardInvalid_kept h)

theorem State.writeShape_kept (m : Model) (layer : Nat) (p : Nat × Nat) : Kept r (s.writeShape m layer p) :=
  State.storeOk_kept (State.storeOk_kept h _ _) _ _

theorem State.settleLayer_kept (layer : Nat) : Kept r (s.settleLayer layer) := by
  unfold State.settleLayer
  split
  · exact h
  · exact .ite h (State.sendPourEnds_kept
      (State.setRte_kept (h.foldl (fun p hk => State.writeShape_kept hk _ layer p) (s.homeExperts layer)) _) layer)

theorem State.takeDispatch_kept (p : RoutePkt) : Kept r (s.takeDispatch p) :=
  .ite (State.discardInvalid_kept h) (.ite (State.discardDup_kept h)
    (State.settleLayer_kept (State.setRte_kept (State.storeOk_kept h _ _) _) _))

theorem State.takeDispEnd_kept (p : RoutePkt) : Kept r (s.takeDispEnd p) :=
  .ite (State.discardDup_kept h) (State.settleLayer_kept (State.setRte_kept h _) _)

theorem State.runHeld_kept : Kept r s.runHeld :=
  (State.setRte_kept h _).foldl (fun p hk => .ite (State.routeIn_kept hk p 1 true (State.takeDispatch_kept hk p))
    (State.routeIn_kept hk p 2 true (State.takeDispEnd_kept hk p))) s.rte.held

end

end Sys2Proof.Machine
end

section
/-! PROOF. The boundary of a steep: what its steps leave, and the batch that a release starts
(spec 01 R22 to R29, spec 08 R208 to R216, spec 17 R420 to R426). -/

namespace Sys2Proof.Machine

/-! ## Sequences closed, channels dropped, the table written back (R149, R197, R286) -/

/-- A fold of steps that each replace the memory block does no more. -/
theorem foldl_mem_frame {α : Type} {f : State → α → State} (hf : ∀ s a, ∃ m, f s a = { s with mem := m }) (l : List α) :
    ∀ s : State, ∃ m, l.foldl f s = { s with mem := m } := by
  induction l with
  | nil => exact fun s => ⟨s.mem, rfl⟩
  | cons a l ih =>
    intro s
    obtain ⟨m, h⟩ := hf s a
    obtain ⟨m', h'⟩ := ih (f s a)
    exact ⟨m', by rw [List.foldl_cons, h', h]⟩

theorem State.writeBack_frame (s : State) : ∃ m, s.writeBack = { s with mem := m } :=
  foldl_mem_frame (fun _ _ => ⟨_, rfl⟩) _ s

theorem State.classRehash_frame (s : State) (c ch : Nat) :
    ∃ k m, s.classRehash c ch = { s with eng := { s.eng with kv := k }, mem := m } := by
  unfold State.classRehash State.withdrawFrames
  dsimp only
  split
  · exact ⟨s.eng.kv, _, rfl⟩
  · exact ⟨_, _, rfl⟩

theorem State.rehashAll_frame (s : State) : ∃ k m, s.rehashAll = { s with eng := { s.eng with kv := k }, mem := m } := by
  unfold State.rehashAll
  generalize s.mem.classDrop = l
  induction l generalizing s with
  | nil => exact ⟨s.eng.kv, s.mem, rfl⟩
  | cons p l ih =>
    obtain ⟨k, m, h⟩ := State.classRehash_frame s p.1 p.2
    obtain ⟨k', m', h'⟩ := ih (s.classRehash p.1 p.2)
    exact ⟨k', m', by rw [List.foldl_cons, h', h]⟩

theorem State.freeSeq_frame (s : State) (q : Nat) : ∃ e m, s.freeSeq q = { s with eng := e, mem := m } := by
  unfold State.freeSeq
  dsimp only
  split
  · exact ⟨_, _, rfl⟩
  · exact ⟨_, _, rfl⟩

theorem State.freeClosed_frame (s : State) : ∃ e m, s.freeClosed = { s with eng := e, mem := m } := by
  have hfold : ∀ (l : List Nat) (u : State), ∃ e m, l.foldl (fun s q => s.freeSeq q) u = { u with eng := e, mem := m } := by
    intro l
    induction l with
    | nil => exact fun u => ⟨u.eng, u.mem, rfl⟩
    | cons q l ih =>
      intro u
      obtain ⟨e, m, h⟩ := State.freeSeq_frame u q
      obtain ⟨e', m', h'⟩ := ih (u.freeSeq q)
      exact ⟨e', m', by rw [List.foldl_cons, h', h]⟩
  obtain ⟨e, m, h⟩ := hfold ((s.eng.seqs.filter fun p => p.2.closing).map Prod.fst) s
  exact ⟨_, m, by rw [State.freeClosed, h]⟩

/-- With no sequence closing, only pages of sequences that lost their KV return. -/
theorem State.freeClosed_of_none (s : State) (h : NoneClosing s.eng.seqs) :
    ∃ l, s.freeClosed = { s with eng := { s.eng with seqs := l } } ∧ SeqsKept s.eng.seqs l := by
  have hnone : (s.eng.seqs.filter fun p => p.2.closing) = [] := List.filter_eq_nil_iff.2 fun p hp => by simp [h p hp]
  refine ⟨_, by rw [State.freeClosed, hnone]; rfl, .mapVals (fun q x => ?_) fun q x => ?_⟩
  all_goals split <;> rfl

/-! ## The cut (R26, R211) -/

/-- A request that takes effect changes tables of the engine, committed lengths left, and its record goes out. -/
theorem State.effect_frame (s : State) (w : Waiting) : ∃ e l r o,
    s.effect w = { s with eng := e, waiting := l, rings := r, out := o } ∧ SeqsKept s.eng.seqs e.seqs := by
  have hend : ∀ (u : State) (status : Nat) (res : List (Nat × Nat × Nat)), (∃ e, u = { s.unwait w with eng := e } ∧ SeqsKept s.eng.seqs e.seqs) →
      ∃ e l r o, u.finish w.ring w.desc status res = { s with eng := e, waiting := l, rings := r, out := o } ∧ SeqsKept s.eng.seqs e.seqs := by
    rintro u status res ⟨e, rfl, he⟩
    obtain ⟨r, o, h⟩ := State.finish_frame { s.unwait w with eng := e } w.ring w.desc status res
    exact ⟨e, _, r, o, h, he⟩
  have hsame : ∃ e, s.unwait w = { s.unwait w with eng := e } ∧ SeqsKept s.eng.seqs e.seqs := ⟨s.eng, rfl, .refl _⟩
  unfold State.effect
  dsimp only
  split
  · unfold State.effectTenantSet
    dsimp only
    split
    · exact hend _ _ _ hsame
    · split
      · exact hend _ _ _ ⟨_, rfl, .refl _⟩
      · split
        · exact hend _ _ _ hsame
        · exact hend _ _ _ ⟨_, rfl, .refl _⟩
  · unfold State.effectTenantRemove
    dsimp only
    split
    · exact hend _ _ _ hsame
    · split
      · exact hend _ _ _ hsame
      · exact hend _ _ _ ⟨_, rfl, .refl _⟩
  · unfold State.effectSteerSet
    dsimp only
    split
    · exact hend _ _ _ hsame
    · exact hend _ _ _ ⟨_, rfl, .refl _⟩
  · unfold State.effectSeqSet
    dsimp only
    split
    · exact hend _ _ _ hsame
    · refine hend _ _ _ ⟨_, rfl, .set ?_ ?_⟩
      · split_ifs <;> rfl
      · split_ifs <;> rfl
  · exact hend _ _ _ hsame

theorem State.cut_frame (s : State) : ∃ e l r o, s.cut =
    { s with serve := { s.serve with inForce := s.serve.written }, eng := e, waiting := l, rings := r, out := o } ∧
      SeqsKept s.eng.seqs e.seqs := by
  have hfold : ∀ (ws : List Waiting) (u : State), ∃ e l r o, ws.foldl (fun s w => s.effect w) u =
      { u with eng := e, waiting := l, rings := r, out := o } ∧ SeqsKept u.eng.seqs e.seqs := by
    intro ws
    induction ws with
    | nil => exact fun u => ⟨u.eng, u.waiting, u.rings, u.out, rfl, .refl _⟩
    | cons w ws ih =>
      intro u
      obtain ⟨e, l, r, o, h, k⟩ := State.effect_frame u w
      obtain ⟨e', l', r', o', h', k'⟩ := ih (u.effect w)
      refine ⟨e', l', r', o', by rw [List.foldl_cons, h', h], k.trans ?_⟩
      rw [h] at k'
      exact k'
  unfold State.cut
  dsimp only
  obtain ⟨e, l, r, o, h, k⟩ := hfold (s.waiting.filter fun w => w.what = .cut) { s with serve := { s.serve with inForce := s.serve.written } }
  rw [h]
  obtain ⟨l', r', o', h'⟩ := State.settleCloses_frame
    { s with serve := { s.serve with inForce := s.serve.written }, eng := e, waiting := l, rings := r, out := o }
  exact ⟨e, l', r', o', h', k⟩

/-! ## Records of sequences, pages and held sequences (R146 to R148, R195, R197) -/

@[simp] theorem State.store_eng (s : State) (a : Nat) (bs : List Byte) : (s.store a bs).eng = s.eng := by
  obtain ⟨h, d, b, w, r, o, e⟩ := State.store_frame s a bs
  rw [e]

theorem State.seq_store (s : State) (a : Nat) (bs : List Byte) (q : Nat) : (s.store a bs).seq q = s.seq q :=
  congrArg (fun e : Engine => e.seqs.get {} q) (State.store_eng s a bs)

theorem State.setSeq_kept {r s : State} (h : Kept r s) (q : Nat) {x : SeqRec} (hc : x.committed = (s.seq q).committed)
    (hx : x.closing = (s.seq q).closing) : Kept r (s.setSeq q x) :=
  h.trans ⟨rfl, .refl _, .set hc hx⟩

section

variable {r s : State} (h : Kept r s)

include h

theorem State.readRecord_kept (q : Nat) (bad : Bool) : Kept r (s.readRecord q bad) :=
  .ite h (.ite (State.raise_kept h _) h)

theorem State.cacheTouch_kept (q : Nat) : Kept r (s.cacheTouch q) := h.upd rfl

theorem State.jobDone_kept (q : Nat) : Kept r (s.jobDone q) := h.upd rfl

theorem State.contextFull_kept (q : Nat) : Kept r (s.contextFull q) := by
  unfold State.contextFull
  exact State.note_kept (State.onSeq_kept (State.endPrefill_kept h q _) q (by exact fun _ => rfl)) _

theorem State.addBlock_kept (q : Nat) : Kept r (s.addBlock q) := by
  unfold State.addBlock State.pickFree
  dsimp only
  have hfree : Kept r { s with free := s.free + 1 } := h.upd rfl
  split
  · refine State.setSeq_kept (State.store_kept hfree _ _) q ?_ ?_
    all_goals rw [State.seq_store]; rfl
  · refine State.setSeq_kept (State.store_kept (State.store_kept hfree _ _) _ _) q ?_ ?_
    all_goals rw [State.seq_store, State.seq_store]; rfl

theorem State.addFrame_kept (q : Nat) : Kept r (s.addFrame q) := by
  unfold State.addFrame State.pickFree
  dsimp only
  have hfree : Kept r { s with free := s.free + 1 } := h.upd rfl
  refine State.setSeq_kept (State.store_kept hfree _ _) q ?_ ?_
  all_goals rw [State.seq_store]; rfl

theorem repeatOn_kept {f : State → State} (hf : ∀ {t}, Kept r t → Kept r (f t)) (n : Nat) : Kept r (repeatOn f n s) := by
  induction n generalizing s with
  | zero => exact h
  | succ n ih => exact ih (hf h)

theorem State.reserve_kept {t : State} {q len : Nat} (hr : s.reserve q len = some t) : Kept r t := by
  unfold State.reserve at hr
  simp only [Option.ite_none_left_eq_some, Option.some.injEq] at hr
  obtain ⟨-, rfl⟩ := hr
  exact repeatOn_kept (repeatOn_kept h (fun k => State.addBlock_kept k q) _) (fun k => State.addFrame_kept k q) _

/-! ## The batch (R208 to R216) -/

omit h in
/-- A fold over a state and what it gathers. -/
theorem Kept.foldlFst {α β : Type} {p : State × β} (h : Kept r p.1) {f : State × β → α → State × β}
    (hf : ∀ {p} a, Kept r p.1 → Kept r (f p a).1) (l : List α) : Kept r (l.foldl f p).1 := by
  induction l generalizing p with
  | nil => exact h
  | cons a l ih => exact ih (hf a h)

theorem State.pauseLoop_kept (n : Nat) (b : List Nat) (next : Word) : Kept r (State.pauseLoop n s b next).1 := by
  induction n generalizing s b with
  | zero => exact h
  | succ n ih =>
    unfold State.pauseLoop
    dsimp only
    split
    · split
      · exact ih (State.event_kept (State.onSeq_kept h _ (by exact fun _ => rfl)) _ _) _
      · exact h
    · exact h

theorem State.resumeLoop_kept (b ps : List Nat) : Kept r (s.resumeLoop b ps).1 := by
  refine Kept.foldlFst (p := (s, b)) h (fun {p} a hk => ?_) ps
  obtain ⟨u, b⟩ := p
  dsimp only at hk ⊢
  generalize (match minGoal (u.tightest b) (u.goalOf a) with | none => true | some g => _) = fits
  split_ifs
  · exact State.event_kept (State.onSeq_kept hk _ (by exact fun _ => rfl)) _ _
  · exact hk

theorem State.reserveAll_kept (b : List Nat) : Kept r (s.reserveAll b).1 := by
  refine Kept.foldlFst (p := (s, [])) h (fun {p} a hk => ?_) b
  obtain ⟨u, l⟩ := p
  dsimp only at hk ⊢
  split <;> dsimp only
  · exact State.onSeq_kept (State.reserve_kept hk ‹_›) a (by exact fun _ => rfl)
  · exact .ite hk (State.event_kept (State.onSeq_kept hk _ (by exact fun _ => rfl)) _ _)

end

/-- Forming the batch changes, of what `Kept` names, the count of deferred sequences alone. -/
theorem State.formBatch_kept (s : State) (next : Word) (go : Bool) :
    ∃ u v, Kept s u ∧ Kept { u with serve := v } (s.formBatch next go).1 := by
  unfold State.formBatch
  extract_lets full s₁ cs
  have h₁ : Kept s s₁ := (Kept.refl s).foldl
    (fun q hk => .ite (State.jobDone_kept (State.contextFull_kept hk q) q) (State.contextFull_kept hk q)) full
  generalize List.foldl _ (([] : List Nat), 0) _ = b
  exact ⟨s₁, { s₁.serve with deferred := s₁.serve.deferred + BitVec.ofNat 64 b.2 }, h₁, State.reserveAll_kept
    (State.resumeLoop_kept (State.pauseLoop_kept (.refl _) b.1.length b.1 next) _ _) _⟩

/-! ## Long prefills at a boundary (R209, R341) -/

theorem State.opNote_frame (s : State) (h : Nat) (o : LongOp) (status : Nat) :
    ∃ r x l, s.opNote h o status = { s with rings := r, err := x, out := l } :=
  State.loose_frame s o.ring _ _

theorem State.prefillControls_of_none {s : State} (h : s.longOps = []) : s.prefillControls = s := by
  rw [State.prefillControls, h]
  rfl

/-- A control of a long prefill: its operation and its sequence change, its record goes out, then those of the waiting
controls. -/
theorem State.noteControls_dom (s : State) (q h : Nat) (f : SeqRec → SeqRec) (o o' : LongOp) (status : Nat) :
    (o.waiters.foldl (fun s c => s.finishControl c 0)
      (State.opNote { s.onSeq q f with longOps := (s.onSeq q f).longOps.set h o' } h o' status)).dom = s.dom := by
  obtain ⟨r, x, l, e⟩ := State.opNote_frame { s.onSeq q f with longOps := (s.onSeq q f).longOps.set h o' } h o' status
  obtain ⟨r', l', e'⟩ := foldl_rings_frame (fun s c => State.finishControl_frame s c 0) o.waiters
    (State.opNote { s.onSeq q f with longOps := (s.onSeq q f).longOps.set h o' } h o' status)
  rw [e', e]
  rfl

theorem State.prefillControls_dom (s : State) : s.prefillControls.dom = s.dom := by
  unfold State.prefillControls
  refine List.foldlRecOn (motive := fun t : State => t.dom = s.dom) _ _ rfl fun t ht p _ => ?_
  refine Eq.trans ?_ ht
  dsimp only
  split
  · split
    · exact State.noteControls_dom t _ p.1 _ p.2 _ _
    · exact State.noteControls_dom t _ p.1 _ p.2 _ _
    · obtain ⟨l, r, o, e⟩ := State.endOp_frame (t.cancelPrefill ‹_›) p.1 0x0602 0
      rw [e]
      rfl
    · rfl
  · rfl

/-! ## The start of a steep (R25, R213) -/

theorem State.writeBatch_kept {r s : State} (h : Kept r s) (b : List BatchItem) : Kept r (s.writeBatch b) := by
  unfold State.writeBatch
  split
  · exact h
  · exact State.storeOk_kept h _ _

/-- The steep that starts with a batch `b` and a goal. -/
def State.newSteep (s : State) (inp : BoundaryIn) (next : Word) (b : List Nat) (goal : Option Nat) : Steep :=
  let st : Steep := { running := true, number := next, held := true, releasedAt := some s.now, goal := goal }
  { st with batch := (s.setSteep st).batchItems inp b }

/-- From the controls of long prefills on, a release counts deferred sequences and starts its steep; the rest of it keeps
both. -/
theorem State.startSteep_kept (s : State) (inp : BoundaryIn) (next : Word) (go : Bool) : ∃ u v w st,
    Kept s.prefillControls u ∧ Kept { u with serve := v } w ∧ st.number = next ∧ st.running = true ∧
      Kept (w.setSteep st) (s.startSteep inp next go) := by
  have hread := (Kept.refl s.prefillControls).foldl (f := fun s q => s.readRecord q (inp.badCopy.contains q))
    (fun q hk => State.readRecord_kept hk q _) s.prefillControls.candidates
  unfold State.startSteep
  extract_lets s₁ s₂
  obtain ⟨u, v, hu, hw⟩ := State.formBatch_kept s₂ next go
  generalize s₂.formBatch next go = p at hw ⊢
  obtain ⟨w, b, goal⟩ := p
  dsimp -zeta only
  extract_lets s₃ items st s₄ s₅ s₆ bad s₇
  have h₆ : Kept s₄ s₆ := (State.writeBatch_kept (.refl s₄) items).foldl (fun q hk => State.cacheTouch_kept hk q) _
  have h₇ : Kept s₄ s₇ := h₆.foldl
    (fun i hk => .ite (State.dataError_kept hk _ _ _ _ _ _ _) (State.dataError_kept hk _ _ _ _ _ _ _)) bad
  exact ⟨u, v, w, w.newSteep inp next b goal, hread.trans hu, hw, rfl, rfl,
    .ite (State.fatal_kept h₇ _) (State.settleRoutes_kept (State.runHeld_kept h₇))⟩

/-- The steep that a release starts has its number and runs; domain state and membership stay, and with no long operation every
committed length (R25, R209, R213). -/
theorem State.startSteep_runs (s : State) (inp : BoundaryIn) (next : Word) (go : Bool) :
    (s.startSteep inp next go).steep.number = next ∧ (s.startSteep inp next go).steep.running = true ∧
      (s.startSteep inp next go).dom.state = s.dom.state ∧ (s.startSteep inp next go).dom.memberRev = s.dom.memberRev ∧
      (s.longOps = [] → ∀ q, ((s.startSteep inp next go).seq q).committed = (s.seq q).committed) := by
  obtain ⟨u, v, w, st, hu, hw, hnum, hrun, ht⟩ := State.startSteep_kept s inp next go
  refine ⟨ht.steep.number.trans hnum, ht.steep.running.trans hrun, ?_, ?_, fun hl q => ?_⟩
  · rw [ht.domState, State.setSteep_dom, hw.domState, ← State.prefillControls_dom s]
    exact hu.domState
  · rw [ht.memberRev, State.setSteep_dom, hw.memberRev, ← State.prefillControls_dom s]
    exact hu.memberRev
  · rw [State.prefillControls_of_none hl] at hu
    exact (ht.committed q).trans ((hw.committed q).trans (hu.committed q))

end Sys2Proof.Machine
end

section
/-! PROOF. The record rows: releases, opening releases and adoption records (spec 01 R22 to R29, spec 17 R420 to R426). -/

namespace Sys2Proof.Machine

/-! ## What a boundary that commits nothing leaves (R23, R149, R286) -/

/-- Where no sequence was closing, committed lengths stay; so do the long operations, and no steep starts. -/
structure Settled (s t : State) : Prop where
  seqs : NoneClosing s.eng.seqs → SeqsKept s.eng.seqs t.eng.seqs
  longOps : t.longOps = s.longOps
  stops : s.steep.running = false → t.steep.running = false

namespace Settled

variable {r s t : State}

theorem refl (s : State) : Settled s s := ⟨fun _ => .refl _, rfl, id⟩

theorem trans (h : Settled r s) (k : Settled s t) : Settled r t :=
  ⟨fun hn => (h.seqs hn).trans (k.seqs ((h.seqs hn).closing hn)), k.longOps.trans h.longOps, k.stops ∘ h.stops⟩

/-- An operation known by its frame, where the frame leaves these fields. -/
theorem eq (h : Settled r s) {u : State} (e : t = u) (hq : SeqsKept s.eng.seqs u.eng.seqs )
    (hl : u.longOps = s.longOps) (hs : u.steep.running = s.steep.running) : Settled r t :=
  h.trans ⟨fun _ => e ▸ hq, e ▸ hl, fun hr => e ▸ hs.trans hr⟩

end Settled

section

variable {r s : State} (h : Settled r s)

include h

theorem State.take_settled (m : Nat) : Settled r (s.take m) := by
  obtain ⟨hb, d, b, w, x, o, k⟩ := State.take_frame s m
  exact h.eq k (.refl _) rfl rfl

theorem State.abandon_settled : Settled r s.abandon := h.trans ⟨fun _ => .refl _, rfl, fun _ => rfl⟩

theorem State.rehashAll_settled : Settled r s.rehashAll := by
  obtain ⟨k, m, e⟩ := State.rehashAll_frame s
  exact h.eq e (.refl _) rfl rfl

theorem State.freeClosed_settled : Settled r s.freeClosed := by
  obtain ⟨x, m, e⟩ := State.freeClosed_frame s
  refine h.trans ⟨fun hn => ?_, by rw [e], fun hr => by rw [e]; exact hr⟩
  obtain ⟨l, e, k⟩ := State.freeClosed_of_none s hn
  rw [e]
  exact k

theorem State.writeBack_settled : Settled r s.writeBack := by
  obtain ⟨m, e⟩ := State.writeBack_frame s
  exact h.eq e (.refl _) rfl rfl

theorem State.abortSwap_settled : Settled r s.abortSwap := by
  obtain ⟨n, w, x, o, e⟩ := State.endArm_frame s 0x0434 []
  exact h.eq e (.refl _) rfl rfl

theorem State.cut_settled : Settled r s.cut := by
  obtain ⟨e, l, x, o, k, hq⟩ := State.cut_frame s
  exact h.eq k hq rfl rfl

/-- Entering BRINGUP where no steeps run: the steep is abandoned, closed sequences free, an arm ends. -/
theorem State.enterBringup_settled (hn : s.noSteeps = true) : Settled r s.enterBringup := by
  have hend : Settled r s.abandon.freeClosed.abortSwap := State.abortSwap_settled (State.freeClosed_settled (State.abandon_settled h))
  unfold State.enterBringup
  rw [if_pos hn]
  exact hend.trans (.eq (.refl _) rfl (.refl _) rfl rfl)

end

/-! ## The revisions and the state that a record names (R29, R173, R174, R388, R419) -/

/-- The home table of a revision comes in force where it is the next one. -/
def Route.adoptTable (x : Route) (rev : Word) : Route :=
  match x.next with
  | some t => if t.rev = rev then { x with table := t, next := none } else x
  | none => x

theorem Route.adoptTable_of_eq {x : Route} {t : HomeTable} (h : x.next = some t) :
    x.adoptTable t.rev = { x with table := t, next := none } := by simp [Route.adoptTable, h]

theorem Route.adoptTable_of_none {x : Route} (h : x.next = none) (rev : Word) : x.adoptTable rev = x := by
  simp [Route.adoptTable, h]

theorem State.adoptRevs_frame (s : State) (r : RelRec) : ∃ v ms, s.adoptRevs r = { s with
    rte := { s.rte.adoptTable r.htRev with quotaRev := v, quotaMembers := ms }, dom := { s.dom with memberRev := r.memberRev } } := by
  unfold State.adoptRevs
  extract_lets x s₁ y s₂
  have htable : s₁ = s.setRte (s.rte.adoptTable r.htRev) := by
    dsimp only [s₁, Route.adoptTable]
    cases s.rte.next with
    | none => rfl
    | some t => exact (apply_ite s.setRte (t.rev = r.htRev) _ _).symm
  have hquota : ∃ v ms, s₂ = s₁.setRte { s₁.rte with quotaRev := v, quotaMembers := ms } := by
    dsimp only [s₂]
    split_ifs <;> exact ⟨_, _, rfl⟩
  obtain ⟨v, ms, hquota⟩ := hquota
  clear_value s₂ s₁
  subst hquota htable
  exact ⟨v, ms, rfl⟩

theorem State.enterState_frame (s : State) (d : DomState) : ∃ m b, s.enterState d = { s with
    disc := { s.disc with lastMembership := m }, dom := { s.dom with state := d, trustedEn := b } } := by
  unfold State.enterState
  split_ifs <;> exact ⟨_, _, rfl⟩

section

variable {r s : State} (h : Settled r s)

include h

theorem State.adoptRevs_settled (x : RelRec) : Settled r (s.adoptRevs x) := by
  obtain ⟨v, ms, e⟩ := State.adoptRevs_frame s x
  exact h.eq e (.refl _) rfl rfl

theorem State.enterState_settled (d : DomState) : Settled r (s.enterState d) := by
  obtain ⟨m, b, e⟩ := State.enterState_frame s d
  exact h.eq e (.refl _) rfl rfl

end

/-- After step 4 the state and the membership revision are those that the record names. -/
theorem State.enterState_dom (s : State) (r : RelRec) : ((s.adoptRevs r).enterState r.state).cut.dom.state = r.state ∧
    ((s.adoptRevs r).enterState r.state).cut.dom.memberRev = r.memberRev := by
  obtain ⟨e, l, x, o, hcut, -⟩ := State.cut_frame ((s.adoptRevs r).enterState r.state)
  obtain ⟨m, b, hstate⟩ := State.enterState_frame (s.adoptRevs r) r.state
  obtain ⟨v, ms, hrevs⟩ := State.adoptRevs_frame s r
  rw [hcut, hstate, hrevs]
  exact ⟨rfl, rfl⟩

/-! ## Entering BRINGUP starts a round (R384, R388) -/

theorem State.reportLink_frame (s : State) (l : Nat) : ∃ d ks o, s.reportLink l = { s with disc := d, links := ks, out := o } := by
  unfold State.reportLink
  dsimp only
  split
  · exact ⟨_, s.links, s.out, rfl⟩
  · split
    · exact ⟨s.disc, s.links, s.out, rfl⟩
    · split
      · obtain ⟨ks, o, h⟩ := State.sendFrame_frame s ‹_› { s.linkReportFrame l with lanes := (s.link ‹_›).lanes }
        exact ⟨s.disc, ks, o, h⟩
      · exact ⟨s.disc, s.links, s.out, rfl⟩

theorem State.query_frame (s : State) : ∃ d ks o, s.query = { s with disc := d, links := ks, out := o } := by
  unfold State.query
  split
  · split
    · obtain ⟨ks, o, h⟩ := State.sendFrame_frame (s.setDisc _) _ _
      exact ⟨_, ks, o, h⟩
    · exact ⟨_, s.links, s.out, rfl⟩
  · exact ⟨s.disc, s.links, s.out, rfl⟩

theorem State.startRound_frame (s : State) : ∃ d ks o, s.startRound =
    { s with disc := d, dom := { s.dom with node := 0, manager := 0, role := .manager }, links := ks, out := o } := by
  have hfold : ∀ (l : List Nat) (u : State), ∃ d ks o, l.foldl (fun s l => s.reportLink l) u =
      { u with disc := d, links := ks, out := o } := by
    intro l
    induction l with
    | nil => exact fun u => ⟨u.disc, u.links, u.out, rfl⟩
    | cons a l ih =>
      intro u
      obtain ⟨d, ks, o, h⟩ := State.reportLink_frame u a
      obtain ⟨d', ks', o', h'⟩ := ih (u.reportLink a)
      exact ⟨d', ks', o', by rw [List.foldl_cons, h', h]⟩
  unfold State.startRound
  extract_lets disc s₁ dom s₂ s₃
  obtain ⟨d, ks, o, h⟩ := hfold s₂.domainLinks s₂
  have h₃ : s₃ = { s₂ with disc := d, links := ks, out := o } := h
  obtain ⟨d', ks', o', h'⟩ := State.query_frame s₃
  exact ⟨d', ks', o', by rw [h', h₃]; rfl⟩

theorem State.startRound_settled {r s : State} (h : Settled r s) : Settled r s.startRound := by
  obtain ⟨d, ks, o, e⟩ := State.startRound_frame s
  exact h.eq e (.refl _) rfl rfl

theorem State.abandon_freeClosed_dom (s : State) : s.abandon.freeClosed.dom = s.dom := by
  obtain ⟨e, m, h⟩ := State.freeClosed_frame s.abandon
  rw [h]
  rfl

theorem State.enterBringup_dom {s : State} (hn : s.noSteeps = true) :
    s.enterBringup.dom.state = .bringup ∧ s.enterBringup.dom.memberRev = s.dom.memberRev := by
  refine ⟨rfl, ?_⟩
  unfold State.enterBringup State.abortSwap
  rw [if_pos hn]
  obtain ⟨n, w, r, o, h⟩ := State.endArm_frame s.abandon.freeClosed 0x0434 []
  dsimp only [State.setDom, State.setDisc]
  rw [h]
  exact (congrArg Domain.memberRev (State.abandon_freeClosed_dom s) :)

/-! ## A release that closes the steep (R22, R23, R25) -/

/-- A boundary that commits nothing ends the steep, frees what is closed and aborts an armed swap. -/
theorem State.applyVerdict_false (s : State) : (s.applyVerdict false).abortSwap.steep.running = false ∧
    Settled s (s.applyVerdict false).abortSwap := by
  have hend {r u : State} (h : Settled r u) : Settled r ((u.rehashAll).freeClosed).writeBack.abortSwap :=
    State.abortSwap_settled (State.writeBack_settled (State.freeClosed_settled (State.rehashAll_settled h)))
  unfold State.applyVerdict
  extract_lets per late serve s₁ s₂
  have h₁ : Settled s s₂ := .eq (.refl s) rfl (.refl _) rfl rfl
  exact ⟨(hend (.refl s₂.abandon)).stops rfl, hend (State.abandon_settled h₁)⟩

/-- A release that commits nothing: step 1 without a commit, then steps 4 and 5, then the next steep or none. -/
theorem State.applyRelease_of_not_go (s : State) (inp : BoundaryIn) {r : RelRec}
    (h : r.repeat_ = true ∨ ¬ (r.state = .test ∨ r.state = .service)) :
    let v := (((s.applyVerdict false).abortSwap.adoptRevs r).enterState r.state).cut
    let w := v.setRte { v.rte with held := [] }
    s.applyRelease inp r = if r.state = .test ∨ r.state = .service then v.startSteep inp r.next false
      else if r.state = .bringup ∧ w.dom.role = .manager then w.enterBringup.startRound else w := by
  have hgo : (!r.repeat_ && (decide (r.state = .test) || decide (r.state = .service))) = false := by
    rcases h with h | h
    · simp [h]
    · simp only [not_or] at h
      simp [h]
  extract_lets v x w
  unfold State.applyRelease
  extract_lets stays go s₁ s₂ s₃ s₄ s₅ x' w'
  have h₃ : s₃ = (s.applyVerdict false).abortSwap := by simp [s₃, s₂, s₁, go, stays, hgo]
  have h₅ : s₅ = v := by simp only [s₅, s₄, h₃, v]
  have hw : w' = w := by simp only [w, x, w', x', h₅]
  simp only [h₅, hw, go, stays, hgo, Bool.or_eq_true, Bool.and_eq_true, decide_eq_true_eq]

/-- A release that leaves TEST and SERVICE: its end, where a manager may start a round. -/
theorem State.applyRelease_leaves (s : State) (inp : BoundaryIn) {r : RelRec} (h : r.state = .bringup ∨ r.state = .recovery) :
    (s.applyRelease inp r).dom.state = r.state ∧ (s.applyRelease inp r).dom.memberRev = r.memberRev ∧
      (s.applyRelease inp r).steep.running = false ∧ Settled s (s.applyRelease inp r) := by
  have hstays : ¬ (r.state = .test ∨ r.state = .service) := by rcases h with h | h <;> simp [h]
  obtain ⟨hrun, hset⟩ := State.applyVerdict_false s
  obtain ⟨hstate, hrev⟩ := State.enterState_dom (s.applyVerdict false).abortSwap r
  have hcut {q u : State} (k : Settled q u) : Settled q ((u.adoptRevs r).enterState r.state).cut :=
    State.cut_settled (State.enterState_settled (State.adoptRevs_settled k r) _)
  rw [State.applyRelease_of_not_go s inp (.inr hstays), if_neg hstays]
  have hv := hcut hset
  have hvrun := (hcut (.refl _)).stops hrun
  generalize (((s.applyVerdict false).abortSwap.adoptRevs r).enterState r.state).cut = v at hstate hrev hv hvrun ⊢
  have hheld : Settled v (v.setRte { v.rte with held := [] }) := .eq (.refl _) rfl (.refl _) rfl rfl
  split_ifs with hb
  · have hns : (v.setRte { v.rte with held := [] }).noSteeps = true := by
      simp [State.noSteeps, State.setRte, hstate, hb.1]
    have hround := State.startRound_settled (State.enterBringup_settled hheld hns)
    obtain ⟨hdom, hmem⟩ := State.enterBringup_dom hns
    obtain ⟨d, ks, o, e⟩ := State.startRound_frame (v.setRte { v.rte with held := [] }).enterBringup
    have hstate' := congrArg (fun t : State => t.dom.state) e
    have hrev' := congrArg (fun t : State => t.dom.memberRev) e
    exact ⟨hstate'.trans (hdom.trans hb.1.symm), hrev'.trans (hmem.trans hrev), hround.stops hvrun, hv.trans hround⟩
  · exact ⟨hstate, hrev, hvrun, hv.trans hheld⟩

/-- A release into TEST or SERVICE: the next steep runs. -/
theorem State.applyRelease_stays (s : State) (inp : BoundaryIn) {r : RelRec} (h : r.state = .test ∨ r.state = .service) :
    (s.applyRelease inp r).dom.state = r.state ∧ (s.applyRelease inp r).dom.memberRev = r.memberRev ∧
      (s.applyRelease inp r).steep.number = r.next ∧ (s.applyRelease inp r).steep.running = true := by
  unfold State.applyRelease
  extract_lets stays go s₁ s₂ s₃ s₄ s₅
  rw [if_pos (show stays = true by simpa [stays] using h)]
  obtain ⟨hnum, hrun, hstate, hrev, -⟩ := State.startSteep_runs s₅ inp r.next go
  obtain ⟨hstate', hrev'⟩ := State.enterState_dom s₃ r
  exact ⟨hstate.trans hstate', hrev.trans hrev', hnum, hrun⟩

/-- A REPEAT into TEST or SERVICE commits no token. -/
theorem State.applyRelease_repeat (s : State) (inp : BoundaryIn) {r : RelRec} (h : r.state = .test ∨ r.state = .service)
    (hr : r.repeat_ = true) (hl : s.longOps = []) (hn : NoneClosing s.eng.seqs) (q : Nat) :
    ((s.applyRelease inp r).seq q).committed = (s.seq q).committed := by
  have hset := State.cut_settled (State.enterState_settled (State.adoptRevs_settled (State.applyVerdict_false s).2 r) r.state)
  rw [State.applyRelease_of_not_go s inp (.inl hr), if_pos h]
  generalize (((s.applyVerdict false).abortSwap.adoptRevs r).enterState r.state).cut = v at hset ⊢
  obtain ⟨-, -, -, -, hcom⟩ := State.startSteep_runs v inp r.next false
  exact (hcom (hset.longOps.trans hl) q).trans ((hset.seqs hn).committed q)

/-! ## The rows -/

/-- Every record row asks first for a record. -/
theorem records_need_head {s : State} {inp : BoundaryIn} (h : s.relHead = none) :
    ∀ c ∈ [Instr.release inp, .openingRelease inp, .adoptionRecord], exec c s = .next s := by
  simp [exec, execRelease, execOpeningRelease, execAdoptionRecord, h]

section

variable {s : State} {inp : BoundaryIn} {r : RelRec} (hr : s.relHead = some r) (hs : s.serving = true)

include hr

theorem release_waits (h : s.requestsIn = false) : exec (.release inp) s = .next s ∧ exec (.openingRelease inp) s = .next s := by
  simp [exec, execRelease, execOpeningRelease, hr, h]

include hs

theorem release_closes (hreq : s.requestsIn = true) (hrun : s.steep.running = true) (ho : r.open_ = false) (ha : r.adopt = false)
    (hc : r.closed = s.steep.number) : exec (.release inp) s = .next ((s.take 63).applyRelease inp r) := by
  obtain ⟨hb, d, b, w, x, o, e⟩ := State.take_frame s 63
  have hsteep : (s.take 63).steep = s.steep := by rw [e]
  simp [exec, execRelease, hr, hs, hreq, hrun, ho, ha, hc, hsteep]

theorem release_discards (hreq : s.requestsIn = true) (hrun : s.steep.running = true)
    (h : r.open_ = true ∨ r.adopt = true ∨ r.closed ≠ s.steep.number) :
    exec (.release inp) s = .next ((s.take 63).raise { status := 0x0319, cls := 0, unit := 6 }) := by
  obtain ⟨hb, d, b, w, x, o, e⟩ := State.take_frame s 63
  have hsteep : (s.take 63).steep = s.steep := by rw [e]
  rcases h with h | h | h <;> simp [exec, execRelease, hr, hs, hreq, hrun, hsteep, h]

theorem openingRelease_opens (hreq : s.requestsIn = true) (hrun : s.steep.running = false) (ho : r.open_ = true) :
    exec (.openingRelease inp) s = .next
      (((((((s.take 63).rehashAll.freeClosed).writeBack).adoptRevs r).enterState r.state).cut).startSteep inp r.next true) := by
  simp [exec, execOpeningRelease, hr, hs, hreq, hrun, ho]

end

/-- A member that has taken an adoption record: the request may be answered. -/
theorem State.adoptTaken_frame (s : State) (n : Nat) : ∃ a h d b w r f ks o, s.adoptTaken n =
    { s with dom := { s.dom with adopting := a }, mem := { s.mem with hbm := h, dieStore := d, badBursts := b },
             waiting := w, rings := r, fab := f, links := ks, out := o } := by
  unfold State.adoptTaken
  split
  · exact ⟨s.dom.adopting, s.mem.hbm, s.mem.dieStore, s.mem.badBursts, s.waiting, s.rings, s.fab, s.links, s.out, rfl⟩
  · rename_i q ns _
    dsimp only
    split
    · obtain ⟨h, d, b, w, r, f, ks, o, e⟩ := State.replyTo_frame { s with dom := { s.dom with adopting := none } } q 1
      exact ⟨none, h, d, b, w, r, f, ks, o, e⟩
    · exact ⟨_, s.mem.hbm, s.mem.dieStore, s.mem.badBursts, s.waiting, s.rings, s.fab, s.links, s.out, rfl⟩

theorem adoptionRecord_eq {s : State} {r : RelRec} (hr : s.relHead = some r) (hs : s.serving = true) (hrun : s.steep.running = false)
    (ha : r.adopt = true) (ho : r.open_ = false) {t : State} (ht : ((s.take 63).adoptRevs r).adoptTaken s.dom.node = t) :
    exec .adoptionRecord s = .next (if sortBy (· ≤ ·) t.rte.table.members = t.memberList && t.rte.table.rev = r.htRev then
      { t with dom := { t.dom with membershipChanged := false } } else t) := by
  subst ht
  simp [exec, execAdoptionRecord, hr, hs, hrun, ha, ho]

/-- An adoption record, applied: the revisions it names, and MEMBERSHIP_CHANGED cleared for the membership in force. -/
theorem adoptionRecord_adopts {s : State} {r : RelRec} (hr : s.relHead = some r) (hs : s.serving = true) (hrun : s.steep.running = false)
    (ha : r.adopt = true) (ho : r.open_ = false) :
    ∃ t : State, exec .adoptionRecord s = .next t ∧ t.steep = s.steep ∧ t.dom.state = s.dom.state ∧ t.dom.memberRev = r.memberRev ∧
      t.eng = s.eng ∧ t.rte.table = (s.rte.adoptTable r.htRev).table ∧ t.rte.next = (s.rte.adoptTable r.htRev).next ∧
      (sortBy (· ≤ ·) t.rte.table.members = s.memberList → t.rte.table.rev = r.htRev → t.dom.membershipChanged = false) := by
  obtain ⟨hb, d, b, w, x, o, htake⟩ := State.take_frame s 63
  obtain ⟨v, ms, hrevs⟩ := State.adoptRevs_frame (s.take 63) r
  obtain ⟨a, hb', d', b', w', x', f', ks', o', e⟩ := State.adoptTaken_frame ((s.take 63).adoptRevs r) s.dom.node
  rw [adoptionRecord_eq hr hs hrun ha ho e, hrevs, htake]
  refine ⟨_, rfl, ?_⟩
  split_ifs with hcond
  · exact ⟨rfl, rfl, rfl, rfl, rfl, rfl, fun _ _ => rfl⟩
  · refine ⟨rfl, rfl, rfl, rfl, rfl, rfl, fun hm hv => absurd ?_ hcond⟩
    rw [Bool.and_eq_true, decide_eq_true_iff, decide_eq_true_iff]
    exact ⟨hm, hv⟩

/-- Settles O26: a closing release by its verdict and step 4, an opening release and an adoption record by step 4 alone. -/
theorem releasesAreApplied : Obligations.ReleasesAreApplied := by
  unfold Obligations.ReleasesAreApplied
  refine fun s inp => ⟨records_need_head, fun r hr hs => ⟨release_waits hr, ?closes, ?discards, ?opens, ?adopts⟩⟩
  case closes =>
    intro hreq hrun ho ha hc
    have htake := State.take_settled (.refl s) 63
    refine ⟨_, release_closes hr hs hreq hrun ho ha hc, ?_⟩
    by_cases hstays : r.state = .test ∨ r.state = .service
    · obtain ⟨hstate, hrev, hnum, hrun'⟩ := State.applyRelease_stays (s.take 63) inp hstays
      have hleave : ¬ (r.state = .bringup ∨ r.state = .recovery) := by rcases hstays with h | h <;> simp [h]
      refine ⟨hstate, hrev, fun _ => ⟨hnum, hrun'⟩, fun h => absurd h hleave, fun hrep hl hn q => ?_⟩
      have hrep : r.repeat_ = true := hrep.resolve_right hleave
      exact (State.applyRelease_repeat (s.take 63) inp hstays hrep (htake.longOps.trans hl) ((htake.seqs hn).closing hn) q).trans
        ((htake.seqs hn).committed q)
    · have hleave : r.state = .bringup ∨ r.state = .recovery := by
        cases h : r.state <;> simp [h] at hstays ⊢
      obtain ⟨hstate, hrev, hrun', hset⟩ := State.applyRelease_leaves (s.take 63) inp hleave
      exact ⟨hstate, hrev, fun h => absurd h hstays, fun _ => hrun', fun _ _ hn q =>
        ((htake.trans hset).seqs hn).committed q⟩
  case discards =>
    intro hreq hrun h hidle
    obtain ⟨hb, d, b, w, x, o, htake⟩ := State.take_frame s 63
    obtain ⟨y, o', hraise⟩ := State.raise_of_idle (s := s.take 63) (e := { status := 0x0319, cls := 0, unit := 6 })
      (by rw [htake]; exact hidle) rfl
    refine ⟨_, release_discards hr hs hreq hrun h, ?_⟩
    rw [hraise, htake]
    exact ⟨rfl, rfl, rfl, rfl⟩
  case opens =>
    intro hreq hrun ho
    refine ⟨_, openingRelease_opens hr hs hreq hrun ho, ?_⟩
    obtain ⟨hnum, hrun', hstate, hrev, -⟩ := State.startSteep_runs
      (((((s.take 63).rehashAll.freeClosed).writeBack).adoptRevs r).enterState r.state).cut inp r.next true
    obtain ⟨hstate', hrev'⟩ := State.enterState_dom (((s.take 63).rehashAll.freeClosed).writeBack) r
    exact ⟨hnum, hrun', hstate.trans hstate', hrev.trans hrev'⟩
  case adopts =>
    intro hrun ha ho
    obtain ⟨t, he, hsteep, hstate, hrev, heng, htable, hnext, hchanged⟩ := adoptionRecord_adopts hr hs hrun ha ho
    refine ⟨t, he, hsteep, hstate, hrev, heng, fun n hn hv => ?_, fun hn => ?_, fun hn hv hm => ?_⟩
    · rw [htable, hnext, ← hv, Route.adoptTable_of_eq hn]
      exact ⟨rfl, rfl⟩
    · rw [htable, Route.adoptTable_of_none hn]
    · rw [htable, Route.adoptTable_of_none hn] at hchanged
      exact hchanged hm hv

end Sys2Proof.Machine
end

section
/-! PROOF. The standby takes over; the management processor and TCLK recover (spec 01 R33, spec 02 R47, R53, spec 17 R427 to
R429, spec 18 R457). -/

namespace Sys2Proof.Machine

/-! ## Takeover (R383, R427 to R429) -/

/-- Messages of the package's own to several nodes leave the domain and what discovery found. -/
theorem State.foldl_sendOwn_domain (m : Nat) (bs : List Byte) (ns : List Nat) (s : State) :
    (ns.foldl (fun s n => s.sendOwn n m bs) s).dom = s.dom ∧ (ns.foldl (fun s n => s.sendOwn n m bs) s).steep = s.steep ∧
      (ns.foldl (fun s n => s.sendOwn n m bs) s).disc = s.disc := by
  induction ns generalizing s with
  | nil => exact ⟨rfl, rfl, rfl⟩
  | cons n ns ih =>
    obtain ⟨hb, d, b, w, r, f, ks, o, e⟩ := State.sendOwn_frame s n m bs
    obtain ⟨hdom, hsteep, hdisc⟩ := ih (s.sendOwn n m bs)
    rw [e] at hdom hsteep hdisc
    rw [List.foldl_cons, e]
    exact ⟨hdom, hsteep, hdisc⟩

theorem State.take_domain (s : State) (m : Nat) : (s.take m).dom = s.dom ∧ (s.take m).disc = s.disc ∧
    (s.take m).steep = s.steep := by
  obtain ⟨hb, d, b, w, r, o, e⟩ := State.take_frame s m
  rw [e]
  exact ⟨rfl, rfl, rfl⟩

theorem State.claimElected_domain (s : State) : s.claimElected.dom = s.dom ∧ s.claimElected.steep = s.steep ∧
    s.claimElected.disc = { s.disc with elected := true, candidate := false, lastClaim := some s.now } := by
  unfold State.claimElected
  extract_lets disc u
  obtain ⟨ks, o, e⟩ := foldl_links_frame
    (fun s l => State.sendFrame_frame s l { s.frame l 2 with elected := true, count := s.memberList.length }) u.domainLinks u
  rw [e]
  exact ⟨rfl, rfl, rfl⟩

theorem State.abortSwap_domain (s : State) : s.abortSwap.dom = { s.dom with arm := none } ∧ s.abortSwap.steep = s.steep ∧
    s.abortSwap.disc = s.disc := by
  obtain ⟨n, w, r, o, e⟩ := State.endArm_frame s 0x0434 []
  unfold State.abortSwap
  rw [e]
  exact ⟨rfl, rfl, rfl⟩

/-- The release of a record that names the members in force and no request is sent again; the record's EPOCH holds. -/
theorem State.resendRelease_domain {s : State} {r : Replica} (hm : r.members = s.dom.members) (hq : r.request = none) :
    (s.resendRelease r).dom = { s.dom with lastRelease := some r.rel, planeRev := r.planeRev } ∧ (s.resendRelease r).steep = s.steep ∧
      (s.resendRelease r).disc = { s.disc with epoch := r.epoch } := by
  unfold State.resendRelease
  extract_lets disc s₁ dom s₂ s₃ s₄
  have hsame : s₃ = s₂ := if_pos hm
  obtain ⟨hdom, hsteep, hdisc⟩ := State.foldl_sendOwn_domain 63 (relBytes r.rel) s₃.memberList s₃
  simp only [hq]
  exact ⟨hdom.trans (congrArg State.dom hsame), hsteep.trans (by rw [hsame]; rfl), hdisc.trans (congrArg State.disc hsame)⟩

/-- The standby as the elected manager, its claims sent and its arm ended. -/
def State.asManager (s : State) : State :=
  ((s.setDom { s.dom with role := .manager, manager := s.dom.node, replica := none }).claimElected).abortSwap

theorem State.asManager_domain (s : State) :
    s.asManager.dom = { s.dom with role := .manager, manager := s.dom.node, replica := none, arm := none } ∧ s.asManager.steep = s.steep ∧
      s.asManager.disc = { s.disc with elected := true, candidate := false, lastClaim := some s.now } := by
  obtain ⟨hdom, hsteep, hdisc⟩ := State.claimElected_domain (s.setDom { s.dom with role := .manager, manager := s.dom.node, replica := none })
  obtain ⟨hdom', hsteep', hdisc'⟩ := State.abortSwap_domain
    (s.setDom { s.dom with role := .manager, manager := s.dom.node, replica := none }).claimElected
  exact ⟨hdom'.trans (by rw [hdom]; rfl), hsteep'.trans hsteep, hdisc'.trans hdisc⟩

/-- The highest priority of other members is a matter of the members, the own node and the priorities known. -/
theorem State.pickStandby_congr {s t : State} (hm : t.dom.members = s.dom.members) (hn : t.dom.node = s.dom.node)
    (hp : t.disc.prio = s.disc.prio) : t.pickStandby = s.pickStandby := by
  unfold State.pickStandby
  rw [hm, hn, hp]

/-- The standby as the manager, the release of its latest record sent again. -/
def State.takenOver (s : State) : State :=
  match s.dom.replica with
  | some r => s.asManager.resendRelease r
  | none => s.asManager

/-- A takeover on the manager's notice, with no steep in progress. -/
theorem standbyTakeover_eq {s : State} (hup : s.mgmtUp = true) (hrole : s.dom.role = .standby)
    (hlink : (s.linkFor s.dom.manager 0).isSome = true) (hlost : s.managerLostNotice = true)
    (hrun : (s.take 62).takenOver.steep.running = false) : exec .standbyTakeover s = .next (s.take 62).takenOver.nameStandby := by
  have hcut : (s.linkFor s.dom.manager 0).isNone = false := by
    rw [← Option.not_isSome, hlink]; rfl
  unfold exec execStandbyTakeover act
  dsimp only
  rw [if_pos (by simp [hup, hrole, hlost]), hcut, if_pos hlost]
  refine congrArg Host.Outcome.next ((if_neg (by simp)).trans ?_)
  exact if_neg (by rw [Bool.and_eq_true]; exact fun h => absurd (hrun.symm.trans h.1) (by simp))

/-- The new manager: elected, on the record's release and EPOCH, with the members it had. -/
theorem State.takenOver_domain {s : State} (h : ∀ r, s.dom.replica = some r → r.members = s.dom.members ∧ r.request = none) :
    s.takenOver.dom.role = .manager ∧ s.takenOver.dom.manager = s.dom.node ∧ s.takenOver.dom.node = s.dom.node ∧
      s.takenOver.dom.replica = none ∧ s.takenOver.disc.elected = true ∧ s.takenOver.disc.candidate = false ∧
      s.takenOver.pickStandby = s.pickStandby ∧ s.takenOver.steep = s.steep ∧
      ∀ r, s.dom.replica = some r →
        s.takenOver.dom.lastRelease = some r.rel ∧ s.takenOver.disc.epoch = r.epoch ∧ s.takenOver.dom.planeRev = r.planeRev := by
  obtain ⟨hdom, hsteep, hdisc⟩ := State.asManager_domain s
  cases hr : s.dom.replica with
  | none =>
    simp only [State.takenOver, hr]
    refine ⟨?_, ?_, ?_, ?_, ?_, ?_, State.pickStandby_congr ?_ ?_ ?_, hsteep, fun r h => nomatch h⟩
    all_goals simp only [hdom, hdisc]
  | some r =>
    obtain ⟨hm, hq⟩ := h r hr
    obtain ⟨hdom', hsteep', hdisc'⟩ := State.resendRelease_domain (s := s.asManager) (r := r) (by rw [hdom]; exact hm) hq
    simp only [State.takenOver, hr]
    refine ⟨?_, ?_, ?_, ?_, ?_, ?_, State.pickStandby_congr ?_ ?_ ?_, hsteep'.trans hsteep, ?_⟩
    case refine_10 =>
      rintro _ ⟨⟩
      simp only [hdom', hdisc', and_self]
    all_goals simp only [hdom', hdisc', hdom, hdisc]

/-- The takeover: the new manager names another standby. -/
theorem standbyTakeover_takes {s : State} (hup : s.mgmtUp = true) (hrole : s.dom.role = .standby) (hlink : (s.linkFor s.dom.manager 0).isSome = true)
    (hlost : s.managerLostNotice = true) (hrun : s.steep.running = false)
    (hrep : ∀ r, s.dom.replica = some r → r.members = s.dom.members ∧ r.request = none) :
    ∃ t : State, exec .standbyTakeover s = .next t ∧ t.dom.role = .manager ∧ t.dom.manager = s.dom.node ∧ t.dom.node = s.dom.node ∧
      t.dom.replica = none ∧ t.disc.elected = true ∧ t.disc.candidate = false ∧ t.disc.standby = s.pickStandby ∧
      (∀ r, s.dom.replica = some r → t.dom.lastRelease = some r.rel ∧ t.disc.epoch = r.epoch ∧ t.dom.planeRev = r.planeRev) := by
  obtain ⟨htdom, htdisc, htsteep⟩ := State.take_domain s 62
  obtain ⟨hman, hmgr, hnode, hnone, helec, hcand, hpick, hsteep, hlast⟩ :=
    State.takenOver_domain (s := s.take 62) (by rw [htdom]; exact hrep)
  rw [htdom] at hmgr hnode hlast
  refine ⟨_, standbyTakeover_eq hup hrole hlink hlost (by rw [hsteep, htsteep]; exact hrun),
    hman, hmgr, hnode, hnone, helec, hcand, hpick.trans (State.pickStandby_congr ?_ ?_ ?_), hlast⟩
  all_goals simp only [htdom, htdisc]

/-! ## The management processor and TCLK (R33, R47, R53, R457) -/

theorem State.postManagerLost_frame (s : State) : ∃ h d b w r f ks o n, s.postManagerLost = { s with
    mem := { s.mem with hbm := h, dieStore := d, badBursts := b }, waiting := w, rings := r, fab := f, links := ks, out := o, free := n } := by
  unfold State.postManagerLost
  split
  · exact ⟨_, _, _, _, _, _, _, _, _, rfl⟩
  · obtain ⟨h, d, b, w, r, f, ks, o, e⟩ := State.sendOwn_frame s.drawByte.2 s.disc.standby 62 [s.drawByte.1]
    exact ⟨h, d, b, w, r, f, ks, o, _, e⟩

/-- The manager-lost notice, where it is sent, leaves the processor, the error state and the domain. -/
theorem State.postManagerLost_leaves (c : Prop) [Decidable c] (s : State) : let t := if c then s.postManagerLost else s
    t.hif = s.hif ∧ t.start = s.start ∧ t.err = s.err ∧ t.dom = s.dom := by
  dsimp only
  split
  · obtain ⟨h, d, b, w, r, f, ks, o, n, e⟩ := State.postManagerLost_frame s
    rw [e]
    exact ⟨rfl, rfl, rfl, rfl⟩
  · exact ⟨rfl, rfl, rfl, rfl⟩

/-- The expiries that count, with this one; the third holds the processor (R457). -/
def State.expiries (s : State) : List DWord := s.start.expiries.filter (fun t => s.since t < 90000000000) ++ [s.now]

/-- The processor in reset before the record of the expiry, a manager's role given up. -/
def State.mgmtExpired (s : State) : State :=
  let u : State := { s with start := { s.start with expiries := s.expiries, mgmtReset := true }, hif := { s.hif with mgmtRun := false } }
  let v := if s.dom.role = .manager then u.postManagerLost else u
  v.setDom { v.dom with role := if s.dom.role = .manager || 3 ≤ s.expiries.length then .worker else s.dom.role }

theorem State.mgmtExpired_parts (s : State) :
    s.mgmtExpired.hif = { s.hif with mgmtRun := false } ∧
      s.mgmtExpired.start = { s.start with expiries := s.expiries, mgmtReset := true } ∧ s.mgmtExpired.err = s.err ∧
      s.mgmtExpired.dom = { s.dom with role := if s.dom.role = .manager || 3 ≤ s.expiries.length then .worker else s.dom.role } := by
  obtain ⟨hhif, hstart, herr, hdom⟩ := State.postManagerLost_leaves (s.dom.role = Role.manager) { s with
    start := { s.start with expiries := s.expiries, mgmtReset := true }, hif := { s.hif with mgmtRun := false } }
  exact ⟨hhif, hstart, herr, congrArg (fun d : Domain =>
    { d with role := if s.dom.role = Role.manager || 3 ≤ s.expiries.length then .worker else s.dom.role }) hdom⟩

/-- A unit of the management processor: a third expiry holds it, another is one corrected record (R457). -/
theorem State.raise_mgmt {s : State} (hidle : s.err.handling = []) (hsil : s.err.silent = false) (held : Prop) [Decidable held] (detail : Nat) :
    ∃ x o, s.raise { status := 0x0F02, cls := if held then 2 else 0, unit := 7, detail := detail } =
      if held then { s with err := x, out := o, hif := { s.hif with mgmtRun := false }, start := { s.start with mgmtReset := true, mgmtHeld := true } }
      else { s with err := x, out := o } := by
  obtain ⟨x, o, e⟩ := State.note_frame s { status := 0x0F02, cls := if held then 2 else 0, unit := 7, detail := detail }
  refine ⟨x, o, ?_⟩
  unfold State.raise
  rw [hsil, State.judge_of_idle hidle]
  by_cases h : held
  · simp only [h, if_true] at e ⊢
    simp only [Bool.false_eq_true, if_false, State.unitLost, e]
  · simp only [h, if_false] at e ⊢
    exact e

/-- The watchdog's expiry: the processor goes into reset with its record, and a third expiry within the hour holds it. -/
theorem mgmtWatchdogExpiry_resets {s : State} (hl : s.live = true) (hrun : s.hif.mgmtRun = true) (hreset : s.start.mgmtReset = false)
    (h : 50000000 ≤ (s.time.count - s.start.served).toNat) (hidle : s.err.handling = []) (hsil : s.err.silent = false) :
    let recent := s.start.expiries.filter fun t => (s.time.count - t).toNat < 90000000000
    ∃ t : State, exec .mgmtWatchdogExpiry s = .next t ∧ t.hif.mgmtRun = false ∧ t.start.mgmtReset = true ∧
      t.start.expiries = recent ++ [s.time.count] ∧ t.start.mgmtHeld = (s.start.mgmtHeld || decide (2 ≤ recent.length)) ∧
      t.dom.role = (if s.dom.role = .manager ∨ 2 ≤ recent.length then .worker else s.dom.role) ∧
      t.dom.state = s.dom.state ∧ t.dom.members = s.dom.members := by
  intro recent
  have hdue : 50000000 ≤ s.since s.start.served := h
  have hlen : 3 ≤ s.expiries.length ↔ 2 ≤ recent.length := by
    rw [State.expiries, List.length_append, List.length_singleton]
    exact Nat.add_le_add_iff_right (n := 1)
  obtain ⟨hhif, hstart, herr, hdom⟩ := State.mgmtExpired_parts s
  obtain ⟨x, o, hraise⟩ := State.raise_mgmt (s := s.mgmtExpired) (by rw [herr]; exact hidle) (by rw [herr]; exact hsil)
    (3 ≤ s.expiries.length) s.expiries.length
  have hexec : exec .mgmtWatchdogExpiry s = .next (s.mgmtExpired.raise
      { status := 0x0F02, cls := if 3 ≤ s.expiries.length then 2 else 0, unit := 7, detail := s.expiries.length }) :=
    congrArg Host.Outcome.next (if_pos (by simp [hl, hrun, hreset, hdue]))
  refine ⟨_, hexec, ?_⟩
  rw [hraise]
  have hrole : s.mgmtExpired.dom.role = if s.dom.role = .manager ∨ 2 ≤ recent.length then .worker else s.dom.role := by
    rw [hdom]
    simp only [hlen, Bool.or_eq_true, decide_eq_true_eq]
  by_cases hheld : 3 ≤ s.expiries.length
  · rw [if_pos hheld]
    refine ⟨rfl, rfl, ?_, ?_, hrole, ?_, ?_⟩
    · exact congrArg Start.expiries hstart
    · simp [hlen.1 hheld]
    all_goals rw [hdom]
  · rw [if_neg hheld]
    refine ⟨?_, ?_, ?_, ?_, hrole, ?_, ?_⟩
    · exact congrArg Hif.mgmtRun hhif
    · exact congrArg Start.mgmtReset hstart
    · exact congrArg Start.expiries hstart
    · rw [hstart, decide_eq_false (mt hlen.2 hheld), Bool.or_false]
    all_goals rw [hdom]

theorem mgmtWatchdogExpiry_early {s : State} (h : (s.time.count - s.start.served).toNat < 50000000) :
    exec .mgmtWatchdogExpiry s = .next s := by
  have hearly : ¬ 50000000 ≤ s.since s.start.served := not_le.2 h
  exact congrArg Host.Outcome.next (if_neg (by simp [hearly]))

theorem managementProcessorResetEnd_eq {s : State} (hl : s.live = true) (hreset : s.start.mgmtReset = true) :
    exec .managementProcessorResetEnd s = .next (if s.start.mgmtHeld then s
      else { s with start := { s.start with mgmtReset := false, served := s.time.count }, hif := { s.hif with mgmtRun := true } }) := by
  cases hheld : s.start.mgmtHeld with
  | true => exact congrArg Host.Outcome.next (if_neg (by simp [hheld]))
  | false => exact congrArg Host.Outcome.next (if_pos (by simp [hl, hreset, hheld]))

theorem State.maySwitch_of_elapsed {s : State} (hv : s.start.vaon = true)
    (h : ∀ last, s.time.switchedAt = some last → 250000 ≤ (s.time.count - last).toNat) : s.maySwitch = true := by
  unfold State.maySwitch State.elapsed
  rw [hv, Bool.true_and]
  split
  · exact decide_eq_true (h _ ‹_›)
  · rfl

theorem State.maySwitch_of_recent {s : State} {last : DWord} (hs : s.time.switchedAt = some last)
    (h : (s.time.count - last).toNat < 250000) : s.maySwitch = false := by
  have hearly : ¬ 250000 ≤ s.since last := not_le.2 h
  simp [State.maySwitch, State.elapsed, hs, hearly]

/-- The timers go to the internal oscillator; its record changes no more than the error state where no error is handled. -/
theorem tclkLost_switches {s : State} (hm : s.maySwitch = true) (hl : s.time.tclkLost = false) :
    ∃ t : State, exec .tclkLost s = .next t ∧ t.time = { s.time with tclkLost := true, switchedAt := some s.time.count } ∧
      (s.err.handling = [] → t.dom = s.dom) := by
  refine ⟨_, congrArg Host.Outcome.next (if_pos (by simp [hm, hl])), ?_, fun hidle => ?_⟩
  · exact (State.raise_kept (.refl { s with time := { s.time with tclkLost := true, switchedAt := some s.now } }) _).time
  · obtain ⟨x, o, e⟩ := State.raise_of_idle (s := { s with time := { s.time with tclkLost := true, switchedAt := some s.now } })
      (e := { status := 0x0F03, cls := 0 }) hidle rfl
    exact (congrArg State.dom e :)

/-- Settles O33: the standby's row and takeover by what its messages leave, the processor's and TCLK's rows by their guards. -/
theorem takeoverAndRecovery : Obligations.TakeoverAndRecovery := by
  unfold Obligations.TakeoverAndRecovery
  refine ⟨fun s hup hrole n hn => ⟨fun hlen => ?_, fun hlen => ?_, fun hlen hlink hrun hrep => ?_⟩, fun s =>
    ⟨fun hl hrun hreset => ⟨mgmtWatchdogExpiry_early, mgmtWatchdogExpiry_resets hl hrun hreset⟩, managementProcessorResetEnd_eq,
      fun hv h => ⟨tclkLost_switches (State.maySwitch_of_elapsed hv h), fun hl => ?_⟩, fun last hs h => ?_⟩⟩
  · simp [exec, execReplicationRecord, hn, hup, hrole, hlen, (State.take_domain s 62).1]
  · simp [exec, execReplicationRecord, hn, hlen]
  · exact standbyTakeover_takes hup hrole hlink (by simp [State.managerLostNotice, hn, hlen]) hrun hrep
  · exact congrArg Host.Outcome.next (if_pos (by simp [State.maySwitch_of_elapsed hv h, hl]))
  · have hm := State.maySwitch_of_recent hs h
    exact ⟨congrArg Host.Outcome.next (if_neg (by simp [hm])), congrArg Host.Outcome.next (if_neg (by simp [hm]))⟩

end Sys2Proof.Machine
end

section
/-! PROOF. Descriptors of models, swaps, tenants and objects (spec 01 R34, spec 08 R219 to R223, spec 12 R305, R307, spec 13
R330). -/

namespace Sys2Proof.Machine

/-! ## What final records leave -/

/-- Records and ends of waiting descriptors: rings, waiting ones and what is sent change; nothing sent is taken back, and what
waits for the cut still does. -/
structure Answered (s t : State) : Prop where
  frame : ∃ w r o, t = { s with waiting := w, rings := r, out := o }
  sent : ∀ o ∈ s.out, o ∈ t.out
  cuts : ∀ w ∈ s.waiting, w.what = .cut → w ∈ t.waiting

namespace Answered

variable {r s t : State}

theorem refl (s : State) : Answered s s := ⟨⟨s.waiting, s.rings, s.out, rfl⟩, fun _ h => h, fun _ h _ => h⟩

theorem trans (h : Answered r s) (k : Answered s t) : Answered r t where
  frame := by
    obtain ⟨w, x, o, rfl⟩ := h.frame
    obtain ⟨w', x', o', rfl⟩ := k.frame
    exact ⟨w', x', o', rfl⟩
  sent := fun o ho => k.sent o (h.sent o ho)
  cuts := fun w hw hc => k.cuts w (h.cuts w hw hc) hc

theorem setRing (h : Answered r s) (n : Nat) (x : RingPair) : Answered r (s.setRing n x) :=
  h.trans ⟨⟨s.waiting, _, s.out, rfl⟩, fun _ h => h, fun _ h _ => h⟩

theorem emit (h : Answered r s) (x : Out) : Answered r (s.emit x) :=
  h.trans ⟨⟨s.waiting, s.rings, _, rfl⟩, fun _ h => List.mem_append_left _ h, fun _ h _ => h⟩

theorem interrupt (h : Answered r s) (n : Nat) : Answered r (s.interrupt n) := by
  unfold State.interrupt
  extract_lets ring due
  split
  · exact (h.setRing n { ring with armed := false }).emit _
  · exact h

theorem putCompletion (h : Answered r s) (n : Nat) (rec : W256) : Answered r (s.putCompletion n rec) := by
  unfold State.putCompletion
  extract_lets ring next ring' bytes
  exact ((h.setRing n ring').emit _).interrupt n

theorem drainBacklog (k : Nat) (h : Answered r s) (n : Nat) : Answered r (State.drainBacklog k s n) := by
  induction k generalizing s with
  | zero => exact h
  | succ k ih =>
    unfold State.drainBacklog
    extract_lets ring
    split
    · exact h
    · rename_i rec rest _
      split
      · exact ih ((h.setRing n { ring with backlog := rest }).putCompletion n rec)
      · exact h

theorem drain (h : Answered r s) (n : Nat) : Answered r (s.drain n) := drainBacklog _ h n

theorem release (h : Answered r s) (n k : Nat) : Answered r (s.release n k) := h.setRing n _

theorem reservedRecord (h : Answered r s) (n k : Nat) (rec : W256) : Answered r (s.reservedRecord n k rec) := by
  unfold State.reservedRecord
  dsimp only
  split
  · exact (h.release n k).putCompletion n rec
  · exact h.release n k

theorem finish (h : Answered r s) (n : Nat) (d : W512) (status : Nat) (res : List (Nat × Nat × Nat)) :
    Answered r (s.finish n d status res) := by
  unfold State.finish
  dsimp only
  split
  · exact ((h.setRing n _).release n _).drain n
  · exact ((h.setRing n _).reservedRecord n _ _).drain n

/-- A descriptor that waits for something else than the cut ends. -/
theorem endOther (h : Answered r s) {w : Waiting} (hw : w.what ≠ .cut) (n : Nat) (d : W512) (status : Nat) (res : List (Nat × Nat × Nat)) :
    Answered r (({ s with waiting := s.waiting.erase w } : State).finish n d status res) := by
  have hleave : Answered s { s with waiting := s.waiting.erase w } := ⟨⟨_, s.rings, s.out, rfl⟩, fun _ h => h, fun v hv hc => ?_⟩
  · exact (h.trans hleave).finish n d status res
  exact (List.mem_erase_of_ne (by rintro rfl; exact hw hc)).2 hv

theorem foldl {α : Type} {f : State → α → State} (h : Answered r s) (hf : ∀ {t} a, Answered r t → Answered r (f t a)) (l : List α) :
    Answered r (l.foldl f s) := by
  induction l generalizing s with
  | nil => exact h
  | cons a l ih => exact ih (hf a h)

/-- Closes whose records have gone out end (R332). -/
theorem settleCloses (h : Answered r s) : Answered r s.settleCloses := by
  unfold State.settleCloses
  refine h.foldl (fun w hk => ?_) s.waiting
  split
  · split
    · exact hk
    · refine hk.endOther (fun hc => ?_) _ _ _ _
      rename_i heq _
      rw [hc] at heq
      cases heq
  · exact hk

end Answered

/-! ## The row of a ring's oldest descriptor -/

section

variable {s : State} {n op : Nat} {d : W512} (hl : s.live = true) (hfind : s.accepted.find? (fun a => a.ring = n) = some ⟨n, d⟩)
  (hcheck : ({ s with accepted := [] } : State).checkDesc n d = none) {c : Instr} {f : W512 → State → State}
  (hc : exec c s = s.row n op anyDesc f)

include hl hfind hcheck hc

/-- A row acts on the oldest accepted descriptor of its ring, whose checks pass. -/
theorem row_acts (hop : dOpcode d = op) (hctl : op < 0x30) :
    exec c s = .next (f d { s with accepted := s.accepted.erase ⟨n, d⟩ }).settleCloses := by
  have hnc : s.controlBefore ⟨n, d⟩ = false := by
    have : ¬ 0x30 ≤ dOpcode d := by omega
    simp [State.controlBefore, this]
  unfold State.row at hc
  rw [hc, hfind]
  simp [hl, hop, anyDesc, hnc, hcheck]

/-- What a row leaves is `Answered` from the state before its record. -/
theorem row_answered (hop : dOpcode d = op) (hctl : op < 0x30) {v : State}
    (hf : Answered v (f d { s with accepted := s.accepted.erase ⟨n, d⟩ })) : ∃ t, exec c s = .next t ∧ Answered v t :=
  ⟨_, row_acts hl hfind hcheck hc hop hctl, hf.settleCloses⟩

end

theorem Answered.model {s t : State} (h : Answered s t) : t.model = s.model := by
  obtain ⟨w, r, o, rfl⟩ := h.frame
  rfl

theorem Answered.eng {s t : State} (h : Answered s t) : t.eng = s.eng := by
  obtain ⟨w, r, o, rfl⟩ := h.frame
  rfl

theorem Answered.mem {s t : State} (h : Answered s t) : t.mem = s.mem := by
  obtain ⟨w, r, o, rfl⟩ := h.frame
  rfl

theorem Answered.accepted {s t : State} (h : Answered s t) : t.accepted = s.accepted := by
  obtain ⟨w, r, o, rfl⟩ := h.frame
  rfl

theorem Answered.dom {s t : State} (h : Answered s t) : t.dom = s.dom := by
  obtain ⟨w, r, o, rfl⟩ := h.frame
  rfl

theorem Answered.caddy {s t : State} (h : Answered s t) : t.caddy = s.caddy := by
  obtain ⟨w, r, o, rfl⟩ := h.frame
  rfl

theorem Answered.rte {s t : State} (h : Answered s t) : t.rte = s.rte := by
  obtain ⟨w, r, o, rfl⟩ := h.frame
  rfl

/-! ## Models (R34, R222) -/

theorem State.anyOf_frame (s : State) (l : List Nat) : ∃ x, (s.anyOf l).2 = { s with free := x } := by
  unfold State.anyOf
  split
  · exact ⟨s.free, rfl⟩
  · exact ⟨s.free, rfl⟩
  · exact ⟨_, rfl⟩

/-- A choice among causes is one of them. -/
theorem State.anyOf_mem (s : State) {l : List Nat} (hl : l ≠ []) : (s.anyOf l).1 ∈ l := by
  unfold State.anyOf
  split
  · exact absurd rfl hl
  · exact List.mem_singleton_self _
  · have hlt : Config.freeNat s.free % l.length < l.length := Nat.mod_lt _ (List.length_pos_iff.2 hl)
    dsimp only
    rw [List.getD_eq_getElem _ _ hlt]
    exact List.getElem_mem hlt

theorem State.loadCheck_ne_zero (s : State) (prog : Nat) (geom routing : DWord) (floor wire : Word) :
    ∀ x ∈ (s.loadCheck prog geom routing floor wire).1, x ≠ 0 := by
  rintro x hx rfl
  unfold State.loadCheck at hx
  dsimp only at hx
  simp only [List.mem_append] at hx
  rcases hx with ((hx | hx) | hx) | hx
  all_goals split at hx <;> simp at hx

theorem State.storeOk_fold (s : State) (a : Nat → Nat) (bs : List Byte) (c : Prop) [Decidable c] (l : List Nat) : ∃ h d b w r o,
    l.foldl (fun s i => if c then s else s.storeOk (a i) bs) s =
      { s with mem := { s.mem with hbm := h, dieStore := d, badBursts := b }, waiting := w, rings := r, out := o } := by
  refine foldl_stores_frame (fun s i => ?_) l s
  split
  · exact ⟨s.mem.hbm, s.mem.dieStore, s.mem.badBursts, s.waiting, s.rings, s.out, rfl⟩
  · exact State.storeOk_frame s _ _

/-- The tables of a model that is loaded start anew, in device memory. -/
theorem State.tableReset_frame (s : State) (m : Model) : ∃ h d b w r o, (s.normReset m true).routeReset m =
    { s with mem := { s.mem with hbm := h, dieStore := d, badBursts := b }, waiting := w, rings := r, out := o } := by
  obtain ⟨h, d, b, w, r, o, e⟩ := State.storeOk_fold s (fun i => hNorm m.header + 32 * i) (List.replicate 32 0) (hNorm m.header = 0)
    (List.range (watched m.mainOps).length)
  obtain ⟨h', d', b', w', r', o', e'⟩ := State.storeOk_fold (s.normReset m true) (fun i => hRoute m.header + 32 * i) (List.replicate 32 0)
    (hRoute m.header = 0) (List.range (routedLayers m.mainOps).length)
  have hn : s.normReset m true = _ := e
  exact ⟨h', d', b', w', r', o', (show (s.normReset m true).routeReset m = _ from e').trans (by rw [hn])⟩

/-- A package without its model: no steering, no KV pools, granules placed anew. -/
def State.unloadModel (s : State) : State :=
  State.replace { s with model := none, eng := { s.eng with
    tenants := s.eng.tenants.mapVals fun _ t => { t with steerDir := 0, steerVer := t.steerVer + 1 }, kv := [] } }

section

variable (s : State) (n : Nat) (d : W512)

/-- The words of a load. -/
def State.loadWords : List Nat × Model :=
  s.loadCheck (dField d 8 8) (BitVec.ofNat 64 (dField d 16 8)) (BitVec.ofNat 64 (dField d 24 8)) (BitVec.ofNat 32 (dField d 32 4))
    (BitVec.ofNat 32 (dField d 36 4))

variable {s n d}

theorem State.loadModel_fails (ha : dField d 8 8 % 64 = 0) (hr : s.readable (dField d 8 8) 256 = true) (hc : (s.loadWords d).1 ≠ []) :
    ∃ v, Answered v (s.loadModel n d) ∧ v.model = s.model ∧ v.eng = s.eng ∧ v.mem = s.mem ∧ v.accepted = s.accepted := by
  obtain ⟨x, hx⟩ := State.anyOf_frame s (s.loadWords d).1
  have hne : (s.anyOf (s.loadWords d).1).1 ≠ 0 := State.loadCheck_ne_zero s _ _ _ _ _ _ (State.anyOf_mem s hc)
  refine ⟨(s.anyOf (s.loadWords d).1).2, ?_, ?_⟩
  · unfold State.loadModel
    extract_lets prog geom routing floor wire c e u
    rw [if_neg (by simp [prog, ha]), if_neg (by simp [prog, hr]), if_pos (show (e.1 != 0) = true from bne_iff_ne.2 hne)]
    exact (Answered.refl _).finish n d _ _
  · rw [hx]
    exact ⟨rfl, rfl, rfl, rfl⟩

theorem State.loadModel_loads (ha : dField d 8 8 % 64 = 0) (hr : s.readable (dField d 8 8) 256 = true) (hc : (s.loadWords d).1 = []) :
    ∃ v, Answered v (s.loadModel n d) ∧ v.model = some (s.loadWords d).2 ∧ v.eng = s.eng ∧ v.accepted = s.accepted := by
  have hnone : s.anyOf (s.loadWords d).1 = (0, s) := by rw [hc]; rfl
  unfold State.loadModel
  extract_lets prog geom routing floor wire c e u
  have he : e = (0, s) := hnone
  rw [if_neg (by simp [prog, ha]), if_neg (by simp [prog, hr]), if_neg (show ¬ (e.1 != 0) = true by simp [he])]
  obtain ⟨h, dd, b, w, r, o, hreset⟩ := State.tableReset_frame u c.2
  refine ⟨_, (Answered.refl _).finish n d _ _, ?_⟩
  exact ⟨(congrArg State.model hreset :), (congrArg State.eng hreset :), (congrArg State.accepted hreset :)⟩

end

/-! ## Swaps (R305, R307) -/

theorem foldl_emit (g : Nat → Out) (ns : List Nat) (s : State) :
    ns.foldl (fun s n => s.emit (g n)) s = { s with out := s.out ++ ns.map g } := by
  induction ns generalizing s with
  | nil => simp
  | cons n ns ih =>
    rw [List.foldl_cons, ih, List.map_cons, List.append_cons]
    rfl

/-- A message goes to every other member. -/
theorem mem_foldl_emit (s : State) (g : Nat → Out) {m : Nat} (hm : m ∈ s.memberList) (hn : m ≠ s.dom.node) :
    g m ∈ ((s.memberList.filter (· != s.dom.node)).foldl (fun s n => s.emit (g n)) s).out := by
  rw [foldl_emit]
  exact List.mem_append_right _ (List.mem_map_of_mem (List.mem_filter.2 ⟨hm, by simpa using hn⟩))

theorem State.sendDisarm_frame (s : State) : ∃ o, s.sendDisarm = { s with out := o } := ⟨_, foldl_emit _ _ s⟩

/-- The manager's arm ends: its package forgets it, and every other member is told. -/
theorem State.endArm_disarms (s : State) (status : Nat) (res : List (Nat × Nat × Nat)) : let t := (s.endArm status res).sendDisarm
    t.dom.arm = none ∧ t.caddy.armed = none ∧ t.mem.granules = s.mem.granules.filter (fun g => !g.prefill) ∧
      ∀ m ∈ s.memberList, m ≠ s.dom.node → .member m 5 [] ∈ t.out := by
  obtain ⟨x, w, r, o, h⟩ := State.endArm_frame s status res
  obtain ⟨o', h'⟩ := State.sendDisarm_frame (s.endArm status res)
  refine ⟨?_, ?_, ?_, fun m hm hn => mem_foldl_emit (s.endArm status res) (fun m => .member m 5 []) ?_ ?_⟩
  · rw [h', h]
  · rw [h', h]
  · rw [h', h]
  · rw [State.memberList, h]
    exact hm
  · rw [h]
    exact hn

/-- A second arm ends the first (R307). -/
def State.endEarlier (s : State) : State := if s.dom.arm.isSome then s.abortSwap else s

theorem State.endEarlier_domain (s : State) : s.endEarlier.memberList = s.memberList ∧ s.endEarlier.dom.node = s.dom.node ∧
    s.endEarlier.now = s.now := by
  unfold State.endEarlier State.abortSwap
  split
  · obtain ⟨x, w, r, o, h⟩ := State.endArm_frame s 0x0434 []
    rw [h]
    exact ⟨rfl, rfl, rfl⟩
  · exact ⟨rfl, rfl, rfl⟩

section

variable {s : State} {n : Nat} {d : W512}

/-- The generation and the revision that an arm asks for, on the home table that it names. -/
def armGen (d : W512) : Word := BitVec.ofNat 32 (dField d 8 4)
def State.armRev (s : State) (d : W512) (es : List HomeEntry) : HomeRev := ⟨BitVec.ofNat 32 (dField d 24 4), s.memberList, es⟩

/-- An arm whose home table cannot be read is refused. -/
theorem State.armSwap_unreadable (h : s.endEarlier.readHomeTable (dField d 16 8) = none) :
    s.armSwap n d = (s.endEarlier.hold n d .arm).armRefused s.endEarlier.dom.node 4 := by
  have hnone : (s.endEarlier.hold n d .arm).readHomeTable (dField d 16 8) = none := h
  unfold State.armSwap
  extract_lets gen u v
  have hv : v = s.endEarlier.hold n d .arm := rfl
  rw [hv, hnone]
  rfl

/-- An arm that the manager's own package refuses. -/
theorem State.armSwap_refused {es : List HomeEntry} (h : s.endEarlier.readHomeTable (dField d 16 8) = some es)
    (hc : s.endEarlier.armCheck (armGen d) (s.armRev d es) ≠ 0) :
    s.armSwap n d = (s.endEarlier.hold n d .arm).armRefused s.endEarlier.dom.node (s.endEarlier.armCheck (armGen d) (s.armRev d es)) := by
  have hread : (s.endEarlier.hold n d .arm).readHomeTable (dField d 16 8) = some es := h
  have hrev : s.armRev d es = s.endEarlier.armRev d es := by rw [State.armRev, ← (State.endEarlier_domain s).1]; rfl
  rw [hrev] at hc ⊢
  unfold State.armSwap
  extract_lets gen u v
  have hv : v = s.endEarlier.hold n d .arm := rfl
  rw [hv, hread]
  exact if_pos (bne_iff_ne.2 hc)

/-- An arm that the manager's own package accepts: it prepares the swap, and every other member is asked to. -/
def State.armAll (s : State) (g : Word) (r : HomeRev) : State :=
  let u := s.armSelf g r
  let t := (u.memberList.filter (· != u.dom.node)).foldl (fun s m => s.emit (.member m 4 [g.setWidth 64, r.rev.setWidth 64])) u
  t.armAccepted { gen := g, rev := ⟨r.rev, r.members, r.entries⟩, accepted := [], sentAt := t.now, armed := false } t.dom.node

theorem State.armAll_parts (s : State) (g : Word) (r : HomeRev) :
    (s.armAll g r).dom.arm = some { gen := g, rev := ⟨r.rev, r.members, r.entries⟩, accepted := [s.dom.node], sentAt := s.now,
                                    armed := s.memberList.all [s.dom.node].contains } ∧
      (s.armAll g r).caddy.armed = some g ∧ (s.armAll g r).rte.next = some ⟨r.rev, r.members, r.entries⟩ ∧
      ∀ m ∈ s.memberList, m ≠ s.dom.node → .member m 4 [g.setWidth 64, r.rev.setWidth 64] ∈ (s.armAll g r).out := by
  refine ⟨?_, ?_, ?_, fun m hm hn => mem_foldl_emit (s.armSelf g r) (fun m => .member m 4 [g.setWidth 64, r.rev.setWidth 64]) hm hn⟩
  all_goals
    unfold State.armAll
    dsimp only
    rw [foldl_emit fun m => .member m 4 [g.setWidth 64, r.rev.setWidth 64]]
    rfl

theorem State.armSwap_arms {es : List HomeEntry} (h : s.endEarlier.readHomeTable (dField d 16 8) = some es)
    (hc : s.endEarlier.armCheck (armGen d) (s.armRev d es) = 0) :
    s.armSwap n d = (s.endEarlier.hold n d .arm).armAll (armGen d) (s.armRev d es) := by
  have hread : (s.endEarlier.hold n d .arm).readHomeTable (dField d 16 8) = some es := h
  have hrev : s.armRev d es = s.endEarlier.armRev d es := by rw [State.armRev, ← (State.endEarlier_domain s).1]; rfl
  rw [hrev] at hc ⊢
  unfold State.armSwap
  extract_lets gen u v
  have hv : v = s.endEarlier.hold n d .arm := rfl
  rw [hv, hread]
  exact if_neg (fun hne => bne_iff_ne.1 hne hc)

end

/-! ## Tenants at the cut (R219, R220, R223) -/

section

variable {s : State} {n : Nat} {d : W512}

/-- Where steeps run the descriptor waits for the cut. -/
theorem State.atCut_waits (h : s.noSteeps = false) : s.atCut n d = s.hold n d .cut := if_neg (by
  change ¬ s.noSteeps = true
  simp [h])

/-- Where no steeps run it takes effect at once. -/
theorem State.atCut_acts (h : s.noSteeps = true) : s.atCut n d = (s.hold n d .cut).effect ⟨n, d, .cut⟩ := if_pos h

/-- A tenant as a TENANT_SET leaves it. -/
def Tenant.change (e : Tenant) (d : W512) : Tenant :=
  let dir : DWord := BitVec.ofNat 64 (dField d 16 8)
  if e.valid then { e with cls := dClass d, steerDir := dir, steerVer := if dir = e.steerDir then e.steerVer else e.steerVer + 1 }
  else { valid := true, cls := dClass d, steerDir := dir }

theorem State.effectTenantSet_changes {w : Waiting} (hu : s.classUsable (dClass w.desc) = true)
    (he : (s.tenant (dTenant w.desc)).valid = false ∨ (s.tenant (dTenant w.desc)).cls = dClass w.desc ∨ (s.tenant (dTenant w.desc)).openSeqs = 0) :
    Answered (s.setTenant (dTenant w.desc) ((s.tenant (dTenant w.desc)).change w.desc)) (s.effectTenantSet w) := by
  unfold State.effectTenantSet
  dsimp only
  rw [if_neg (by simp [hu])]
  by_cases hv : (s.tenant (dTenant w.desc)).valid = true
  · have hboth : ¬ ((s.tenant (dTenant w.desc)).cls != dClass w.desc && (s.tenant (dTenant w.desc)).openSeqs != 0) = true := by
      rw [hv] at he
      simpa [not_and_or, or_iff_not_imp_left] using he
    rw [if_neg (by simp [hv]), if_neg hboth, Tenant.change, if_pos hv]
    exact (Answered.refl _).finish _ _ _ _
  · rw [if_pos (by simpa using hv), Tenant.change, if_neg hv]
    exact (Answered.refl _).finish _ _ _ _

theorem State.effectTenantSet_refuses {w : Waiting} (h : s.classUsable (dClass w.desc) = false ∨ ((s.tenant (dTenant w.desc)).valid = true ∧
      (s.tenant (dTenant w.desc)).cls ≠ dClass w.desc ∧ (s.tenant (dTenant w.desc)).openSeqs ≠ 0)) : Answered s (s.effectTenantSet w) := by
  unfold State.effectTenantSet
  dsimp only
  split
  · exact (Answered.refl _).finish _ _ _ _
  · rename_i hu
    obtain ⟨hv, hcls, hopen⟩ := h.resolve_left (by simpa using hu)
    rw [if_neg (by simp [hv]), if_pos (by simp [hcls, hopen])]
    exact (Answered.refl _).finish _ _ _ _

theorem State.effectTenantRemove_removes {w : Waiting} (hv : (s.tenant (dTenant w.desc)).valid = true)
    (ho : (s.tenant (dTenant w.desc)).openSeqs = 0) :
    Answered { s with eng := { s.eng with tenants := s.eng.tenants.erase (dTenant w.desc) } } (s.effectTenantRemove w) := by
  unfold State.effectTenantRemove
  dsimp only
  rw [if_neg (by simp [hv]), if_neg (by simp [ho])]
  exact (Answered.refl _).finish _ _ _ _

theorem State.effectTenantRemove_refuses {w : Waiting}
    (h : (s.tenant (dTenant w.desc)).valid = false ∨ (s.tenant (dTenant w.desc)).openSeqs ≠ 0) : Answered s (s.effectTenantRemove w) := by
  unfold State.effectTenantRemove
  dsimp only
  split
  · exact (Answered.refl _).finish _ _ _ _
  · rename_i hv
    rw [if_pos (by simpa using h.resolve_left (by simpa using hv))]
    exact (Answered.refl _).finish _ _ _ _

theorem State.effectSteerSet_steers {w : Waiting} (hv : (s.tenant (dTenant w.desc)).valid = true) :
    Answered (s.setTenant (dTenant w.desc) { s.tenant (dTenant w.desc) with
      steerDir := BitVec.ofNat 64 (dField w.desc 16 8), steerVer := (s.tenant (dTenant w.desc)).steerVer + 1 }) (s.effectSteerSet w) := by
  unfold State.effectSteerSet
  dsimp only
  rw [if_neg (by simp [hv])]
  exact (Answered.refl _).finish _ _ _ _

end

/-! ## Objects (R281, R284) -/

theorem State.settlePins_frame (s : State) : ∃ w r o, s.settlePins = { s with waiting := w, rings := r, out := o } :=
  foldl_waits_frame (fun s w => State.unwait_finish_frame s w 0 _) _ s

/-- An object entry in force: granules are placed anew, pins that are satisfied end. -/
theorem State.setObject_frame (s : State) (n : Nat) (d : W512) : ∃ g w r o, s.setObject n d = { s with
    mem := { s.mem with objects := s.mem.objects.set (dField d 8 2 % 2 ^ 14) (objOf d), granules := g }, waiting := w, rings := r, out := o } := by
  unfold State.setObject
  extract_lets i old new mem s₁ s₂
  split
  · obtain ⟨w, r, o, h⟩ := State.settlePins_frame (s₂.hold n d (.pin i))
    exact ⟨_, w, r, o, h⟩
  · obtain ⟨w, r, o, h⟩ := State.settlePins_frame s₂
    obtain ⟨r', o', h'⟩ := State.finish_frame s₂.settlePins n d 0 [(8, 4, i)]
    exact ⟨s₂.mem.granules, w, r', o', by rw [h', h]; rfl⟩

/-! ## The descriptors -/

section

variable {s : State} {n : Nat} {d : W512} (hl : s.live = true) (hfind : s.accepted.find? (fun a => a.ring = n) = some ⟨n, d⟩)
  (hcheck : ({ s with accepted := [] } : State).checkDesc n d = none)

include hl hfind hcheck

theorem modelLoad_acts (hop : dOpcode d = 0x01) : let u : State := { s with accepted := s.accepted.erase ⟨n, d⟩ }
    (dField d 8 8 % 64 ≠ 0 → exec (.modelLoad n) s = .next (u.refuse n d 0x0112 8).settleCloses) ∧
    (dField d 8 8 % 64 = 0 → u.readable (dField d 8 8) 256 = false → exec (.modelLoad n) s = .next (u.refuse n d 0x0420 8).settleCloses) ∧
    (dField d 8 8 % 64 = 0 → u.readable (dField d 8 8) 256 = true →
      ((u.loadWords d).1 = [] → ∃ t : State, exec (.modelLoad n) s = .next t ∧ t.model = some (u.loadWords d).2 ∧ t.eng = s.eng ∧
        t.accepted = u.accepted) ∧
      ((u.loadWords d).1 ≠ [] → ∃ t : State, exec (.modelLoad n) s = .next t ∧ t.model = s.model ∧ t.eng = s.eng ∧ t.mem = s.mem ∧
        t.accepted = u.accepted)) := by
  intro u
  have hrow : exec (.modelLoad n) s = .next (u.loadModel n d).settleCloses := row_acts (f := fun d s => s.loadModel n d) hl hfind hcheck rfl hop (by decide)
  refine ⟨fun ha => ?_, fun ha hr => ?_, fun ha hr => ⟨fun hc => ?_, fun hc => ?_⟩⟩
  · rw [hrow, State.loadModel, if_pos (by simpa using ha)]
  · rw [hrow, State.loadModel, if_neg (by simp [ha]), if_pos (by simp [hr])]
  · obtain ⟨v, hv, hm, he, hacc⟩ := State.loadModel_loads (n := n) ha hr hc
    have ht := hv.settleCloses
    exact ⟨_, hrow, ht.model.trans hm, ht.eng.trans he, ht.accepted.trans hacc⟩
  · obtain ⟨v, hv, hm, he, hmem, hacc⟩ := State.loadModel_fails (n := n) ha hr hc
    have ht := hv.settleCloses
    exact ⟨_, hrow, ht.model.trans hm, ht.eng.trans he, ht.mem.trans hmem, ht.accepted.trans hacc⟩

theorem modelUnload_acts (hop : dOpcode d = 0x02) : ∃ t : State, exec (.modelUnload n) s = .next t ∧ t.model = none ∧ t.eng.kv = [] ∧
    t.eng.seqs = s.eng.seqs ∧ t.eng.tenants = s.eng.tenants.mapVals (fun _ t => { t with steerDir := 0, steerVer := t.steerVer + 1 }) ∧
    t.mem.hbm = s.mem.hbm := by
  obtain ⟨t, he, ht⟩ := row_answered (c := .modelUnload n) (f := fun d s => s.unloadModel.finish n d 0 []) hl hfind hcheck rfl hop
    (by decide) ((Answered.refl _).finish n d 0 [])
  refine ⟨t, he, ht.model, ?_, ?_, ?_, ?_⟩
  · rw [ht.eng]; rfl
  · rw [ht.eng]; rfl
  · rw [ht.eng]; rfl
  · rw [ht.mem]; rfl

theorem swapArm_acts (hop : dOpcode d = 0x03) : let u : State := { s with accepted := s.accepted.erase ⟨n, d⟩ }
    (u.endEarlier.readHomeTable (dField d 16 8) = none → ∃ t : State, exec (.swapArm n) s = .next t ∧ t.dom.arm = none ∧ t.caddy.armed = none ∧
      ∀ m ∈ s.memberList, m ≠ s.dom.node → .member m 5 [] ∈ t.out) ∧
    ∀ es, u.endEarlier.readHomeTable (dField d 16 8) = some es →
      (u.endEarlier.armCheck (armGen d) (u.armRev d es) = 0 → ∃ (t : State) (a : Arming), exec (.swapArm n) s = .next t ∧ t.dom.arm = some a ∧
        a.gen = armGen d ∧ a.accepted = [s.dom.node] ∧ a.sentAt = s.time.count ∧ a.armed = s.memberList.all [s.dom.node].contains ∧
        t.caddy.armed = some (armGen d) ∧ t.rte.next = some ⟨(u.armRev d es).rev, s.memberList, es⟩ ∧
        ∀ m ∈ s.memberList, m ≠ s.dom.node → .member m 4 [(armGen d).setWidth 64, (u.armRev d es).rev.setWidth 64] ∈ t.out) ∧
      (u.endEarlier.armCheck (armGen d) (u.armRev d es) ≠ 0 → ∃ t : State, exec (.swapArm n) s = .next t ∧ t.dom.arm = none ∧
        t.caddy.armed = none ∧ ∀ m ∈ s.memberList, m ≠ s.dom.node → .member m 5 [] ∈ t.out) := by
  intro u
  have hrow : exec (.swapArm n) s = .next (u.armSwap n d).settleCloses :=
    row_acts (f := fun d s => s.armSwap n d) hl hfind hcheck rfl hop (by decide)
  obtain ⟨hmem, hnode, hnow⟩ := State.endEarlier_domain u
  have hrefused : ∀ cond, u.armSwap n d = (u.endEarlier.hold n d .arm).armRefused u.endEarlier.dom.node cond →
      ∃ t : State, exec (.swapArm n) s = .next t ∧ t.dom.arm = none ∧ t.caddy.armed = none ∧
        ∀ m ∈ s.memberList, m ≠ s.dom.node → .member m 5 [] ∈ t.out := by
    intro cond he
    obtain ⟨harm, hcaddy, -, hsent⟩ := State.endArm_disarms (u.endEarlier.hold n d .arm) 0x0433
      [(8, 4, putBits u.endEarlier.dom.node 7 0 + putBits cond 11 8)]
    have ht := (Answered.refl ((u.endEarlier.hold n d .arm).armRefused u.endEarlier.dom.node cond)).settleCloses
    rw [← he] at ht
    refine ⟨_, hrow, ?_, ?_, fun m hm hn => ht.sent _ ?_⟩
    · rw [ht.dom, he]
      exact harm
    · rw [ht.caddy, he]
      exact hcaddy
    · rw [he]
      exact hsent m (hmem.symm ▸ hm) (hnode.symm ▸ hn)
  refine ⟨fun h => hrefused 4 (State.armSwap_unreadable h), fun es h => ⟨fun hc => ?_, fun hc => hrefused _ (State.armSwap_refused h hc)⟩⟩
  have he : u.armSwap n d = (u.endEarlier.hold n d .arm).armAll (armGen d) (u.armRev d es) := State.armSwap_arms h hc
  obtain ⟨harm, hcaddy, hnext, hsent⟩ := State.armAll_parts (u.endEarlier.hold n d .arm) (armGen d) (u.armRev d es)
  have ht := (Answered.refl (u.armSwap n d)).settleCloses
  rw [← he] at harm hcaddy hnext hsent
  refine ⟨_, _, hrow, (congrArg Domain.arm ht.dom).trans harm, rfl, ?_, ?_, ?_, (congrArg Caddy.armed ht.caddy).trans hcaddy,
    (congrArg Route.next ht.rte).trans hnext, fun m hm hn => ht.sent _ (hsent m (hmem.symm ▸ hm) (hnode.symm ▸ hn))⟩
  · exact congrArg (fun k => [k]) hnode
  · exact hnow
  · exact congrArg₂ (fun (l : List Nat) k => l.all [k].contains) hmem hnode

theorem swapDisarm_acts (hop : dOpcode d = 0x04) : ∃ t : State, exec (.swapDisarm n) s = .next t ∧ t.dom.arm = none ∧ t.caddy.armed = none ∧
    t.mem.granules = s.mem.granules.filter (fun g => !g.prefill) ∧ ∀ m ∈ s.memberList, m ≠ s.dom.node → .member m 5 [] ∈ t.out := by
  obtain ⟨t, he, ht⟩ := row_answered (c := .swapDisarm n) (f := fun d s => (s.abortSwap.sendDisarm).finish n d 0 []) hl hfind hcheck rfl
    hop (by decide) ((Answered.refl _).finish n d 0 [])
  obtain ⟨harm, hcaddy, hgran, hsent⟩ := State.endArm_disarms { s with accepted := s.accepted.erase ⟨n, d⟩ } 0x0434 []
  exact ⟨t, he, (congrArg Domain.arm ht.dom).trans harm, (congrArg Caddy.armed ht.caddy).trans hcaddy,
    (congrArg Mem.granules ht.mem).trans hgran, fun m hm hn => ht.sent _ (hsent m hm hn)⟩

/-- A tenant's descriptor waits for the cut where steeps run. -/
theorem atCut_holds {c : Instr} {op : Nat} (hc : exec c s = s.row n op anyDesc fun d s => s.atCut n d) (hop : dOpcode d = op) (hctl : op < 0x30)
    (hns : s.noSteeps = false) :
    ∃ t : State, exec c s = .next t ∧ { ring := n, desc := d, what := .cut } ∈ t.waiting ∧ t.eng = s.eng ∧ t.mem = s.mem := by
  obtain ⟨t, he, ht⟩ := row_answered hl hfind hcheck hc hop hctl (v := ({ s with accepted := s.accepted.erase ⟨n, d⟩ } : State).hold n d .cut)
    (by rw [State.atCut_waits (by exact hns)]; exact .refl _)
  exact ⟨t, he, ht.cuts _ (List.mem_append_right _ (List.mem_singleton_self _)) rfl, ht.eng, ht.mem⟩

/-- The state in which a tenant's descriptor takes effect at once. -/
def State.atOnce (s : State) (n : Nat) (d : W512) : State :=
  (({ s with accepted := s.accepted.erase ⟨n, d⟩ } : State).hold n d .cut).unwait ⟨n, d, .cut⟩

theorem atCut_effect {c : Instr} {op : Nat} (hc : exec c s = s.row n op anyDesc fun d s => s.atCut n d) (hop : dOpcode d = op) (hctl : op < 0x30)
    (hns : s.noSteeps = true) {v : State}
    (hv : Answered v ((({ s with accepted := s.accepted.erase ⟨n, d⟩ } : State).hold n d .cut).effect ⟨n, d, .cut⟩)) :
    ∃ t : State, exec c s = .next t ∧ Answered v t :=
  row_answered hl hfind hcheck hc hop hctl (by rw [State.atCut_acts (by exact hns)]; exact hv)

theorem tenantSet_acts (hop : dOpcode d = 0x08) (hns : s.noSteeps = true) :
    (s.classUsable (dClass d) = true → (s.tenant (dTenant d)).valid = false ∨ (s.tenant (dTenant d)).cls = dClass d ∨
        (s.tenant (dTenant d)).openSeqs = 0 →
      ∃ t : State, exec (.tenantSet n) s = .next t ∧ t.tenant (dTenant d) = (s.tenant (dTenant d)).change d ∧ t.eng.seqs = s.eng.seqs ∧
        t.mem = s.mem) ∧
    (s.classUsable (dClass d) = false ∨ ((s.tenant (dTenant d)).valid = true ∧ (s.tenant (dTenant d)).cls ≠ dClass d ∧
        (s.tenant (dTenant d)).openSeqs ≠ 0) →
      ∃ t : State, exec (.tenantSet n) s = .next t ∧ t.eng = s.eng ∧ t.mem = s.mem) := by
  have heffect : (({ s with accepted := s.accepted.erase ⟨n, d⟩ } : State).hold n d .cut).effect ⟨n, d, .cut⟩ =
      (s.atOnce n d).effectTenantSet ⟨n, d, .cut⟩ := by
    simp only [State.effect, hop, State.atOnce]
  refine ⟨fun hu he => ?_, fun h => ?_⟩
  · obtain ⟨t, hexec, ht⟩ := atCut_effect (c := .tenantSet n) hl hfind hcheck rfl hop (by decide) hns
      (by rw [heffect]; exact State.effectTenantSet_changes (w := ⟨n, d, .cut⟩) hu he)
    refine ⟨t, hexec, ?_, ?_, ht.mem⟩
    · rw [State.tenant, ht.eng]
      exact Tab.get_set_self _ _ _ _
    · rw [ht.eng]
      rfl
  · obtain ⟨t, hexec, ht⟩ := atCut_effect (c := .tenantSet n) hl hfind hcheck rfl hop (by decide) hns
      (by rw [heffect]; exact State.effectTenantSet_refuses (w := ⟨n, d, .cut⟩) h)
    exact ⟨t, hexec, ht.eng, ht.mem⟩

theorem tenantRemove_acts (hop : dOpcode d = 0x09) (hns : s.noSteeps = true) :
    ((s.tenant (dTenant d)).valid = true → (s.tenant (dTenant d)).openSeqs = 0 →
      ∃ t : State, exec (.tenantRemove n) s = .next t ∧ t.eng.tenants = s.eng.tenants.erase (dTenant d) ∧ t.eng.seqs = s.eng.seqs ∧
        t.mem = s.mem) ∧
    ((s.tenant (dTenant d)).valid = false ∨ (s.tenant (dTenant d)).openSeqs ≠ 0 →
      ∃ t : State, exec (.tenantRemove n) s = .next t ∧ t.eng = s.eng ∧ t.mem = s.mem) := by
  have heffect : (({ s with accepted := s.accepted.erase ⟨n, d⟩ } : State).hold n d .cut).effect ⟨n, d, .cut⟩ =
      (s.atOnce n d).effectTenantRemove ⟨n, d, .cut⟩ := by
    simp only [State.effect, hop, State.atOnce]
  refine ⟨fun hv ho => ?_, fun h => ?_⟩
  · obtain ⟨t, hexec, ht⟩ := atCut_effect (c := .tenantRemove n) hl hfind hcheck rfl hop (by decide) hns
      (by rw [heffect]; exact State.effectTenantRemove_removes (w := ⟨n, d, .cut⟩) hv ho)
    refine ⟨t, hexec, ?_, ?_, ht.mem⟩
    · rw [ht.eng]
      rfl
    · rw [ht.eng]
      rfl
  · obtain ⟨t, hexec, ht⟩ := atCut_effect (c := .tenantRemove n) hl hfind hcheck rfl hop (by decide) hns
      (by rw [heffect]; exact State.effectTenantRemove_refuses (w := ⟨n, d, .cut⟩) h)
    exact ⟨t, hexec, ht.eng, ht.mem⟩

theorem steerSet_acts (hop : dOpcode d = 0x0B) (hns : s.noSteeps = true) (hv : (s.tenant (dTenant d)).valid = true) :
    ∃ t : State, exec (.steerSet n) s = .next t ∧ t.tenant (dTenant d) = { s.tenant (dTenant d) with
      steerDir := BitVec.ofNat 64 (dField d 16 8), steerVer := (s.tenant (dTenant d)).steerVer + 1 } ∧ t.eng.seqs = s.eng.seqs ∧
      t.mem = s.mem := by
  have heffect : (({ s with accepted := s.accepted.erase ⟨n, d⟩ } : State).hold n d .cut).effect ⟨n, d, .cut⟩ =
      (s.atOnce n d).effectSteerSet ⟨n, d, .cut⟩ := by
    simp only [State.effect, hop, State.atOnce]
  obtain ⟨t, hexec, ht⟩ := atCut_effect (c := .steerSet n) hl hfind hcheck rfl hop (by decide) hns
    (by rw [heffect]; exact State.effectSteerSet_steers (w := ⟨n, d, .cut⟩) hv)
  refine ⟨t, hexec, ?_, ?_, ht.mem⟩
  · rw [State.tenant, ht.eng]
    exact Tab.get_set_self _ _ _ _
  · rw [ht.eng]
    rfl

theorem tenantQuery_acts (hop : dOpcode d = 0x0A) : ∃ t : State, exec (.tenantQuery n) s = .next t ∧ t.eng = s.eng ∧ t.mem = s.mem ∧
    .hostWrite (s.ring n).tagPasid (BitVec.ofNat 64 (dField d 16 8)) (tenantBytes (s.tenant (dTenant d))) ∈ t.out := by
  obtain ⟨t, he, ht⟩ := row_answered (c := .tenantQuery n) (f := fun d s => s.queryResult n d (tenantBytes (s.tenant (dTenant d)))) hl hfind
    hcheck rfl hop (by decide) ((Answered.refl _).finish n d 0 [])
  exact ⟨t, he, ht.eng, ht.mem, ht.sent _ (List.mem_append_right _ (List.mem_singleton_self _))⟩

theorem objectSet_acts (hop : dOpcode d = 0x20) : ∃ t : State, exec (.objectSet n) s = .next t ∧
    t.mem.objects = s.mem.objects.set (dField d 8 2 % 2 ^ 14) (objOf d) ∧ t.mem.hbm = s.mem.hbm ∧ t.eng = s.eng := by
  obtain ⟨t, he, ht⟩ := row_answered (c := .objectSet n) (f := fun d s => s.setObject n d) hl hfind hcheck rfl hop (by decide) (.refl _)
  obtain ⟨g, w, r, o, h⟩ := State.setObject_frame { s with accepted := s.accepted.erase ⟨n, d⟩ } n d
  refine ⟨t, he, ?_, ?_, ?_⟩
  · rw [ht.mem, h]
  · rw [ht.mem, h]
  · rw [ht.eng, h]

end

/-- Settles O22, a row at a time: what each does before its record, then `Answered`. -/
theorem packageDescriptorsAct : Obligations.PackageDescriptorsAct := by
  unfold Obligations.PackageDescriptorsAct
  intro s n d hl hfind hcheck u
  refine ⟨modelLoad_acts hl hfind hcheck, modelUnload_acts hl hfind hcheck, ?arms, swapDisarm_acts hl hfind hcheck, ?cut, ?atOnce,
    tenantQuery_acts hl hfind hcheck, objectSet_acts hl hfind hcheck⟩
  case arms =>
    intro hop
    exact swapArm_acts hl hfind hcheck hop
  case cut =>
    intro c hc hop hns
    simp only [List.mem_cons, List.not_mem_nil, or_false] at hc
    rcases hc with rfl | rfl | rfl
    · exact atCut_holds hl hfind hcheck rfl hop (by decide) hns
    · exact atCut_holds hl hfind hcheck rfl hop (by decide) hns
    · exact atCut_holds hl hfind hcheck rfl hop (by decide) hns
  case atOnce =>
    intro hns
    exact ⟨fun hop => tenantSet_acts hl hfind hcheck hop hns, fun hop => tenantRemove_acts hl hfind hcheck hop hns,
      fun hop hv => steerSet_acts hl hfind hcheck hop hns hv⟩

end Sys2Proof.Machine
end

section
/-! PROOF. The steep sequencer: what the output path, escalation, drafting and staging do to the runs of operations (spec 01
R19, R20, R37, spec 03 R82 to R91, spec 05 R124 to R126, spec 09 R231 to R236). -/

namespace Sys2Proof.Machine

/-! ## Runs -/

theorem find?_updateIf {α : Type} {p : α → Bool} {f : α → α} (hf : ∀ x, p x = true → p (f x) = true) (l : List α) :
    (updateIf l p f).find? p = (l.find? p).map f := by
  induction l with
  | nil => rfl
  | cons a l ih =>
    by_cases ha : p a = true
    · simp [updateIf, ha, hf a ha]
    · simpa [updateIf, List.find?_cons, ha] using ih

/-- The run of an operation that is updated in place. -/
theorem State.runOf_onRun (s : State) (draft : Bool) (i e : Nat) {f : OpRun → OpRun}
    (hf : ∀ k, ((f k).draft, (f k).index, (f k).expert) = (k.draft, k.index, k.expert)) :
    (s.onRun draft i e f).runOf draft i e = (s.runOf draft i e).map f := by
  refine find?_updateIf (fun k hk => ?_) s.steep.issued
  have hkeys := hf k
  simp only [Prod.mk.injEq] at hkeys
  rw [hkeys.1, hkeys.2.1, hkeys.2.2]
  exact hk

theorem State.runOf_keys {s : State} {draft : Bool} {i e : Nat} {k : OpRun} (h : s.runOf draft i e = some k) :
    k.draft = draft ∧ k.index = i ∧ k.expert = e := by
  simpa [and_assoc] using List.find?_some h

/-- Work on the run of an operation: the steep's batch and what `State.rest` names stay, the run stays issued with its lines that
jumped. -/
structure Ran (draft : Bool) (i e : Nat) (s t : State) : Prop where
  rest : t.rest = s.rest
  batch : t.steep.batch = s.steep.batch
  run : ∀ k, s.runOf draft i e = some k → ∃ k', t.runOf draft i e = some k' ∧ k'.jumped = k.jumped

namespace Ran

variable {draft : Bool} {i e : Nat} {r s t : State}

theorem refl (s : State) : Ran draft i e s s := ⟨rfl, rfl, fun k hk => ⟨k, hk, rfl⟩⟩

theorem trans (h : Ran draft i e r s) (k : Ran draft i e s t) : Ran draft i e r t where
  rest := k.rest.trans h.rest
  batch := k.batch.trans h.batch
  run := fun x hx => by
    obtain ⟨y, hy, hj⟩ := h.run x hx
    obtain ⟨z, hz, hj'⟩ := k.run y hy
    exact ⟨z, hz, hj'.trans hj⟩

theorem kept (h : Ran draft i e r s) (k : Kept s t) : Ran draft i e r t :=
  h.trans ⟨k.rest, k.steep.batch, fun x hx => ⟨x, by rw [State.runOf, k.steep.issued]; exact hx, rfl⟩⟩

theorem onRun (h : Ran draft i e r s) {f : OpRun → OpRun}
    (hf : ∀ k, ((f k).draft, (f k).index, (f k).expert, (f k).jumped) = (k.draft, k.index, k.expert, k.jumped)) :
    Ran draft i e r (s.onRun draft i e f) := by
  refine h.trans ⟨rfl, rfl, fun k hk => ⟨f k, ?_, ?_⟩⟩
  · rw [State.runOf_onRun s draft i e fun k => ?_, hk]
    · rfl
    · have := hf k
      simp only [Prod.mk.injEq] at this ⊢
      exact ⟨this.1, this.2.1, this.2.2.1⟩
  · have := hf k
    simp only [Prod.mk.injEq] at this
    exact this.2.2.2

theorem foldl {α : Type} {f : State → α → State} (h : Ran draft i e r s) (hf : ∀ {t} a, Ran draft i e r t → Ran draft i e r (f t a))
    (l : List α) : Ran draft i e r (l.foldl f s) := by
  induction l generalizing s with
  | nil => exact h
  | cons a l ih => exact ih (hf a h)

theorem serve (h : Ran draft i e s t) : t.serve = s.serve := congrArg (·.2.1) h.rest
theorem pwr (h : Ran draft i e s t) : t.pwr = s.pwr := congrArg (·.2.2.1) h.rest
theorem sec (h : Ran draft i e s t) : t.sec = s.sec := congrArg (·.2.2.2.1) h.rest

end Ran

/-! ## Lines of the package's own batch (R87 to R91, R124 to R126) -/

theorem State.dieLine_kept {r s : State} (h : Kept r s) (die a : Nat) : Kept r (s.dieLine die a) := .ite h (h.upd (by rfl))

theorem State.granuleRead_kept {r s : State} (h : Kept r s) (a : Nat) : Kept r (s.granuleRead a) := by
  unfold State.granuleRead
  split
  · split
    · exact h.upd rfl
    · exact h
  · exact h

theorem State.dieTouch_kept {r s : State} (h : Kept r s) (die a : Nat) : Kept r (s.dieTouch die a) := by
  unfold State.dieTouch
  split
  · exact State.granuleRead_kept (State.dieLine_kept h die _) a
  · exact h

theorem State.dieRead_kept {r s : State} (h : Kept r s) (die : Nat) (ranges : List (Nat × Nat)) : Kept r (s.dieRead die ranges) :=
  h.foldl (fun _ hk => .ite hk (hk.foldl (fun _ hk => State.dieTouch_kept hk die _) _)) ranges

theorem State.readSlots_kept {r s : State} (h : Kept r s) (m : Model) (draft : Bool) (rec : List Byte) (l : OpLine) :
    Kept r (s.readSlots m draft rec l) := by
  unfold State.readSlots
  split
  · exact .ite (State.dieRead_kept h _ _) h
  · exact h

/-- A line of an operation that escalates none is kept for steps 6 to 8, or its sequence fails. -/
theorem State.formLine_ran {r s : State} {t : OpRun} (h : Ran t.draft t.index 0 r s) (m : Model) {rec : List Byte}
    (hesc : t.draft = true ∨ escalates (rLpw rec) = false) (p : Nat × OpLine) : Ran t.draft t.index 0 r (s.formLine m t rec p) := by
  unfold State.formLine
  dsimp only
  split
  · exact h
  · split
    · exact h.kept (State.dataError_kept (.refl s) _ _ _ _ _ _ _)
    · split
      · exact h.kept (State.readError_kept (.refl s) _ _)
      · have hread := h.kept (State.readSlots_kept (.refl s) m t.draft rec p.2)
        split
        · exact hread.onRun (by exact fun _ => rfl)
        · rename_i hn
          have hno : escalates (rLpw rec) = false := hesc.resolve_left fun hd => hn (by simp [hd])
          rw [hno, Bool.false_and, if_neg Bool.false_ne_true]
          exact (hread.onRun (by exact fun _ => rfl)).kept (State.normCheck_kept (.refl _) m t.index rec _ _)

/-- A jumped line is recomputed and may be flagged. -/
theorem State.escalateLine_ran {r s : State} {index : Nat} (h : Ran false index 0 r s) (m : Model) {t : OpRun} (ht : t.index = index)
    (rec : List Byte) (p : Nat × OpLine) : Ran false index 0 r (s.escalateLine m t rec p) := by
  subst ht
  unfold State.escalateLine
  dsimp only
  split
  · exact h
  · split
    · exact h.kept (State.readError_kept (.refl s) _ _)
    · have hcount {f : NormAcc → NormAcc} {g : OpRun → List (Nat × List Word)} : Ran false t.index 0 r (((s.setSteep { s.steep with escalated := addNew s.steep.escalated p.2.seq }).onNorm t.index f).onRun
          false t.index 0 fun k => { k with kept := g k }) :=
        (h.kept (State.onNorm_kept ((Kept.refl s).mark (by rfl)) t.index f)).onRun (by exact fun _ => rfl)
      split
      · exact hcount.kept (State.flagLine_kept (.refl _) _ _ _)
      · exact hcount

/-- Steps 6 to 8 end the run: its output is released. -/
theorem State.finishRun_done {s : State} {draft : Bool} {index : Nat} {k : OpRun} (hk : s.runOf draft index 0 = some k) (m : Model)
    (rec : List Byte) : (s.finishRun m draft index rec).opDone draft index = true ∧ (s.finishRun m draft index rec).rest = s.rest ∧
      (s.finishRun m draft index rec).steep.batch = s.steep.batch := by
  unfold State.finishRun
  split
  · rename_i hnone
    rw [hk] at hnone
    cases hnone
  rename_i k' hk'
  obtain rfl : k' = k := Option.some.inj (hk'.symm.trans hk)
  extract_lets u
  have hu : Kept s u := by
    refine (Kept.refl s).foldl (fun p hk => ?_) k'.kept
    split
    · exact .ite hk (State.steps6to8_kept hk _ _ _ _ _ _ _ _)
    · exact hk
  have hrun : u.runOf draft index 0 = some k' := by rw [State.runOf, hu.steep.issued]; exact hk
  refine ⟨?_, hu.rest, hu.steep.batch⟩
  rw [State.opDone, State.runOf_onRun, hrun]
  · rfl
  · exact fun _ => rfl

/-- The results of finished tiles that are read go to the runs. -/
theorem State.completeAll_frame (s : State) : ∃ c l x, s.completeAll =
    { s with comp := c, steep := { s.steep with issued := l }, err := x } := by
  have hitem : ∀ (u : State) (t : TileAt), ∃ c x, u.completeItem t = { u with comp := c, err := x } := by
    intro u t
    unfold State.completeItem
    split
    · exact ⟨u.comp, u.err, rfl⟩
    · exact ⟨_, _, rfl⟩
  have hflush : ∀ (u : State) (t : TileAt), ∃ c l x, u.flushTile t = { u with comp := c, steep := { u.steep with issued := l }, err := x } := by
    intro u t
    unfold State.flushTile
    split
    · exact ⟨u.comp, u.steep.issued, u.err, rfl⟩
    · rename_i w _ _
      dsimp only
      obtain ⟨c, x, e⟩ := hitem (((u.onRun w.draft w.index (w.expert.getD 0) fun k => { k with
        sums := k.sums ++ (u.tileOf t).acc.map fun p => (512 * w.group + p.1, w.block, p.2) }).onTile t fun k =>
          { k with items := [], acc := [] })) t
      exact ⟨c, _, x, e⟩
  unfold State.completeAll
  generalize s.comp.tiles = l
  induction l generalizing s with
  | nil => exact ⟨s.comp, s.steep.issued, s.err, rfl⟩
  | cons p l ih =>
    obtain ⟨c, is, x, e⟩ := hflush s ⟨p.1 / 128, p.1 % 128 / 2, p.1 % 2⟩
    obtain ⟨c', is', x', e'⟩ := ih (s.flushTile ⟨p.1 / 128, p.1 % 128 / 2, p.1 % 2⟩)
    exact ⟨c', is', x', by rw [List.foldl_cons, e', e]⟩

/-! ## Output (R124 to R126, R186, R187) -/

theorem Ran.opDone {draft : Bool} {index : Nat} {r s : State} {k : OpRun} (h : Ran draft index 0 r s) (hk : r.runOf draft index 0 = some k)
    (m : Model) (rec : List Byte) : let t := (s.finishRun m draft index rec).settleRoutes
    t.opDone draft index = true ∧ t.rest = r.rest ∧ t.steep.batch = r.steep.batch := by
  obtain ⟨k', hk', -⟩ := h.run k hk
  obtain ⟨hdone, hrest, hbatch⟩ := State.finishRun_done hk' m rec
  have hroutes := State.settleRoutes_kept (.refl (s.finishRun m draft index rec))
  refine ⟨?_, hroutes.rest.trans (hrest.trans h.rest), hroutes.steep.batch.trans (hbatch.trans h.batch)⟩
  rw [State.opDone, State.runOf, hroutes.steep.issued]
  exact hdone

/-- Where no line jumps, the output of every line ends the run. -/
theorem State.ownOutput_done {s : State} {t : OpRun} (m : Model) {rec : List Byte} (hk : s.runOf t.draft t.index 0 = some t)
    (hkept : t.kept = []) (hjumped : t.jumped = []) (hesc : t.draft = true ∨ escalates (rLpw rec) = false) :
    let u := (s.ownOutput m t rec).settleRoutes
    u.opDone t.draft t.index = true ∧ u.rest = s.rest ∧ u.steep.batch = s.steep.batch := by
  unfold State.ownOutput
  extract_lets v u
  have hv : Ran t.draft t.index 0 s v := by
    dsimp only [v]
    rw [hkept]
    exact Ran.foldl (.refl s) (fun p h => State.formLine_ran h m hesc p) _
  obtain ⟨k, hk', hj⟩ := hv.run t hk
  have hno : v.liveJumps k = [] := by simp [State.liveJumps, hj, hjumped]
  have hu : u = (v.finishRun m t.draft t.index rec).settleRoutes := by
    dsimp only [u]
    rw [hk']
    exact congrArg State.settleRoutes (if_pos (by rw [hno]; rfl))
  rw [hu]
  exact hv.opDone hk m rec

theorem State.pourLine_kept {r s : State} (h : Kept r s) (l : HeldLine) (line : Option (List Word)) : Kept r (s.pourLine l line) := by
  unfold State.pourLine
  dsimp only
  exact .ite h (State.sendPourEnds_kept (State.setRte_kept (State.routeSend_kept h _ _) _) _)

theorem State.expertLine_kept {r s : State} (h : Kept r s) (m : Model) (t : OpRun) (rec : List Byte) (p : Nat × HeldLine) :
    Kept r (s.expertLine m t rec p) := by
  unfold State.expertLine
  dsimp only
  split
  · exact State.pourLine_kept (State.dataError_kept h _ _ _ _ _ _ _) _ _
  · split
    · exact State.setRte_kept h _
    · split
      · exact State.pourLine_kept (State.dataError_kept h _ _ _ _ _ _ _) _ _
      · exact State.store_kept h _ _

/-- The output of a local expert's operation ends its run. -/
theorem State.expertOutput_done {s : State} {t : OpRun} (m : Model) (rec : List Byte) (hk : s.runOf false t.index t.expert = some t) :
    let u := (s.expertOutput m t rec).settleRoutes
    (u.runOf false t.index t.expert).map OpRun.done = some true ∧ u.rest = s.rest ∧ u.steep.batch = s.steep.batch := by
  unfold State.expertOutput
  extract_lets v
  have hv : Kept s v := (Kept.refl s).foldl (fun p h => State.expertLine_kept h m t rec p) _
  have hrun : v.runOf false t.index t.expert = some t := by rw [State.runOf, hv.steep.issued]; exact hk
  have hroutes := State.settleRoutes_kept (.refl (v.onRun false t.index t.expert fun k => { k with done := true }))
  refine ⟨?_, hroutes.rest.trans hv.rest, hroutes.steep.batch.trans hv.steep.batch⟩
  have hissued : ∀ x : State, (x.settleRoutes).runOf false t.index t.expert = x.runOf false t.index t.expert := fun x => by
    rw [State.runOf, (State.settleRoutes_kept (.refl x)).steep.issued]; rfl
  rw [hissued, State.runOf_onRun, hrun]
  · rfl
  · exact fun _ => rfl

/-! ## Issue (R37, R82, R113, R114) -/

section

variable {s : State} {m : Model} (hm : s.model = some m)

include hm

theorem operationIssue_waits {draft : Bool} {index : Nat} {expert : Option Nat} (h : s.issueReady m draft index expert = false) (f : Bool) :
    exec (.operationIssue draft index expert f) s = .next s := by
  simp [exec, execOperationIssue, hm, h]

theorem operationIssue_issues {draft : Bool} {index : Nat} {expert : Option Nat} (h : s.issueReady m draft index expert = true)
    (hr : s.readable ((hList m.header draft).1 + 128 * index) 128 = true)
    (hfloor : draft = true ∨ meetsFloor m.floor (rLpw (s.record_ m draft index)) = true) :
    exec (.operationIssue draft index expert false) s = .next { s with steep := { s.steep with issued := s.steep.issued ++
      [{ draft := draft, index := index, expert := expert.getD 0, lines := s.issueLines m draft expert,
         done := s.issueLines m draft expert = 0 }] } } := by
  have hmeets : (!draft && !meetsFloor m.floor (rLpw (s.record_ m draft index))) = false := by
    rcases hfloor with h | h <;> simp [h]
  simp [exec, execOperationIssue, hm, h, hr, hmeets, State.setSteep]

/-- A record that cannot be read, or that breaches the floor, stops the program. -/
theorem operationIssue_stops {draft : Bool} {index : Nat} {expert : Option Nat} (h : s.issueReady m draft index expert = true) (f : Bool)
    (hbad : f = true ∨ s.readable ((hList m.header draft).1 + 128 * index) 128 = false ∨
      (draft = false ∧ meetsFloor m.floor (rLpw (s.record_ m draft index)) = false)) :
    ∃ status addr detail, exec (.operationIssue draft index expert f) s = .next (s.stopProgram draft index status addr detail).settleRoutes := by
  by_cases hread : (f || !s.readable ((hList m.header draft).1 + 128 * index) 128) = true
  · exact ⟨0x0420, (hList m.header draft).1 + 128 * index, 0, by simp only [exec, execOperationIssue, hm, h, hread, Bool.not_true, Bool.false_eq_true, if_false, if_true]⟩
  · have hbreach : (!draft && !meetsFloor m.floor (rLpw (s.record_ m draft index))) = true := by
      rcases hbad with hf | hr | ⟨hd, hf⟩
      · simp [hf] at hread
      · simp [hr] at hread
      · rw [hf, hd]
        rfl
    exact ⟨0x0520, 0, breachDetail (s.record_ m draft index), by simp only [exec, execOperationIssue, hm, h, hread, hbreach, Bool.not_true, Bool.false_eq_true, if_false, if_true]⟩

end

theorem State.failSeqs_failed (s : State) {qs : List Nat} (status : Nat) {q : Nat} (hq : q ∈ qs) : q ∈ (s.failSeqs qs status).steep.failed := by
  have hstart : q ∈ qs.foldl addNew s.steep.failed := (mem_foldl_addNew qs _).2 (.inr hq)
  exact (State.events_kept (.refl ({ s with steep := { s.steep with
    failed := qs.foldl addNew s.steep.failed, staged := s.steep.staged.filter fun g => !qs.contains g.seq } } : State)) qs status).steep.failed
      q hstart

/-- A contained error with none in handling fails its sequences. -/
theorem State.raise_fails {s : State} (hidle : s.err.handling = []) (hsil : s.err.silent = false) {e : ErrIn} (hc : e.cls = 1) {q : Nat}
    (hq : q ∈ e.seqs) : q ∈ (s.raise e).steep.failed := by
  unfold State.raise
  rw [hsil, if_neg Bool.false_ne_true, State.judge_of_idle hidle, hc]
  exact State.failSeqs_failed (s.note e) e.status hq

/-- The program stops for the steep: every sequence of the batch fails it. -/
theorem State.stopProgram_fails {s : State} (hidle : s.err.handling = []) (hsil : s.err.silent = false) (draft : Bool)
    (index status addr detail : Nat) : let t := (s.stopProgram draft index status addr detail).settleRoutes
    t.steep.stopped = some (draft, index) ∧ (∀ b ∈ s.steep.batch, b.seq ∈ t.steep.failed) ∧ t.steep.issued = s.steep.issued ∧
      t.steep.batch = s.steep.batch := by
  unfold State.stopProgram
  extract_lets steep u t
  have hroutes : Kept u t := State.settleRoutes_kept (State.raise_kept (.refl u) _)
  refine ⟨hroutes.steep.stopped, fun b hb => ?_, hroutes.steep.issued, hroutes.steep.batch⟩
  exact (State.settleRoutes_kept (.refl _)).steep.failed _ (State.raise_fails (s := u) hidle hsil rfl (List.mem_map_of_mem hb))

/-! ## The rows of output, escalation, drafting, verification and staging -/

section

variable {s : State} {m : Model} (hm : s.model = some m) (hl : s.live = true)

include hm

theorem operationOutput_waits {draft : Bool} {index : Nat} {expert : Option Nat}
    (h : ∀ k, s.completeAll.runOf draft index (expert.getD 0) = some k → k.done = true) :
    exec (.operationOutput draft index expert) s = .next s := by
  refine congrArg Host.Outcome.next ?_
  rw [hm]
  dsimp only
  split
  · rfl
  · split
    · rfl
    · exact if_pos (h _ ‹_›)

include hl

theorem operationOutput_own {draft : Bool} {index : Nat} (hrun : s.steep.running = true) (h8 : s.steep.staged8 = false) {k : OpRun}
    (hk : s.completeAll.runOf draft index 0 = some k) (hd : k.done = false) (hkind : rKind (s.completeAll.record_ m draft index) ≠ 5)
    (hin : s.completeAll.resultsIn k (s.completeAll.record_ m draft index) = true) :
    exec (.operationOutput draft index none) s =
      .next (s.completeAll.ownOutput m k (s.completeAll.record_ m draft index)).settleRoutes := by
  simp [exec, execOperationOutput, hm, hl, hrun, h8, hk, hd, hkind, hin]

theorem operationOutput_expert {index e : Nat} (hrun : s.steep.running = true) (h8 : s.steep.staged8 = false) {k : OpRun}
    (hk : s.completeAll.runOf false index e = some k) (hd : k.done = false) (hkind : rKind (s.completeAll.record_ m false index) = 5)
    (hin : s.completeAll.expertIn_ k (s.completeAll.record_ m false index) = true) :
    exec (.operationOutput false index (some e)) s =
      .next (s.completeAll.expertOutput m k (s.completeAll.record_ m false index)).settleRoutes := by
  simp [exec, execOperationOutput, hm, hl, hrun, h8, hk, hd, hkind, hin]

omit hl in
theorem normEscalation_waits {index : Nat} (h : ∀ k, s.runOf false index 0 = some k → k.jumped = [] ∨ k.done = true) :
    exec (.normEscalation index) s = .next s := by
  refine congrArg Host.Outcome.next ?_
  rw [hm]
  split
  · rename_i k _ hk
    exact if_pos (by rcases h k hk with h | h <;> simp [h])
  · rfl

/-- The jumped lines of a run, recomputed together; the escalation counts. -/
def State.escalateRun (s : State) (m : Model) (k : OpRun) (rec : List Byte) (index : Nat) : State :=
  let u := (s.liveJumps k).foldl (fun s p => s.escalateLine m k rec p) s
  if (s.liveJumps k).isEmpty then u else u.onNorm index fun a => { a with escalations := a.escalations + 1 }

theorem normEscalation_ends {index : Nat} {k : OpRun} (hrun : s.steep.running = true) (hk : s.runOf false index 0 = some k)
    (hj : k.jumped ≠ []) (hd : k.done = false) :
    ∃ t : State, exec (.normEscalation index) s = .next t ∧ t.opDone false index = true ∧ t.rest = s.rest ∧ t.steep.batch = s.steep.batch := by
  obtain ⟨-, hindex, -⟩ := State.runOf_keys hk
  have hexec : exec (.normEscalation index) s = .next
      ((s.escalateRun m k (s.record_ m false index) index).finishRun m false index (s.record_ m false index)).settleRoutes := by
    refine congrArg Host.Outcome.next ?_
    rw [hm, hk]
    exact if_neg (by simp [hl, hrun, hd, hj])
  have hesc := (Ran.refl (draft := false) (i := index) (e := 0) s).foldl
    (fun p h => State.escalateLine_ran h m hindex (s.record_ m false index) p) (s.liveJumps k)
  have hran : Ran false index 0 s (s.escalateRun m k (s.record_ m false index) index) := by
    unfold State.escalateRun
    dsimp only
    split
    · exact hesc
    · exact hesc.kept (State.onNorm_kept (.refl _) index _)
  exact ⟨_, hexec, hran.opDone hk m _⟩

end

/-! ## Drafting (R231, R232) -/

theorem State.propose_kept {r s : State} (h : Kept r s) (m : Model) (b : BatchItem) : Kept r (s.propose m b) := by
  unfold State.propose
  split
  · exact h
  · split
    · exact State.readError_kept h _ _
    · exact h.mark rfl

section

variable {s : State} {m : Model} (hm : s.model = some m)

include hm

theorem draftPass_waits (h : s.opDone true (m.headAt true) = false) : exec .draftPass s = .next s := by
  refine congrArg Host.Outcome.next ?_
  rw [hm]
  exact if_pos (by simp [h])

/-- The proposals of a pass. -/
def State.proposeAll (s : State) (m : Model) : State :=
  (s.steep.batch.filter fun b => !b.prefill && s.steep.draftPasses + 1 ≤ b.draft && !s.gone b.seq).foldl (fun s b => s.propose m b) s

/-- A pass that counts: the draft list may run anew. -/
def State.countPass (s : State) (i : Nat) : State :=
  s.setSteep { s.steep with draftPasses := i, issued := s.steep.issued.filter fun t => !t.draft }

theorem draftPass_counts (hl : s.live = true) (hrun : s.steep.running = true) (h8 : s.steep.staged8 = false) (hstop : s.steep.stopped = none)
    (hdraft : m.hasDraft = true) (htop : s.steep.draftPasses + 1 ≤ s.draftTop) (h : s.opDone true (m.headAt true) = true) :
    ∃ t : State, exec .draftPass s = .next t ∧ t.steep.draftPasses = s.steep.draftPasses + 1 ∧
      t.steep.issued = s.steep.issued.filter (fun e => !e.draft) ∧ t.steep.batch = s.steep.batch ∧ t.serve = s.serve ∧ t.pwr = s.pwr ∧
      t.sec = s.sec := by
  have hexec : exec .draftPass s = .next (let u := (s.proposeAll m).countPass (s.steep.draftPasses + 1)
      (if s.steep.draftPasses + 1 < u.draftTop then
        u.storeOk (hBatch m.header + 4) (leBytes 4 (draftLines u.steep.batch (s.steep.draftPasses + 1 + 1))) else u).settleRoutes) := by
    refine congrArg Host.Outcome.next ?_
    rw [hm]
    exact if_neg (by simp [hl, hrun, h8, hstop, hdraft, htop, h])
  have hfold : Kept s (s.proposeAll m) := (Kept.refl s).foldl (fun b hk => State.propose_kept hk m b) _
  generalize s.proposeAll m = u at hexec hfold
  have hroutes := State.settleRoutes_kept (Kept.ite (c := s.steep.draftPasses + 1 < (u.countPass (s.steep.draftPasses + 1)).draftTop)
    (State.storeOk_kept (.refl (u.countPass (s.steep.draftPasses + 1))) (hBatch m.header + 4)
      (leBytes 4 (draftLines (u.countPass (s.steep.draftPasses + 1)).steep.batch (s.steep.draftPasses + 1 + 1)))) (.refl _))
  refine ⟨_, hexec, hroutes.steep.draftPasses, hroutes.steep.issued.trans ?_, hroutes.steep.batch.trans hfold.steep.batch,
    hroutes.serve.trans hfold.serve, hroutes.pwr.trans hfold.pwr, hroutes.sec.trans hfold.sec⟩
  exact congrArg (List.filter fun e => !e.draft) hfold.steep.issued

end

/-! ## Verification (R202, R234 to R236) -/

theorem State.verifySeq_kept {r s : State} (h : Kept r s) (m : Model) (b : BatchItem) : Kept r (s.verifySeq m b) := by
  unfold State.verifySeq
  extract_lets q ds
  split
  · exact h
  · split
    · exact State.readError_kept h _ _
    · split
      · exact State.dataError_kept h _ _ _ _ _ _ _
      · exact h.updSteep ⟨rfl, rfl, rfl, rfl, rfl, rfl, fun _ h => h, fun _ h => .inl (List.mem_append_left _ h)⟩

/-- The state with these outputs staged. -/
def State.withStaged (s : State) (l : List Staged) : State := s.setSteep { s.steep with staged := l }

/-- Where nothing stops the reading of its logits and they name tokens, a sequence stages its outputs, or waits or has ended. -/
theorem State.verifySeq_stages {s : State} {m : Model} {b : BatchItem} (hf : s.logitFault m false (BatchItem_rows b) = none)
    (hv : verify (s.seq b.seq) (b.firstPos + if b.prefill then b.lines else 1) ((s.steep.drafts.get [] b.seq).take b.draft)
      ((BatchItem_rows b).map (s.logits m false)) ≠ none) (l : List Staged) :
    ∃ gs, (s.withStaged l).verifySeq m b = s.withStaged (l ++ gs) ∧
      ((b.prefill = false ∨ b.final = true) → ((s.steep.drafts.get [] b.seq).take b.draft).length = b.draft → s.gone b.seq = false →
        ∃ g ∈ l ++ gs, g.seq = b.seq) := by
  obtain ⟨ts, hts⟩ := Option.ne_none_iff_exists'.1 hv
  have hf' : (s.withStaged l).logitFault m false (BatchItem_rows b) = none := hf
  have hts' : verify ((s.withStaged l).seq b.seq) (b.firstPos + if b.prefill then b.lines else 1) (((s.withStaged l).steep.drafts.get [] b.seq).take b.draft)
      ((BatchItem_rows b).map ((s.withStaged l).logits m false)) = some ts := hts
  unfold State.verifySeq
  extract_lets q ds
  split
  · rename_i hskip
    refine ⟨[], by rw [List.append_nil], fun hfin hlen hgone => ?_⟩
    have hgone' : (s.withStaged l).gone q = false := hgone
    have hlen' : ds.length = b.draft := hlen
    have hprefill : (b.prefill && !b.final) = false := by rcases hfin with h | h <;> simp [h]
    rw [hgone', hprefill, hlen', bne_self_eq_false, Bool.or_false, Bool.or_false, Bool.false_or] at hskip
    obtain ⟨g, hg, hq⟩ := List.any_eq_true.1 hskip
    exact ⟨g, List.mem_append_left _ hg, of_decide_eq_true hq⟩
  · rw [hf']
    dsimp only
    rw [hts']
    exact ⟨[_], rfl, fun _ _ _ => ⟨_, List.mem_append_right _ (List.mem_singleton_self _), rfl⟩⟩

theorem State.verifyAll_stages {s : State} {m : Model} (bs : List BatchItem)
    (h : ∀ b ∈ bs, s.logitFault m false (BatchItem_rows b) = none ∧ verify (s.seq b.seq) (b.firstPos + if b.prefill then b.lines else 1)
      ((s.steep.drafts.get [] b.seq).take b.draft) ((BatchItem_rows b).map (s.logits m false)) ≠ none) (l : List Staged) :
    ∃ l', bs.foldl (fun s b => s.verifySeq m b) (s.withStaged l) = s.withStaged l' ∧ (∀ g ∈ l, g ∈ l') ∧
      ∀ b ∈ bs, (b.prefill = false ∨ b.final = true) → ((s.steep.drafts.get [] b.seq).take b.draft).length = b.draft →
        s.gone b.seq = false → ∃ g ∈ l', g.seq = b.seq := by
  induction bs generalizing l with
  | nil => exact ⟨l, rfl, fun _ h => h, fun _ h => absurd h List.not_mem_nil⟩
  | cons a bs ih =>
    obtain ⟨ha, hbs⟩ := List.forall_mem_cons.1 h
    obtain ⟨gs, hstep, hstaged⟩ := State.verifySeq_stages ha.1 ha.2 l
    obtain ⟨l', hfold, hsub, hrest⟩ := ih hbs (l ++ gs)
    refine ⟨l', by rw [List.foldl_cons, hstep, hfold], fun g hg => hsub g (List.mem_append_left _ hg), List.forall_mem_cons.2 ⟨?_, hrest⟩⟩
    intro hfin hlen hgone
    obtain ⟨g, hg, hq⟩ := hstaged hfin hlen hgone
    exact ⟨g, hsub g hg, hq⟩

theorem State.settleRoutes_of_nil {s : State} (h : s.routedList = []) : s.settleRoutes = s := by
  unfold State.settleRoutes
  split
  · rfl
  · rw [h]
    rfl

section

variable {s : State} {m : Model} (hm : s.model = some m) (hl : s.live = true) (hrun : s.steep.running = true) (h8 : s.steep.staged8 = false)

include hm

theorem verifyAndSample_waits (h : s.opDone false (m.headAt false) = false) : exec .verifyAndSample s = .next s := by
  refine congrArg Host.Outcome.next ?_
  rw [hm]
  exact if_neg (by simp [h])

include hl hrun h8

theorem verifyAndSample_eq (h : s.opDone false (m.headAt false) = true) :
    exec .verifyAndSample s = .next (s.steep.batch.foldl (fun s b => s.verifySeq m b) s).settleRoutes := by
  refine congrArg Host.Outcome.next ?_
  rw [hm]
  exact if_pos (by simp [hl, hrun, h8, h])

/-- Every sequence of the batch with outputs has them staged, or has ended or failed. -/
theorem verifyAndSample_stages (h : s.opDone false (m.headAt false) = true) :
    ∃ t : State, exec .verifyAndSample s = .next t ∧ t.steep.batch = s.steep.batch ∧ t.serve = s.serve ∧ t.pwr = s.pwr ∧ t.sec = s.sec ∧
      ((∀ b ∈ s.steep.batch, s.logitFault m false (BatchItem_rows b) = none ∧ verify (s.seq b.seq)
          (b.firstPos + if b.prefill then b.lines else 1) ((s.steep.drafts.get [] b.seq).take b.draft)
          ((BatchItem_rows b).map (s.logits m false)) ≠ none) →
        ∀ b ∈ s.steep.batch, b.prefill = false ∨ b.final = true → ((s.steep.drafts.get [] b.seq).take b.draft).length = b.draft →
          s.gone b.seq = true ∨ b.seq ∈ t.steep.failed ∨ ∃ g ∈ t.steep.staged, g.seq = b.seq) := by
  have hfold := State.settleRoutes_kept ((Kept.refl s).foldl (fun b hk => State.verifySeq_kept hk m b) s.steep.batch)
  refine ⟨_, verifyAndSample_eq hm hl hrun h8 h, hfold.steep.batch, hfold.serve, hfold.pwr, hfold.sec, fun hall b hb hfin hlen => ?_⟩
  obtain ⟨l, heq, -, hstaged⟩ := State.verifyAll_stages s.steep.batch hall s.steep.staged
  have heq' : s.steep.batch.foldl (fun s b => s.verifySeq m b) s = s.withStaged l := heq
  refine or_iff_not_imp_left.2 fun hgone => ?_
  obtain ⟨g, hg, hq⟩ := hstaged b hb hfin hlen (by simpa using hgone)
  rw [heq']
  rcases (State.settleRoutes_kept (.refl (s.withStaged l))).steep.staged g hg with hg' | hfail
  · exact .inr ⟨g, hg', hq⟩
  · exact .inl (hq ▸ hfail)

/-- A batch of one sequence with no routed layer: exactly its outputs are staged. -/
theorem verifyAndSample_one (h : s.opDone false (m.headAt false) = true) (hroutes : s.routedList = []) {b : BatchItem}
    {ts : List (Word × Bool)} (hb : s.steep.batch = [b]) (hgone : s.gone b.seq = false) (hfin : b.prefill = false ∨ b.final = true)
    (hlen : ((s.steep.drafts.get [] b.seq).take b.draft).length = b.draft) (hst : ∀ g ∈ s.steep.staged, g.seq ≠ b.seq)
    (hf : s.logitFault m false (BatchItem_rows b) = none)
    (hv : verify (s.seq b.seq) (b.firstPos + if b.prefill then b.lines else 1) ((s.steep.drafts.get [] b.seq).take b.draft)
      ((BatchItem_rows b).map (s.logits m false)) = some ts) :
    exec .verifyAndSample s = .next { s with steep := { s.steep with staged := s.steep.staged ++
      [{ seq := b.seq, tokens := ts, proposed := b.draft, accepted := (ts.filter Prod.snd).length,
         normF := s.steep.flagged.contains b.seq, normE := s.steep.escalated.contains b.seq }] } } := by
  have hprefill : (b.prefill && !b.final) = false := by rcases hfin with h | h <;> simp [h]
  have hnone : s.steep.staged.any (fun g => g.seq = b.seq) = false := by
    rw [List.any_eq_false]
    exact fun g hg => by simpa using hst g hg
  have hseq : s.verifySeq m b = s.withStaged (s.steep.staged ++
      [{ seq := b.seq, tokens := ts, proposed := b.draft, accepted := (ts.filter Prod.snd).length,
         normF := s.steep.flagged.contains b.seq, normE := s.steep.escalated.contains b.seq }]) := by
    unfold State.verifySeq
    dsimp only
    rw [if_neg (by simp [hgone, hprefill, hlen, hnone]), hf]
    dsimp only
    rw [hv]
    rfl
  rw [verifyAndSample_eq hm hl hrun h8 h, hb, List.foldl_cons, List.foldl_nil, hseq]
  exact congrArg Host.Outcome.next (State.settleRoutes_of_nil (s := s.withStaged _) hroutes)

end

/-! ## Staging (R19, R20, R423) -/

theorem stageOutputs_waits {s : State} (h : s.stageReady = false) : exec .stageOutputs s = .next s :=
  congrArg Host.Outcome.next (if_neg (by simp [h]))

/-- Stage 8 completes: chunks that are not final stage nothing more than their end. -/
def State.completeStage8 (s : State) : State :=
  let chunks := (s.steep.batch.filter fun b => b.prefill && !b.final && !s.gone b.seq).map fun b =>
    ({ seq := b.seq, tokens := [], proposed := 0, accepted := 0, normF := false, normE := false } : Staged)
  s.setSteep { s.steep with staged := s.steep.staged ++ chunks, staged8 := true, signalled := true }

theorem stageOutputs_signals {s : State} (hs : s.serving = true) (hrun : s.steep.running = true) (h8 : s.steep.staged8 = false)
    (h : s.stageReady = true) :
    ∃ t : State, exec .stageOutputs s = .next t ∧ t.steep.staged8 = true ∧ t.steep.signalled = true ∧ t.steep.running = true ∧
      t.steep.number = s.steep.number ∧ t.steep.batch = s.steep.batch ∧ t.eng = s.eng ∧ t.rte = s.rte ∧ t.serve = s.serve ∧ t.pwr = s.pwr ∧
      t.sec = s.sec := by
  have hexec : exec .stageOutputs s = .next (s.completeAll.completeStage8.barrierSwap s.completeAll.completeStage8.steep.number.toNat) :=
    congrArg Host.Outcome.next (if_pos (by simp [hs, hrun, h8, h]))
  obtain ⟨c, is, x, hu⟩ := State.completeAll_frame s
  obtain ⟨a, hb, d, b, w, r, f, ks, o, e⟩ := State.barrierSwap_frame s.completeAll.completeStage8 s.completeAll.completeStage8.steep.number.toNat
  refine ⟨_, hexec, ?_⟩
  rw [e, hu]
  exact ⟨rfl, rfl, hrun, rfl, rfl, rfl, rfl, rfl, rfl, rfl⟩

end Sys2Proof.Machine
end

section
/-! PROOF. Plain FP32 output of one line is stored at OUT and nowhere else; every row of the steep sequencer (spec 01 R19, R20,
R37, spec 05 R124, spec 11 R271, R286). -/

namespace Sys2Proof.Machine

/-! ## A write of device memory (R271, R286) -/

theorem State.keepDropped_length (s : State) (a : Nat) (bs : List Byte) : (s.keepDropped a bs).length = bs.length := by
  induction bs generalizing a with
  | nil => rfl
  | cons b bs ih => simp [State.keepDropped, ih]

theorem State.store_hbm (s : State) (a : Nat) (bs : List Byte) : (s.store a bs).mem.hbm = (s.devWrite a bs).mem.hbm := by
  unfold State.store
  dsimp only
  split
  · obtain ⟨w, r, o, h⟩ := State.wake_frame (s.devWrite a bs)
    rw [h]
  · rfl

theorem State.store_byte_in {s : State} (hd : s.mem.classDrop = []) (a : Nat) {bs : List Byte} {i : Nat} (hi : i < bs.length) :
    Memory.byte (s.store a bs).mem.hbm (a + i) = bs.getD i 0 := by
  rw [State.store_hbm]
  unfold State.devWrite
  simp only [hd, List.isEmpty_nil, if_true]
  exact Memory.byte_write_in s.mem.hbm a i bs hi

theorem State.store_byte_out (s : State) (a : Nat) (bs : List Byte) {b : Nat} (hb : b < a ∨ a + bs.length ≤ b) :
    Memory.byte (s.store a bs).mem.hbm b = Memory.byte s.mem.hbm b := by
  rw [State.store_hbm]
  unfold State.devWrite
  dsimp only
  split
  · exact Memory.byte_write_out _ _ _ _ hb
  · exact Memory.byte_write_out _ _ _ _ (by rw [State.keepDropped_length]; exact hb)

/-! ## A plain line (R66, R124) -/

theorem length_leBytes (n v : Nat) : (leBytes n v).length = n := by
  induction n generalizing v with
  | zero => rfl
  | succ n ih => simp [leBytes, ih]

theorem convLine_fp32 (t : Word) (xs : List Word) : convLine .fp32 t none xs = ⟨xs.map fun x => (rnd (num x)).toNat, [], 0⟩ := rfl

theorem length_fp32_bytes (t : Word) (xs : List Word) : ((convLine .fp32 t none xs).bytes .fp32).length = 4 * xs.length := by
  rw [convLine_fp32, Line.bytes, packBits, length_leBytes, List.length_map]
  have hdiv : ceilDiv (32 * xs.length) 8 = (32 * xs.length + 7) / 8 := rfl
  rw [fmtBits, hdiv]
  omega

section

variable {s : State} {m : Model} {draft : Bool} {rec : List Byte} {l : OpLine} {xs : List Word}

/-- Steps 2 to 4 of a record with no scale, bias, activation or norm leave the line. -/
theorem State.steps2to4_plain (hact : rAct rec = 0) (hscale : rScale rec = 0) (hbias : rBias rec = false) (hnorm : rNormk rec = 0) (row : Nat) :
    s.steps2to4 m rec row xs = xs := by
  simp [State.steps2to4, State.activate, hact, hscale, hbias, hnorm]

/-- Steps 6 to 8 of a record that adds, steers, escalates and appends nothing store the line at OUT. -/
theorem State.steps6to8_plain (index : Nat) (hres : rResid rec = false) (hsteer : rSteer rec = false) (hkvw : rKvw rec = false)
    (hescw : rEscw rec = false) (hnact : lpwNact (rLpw rec) = 0) (hsround : lpwSround (rLpw rec) = false)
    (hout : fmtOf (lpwOut (rLpw rec)) = some .fp32) : s.steps6to8 m draft index rec 1 0 l xs =
      s.storeLine l.seq (rOut rec) ((convLine .fp32 (rTscale rec) none xs).bytes .fp32) := by
  have hscales : (convLine .fp32 (rTscale rec) none xs).scaleBytes = [] := rfl
  simp [State.steps6to8, convOut, lineAddr, hres, hsteer, hkvw, hescw, hnact, hsround, hout, hscales, State.storeLine]

/-- The state with a line's results kept for steps 6 to 8. -/
def State.keepLine (s : State) (draft : Bool) (index : Nat) (x : List Word) : State :=
  s.onRun draft index 0 fun k => { k with kept := k.kept ++ [(0, x)] }

theorem State.formLine_plain {k : OpRun} (hgone : s.gone l.seq = false) (hkind : rKind rec = 2) (hact : rAct rec = 0) (hscale : rScale rec = 0)
    (hbias : rBias rec = false) (hnorm : rNormk rec = 0) (hnact : lpwNact (rLpw rec) = 0) (hline : k.line 0 (opBlocks rec) (rN rec) = some xs)
    (hfault : s.rowFault m k.draft k rec 0 l = none) : s.formLine m k rec (0, l) = s.keepLine k.draft k.index xs := by
  have hstep : s.step1 m k.draft k rec 0 l false = xs := by simp [State.step1, hkind, hline]
  have hmask : s.maskStops m k.draft rec l = false := by simp [State.maskStops, hkind]
  have hslots : s.readSlots m k.draft rec l = s := by
    unfold State.readSlots
    split
    · exact if_neg (by simp [hkind])
    · rfl
  unfold State.formLine
  dsimp only
  rw [if_neg (by simp [hgone]), if_neg (by simp [hmask]), hfault]
  dsimp only
  rw [hstep, State.steps2to4_plain hact hscale hbias hnorm, hslots, if_pos (by simp [hnact])]
  rfl

end

section

variable {s : State} {m : Model} {index : Nat} {rec : List Byte} {l : OpLine} {xs : List Word} {k : OpRun}

/-- The output of an operation of one plain line: the line is stored, the run ends. -/
theorem State.ownOutput_plain (hk : s.runOf k.draft k.index 0 = some k) (hkept : k.kept = []) (hjumped : k.jumped = []) (hlines : k.lines = 1)
    (hown : s.ownLines k.draft = [l]) (hgone : s.gone l.seq = false)
    (hform : s.formLine m k rec (0, l) = s.keepLine k.draft k.index xs)
    (hsteps : ∀ u : State, u.steps6to8 m k.draft k.index rec 1 0 l xs =
      u.storeLine l.seq (rOut rec) ((convLine .fp32 (rTscale rec) none xs).bytes .fp32)) :
    s.ownOutput m k rec = ((s.keepLine k.draft k.index xs).storeLine l.seq (rOut rec) ((convLine .fp32 (rTscale rec) none xs).bytes .fp32)).onRun
      k.draft k.index 0 fun k => { k with kept := [], jumped := [], done := true } := by
  have hrows : s.liveRows k = [(0, l)] := by simp [State.liveRows, hlines, hown, hgone]
  have hrun : (s.keepLine k.draft k.index xs).runOf k.draft k.index 0 = some { k with kept := [(0, xs)] } := by
    rw [State.keepLine, State.runOf_onRun, hk, Option.map_some, hkept]
    · rfl
    · exact fun _ => rfl
  have hjumps : (s.keepLine k.draft k.index xs).liveJumps { k with kept := [(0, xs)] } = [] := by simp [State.liveJumps, hjumped]
  have hown' : (s.keepLine k.draft k.index xs).ownLines k.draft = [l] := hown
  have hgone' : (s.keepLine k.draft k.index xs).gone l.seq = false := hgone
  unfold State.ownOutput
  rw [hkept, hrows]
  simp only [List.isEmpty_nil, if_true, List.foldl_cons, List.foldl_nil, hform, hrun, hjumps]
  unfold State.finishRun
  rw [hrun]
  simp only [List.foldl_cons, List.foldl_nil, hown', List.getElem?_cons_zero, hgone', Bool.false_eq_true, if_false, hlines, hsteps]

theorem State.checkWrite_keepLine (draft : Bool) (i a n : Nat) : (s.keepLine draft i xs).checkWrite a n = s.checkWrite a n := rfl

theorem State.mem_keepLine (draft : Bool) (i : Nat) : (s.keepLine draft i xs).mem = s.mem := rfl

/-- The stored bytes of a line, where the package may write them. -/
theorem State.storeLine_bytes {q a : Nat} {bs : List Byte} (hw : s.checkWrite a bs.length = none) :
    (s.mem.classDrop = [] → ∀ i, i < bs.length → Memory.byte (s.storeLine q a bs).mem.hbm (a + i) = bs.getD i 0) ∧
      ∀ b, b < a ∨ a + bs.length ≤ b → Memory.byte (s.storeLine q a bs).mem.hbm b = Memory.byte s.mem.hbm b := by
  unfold State.storeLine
  split
  · rename_i hempty
    have hnil : bs = [] := List.isEmpty_iff.1 hempty
    exact ⟨fun _ i hi => by simp [hnil] at hi, fun _ _ => rfl⟩
  · rw [hw]
    exact ⟨fun hd i hi => State.store_byte_in hd a hi, fun b hb => State.store_byte_out s a bs hb⟩

end

theorem State.completeAll_of_nil {s : State} (h : s.comp.tiles = []) : s.completeAll = s := by
  rw [State.completeAll, h]
  rfl

theorem State.routedList_congr {s t : State} (h : t.model = s.model) : t.routedList = s.routedList := by
  rw [State.routedList, h]
  rfl

/-- Plain FP32 output of one line is stored at OUT and nowhere else. -/
theorem operationOutput_plain {s : State} {m : Model} (hm : s.model = some m) (hl : s.live = true) (hrun : s.steep.running = true)
    (h8 : s.steep.staged8 = false) (htiles : s.comp.tiles = []) (hroutes : s.routedList = []) {draft : Bool} {index : Nat} {k : OpRun}
    {l : OpLine} {xs : List Word} (hk : s.runOf draft index 0 = some k) (hdone : k.done = false) (hkept : k.kept = [])
    (hjumped : k.jumped = []) (hlines : k.lines = 1) (hown : s.ownLines draft = [l]) (hgone : s.gone l.seq = false)
    (hkind : rKind (s.record_ m draft index) = 2) (hact : rAct (s.record_ m draft index) = 0) (hscale : rScale (s.record_ m draft index) = 0)
    (hbias : rBias (s.record_ m draft index) = false) (hnorm : rNormk (s.record_ m draft index) = 0)
    (hres : rResid (s.record_ m draft index) = false) (hsteer : rSteer (s.record_ m draft index) = false)
    (hkvw : rKvw (s.record_ m draft index) = false) (hescw : rEscw (s.record_ m draft index) = false)
    (hnact : lpwNact (rLpw (s.record_ m draft index)) = 0) (hsround : lpwSround (rLpw (s.record_ m draft index)) = false)
    (hout : fmtOf (lpwOut (rLpw (s.record_ m draft index))) = some .fp32)
    (hline : k.line 0 (opBlocks (s.record_ m draft index)) (rN (s.record_ m draft index)) = some xs)
    (hfault : s.rowFault m draft k (s.record_ m draft index) 0 l = none)
    (hwrite : s.checkWrite (rOut (s.record_ m draft index)) (4 * xs.length) = none) :
    ∃ t : State, exec (.operationOutput draft index none) s = .next t ∧ t.steep.batch = s.steep.batch ∧
      (s.mem.classDrop = [] → ∀ i, i < 4 * xs.length → Memory.byte t.mem.hbm (rOut (s.record_ m draft index) + i) =
        ((convLine .fp32 (rTscale (s.record_ m draft index)) none xs).bytes .fp32).getD i 0) ∧
      ∀ b, b < rOut (s.record_ m draft index) ∨ rOut (s.record_ m draft index) + 4 * xs.length ≤ b →
        Memory.byte t.mem.hbm b = Memory.byte s.mem.hbm b := by
  obtain ⟨rfl, rfl, -⟩ := State.runOf_keys hk
  have hall := State.completeAll_of_nil htiles
  have hrows : s.liveRows k = [(0, l)] := by simp [State.liveRows, hlines, hown, hgone]
  have hexec := operationOutput_own hm hl hrun h8 (draft := k.draft) (index := k.index) (k := k) (by rw [hall]; exact hk) hdone
    (by rw [hall, hkind]; decide) (by rw [hall]; simp [State.resultsIn, hrows, hline])
  rw [hall, State.ownOutput_plain hk hkept hjumped hlines hown hgone
    (State.formLine_plain hgone hkind hact hscale hbias hnorm hnact hline hfault)
    (fun u => State.steps6to8_plain k.index hres hsteer hkvw hescw hnact hsround hout)] at hexec
  have hlen := length_fp32_bytes (rTscale (s.record_ m k.draft k.index)) xs
  have hstore := State.storeLine_kept (.refl (s.keepLine k.draft k.index xs)) l.seq (rOut (s.record_ m k.draft k.index))
    ((convLine .fp32 (rTscale (s.record_ m k.draft k.index)) none xs).bytes .fp32)
  obtain ⟨hin, hother⟩ := State.storeLine_bytes (s := s.keepLine k.draft k.index xs) (q := l.seq) (a := rOut (s.record_ m k.draft k.index))
    (bs := (convLine .fp32 (rTscale (s.record_ m k.draft k.index)) none xs).bytes .fp32) (by rw [hlen, State.checkWrite_keepLine]; exact hwrite)
  rw [hlen, State.mem_keepLine] at hin hother
  rw [State.settleRoutes_of_nil] at hexec
  · exact ⟨_, hexec, hstore.steep.batch, hin, hother⟩
  · exact (State.routedList_congr (hstore.model.trans rfl)).trans hroutes

/-- Settles O27, a row at a time: issue, output, escalation, drafting, verification, staging. -/
theorem steepProgramRuns : Obligations.SteepProgramRuns := by
  unfold Obligations.SteepProgramRuns
  intro s m hm hl
  refine ⟨?issue, ?output, ?plain, ?escalation, ?draft, ?verify, ?stage⟩
  case issue =>
    intro draft index expert
    refine ⟨fun h => operationIssue_waits hm h, fun h => ⟨operationIssue_issues hm h, fun hidle hsil f hbad => ?_⟩⟩
    obtain ⟨status, addr, detail, he⟩ := operationIssue_stops hm h f hbad
    exact ⟨_, he, State.stopProgram_fails hidle hsil draft index status addr detail⟩
  case output =>
    intro hrun h8 draft index expert u
    refine ⟨fun hnone => operationOutput_waits hm fun k hk => absurd (hnone.symm.trans hk) (by simp), fun k hk => ?_⟩
    obtain ⟨hdraft, hindex, hexpert⟩ := State.runOf_keys hk
    obtain ⟨c, is, x, hall⟩ := State.completeAll_frame s
    have hrest : u.rest = s.rest := by dsimp only [u]; rw [hall]; rfl
    have hbatch : u.steep.batch = s.steep.batch := by dsimp only [u]; rw [hall]
    refine ⟨fun hd => operationOutput_waits hm fun k' hk' => ?_, ?_, ?_⟩
    · obtain rfl := Option.some.inj (hk.symm.trans hk')
      exact hd
    · rintro rfl hkind hd hkept hjumped hin hesc
      subst hdraft hindex
      obtain ⟨hdone, hr, hb⟩ := State.ownOutput_done m hk hkept hjumped hesc
      have hr' := hr.trans hrest
      exact ⟨_, operationOutput_own hm hl hrun h8 hk hd hkind hin, hdone, hb.trans hbatch, congrArg (·.2.1) hr', congrArg (·.2.2.1) hr',
        congrArg (·.2.2.2.1) hr'⟩
    · rintro e rfl rfl hkind hd hin
      obtain ⟨hdone, hr, hb⟩ := State.expertOutput_done m (u.record_ m false index) (t := k) (s := u) (by rw [hindex, hexpert]; exact hk)
      have hr' := hr.trans hrest
      rw [hindex, hexpert] at hdone
      exact ⟨_, operationOutput_expert hm hl hrun h8 hk hd hkind hin, hdone, hb.trans hbatch, congrArg (·.2.1) hr', congrArg (·.2.2.1) hr',
        congrArg (·.2.2.2.1) hr'⟩
  case plain =>
    intro hrun h8 htiles hroutes draft index k l xs hk hdone hkept hjumped hlines hown hgone r hkind hact hscale hbias hnorm hres hsteer hkvw
      hescw hnact hsround hout hline hfault hwrite
    exact operationOutput_plain hm hl hrun h8 htiles hroutes hk hdone hkept hjumped hlines hown hgone hkind hact hscale hbias hnorm hres hsteer
      hkvw hescw hnact hsround hout hline hfault hwrite
  case escalation =>
    intro index
    refine ⟨fun hnone => normEscalation_waits hm fun k hk => absurd (hnone.symm.trans hk) (by simp), fun k hk => ⟨fun h => ?_, ?_⟩⟩
    · refine normEscalation_waits hm fun k' hk' => ?_
      obtain rfl := Option.some.inj (hk.symm.trans hk')
      exact h
    · intro hrun hj hd
      obtain ⟨t, he, hdone, hr, hb⟩ := normEscalation_ends hm hl hrun hk hj hd
      exact ⟨t, he, hdone, hb, congrArg (·.2.1) hr, congrArg (·.2.2.1) hr, congrArg (·.2.2.2.1) hr⟩
  case draft =>
    exact fun hrun h8 hstop hdraft htop => ⟨draftPass_waits hm, draftPass_counts hm hl hrun h8 hstop hdraft htop⟩
  case verify =>
    exact fun hrun h8 => ⟨verifyAndSample_waits hm, fun h => ⟨verifyAndSample_stages hm hl hrun h8 h,
      fun hroutes b ts hb hgone hfin hlen hst hf hv => verifyAndSample_one hm hl hrun h8 h hroutes hb hgone hfin hlen hst hf hv⟩⟩
  case stage =>
    exact fun hs hrun h8 => ⟨stageOutputs_waits, stageOutputs_signals hs hrun h8⟩

end Sys2Proof.Machine
end

section
/-! PROOF. Every command but the resets and the openings of the first stage leaves what `Keep` names; the timer counter
(spec 02 R48, spec 21 R522). -/

namespace Sys2Proof.Machine

/-- The commands outside `Keep`: the resets and the openings and closing of the first stage (R514 to R518, R524). -/
inductive Resets : Instr → Prop where
  | powerOnReset : Resets .powerOnReset
  | pkgResetN : Resets .pkgResetN
  | vaonLoss : Resets .vaonLoss
  | startGateMet (vinOk : Bool) : Resets (.startGateMet vinOk)
  | emergencyOffN (chatter : Bool) : Resets (.emergencyOffN chatter)
  | thermalTrip (unit die pos : Nat) : Resets (.thermalTrip unit die pos)
  | firstStageOpen (cause : OpenCause) : Resets (.firstStageOpen cause)

/-- A command resets, or answers a next state that leaves what `Keep` names. The raising of the rails pays the records that
VAON owes even to a silent log, so it is compared to a state whose log is not silent. -/
theorem exec_keep {r s : State} (h : Keep r s) (c : Instr) (hr : ∀ f, c = .pkgPgHigh f → r.err.silent = false) :
    Resets c ∨ KeepE r (exec c s) := by
  cases c with
  | release => exact .inr (execRelease_keep h _)
  | openingRelease => exact .inr (execOpeningRelease_keep h _)
  | adoptionRecord => exact .inr (execAdoptionRecord_keep h)
  | draftPass => exact .inr (execDraftPass_keep h)
  | operationIssue => exact .inr (execOperationIssue_keep h _ _ _ _)
  | operationOutput => exact .inr (execOperationOutput_keep h _ _ _)
  | normEscalation => exact .inr (execNormEscalation_keep h _)
  | verifyAndSample => exact .inr (execVerifyAndSample_keep h)
  | stageOutputs => exact .inr (execStageOutputs_keep h)
  | routingAdmission => exact .inr (execRoutingAdmission_keep h _)
  | dispatch => exact .inr (execDispatch_keep h _)
  | dispEnd => exact .inr (execDispEnd_keep h _)
  | pourSend => exact .inr (execPourSend_keep h _ _ _)
  | pour => exact .inr (execPour_keep h _)
  | pourEnd => exact .inr (execPourEnd_keep h _)
  | homeTableCheck => exact .inr (execHomeTableCheck_keep h _)
  | feederWorkItem => exact .inr (execFeederWorkItem_keep h _ _ _ _)
  | leafRefetch => exact .inr (execLeafRefetch_keep h _ _ _)
  | granuleRefetch => exact .inr (execGranuleRefetch_keep h _ _ _)
  | cosyRampDown => exact .inr (execCosyRampDown_keep h _ _ _)
  | cosyRampUp => exact .inr (execCosyRampUp_keep h _)
  | beatStall => exact .inr (execBeatStall_keep h _)
  | delayLineCalibration => exact .inr (execDelayLineCalibration_keep h _)
  | engineFailover => exact .inr (execEngineFailover_keep h _)
  | seqTableRebuild => exact .inr (execSeqTableRebuild_keep h)
  | granuleMiss => exact .inr (execGranuleMiss_keep h _ _)
  | granuleFillComplete => exact .inr (execGranuleFillComplete_keep h _ _ _)
  | swapPrefill => exact .inr (execSwapPrefill_keep h _ _)
  | patrolScrub => exact .inr (execPatrolScrub_keep h _ _)
  | clearingScrub => exact .inr (execClearingScrub_keep h)
  | localAtomic => exact .inr (execLocalAtomic_keep h _ _ _ _ _)
  | channelLoss => exact .inr (execChannelLoss_keep h _)
  | caddyOpen => exact .inr (execCaddyOpen_keep h)
  | buildChunk => exact .inr (execBuildChunk_keep h _ _)
  | swapArmReceive => exact .inr (execSwapArmReceive_keep h _ _)
  | swapArmReply => exact .inr (execSwapArmReply_keep h _ _)
  | swapArmTimeout => exact .inr (execSwapArmTimeout_keep h _)
  | quickQuiesce => exact .inr (execQuickQuiesce_keep h)
  | sqTail => exact .inr (execSqTail_keep h _ _)
  | cqHead => exact .inr (execCqHead_keep h _ _ _)
  | descriptorRead => exact .inr (execDescriptorRead_keep h _ _)
  | nop => exact .inr (execNop_keep h _)
  | modelLoad => exact .inr (execModelLoad_keep h _)
  | modelUnload => exact .inr (execModelUnload_keep h _)
  | swapArm => exact .inr (execSwapArm_keep h _)
  | swapDisarm => exact .inr (execSwapDisarm_keep h _)
  | tenantSet => exact .inr (execTenantSet_keep h _)
  | tenantRemove => exact .inr (execTenantRemove_keep h _)
  | tenantQuery => exact .inr (execTenantQuery_keep h _)
  | steerSet => exact .inr (execSteerSet_keep h _)
  | seqOpen => exact .inr (execSeqOpen_keep h _)
  | seqPrompt => exact .inr (execSeqPrompt_keep h _)
  | seqSet => exact .inr (execSeqSet_keep h _)
  | seqClose => exact .inr (execSeqClose_keep h _)
  | seqCancel => exact .inr (execSeqCancel_keep h _)
  | seqQuery => exact .inr (execSeqQuery_keep h _)
  | objectSet => exact .inr (execObjectSet_keep h _)
  | bulkCopy => exact .inr (execBulkCopy_keep h _)
  | bulkConvert => exact .inr (execBulkConvert_keep h _)
  | bulkCompress => exact .inr (execBulkCompress_keep h _)
  | weightInstall => exact .inr (execWeightInstall_keep h _)
  | swapBuild => exact .inr (execSwapBuild_keep h _)
  | caddyScrub => exact .inr (execCaddyScrub_keep h _)
  | opSuspend => exact .inr (execOpSuspend_keep h _)
  | opResume => exact .inr (execOpResume_keep h _)
  | opCancel => exact .inr (execOpCancel_keep h _)
  | opQuery => exact .inr (execOpQuery_keep h _)
  | longOpSafePoint => exact .inr (execLongOpSafePoint_keep h _ _ _)
  | longOpComplete => exact .inr (execLongOpComplete_keep h _ _)
  | syncAdd => exact .inr (execSyncAdd_keep h _)
  | syncWait => exact .inr (execSyncWait_keep h _)
  | syncTimeout => exact .inr (execSyncTimeout_keep h _)
  | msgSend => exact .inr (execMsgSend_keep h _)
  | moderationTimeout => exact .inr (execModerationTimeout_keep h _)
  | ringEnable => exact .inr (execRingEnable_keep h _ _)
  | ringDisable => exact .inr (execRingDisable_keep h _ _)
  | ringDrainComplete => exact .inr (execRingDrainComplete_keep h _)
  | overflowClear => exact .inr (execOverflowClear_keep h _ _)
  | registerWrite => exact .inr (execRegisterWrite_keep h _ _ _)
  | lowWordRead => exact .inr (execLowWordRead_keep h _ _)
  | memSliceWrite => exact .inr (execMemSliceWrite_keep h _ _)
  | memClassChCommit => exact .inr (execMemClassChCommit_keep h _ _)
  | exportStore => exact .inr (execExportStore_keep h _)
  | exportLoad => exact .inr (execExportLoad_keep h _)
  | trustedEnWrite => exact .inr (execTrustedEnWrite_keep h _)
  | pwrCapWrite => exact .inr (execPwrCapWrite_keep h _)
  | dbgInject => exact .inr (execDbgInject_keep h _)
  | errLogSel => exact .inr (execErrLogSel_keep h _)
  | errRingHead => exact .inr (execErrRingHead_keep h _)
  | hifBootGo => exact .inr (execHifBootGo_keep h _)
  | linkEnable => exact .inr (execLinkEnable_keep h _ _)
  | linkDisable => exact .inr (execLinkDisable_keep h _ _)
  | linkTrainingComplete => exact .inr (execLinkTrainingComplete_keep h _ _)
  | flitReceive => exact .inr (execFlitReceive_keep h _ _)
  | controlFlit => exact .inr (execControlFlit_keep h _ _ _ _)
  | linkAckTimeout => exact .inr (execLinkAckTimeout_keep h _)
  | creditReturn => exact .inr (execCreditReturn_keep h _)
  | linkDown => exact .inr (execLinkDown_keep h _ _)
  | linkRetrainExhausted => exact .inr (execLinkRetrainExhausted_keep h _)
  | helloSend => exact .inr (execHelloSend_keep h)
  | hello => exact .inr (execHello_keep h _ _)
  | claimSend => exact .inr (execClaimSend_keep h)
  | claim => exact .inr (execClaim_keep h _ _)
  | electionTimeout => exact .inr (execElectionTimeout_keep h)
  | query => exact .inr (execQuery_keep h _ _)
  | reply => exact .inr (execReply_keep h _ _)
  | queryTimeout => exact .inr (execQueryTimeout_keep h)
  | assign => exact .inr (execAssign_keep h _ _)
  | assignAck => exact .inr (execAssignAck_keep h _ _)
  | linkReport => exact .inr (execLinkReport_keep h _ _ _)
  | join => exact .inr (execJoin_keep h _ _ _ _)
  | memberMask => exact .inr (execMemberMask_keep h _ _ _)
  | loadIssue => exact .inr (execLoadIssue_keep h _ _ _ _ _ _ _)
  | storeIssue => exact .inr (execStoreIssue_keep h _ _ _ _ _ _)
  | atomicIssue => exact .inr (execAtomicIssue_keep h _ _ _ _ _ _ _ _ _)
  | invalidateIssue => exact .inr (execInvalidateIssue_keep h _ _ _ _ _ _)
  | invalidateWaitTimeout => exact .inr (execInvalidateWaitTimeout_keep h _)
  | ownXferIssue => exact .inr (execOwnXferIssue_keep h _ _ _ _ _ _)
  | fence => exact .inr (execFence_keep h _ _ _)
  | fenceTimeout => exact .inr (execFenceTimeout_keep h _)
  | load => exact .inr (execLoad_keep h _)
  | store => exact .inr (execStore_keep h _)
  | atomic => exact .inr (execAtomic_keep h _)
  | invalidate => exact .inr (execInvalidate_keep h _)
  | ownXfer => exact .inr (execOwnXfer_keep h _)
  | fabricResponse => exact .inr (execFabricResponse_keep h _)
  | fabricRetry => exact .inr (execFabricRetry_keep h _)
  | replayEntryExpiry => exact .inr (execReplayEntryExpiry_keep h _ _ _)
  | message => exact .inr (execMessage_keep h _)
  | messageAck => exact .inr (execMessageAck_keep h _)
  | messageRetry => exact .inr (execMessageRetry_keep h _)
  | enterTest => exact .inr (execEnterTest_keep h _)
  | enterService => exact .inr (execEnterService_keep h _)
  | returnToBringup => exact .inr (execReturnToBringup_keep h)
  | adoptHomeTable => exact .inr (execAdoptHomeTable_keep h _)
  | steepClose => exact .inr (execSteepClose_keep h _)
  | releasePost => exact .inr (execReleasePost_keep h)
  | replicationRecord => exact .inr (execReplicationRecord_keep h)
  | standbyTakeover => exact .inr (execStandbyTakeover_keep h)
  | barrierArrivalTimeout => exact .inr (execBarrierArrivalTimeout_keep h _)
  | leaveNotice => exact .inr (execLeaveNotice_keep h)
  | mgmtWatchdogExpiry => exact .inr (execMgmtWatchdogExpiry_keep h)
  | tclkLost => exact .inr (execTclkLost_keep h)
  | tclkRestore => exact .inr (execTclkRestore_keep h)
  | kettleWindowEnd => exact .inr (execKettleWindowEnd_keep h _)
  | vcoreStep => exact .inr (execVcoreStep_keep h)
  | thermalLimitUpdate => exact .inr (execThermalLimitUpdate_keep h _)
  | droopTrip => exact .inr (execDroopTrip_keep h _ _)
  | droopRelease => exact .inr (execDroopRelease_keep h _ _)
  | pwrBrakeAssert => exact .inr (execPwrBrakeAssert_keep h _)
  | pwrBrakeRelease => exact .inr (execPwrBrakeRelease_keep h)
  | brakeHeld => exact .inr (execBrakeHeld_keep h)
  | thermalTrip => exact .inl (.thermalTrip _ _ _)
  | firstStageOpen => exact .inl (.firstStageOpen _)
  | fuseCheck => exact .inr (execFuseCheck_keep h _)
  | secAlarm => exact .inr (execSecAlarm_keep h _ _)
  | ideIntegrityFailure => exact .inr (execIdeIntegrityFailure_keep h)
  | getVersion => exact .inr (execGetVersion_keep h _)
  | getCapabilities => exact .inr (execGetCapabilities_keep h _)
  | negotiateAlgorithms => exact .inr (execNegotiateAlgorithms_keep h _ _)
  | getDigests => exact .inr (execGetDigests_keep h _)
  | getCertificate => exact .inr (execGetCertificate_keep h _ _ _ _)
  | challenge => exact .inr (execChallenge_keep h _ _)
  | getMeasurements => exact .inr (execGetMeasurements_keep h _ _ _)
  | keyExchange => exact .inr (execKeyExchange_keep h _)
  | finish => exact .inr (execFinish_keep h _)
  | keyUpdate => exact .inr (execKeyUpdate_keep h _)
  | heartbeat => exact .inr (execHeartbeat_keep h _)
  | endSession => exact .inr (execEndSession_keep h _)
  | chunkSend => exact .inr (execChunkSend_keep h _ _ _ _ _)
  | chunkGet => exact .inr (execChunkGet_keep h _ _ _)
  | vendorDefinedRequest => exact .inr (execVendorDefinedRequest_keep h _ _ _)
  | spdmUnsupportedRequest => exact .inr (execSpdmUnsupportedRequest_keep h _ _)
  | powerOnReset => exact .inl .powerOnReset
  | pkgResetN => exact .inl .pkgResetN
  | packageResetRelease => exact .inr (execPackageResetRelease_keep h _)
  | perstN chatter => exact .inr (execPerstN_keep h chatter)
  | perstNDeassert => exact .inr (execPerstNDeassert_keep h)
  | emergencyOffN => exact .inl (.emergencyOffN _)
  | traySenseN => exact .inr (execTraySenseN_keep h _)
  | traySenseDeassert => exact .inr (execTraySenseDeassert_keep h)
  | rackPgChange => exact .inr (execRackPgChange_keep h _ _)
  | startGateMet => exact .inl (.startGateMet _)
  | pkgPgHigh f => exact .inr (execPkgPgHigh_keep h (hr f rfl) f)
  | bootImageVerify => exact .inr (execBootImageVerify_keep h _)
  | coreTileTest => exact .inr (execCoreTileTest_keep h _ _)
  | hbmTrainTest => exact .inr (execHbmTrainTest_keep h _)
  | setdasa => exact .inr (execSetdasa_keep h _)
  | setaasa => exact .inr (execSetaasa_keep h)
  | setEndpointId => exact .inr (execSetEndpointId_keep h _)
  | getEndpointId => exact .inr (execGetEndpointId_keep h)
  | getMctpVersionSupport => exact .inr (execGetMctpVersionSupport_keep h)
  | getMessageTypeSupport => exact .inr (execGetMessageTypeSupport_keep h)
  | getVendorDefinedMessageSupport => exact .inr (execGetVendorDefinedMessageSupport_keep h)
  | read => exact .inr (execRead_keep h _ _ _)
  | rackCap => exact .inr (execRackCap_keep h _ _)
  | factoryTest => exact .inr (execFactoryTest_keep h _)
  | bypass => exact .inr (execBypass_keep h)
  | idcode => exact .inr (execIdcode_keep h)
  | samplePreload => exact .inr (execSamplePreload_keep h _ _)
  | extest => exact .inr (execExtest_keep h _)
  | trstN => exact .inr (execTrstN_keep h)
  | managementProcessorResetEnd => exact .inr (execManagementProcessorResetEnd_keep h)
  | vaonLoss => exact .inl .vaonLoss
  | emergencyOffDeassert => exact .inr (execEmergencyOffDeassert_keep h)
  | alarmInputDeassert => exact .inr (execAlarmInputDeassert_keep h _)
  | doeDiscovery => exact .inr (execDoeDiscovery_keep h _)

/-- What a command does to the timer counter (R48, R518, R522, R524). -/
theorem exec_count (c : Instr) (s : State) : ∃ t, exec c s = .next t ∧ (t.time.count = s.time.count ∨
    (t.time.count = 0 ∧ (c = .powerOnReset ∨ c = .pkgResetN ∨ c = .vaonLoss ∨ ((∃ v, c = .startGateMet v) ∧ s.start.vinOpen = true)))) := by
  obtain hc | ⟨t, ht, hk⟩ := exec_keep (Keep.loud s) c fun _ _ => rfl
  · cases hc with
    | powerOnReset =>
      obtain ⟨t, ht, -, hn⟩ := execPowerOnReset_left s
      exact ⟨t, ht, hn.imp_right fun h0 => ⟨h0, .inl rfl⟩⟩
    | pkgResetN =>
      obtain ⟨t, ht, -, hn⟩ := execPkgResetN_left s
      exact ⟨t, ht, hn.imp_right fun h0 => ⟨h0, .inr (.inl rfl)⟩⟩
    | vaonLoss =>
      obtain ⟨t, ht, -, hn⟩ := execVaonLoss_left s
      exact ⟨t, ht, hn.imp_right fun h0 => ⟨h0, .inr (.inr (.inl rfl))⟩⟩
    | startGateMet v =>
      obtain ⟨t, ht, -, hn⟩ := execStartGateMet_left v s
      exact ⟨t, ht, hn.imp_right fun ⟨h0, hv⟩ => ⟨h0, .inr (.inr (.inr ⟨⟨v, rfl⟩, hv⟩))⟩⟩
    | emergencyOffN chatter =>
      obtain ⟨t, ht, -, hn⟩ := execEmergencyOffN_left chatter s
      exact ⟨t, ht, .inl hn⟩
    | thermalTrip unit die pos =>
      obtain ⟨t, ht, -, hn⟩ := execThermalTrip_left unit die pos s
      exact ⟨t, ht, .inl hn⟩
    | firstStageOpen cause =>
      obtain ⟨t, ht, -, hn⟩ := execFirstStageOpen_left cause s
      exact ⟨t, ht, .inl hn⟩
  · exact ⟨t, ht, .inl hk.count⟩

/-- A package reset, out of reset with VAON present, leaves the counter at 0 (R48, R518). -/
theorem pkgResetN_count {s : State} (hv : s.start.vaon = true) (hr : s.start.inReset = false) :
    ∃ t, exec .pkgResetN s = .next t ∧ t.time.count = 0 := by
  refine ⟨_, show execPkgResetN s = _ from act_of_true (by simp [hv, hr]) s _, ?_⟩
  dsimp only
  split <;> rfl

/-- With no command waiting, a step is one period of TCLK (R48). -/
theorem step_of_nil {s : State} (h : s.pending = []) : step s = .next s.tick := by
  simp [step, h]

theorem step_of_cons {s : State} {c : Instr} {cs : List Instr} (h : s.pending = c :: cs) :
    step s = exec c { s with pending := cs } := by
  simp [step, h]

theorem State.tick_of_vaon {s : State} (hv : s.start.vaon = true) :
    s.tick = { s with time := { s.time with count := s.time.count + 1 } } := by
  simp [State.tick, hv]

theorem State.tick_of_no_vaon {s : State} (hv : s.start.vaon = false) : s.tick = s := by
  simp [State.tick, hv]

/-- Settles O6: the commands by `Keep`, the resets one at a time, an idle period by its equation. -/
theorem commandsLeaveTheTimer : Obligations.CommandsLeaveTheTimer := by
  unfold Obligations.CommandsLeaveTheTimer
  refine ⟨fun c s t he => ?command, fun s hv hr => pkgResetN_count hv hr, fun s hp hv => ?idle⟩
  case command =>
    obtain ⟨u, hu, hcount⟩ := exec_count c s
    obtain rfl : u = t := by simpa using hu.symm.trans he
    exact hcount
  case idle =>
    exact ⟨_, step_of_nil hp, by rw [State.tick_of_vaon hv]⟩

/-- Settles O1: a step on a queue with a command, and on an empty queue with and without VAON. -/
theorem stepRunsTheFrontCommand : Obligations.StepRunsTheFrontCommand := by
  unfold Obligations.StepRunsTheFrontCommand
  refine ⟨fun s c cs => step_of_cons, fun s hp hv => ?tick, fun s hp hv => ?still⟩
  case tick => rw [step_of_nil hp, State.tick_of_vaon hv]
  case still => rw [step_of_nil hp, State.tick_of_no_vaon hv]

end Sys2Proof.Machine
end

section
/-! PROOF. Reads of BAR0: the latch of a wide register, and the timer in two halves (spec 02 R49, spec 13 R317, spec 14 R344). -/

namespace Sys2Proof.Machine

theorem exec_lowWordRead {s : State} (hu : s.hostUp = true) (off size : Nat) :
    exec (.lowWordRead off size) s = .next (if badAccess off size then s.barAccess.emit (.readData 0)
      else (s.barRead off size).2.emit (.readData (s.barRead off size).1)) :=
  show execLowWordRead off size s = _ from act_of_true hu s _

/-- HIF_TIMER is one register of two words (R349). -/
theorem State.regAt_timer (s : State) {off : Nat} (h : off = 0x18 ∨ off = 0x1C) : s.regAt off = ⟨0x18, 2, s.now.toNat⟩ := by
  obtain rfl | rfl := h <;> rfl

/-- A read of the low word latches the high one (R49). -/
theorem State.latchAbove_timer (s : State) :
    s.latchAbove ⟨0x18, 2, s.now.toNat⟩ 0 =
      { s with hif := { s.hif with latch := s.hif.latch.set 0x1C (BitVec.ofNat 32 (s.now.toNat / 2 ^ 32)) } } := rfl

theorem State.barRead_timerLo (s : State) : s.barRead 0x18 4 =
    (BitVec.ofNat 64 (s.now.toNat % 2 ^ 32),
      { s with hif := { s.hif with latch := s.hif.latch.set 0x1C (BitVec.ofNat 32 (s.now.toNat / 2 ^ 32)) } }) := by
  simp [State.barRead, State.readWord, State.regAt_timer, Reg.word, State.latchAbove_timer]

theorem State.barRead_timerHi (s : State) : s.barRead 0x1C 4 =
    (BitVec.ofNat 64 ((s.hif.latch.find? 0x1C).getD 0).toNat, s) := by
  have hl : s.latched 0x1C = (s.hif.latch.find? 0x1C).getD 0 := by
    unfold State.latched
    cases s.hif.latch.find? 0x1C <;> rfl
  simp [State.barRead, State.readWord, State.regAt_timer, hl]

/-- Settles O15: each half by the equation of its read, an ignored access by its record. -/
theorem timerReadsLatch : Obligations.TimerReadsLatch := by
  unfold Obligations.TimerReadsLatch
  refine fun s hu => ⟨?low, ?high, fun off size hbad => ?ignored⟩
  case low =>
    have hex : exec (.lowWordRead 0x18 4) s = _ := exec_lowWordRead hu 0x18 4
    refine ⟨_, hex, ?_⟩
    have hgood : badAccess 0x18 4 = false := rfl
    simp only [hgood, Bool.false_eq_true, if_false, State.barRead_timerLo]
    refine ⟨rfl, rfl, rfl, fun u huu hhif => ?_⟩
    have hlatch : u.hif.latch.find? 0x1C = some (BitVec.ofNat 32 (s.now.toNat / 2 ^ 32)) := by
      rw [hhif]; exact Tab.find?_set_self ..
    have hlt : s.now.toNat / 2 ^ 32 < 2 ^ 32 := Nat.div_lt_of_lt_mul s.now.isLt
    rw [exec_lowWordRead huu, State.barRead_timerHi, hlatch, Option.getD_some, BitVec.toNat_ofNat, Nat.mod_eq_of_lt hlt]
    rfl
  case high =>
    rw [exec_lowWordRead hu, State.barRead_timerHi]
    rfl
  case ignored =>
    obtain ⟨e, o, hn⟩ := State.note_frame s { status := 0x0204, cls := 0, unit := 9, pos := 1 }
    refine ⟨_, exec_lowWordRead hu off size, ?_⟩
    rw [if_pos ((badAccess_iff off size).2 hbad)]
    have hr : s.barAccess = { s with err := e, out := o } := hn
    rw [hr]
    exact ⟨by simp, rfl, rfl⟩

end Sys2Proof.Machine
end

section
/-! PROOF. What the set-up registers read after the power-on reset: each unit's rows from its own block of the state (spec 02 R49,
spec 13 R317, spec 14 R349 to R364). -/

namespace Sys2Proof.Machine

/-! ## Rows of a unit at its start value -/

section Rows

variable {s : State}

/-- Every register of a list reads the value beside it. -/
def State.ReadsRows (s : State) (rows : List (Nat × Word)) : Prop := ∀ r ∈ rows, (s.regAt r.1).word 0 = r.2

theorem State.ReadsRows.append {a b : List (Nat × Word)} (ha : s.ReadsRows a) (hb : s.ReadsRows b) : s.ReadsRows (a ++ b) :=
  fun r hr => (List.mem_append.1 hr).elim (ha r) (hb r)

/-- Identification, timer and refusals (R349). -/
theorem State.hifRows (hv : s.part.variant = 1) (ht : s.time = {}) (hh : s.hif = {}) :
    s.ReadsRows [(0x0, 0x1F4C0A48), (0x4, 0x00301021), (0x18, 0), (0x1C, 0), (0x20, 0), (0x24, 0), (0x28, 0), (0x30, 0)] := by
  simp [State.ReadsRows, State.regAt, State.hifReg, Reg.word, r32, State.now, Part.links, Part.stacks, Part.ioDies, hv, ht, hh]
  decide

/-- A ring pair (R350). -/
theorem State.ringRows (h : s.rings = []) : s.ReadsRows [(0x10000, 0), (0x8FFC8, 0)] := by
  simp [State.ReadsRows, State.regAt, State.ringReg, Reg.word, r32, rWide, State.ring, Tab.get, Tab.find?, h]
  decide

/-- Serving limits, KV pools and the receive area (R352, R353). -/
theorem State.serveRows (hs : s.serve = {}) (he : s.eng = {}) (hr : s.rte = {}) :
    s.ReadsRows [(0x100000, 32768), (0x100004, 2048), (0x100014, 4), (0x100018, 0), (0x101008, 0), (0x110000, 0)] := by
  simp [State.ReadsRows, State.regAt, State.serveReg, State.kvReg, State.rteReg, State.pool, Reg.word, r32, rWide, Tab.get, Tab.find?,
    hs, he, hr]

/-- Memory layout and ways (R354, R355). -/
theorem State.memRows (h : s.mem = {}) :
    s.ReadsRows [(0x120000, 256), (0x120004, 4), (0x120008, 8), (0x12000C, 256), (0x120010, 0), (0x120020, 24), (0x120028, 0x80),
      (0x120040, 0xFFFFFFFF), (0x120280, 0), (0x120400, 0)] := by
  simp [State.ReadsRows, State.regAt, State.memReg, Reg.word, r32, rWide, Tab.get, Tab.find?, h, -Nat.reducePow]
  decide

/-- The caddy's rates (R356). -/
theorem State.cadRows (hb : s.caddy.buildRate = 4) (hs : s.caddy.scrubRate = 2) : s.ReadsRows [(0x13000C, 4), (0x130010, 2)] := by
  simp [State.ReadsRows, State.regAt, State.cadReg, Reg.word, r32, hb, hs]

/-- The domain's words (R357). -/
theorem State.fabRows {n : Nat} (h : s.dom = { mgrPrio := n }) :
    s.ReadsRows [(0x140004, 0), (0x140008, 0), (0x140020, 0), (0x140040, 0)] := by
  have hnodes : nodesOf 0#256 = [] := by decide +kernel
  simp [State.ReadsRows, State.regAt, State.fabReg, Reg.word, r32, b2n, h, hnodes]

/-- The caps (R360). -/
theorem State.pwrRows (hc : s.pwr.cap = 4000) (hr : s.pwr.rackCap = 0xFFFF) (hi : s.pwr.input = 0) :
    s.ReadsRows [(0x170000, 4000), (0x170004, 0xFFFF), (0x170010, 0)] := by
  simp [State.ReadsRows, State.regAt, State.pwrReg, Reg.word, r32, hc, hr, hi]
  decide

/-- The log's counts and the debug word (R363, R364). -/
theorem State.errRows (he : s.err = {}) (hj : s.start.jtagEn = false) :
    s.ReadsRows [(0x190000, 0), (0x190008, 0), (0x190014, 0), (0x190018, 0), (0x19001C, 0), (0x1A0000, 0)] := by
  simp [State.ReadsRows, State.regAt, State.errReg, State.dbgReg, Reg.word, r32, b2n, he, hj, -Nat.reducePow]
  decide

end Rows

/-! ## The power-on reset -/

/-- Every block that those rows read from at its start value, in a package of variant 1. -/
structure State.Blank (s : State) : Prop where
  variant : s.part.variant = 1
  time : s.time = {}
  hif : s.hif = {}
  rings : s.rings = []
  serve : s.serve = {}
  eng : s.eng = {}
  rte : s.rte = {}
  mem : s.mem = {}
  buildRate : s.caddy.buildRate = 4
  scrubRate : s.caddy.scrubRate = 2
  dom : s.dom = { mgrPrio := s.dom.mgrPrio }
  cap : s.pwr.cap = 4000
  rackCap : s.pwr.rackCap = 0xFFFF
  input : s.pwr.input = 0
  err : s.err = {}
  jtagEn : s.start.jtagEn = false

/-- The rows of every unit. -/
def resetRows : List (Nat × Word) :=
  [(0x0, 0x1F4C0A48), (0x4, 0x00301021), (0x18, 0), (0x1C, 0), (0x20, 0), (0x24, 0), (0x28, 0), (0x30, 0), (0x10000, 0), (0x8FFC8, 0),
   (0x100000, 32768), (0x100004, 2048), (0x100014, 4), (0x100018, 0), (0x101008, 0), (0x110000, 0), (0x120000, 256), (0x120004, 4),
   (0x120008, 8), (0x12000C, 256), (0x120010, 0), (0x120020, 24), (0x120028, 0x80), (0x120040, 0xFFFFFFFF), (0x120280, 0), (0x120400, 0),
   (0x13000C, 4), (0x130010, 2), (0x140004, 0), (0x140008, 0), (0x140020, 0), (0x140040, 0), (0x170000, 4000), (0x170004, 0xFFFF),
   (0x170010, 0), (0x190000, 0), (0x190008, 0), (0x190014, 0), (0x190018, 0), (0x19001C, 0), (0x1A0000, 0)]

theorem State.Blank.readsRows {s : State} (h : s.Blank) : s.ReadsRows resetRows :=
  (State.hifRows h.variant h.time h.hif).append <| (State.ringRows h.rings).append <|
  (State.serveRows h.serve h.eng h.rte).append <| (State.memRows h.mem).append <| (State.cadRows h.buildRate h.scrubRate).append <|
  (State.fabRows h.dom).append <| (State.pwrRows h.cap h.rackCap h.input).append (State.errRows h.err h.jtagEn)

theorem State.blank_reset : State.reset.Blank := by
  constructor <;> rfl

theorem exec_powerOnReset {s : State} (hv : s.start.vaon = false) :
    exec .powerOnReset s = .next (s.resetAll.dropLog.setStart { s.start.kept with vaon := true, inReset := true }) :=
  show execPowerOnReset s = _ from act_of_true (by simp [hv]) s _

/-- The power-on reset leaves a package of variant 1 blank (R518). -/
theorem State.blank_powerOnReset {s : State} (hv : s.part.variant = 1) {t : Start} (ht : t.jtagEn = false) :
    (s.resetAll.dropLog.setStart t).Blank where
  variant := hv
  time := rfl
  hif := rfl
  rings := rfl
  serve := rfl
  eng := rfl
  rte := rfl
  mem := show ({ copy1 := s.part.stacks / 2 } : Mem) = {} by simp [Part.stacks, hv]
  buildRate := rfl
  scrubRate := rfl
  dom := rfl
  cap := show s.part.maxWatts = 4000 by simp [Part.maxWatts, hv]
  rackCap := rfl
  input := rfl
  err := rfl
  jtagEn := ht

/-- Settles O2: the reset state and the state after the power-on reset are blank. -/
theorem resetRegistersReadTheirValues : Obligations.ResetRegistersReadTheirValues := by
  unfold Obligations.ResetRegistersReadTheirValues
  exact ⟨State.blank_reset.readsRows, rfl, rfl, fun s hv h1 =>
    ⟨_, exec_powerOnReset hv, (State.blank_powerOnReset h1 rfl).readsRows⟩⟩

end Sys2Proof.Machine
end

section
/-! PROOF. A package reset and the power-on reset return everything but the VAON domain to its start state; their end samples the
straps (spec 21 R514, R517, R518, R520, R524). -/

namespace Sys2Proof.Machine

theorem exec_pkgResetN {s : State} (hv : s.start.vaon = true) (hr : s.start.inReset = false) :
    ∃ o, exec .pkgResetN s = .next { s.resetAll with
      start := { s.resetAll.start with inReset := true, faultHeld := false, eoffLatch := s.start.eoffPin }, out := o } := by
  have he : exec .pkgResetN s = _ := show execPkgResetN s = _ from act_of_true (by simp [hv, hr]) s _
  rw [he]
  by_cases hp : s.start.pkgPg = true
  · exact ⟨_, by simp only [hp, if_true]; rfl⟩
  · exact ⟨s.out, by simp only [hp]; rfl⟩

theorem exec_packageResetRelease {s : State} (hv : s.start.vaon = true) (hr : s.start.inReset = true) (straps : Straps) :
    exec (.packageResetRelease straps) s = .next (State.realarm { s with
      start := { s.start with inReset := false, straps := straps }, dom := { s.dom with mgrPrio := straps.mgrPrio } }) :=
  show execPackageResetRelease straps s = _ from act_of_true (by simp [hv, hr]) s _

/-- The alarm's action leaves the pins, the straps and the domain (R495 to R498). -/
theorem State.lockNow_start_dom (s : State) (cls : Nat) : (s.lockNow cls).start = s.start ∧ (s.lockNow cls).dom = s.dom := by
  obtain ⟨x, o, hn⟩ := State.note_frame s.dropBuild.stopLinks (s.dropBuild.stopLinks.alarmRecord cls)
  unfold State.lockNow
  dsimp only
  rw [hn]
  unfold State.dropBuild
  split <;> exact ⟨rfl, rfl⟩

theorem State.zeroise_clearSram_start_dom (s : State) : s.zeroise.clearSram.start = s.start ∧ s.zeroise.clearSram.dom = s.dom :=
  ⟨rfl, rfl⟩

theorem State.alarm_start_dom (s : State) (src : AlarmSource) : (s.alarm src).start = s.start ∧ (s.alarm src).dom = s.dom := by
  unfold State.alarm
  generalize hu : s.setSec _ = u
  obtain ⟨hs, hd⟩ : u.start = s.start ∧ u.dom = s.dom := by subst hu; exact ⟨rfl, rfl⟩
  rw [← hs, ← hd]
  dsimp only
  split
  · exact ⟨rfl, rfl⟩
  · split
    · split <;> exact ⟨rfl, rfl⟩
    · split
      · obtain ⟨x, o, hn⟩ := State.note_frame u (u.alarmRecord 0)
        rw [hn]
        exact ⟨rfl, rfl⟩
      · split
        · exact State.lockNow_start_dom u 3
        · obtain ⟨hz, hy⟩ := State.zeroise_clearSram_start_dom u
          obtain ⟨hl, hk⟩ := State.lockNow_start_dom u.zeroise.clearSram 3
          exact ⟨hl.trans hz, hk.trans hy⟩

theorem State.realarm_start_dom (s : State) : s.realarm.start = s.start ∧ s.realarm.dom = s.dom := by
  have hraise (u : State) (c : Bool) (src : AlarmSource) :
      (if c then u.alarm src else u).start = u.start ∧ (if c then u.alarm src else u).dom = u.dom := by
    cases c
    · exact ⟨rfl, rfl⟩
    · exact State.alarm_start_dom u src
  unfold State.realarm
  dsimp only
  obtain ⟨hms, hmd⟩ := hraise s (s.sec.asserted.getLsbD 0) .tamperMesh
  obtain ⟨hes, hed⟩ := hraise (if s.sec.asserted.getLsbD 0 = true then s.alarm .tamperMesh else s) _ .enclosure
  exact ⟨hes.trans hms, hed.trans hmd⟩

theorem State.realarm_of_none {s : State} (h : s.sec.asserted = 0) : s.realarm = s := by
  simp [State.realarm, h]

/-- Settles O53: the fields of the start state, and the end of a reset with and without an alarm input asserted. -/
theorem resetsAndTheirEnd : Obligations.ResetsAndTheirEnd := by
  unfold Obligations.ResetsAndTheirEnd
  refine ⟨fun s => ?resets, fun s straps hv hr => ⟨fun ha => ?quiet, ?samples⟩⟩
  case resets =>
    intro clean kept
    refine ⟨fun hv hr => ?package, fun hv => ?powerOn⟩
    case package =>
      obtain ⟨o, he⟩ := exec_pkgResetN hv hr
      refine ⟨_, he, ?_, ?_, rfl, rfl, rfl, rfl⟩
      · dsimp only [clean]; and_intros <;> rfl
      · dsimp only [kept]; and_intros <;> rfl
    case powerOn =>
      refine ⟨_, exec_powerOnReset hv, ?_, ?_, rfl, rfl, rfl⟩
      · dsimp only [clean]; and_intros <;> rfl
      · dsimp only [kept]; and_intros <;> rfl
  case quiet =>
    rw [exec_packageResetRelease hv hr, State.realarm_of_none]
    exact ha
  case samples =>
    refine ⟨_, exec_packageResetRelease hv hr straps, ?_⟩
    obtain ⟨hs, hd⟩ := State.realarm_start_dom { s with
      start := { s.start with inReset := false, straps := straps }, dom := { s.dom with mgrPrio := straps.mgrPrio } }
    rw [hs, hd]
    exact ⟨rfl, rfl, rfl⟩

end Sys2Proof.Machine
end

section
/-! PROOF. `Lasts`: no handling of an error gives back a tile, a core or an engine that is lost, nor touches the granules being
fetched again (spec 08 R198, spec 10 R255, spec 18 R442 to R458). Stated from an older state `r`, so that the lemmas chain by
`apply`. -/

namespace Sys2Proof.Machine

/-! ## The relation -/

/-- What `Lasts` looks at. -/
def State.units (s : State) : List Nat × Tab (BitVec 64) × Tab (BitVec 128) × Bool × Bool :=
  (s.comp.refetch, s.comp.coreLost, s.comp.tileLost, s.eng.primary, s.eng.mirror)

/-- Losses last, and the granules being fetched again stay. -/
structure Lasts (s t : State) : Prop where
  refetch : t.comp.refetch = s.comp.refetch
  tileLost : ∀ die pos, s.tileLost die pos = true → t.tileLost die pos = true
  primary : s.eng.primary = false → t.eng.primary = false
  mirror : s.eng.mirror = false → t.eng.mirror = false

namespace Lasts

variable {r s t : State}

theorem refl (s : State) : Lasts s s := ⟨rfl, fun _ _ => id, id, id⟩

theorem trans (h : Lasts r s) (k : Lasts s t) : Lasts r t where
  refetch := k.refetch.trans h.refetch
  tileLost := fun die pos => k.tileLost die pos ∘ h.tileLost die pos
  primary := k.primary ∘ h.primary
  mirror := k.mirror ∘ h.mirror

/-- An update of fields that none of these look at. -/
theorem upd (h : Lasts r s) (e : t.units = s.units) : Lasts r t := by
  simp only [State.units, Prod.mk.injEq] at e
  obtain ⟨hf, hc, ht, hp, hm⟩ := e
  refine h.trans ⟨hf, fun die pos hl => ?_, hp.trans, hm.trans⟩
  rw [State.tileLost, State.coreLost, hc, ht]
  exact hl

/-- An operation known by its frame, where the frame leaves these fields. -/
theorem eq (h : Lasts r s) {u : State} (e : t = u) (hc : u.units = s.units) : Lasts r t := e ▸ h.upd hc

theorem foldl {α : Type} (h : Lasts r s) {f : State → α → State} (hf : ∀ {t} a, Lasts r t → Lasts r (f t a)) (l : List α) :
    Lasts r (l.foldl f s) := by
  induction l generalizing s with
  | nil => exact h
  | cons a l ih => exact ih (hf a h)

theorem ite {c : Prop} [Decidable c] (h : Lasts r s) (k : Lasts r t) : Lasts r (if c then s else t) := by
  split <;> assumption

end Lasts

/-- A bit set in a table of masks stays set when further bits are. -/
theorem Tab.getLsbD_set_or {n : Nat} (t : Tab (BitVec n)) (k : Nat) (x : BitVec n) {j i : Nat} (h : (t.get 0 j).getLsbD i = true) :
    ((t.set k (t.get 0 k ||| x)).get 0 j).getLsbD i = true := by
  rcases eq_or_ne j k with rfl | hj
  · rw [Tab.get_set_self, BitVec.getLsbD_or, h, Bool.true_or]
  · rw [Tab.get_set_ne _ _ _ hj, h]

/-! ## Reads through a die's store (R270, R283) -/

theorem State.dieTouch_frame (s : State) (die a : Nat) :
    ∃ d g, s.dieTouch die a = { s with mem := { s.mem with dieStore := d, granules := g } } := by
  have hline (b : Nat) : ∃ d, s.dieLine die b = { s with mem := { s.mem with dieStore := d } } := by
    unfold State.dieLine
    dsimp only
    split
    · exact ⟨s.mem.dieStore, rfl⟩
    · exact ⟨_, rfl⟩
  have hgran (u : State) : ∃ g, u.granuleRead a = { u with mem := { u.mem with granules := g } } := by
    unfold State.granuleRead
    split
    · split
      · exact ⟨_, rfl⟩
      · exact ⟨u.mem.granules, rfl⟩
    · exact ⟨u.mem.granules, rfl⟩
  unfold State.dieTouch
  split
  · obtain ⟨d, hd⟩ := hline ‹_›
    obtain ⟨g, hg⟩ := hgran (s.dieLine die ‹_›)
    exact ⟨d, g, by rw [hg, hd]⟩
  · exact ⟨s.mem.dieStore, s.mem.granules, rfl⟩

/-- A fold of steps that each replace die-store lines and marks of granules does no more. -/
theorem foldl_dieStore_frame {α : Type} {f : State → α → State}
    (hf : ∀ s a, ∃ d g, f s a = { s with mem := { s.mem with dieStore := d, granules := g } }) (l : List α) :
    ∀ s : State, ∃ d g, l.foldl f s = { s with mem := { s.mem with dieStore := d, granules := g } } := by
  induction l with
  | nil => exact fun s => ⟨s.mem.dieStore, s.mem.granules, rfl⟩
  | cons a l ih =>
    intro s
    obtain ⟨d, g, h⟩ := hf s a
    obtain ⟨d', g', h'⟩ := ih (f s a)
    exact ⟨d', g', by rw [List.foldl_cons, h', h]⟩

theorem State.dieRead_frame (s : State) (die : Nat) (ranges : List (Nat × Nat)) :
    ∃ d g, s.dieRead die ranges = { s with mem := { s.mem with dieStore := d, granules := g } } := by
  refine foldl_dieStore_frame (fun s p => ?_) ranges s
  split
  · exact ⟨s.mem.dieStore, s.mem.granules, rfl⟩
  · exact foldl_dieStore_frame (fun s _ => State.dieTouch_frame s die _) _ s

section

variable {r s : State} (h : Lasts r s)

include h

/-! ## Records, events and sending -/

theorem State.note_lasts (e : ErrIn) : Lasts r (s.note e) := by
  obtain ⟨x, o, k⟩ := State.note_frame s e
  exact h.eq k rfl

theorem State.events_lasts (qs : List Nat) (status : Nat) : Lasts r (s.events qs status) := by
  obtain ⟨x, y, o, k⟩ := State.events_frame status qs s
  exact h.eq k rfl

theorem State.endOp_lasts (n status ctl : Nat) : Lasts r (s.endOp n status ctl false) := by
  obtain ⟨l, x, o, k⟩ := State.endOp_frame s n status ctl
  exact h.eq k rfl

theorem State.endWait_lasts (w : Waiting) (status : Nat) : Lasts r (s.endWait w status) := by
  obtain ⟨l, x, o, k⟩ := State.endWait_frame s w status
  exact h.eq k rfl

theorem State.store_lasts (a : Nat) (bs : List Byte) : Lasts r (s.store a bs) := by
  obtain ⟨hb, d, b, w, x, o, k⟩ := State.store_frame s a bs
  exact h.eq k rfl

theorem State.routeSend_lasts (n : Nat) (p : RoutePkt) : Lasts r (s.routeSend n p) := by
  obtain ⟨l, o, k⟩ := State.routeSend_frame s n p
  exact h.eq k rfl

theorem State.signalMiss_lasts : Lasts r s.signalMiss := by
  obtain ⟨a, hb, d, b, w, x, f, l, o, k⟩ := State.barrierSwap_frame s (2 ^ 63 + s.steep.number.toNat)
  exact h.eq k rfl

theorem State.leave_lasts : Lasts r s.leave := by
  obtain ⟨hb, d, b, w, x, f, l, o, k⟩ := State.sendOwn_frame s.drawByte.2 s.dom.manager 61 [s.drawByte.1]
  exact h.eq k rfl

/-! ## Failures of sequences and of the package (R20, R442, R458) -/

theorem State.failSeqs_lasts (qs : List Nat) (status : Nat) : Lasts r (s.failSeqs qs status) :=
  State.events_lasts (h.upd (by rfl)) qs status

theorem State.stopPackage_lasts : Lasts r s.stopPackage := by
  unfold State.stopPackage
  have hmiss : Lasts r (if s.steep.running then s.signalMiss else s) := .ite (State.signalMiss_lasts h) h
  have hleave := Lasts.ite (c := (if s.steep.running then s.signalMiss else s).dom.manager = 0xFF) hmiss (State.leave_lasts hmiss)
  exact hleave.upd rfl

theorem State.fatal_lasts (e : ErrIn) : Lasts r (s.fatal e) :=
  (State.events_lasts (State.note_lasts (.ite h (State.stopPackage_lasts h)) e) _ 0x0502).upd rfl

/-! ## Units that are lost (R198, R442, R450 to R455) -/

theorem State.settleItems_lasts : Lasts r s.settleItems := h.upd rfl

theorem State.onTile_lasts (t : TileAt) (f : Tile → Tile) : Lasts r (s.onTile t f) := h.upd rfl

theorem State.reissueTile_lasts (die pos : Nat) (index : Word) : Lasts r (s.reissueTile die pos index) :=
  .ite h (h.upd (by rfl))

theorem State.mapOutTile_lasts (die pos : Nat) (index : Word) : Lasts r (s.mapOutTile die pos index) := by
  refine (State.reissueTile_lasts h die pos index).trans ⟨rfl, fun d p hl => ?_, id, id⟩
  simp only [State.tileLost, Bool.or_eq_true] at hl ⊢
  exact hl.imp_left (Tab.getLsbD_set_or _ die _)

theorem State.mapOutCore_lasts (die core : Nat) (index : Word) : Lasts r (s.mapOutCore die core index) := by
  refine (State.reissueTile_lasts (State.reissueTile_lasts h die (2 * core) index) die (2 * core + 1) index).trans
    ⟨rfl, fun d p hl => ?_, id, id⟩
  simp only [State.tileLost, State.coreLost, Bool.or_eq_true] at hl ⊢
  exact hl.imp_right (Tab.getLsbD_set_or _ die _)

theorem State.withdrawFrames_lasts (c : Nat) : Lasts r (s.withdrawFrames c) := .ite h (h.upd (by rfl))

theorem State.classRehash_lasts (c ch : Nat) : Lasts r (s.classRehash c ch) := State.withdrawFrames_lasts (h.upd (by rfl)) c

theorem State.dropChannel_lasts (ch : Nat) : Lasts r (s.dropChannel ch) := by
  unfold State.dropChannel
  dsimp only
  split
  · split
    · exact h.upd rfl
    · exact State.classRehash_lasts (h.upd (by rfl)) _ _
  · exact h.upd rfl

theorem State.endPrefill_lasts (q status : Nat) : Lasts r (s.endPrefill q status) :=
  .ite h ((State.endOp_lasts h _ status 0x0605).upd (by rfl))

theorem State.loseSeqs_lasts (qs : List Nat) : Lasts r (s.loseSeqs qs) := by
  unfold State.loseSeqs
  dsimp only
  have hlost := h.foldl (f := fun s q => (s.endPrefill q 0x0502).onSeq q fun r =>
      { r with state := .lost, paused := false, held := false, suspended := false })
    (fun q hk => (State.endPrefill_lasts hk q 0x0502).upd (by rfl)) qs
  exact State.events_lasts (hlost.upd (by rfl)) qs 0x0502

theorem State.syncLoss_lasts : Lasts r s.syncLoss := by
  unfold State.syncLoss
  dsimp only
  have hclear : Lasts r s.syncClear := h.upd rfl
  have hends := hclear.foldl (f := fun s w => s.endWait w 0x0425) (fun w hk => State.endWait_lasts hk w 0x0425)
    (s.syncClear.waiting.filter fun w => w.what.object.isSome)
  exact .ite (hends.upd (by rfl)) hends

theorem State.loseChannel_lasts (e : ErrIn) : Lasts r (s.loseChannel e) := by
  unfold State.loseChannel
  refine .ite (State.fatal_lasts (h.upd (by rfl)) _) (.ite (State.fatal_lasts (State.dropChannel_lasts h _) _) ?_)
  have hlost (x : ErrIn) := State.loseSeqs_lasts (State.dropChannel_lasts (State.note_lasts h x) e.pos) (s.lostSeqs (s.classOf e.pos))
  have hsync (x : ErrIn) := Lasts.ite (c := e.pos / 32 = 1) (State.syncLoss_lasts (hlost x)) (hlost x)
  exact .ite (State.signalMiss_lasts (hsync _)) (hsync _)

theorem State.loseSegment_lasts (die seg : Nat) : Lasts r (s.loseSegment die seg) := by
  unfold State.loseSegment
  dsimp only
  split
  · exact h.upd rfl
  · refine .ite (h.upd (by rfl)) (Lasts.upd (s := State.jnl _ 5 _ 0 0 0 0) ?_ (by rfl))
    exact .ite (h.upd (by rfl)) (h.upd (by rfl))

theorem State.failover_lasts (e : ErrIn) (primaryLost : Bool) : Lasts r (s.failover e primaryLost) := by
  unfold State.failover
  have hn := State.note_lasts h { e with detail := b2n primaryLost }
  dsimp only
  split
  · have hp := hn.trans (t := { s.note { e with detail := b2n primaryLost } with
        eng := { (s.note { e with detail := b2n primaryLost }).eng with primary := false } }) ⟨rfl, fun _ _ => id, fun _ => rfl, id⟩
    exact .ite (State.failSeqs_lasts hp _ _) hp
  · exact hn.trans ⟨rfl, fun _ _ => id, id, fun _ => rfl⟩

theorem State.unitLost_lasts (e : ErrIn) : Lasts r (s.unitLost e) := by
  unfold State.unitLost
  have hn := State.note_lasts h e
  dsimp only
  split
  case h_1 =>
    have ht := State.settleItems_lasts (State.mapOutTile_lasts hn e.die e.pos s.err.total)
    refine .ite (.ite (State.fatal_lasts ht _) ?_) ht
    exact State.settleItems_lasts (State.mapOutCore_lasts (State.note_lasts ht _) _ _ _)
  case h_2 =>
    have hc := State.settleItems_lasts (State.mapOutCore_lasts hn e.die e.pos s.err.total)
    exact .ite (State.fatal_lasts h _) (.ite (State.fatal_lasts hc _) hc)
  case h_3 => exact State.loseChannel_lasts h e
  case h_4 => exact (State.note_lasts h _).upd rfl
  case h_5 => exact State.loseSegment_lasts (State.note_lasts h _) _ _
  case h_6 => exact .ite (State.failover_lasts h e _) (State.fatal_lasts h _)
  case h_7 => exact hn.upd rfl
  case h_8 => exact State.fatal_lasts h _

theorem State.raise_lasts (e : ErrIn) : Lasts r (s.raise e) := by
  unfold State.raise
  split
  · exact h
  · dsimp only
    split
    · exact State.note_lasts h e
    · exact State.failSeqs_lasts (State.note_lasts h e) _ _
    · exact State.unitLost_lasts h _
    · exact State.fatal_lasts h e

theorem State.corrected_lasts (e : ErrIn) (seqs : List Nat) : Lasts r (s.corrected e seqs) :=
  .ite (State.note_lasts h e) (State.raise_lasts h _)

/-! ## Routed layers and pours (R182 to R192) -/

theorem State.dataError_lasts (status : Nat) (seqs : List Nat) (unit die pos addr detail : Nat) :
    Lasts r (s.dataError status seqs unit die pos addr detail) := State.raise_lasts h _

theorem State.onNorm_lasts (i : Nat) (f : NormAcc → NormAcc) : Lasts r (s.onNorm i f) := h.upd rfl

theorem State.normCheck_lasts (m : Model) (index : Nat) (rec : List Byte) (q : Nat) (x : List Word) :
    Lasts r (s.normCheck m index rec q x) := by
  have hflag : Lasts r (s.flagLine index q (lineNorm x)) :=
    .ite (State.dataError_lasts (h.upd (by rfl)) _ _ _ _ _ _ _) (h.upd (by rfl))
  exact .ite h (.ite hflag (State.onNorm_lasts h index _))

theorem State.storeLine_lasts (q a : Nat) (bs : List Byte) : Lasts r (s.storeLine q a bs) := by
  unfold State.storeLine
  split
  · exact h
  · split
    · exact State.dataError_lasts h _ _ _ _ _ _ _
    · exact State.store_lasts h a bs

theorem State.writeSlot_lasts (m : Model) (draft : Bool) (rec : List Byte) (l : OpLine) (line : List Word) :
    Lasts r (s.writeSlot m draft rec l line) := by
  unfold State.writeSlot
  dsimp only
  split
  · exact h
  · exact (State.storeLine_lasts h _ _ _).upd rfl

theorem State.steps6to8_lasts (m : Model) (draft : Bool) (index : Nat) (rec : List Byte) (lines row : Nat) (l : OpLine)
    (x : List Word) : Lasts r (s.steps6to8 m draft index rec lines row l x) := by
  unfold State.steps6to8
  extract_lets n ft x₁ x₂ f y a s₁ s₂ s₃
  have h₁ : Lasts r s₁ := State.storeLine_lasts (State.storeLine_lasts h _ _ _) _ _ _
  have h₂ : Lasts r s₂ := .ite (State.storeLine_lasts h₁ _ _ _) h₁
  have h₃ : Lasts r s₃ := .ite h₂ (State.onNorm_lasts h₂ index _)
  exact .ite (State.writeSlot_lasts h₃ m draft rec l _) h₃

theorem State.setRte_lasts (x : Route) : Lasts r (s.setRte x) := h.upd rfl

theorem State.sendDispEnds_lasts (layer : Nat) : Lasts r (s.sendDispEnds layer) :=
  .ite h (State.setRte_lasts (h.foldl (fun n hk => State.routeSend_lasts hk n _) s.memberList) _)

theorem State.sendPourEnds_lasts (layer : Nat) : Lasts r (s.sendPourEnds layer) :=
  .ite h (State.setRte_lasts (h.foldl (fun n hk => State.routeSend_lasts hk n _) s.memberList) _)

theorem State.failedDuties_lasts : Lasts r s.failedDuties :=
  .ite (h.foldl (fun l hk => .ite (State.sendDispEnds_lasts hk l) hk) s.routedList) h

theorem State.finishLayer_lasts (m : Model) (layer : Nat) : Lasts r (s.finishLayer m layer) := by
  unfold State.finishLayer
  dsimp only
  refine State.setRte_lasts ?_ _
  split
  · exact h
  · exact (h.foldl (fun p hk => State.normCheck_lasts hk m _ _ _ _) _).foldl
      (fun p hk => .ite hk (State.steps6to8_lasts hk m false _ _ _ _ _ _)) _

theorem State.settleRoutes_lasts : Lasts r s.settleRoutes := by
  unfold State.settleRoutes
  split
  · exact h
  · refine h.foldl (fun l hk => ?_) _
    have hd := State.failedDuties_lasts hk
    exact .ite (State.failedDuties_lasts (State.finishLayer_lasts hd _ l)) hd

theorem State.pourLine_lasts (l : HeldLine) (line : Option (List Word)) : Lasts r (s.pourLine l line) :=
  .ite h (State.sendPourEnds_lasts (State.setRte_lasts (State.routeSend_lasts h _ _) _) _)

/-! ## Work items and their pieces (R103 to R105, R251 to R256, R449) -/

theorem State.completeItem_lasts (t : TileAt) : Lasts r (s.completeItem t) := by
  unfold State.completeItem
  split
  · exact h
  · exact h.upd rfl

theorem State.failItem_lasts (t : TileAt) (w : WorkItem) (e : ErrIn) : Lasts r (s.failItem t w e) := by
  unfold State.failItem
  have hr := State.raise_lasts h { e with cls := 1, seqs := s.itemSeqs w, until_ := .steep }
  refine .ite hr (State.completeItem_lasts (State.onTile_lasts (hr.foldl (fun l hk => ?_) _) _ _) _)
  split
  · exact State.pourLine_lasts hk _ _
  · exact hk

theorem State.leafFailure_lasts (t : TileAt) (w : WorkItem) (p : Piece) (noHost : Bool) : Lasts r (s.leafFailure t w p noHost) := by
  unfold State.leafFailure
  have hf := State.failItem_lasts h t w { status := if p.scale then 0x0521 else 0x0410, cls := 1, unit := 1, die := t.die, pos := TileAt_pos t
                                          addr := p.tensor, detail := if p.scale then 0 else p.index }
  dsimp only
  split
  · exact .ite hf (State.raise_lasts hf _)
  · exact .ite (State.raise_lasts hf _) hf
  · exact hf

theorem State.leafRecovered_lasts (p : Piece) (unit die pos : Nat) (seqs : List Nat) : Lasts r (s.leafRecovered p unit die pos seqs) :=
  State.corrected_lasts h _ _

theorem State.dieRead_lasts (die : Nat) (ranges : List (Nat × Nat)) : Lasts r (s.dieRead die ranges) := by
  obtain ⟨d, g, k⟩ := State.dieRead_frame s die ranges
  exact h.eq k rfl

theorem State.feed_lasts (t : TileAt) (w : WorkItem) (reads : List CoreRead) : Lasts r (s.feed t w reads) := by
  unfold State.feed
  extract_lets u
  have hu : Lasts r u := State.onTile_lasts h t _
  split
  · exact State.failItem_lasts hu t w _
  · split
    · exact State.onTile_lasts hu t _
    · have hv (l : List Piece) := hu.foldl (f := fun s p => s.leafRecovered p 1 t.die (TileAt_pos t) (u.itemSeqs w))
        (fun p hk => State.leafRecovered_lasts hk p _ _ _ _) l
      exact .ite (hv _) (State.onTile_lasts (State.dieRead_lasts (hv _) t.die _) t _)

theorem State.resume_lasts (t : TileAt) (w : WorkItem) (reads : List CoreRead) (p : Piece) (b : List Byte) :
    Lasts r (s.resume t w reads p b) :=
  .ite (State.onTile_lasts h t _) (State.feed_lasts (State.onTile_lasts h t _) t w _)

/-! ## Granules fetched again (R254, R255) -/

theorem State.rewriteGranule_lasts (g : Nat) (bs : List Byte) : Lasts r (s.rewriteGranule g bs) := by
  unfold State.rewriteGranule
  split
  · exact h.upd rfl
  · exact h

theorem State.serveWaiters_lasts (g : Nat) : Lasts r (s.serveWaiters g) := by
  unfold State.serveWaiters
  split
  · exact Lasts.foldl (h.upd (by rfl)) (fun _ hk => hk.upd (by rfl)) _
  · exact h

theorem State.feedWaiters_lasts (g : Nat) (bs : List Byte) (unit die pos : Nat) : Lasts r (s.feedWaiters g bs unit die pos) := by
  refine h.foldl (fun p hk => ?_) _
  dsimp only
  split
  · exact hk
  · split
    · exact hk
    · have hrec (q : Piece) (seqs : List Nat) := State.leafRecovered_lasts hk q unit die pos seqs
      exact .ite hk (.ite (State.leafFailure_lasts hk _ _ _ _) (.ite (State.resume_lasts (hrec _ _) _ _ _ _ _) (hrec _ _)))

end

end Sys2Proof.Machine
end

section
/-! PROOF. Errors with none in handling, by class: what their records leave (spec 18 R442 to R458). -/

namespace Sys2Proof.Machine

/-! ## The stop flag through records and events (R442, R458) -/

theorem State.errRingPut_fatal (s : State) (x : W512) : (s.errRingPut x).err.fatal = s.err.fatal := by
  unfold State.errRingPut
  dsimp only
  split
  · rfl
  · split <;> rfl

theorem State.enterHandling_fatal (s : State) (e : ErrIn) (j : Judged) : (s.enterHandling e j).err.fatal = s.err.fatal := by
  unfold State.enterHandling
  split <;> rfl

theorem State.note_fatal (s : State) (e : ErrIn) : (s.note e).err.fatal = s.err.fatal := by
  unfold State.note State.record
  split
  · rfl
  · dsimp only
    split
    · split
      · split
        · rfl
        · exact State.errRingPut_fatal _ _
      · exact State.errRingPut_fatal _ _
    · exact (State.errRingPut_fatal _ _).trans (State.enterHandling_fatal s e _)

theorem State.event_fatal (s : State) (q status : Nat) : (s.event q status).err.fatal = s.err.fatal := by
  unfold State.event State.loose
  dsimp only
  split
  · split <;> rfl
  · split
    · obtain ⟨r, o, h⟩ := State.putCompletion_frame s (s.seq q).ring _
      rw [h]
    · split
      · rfl
      · split
        · rfl
        · unfold State.overflowRing
          dsimp only
          split
          · rfl
          · exact State.note_fatal _ _

theorem State.events_fatal (qs : List Nat) (status : Nat) : ∀ s : State, (s.events qs status).err.fatal = s.err.fatal := by
  induction qs with
  | nil => exact fun _ => rfl
  | cons q qs ih => exact fun s => (ih (s.event q status)).trans (State.event_fatal s q status)

theorem State.failSeqs_fatal (s : State) (qs : List Nat) (status : Nat) : (s.failSeqs qs status).err.fatal = s.err.fatal :=
  State.events_fatal qs status _

theorem State.failSeqs_nil (s : State) (status : Nat) : s.failSeqs [] status = s := by
  simp [State.failSeqs, State.events]

/-- A package-fatal error stops the package and silences it (R458). -/
theorem State.fatal_stops (s : State) (e : ErrIn) : (s.fatal e).err.fatal = true ∧ (s.fatal e).err.silent = true := by
  refine ⟨?_, rfl⟩
  unfold State.fatal
  dsimp only
  rw [State.setErr_err, State.events_fatal, State.note_fatal]
  split
  · assumption
  · rfl

/-! ## With none in handling (R442, R445) -/

section

variable {s : State} (hidle : s.err.handling = []) {e : ErrIn}

include hidle

theorem State.corrected_of_idle (hc : e.cls = 0) (seqs : List Nat) : s.corrected e seqs = s.note e := by
  unfold State.corrected
  rw [State.judge_of_idle hidle, if_pos hc]

variable (hsil : s.err.silent = false)

include hsil

theorem State.raise_contained (hc : e.cls = 1) : s.raise e = (s.note e).failSeqs e.seqs e.status := by
  unfold State.raise
  rw [hsil, if_neg Bool.false_ne_true, State.judge_of_idle hidle, hc]
  rfl

/-- A contained error that names no sequence is its record. -/
theorem State.raise_alone (hc : e.cls = 1) (hq : e.seqs = []) :
    ∃ x o, s.raise e = { s with err := x, out := o } ∧ x.fatal = s.err.fatal := by
  obtain ⟨x, o, hn⟩ := State.note_frame s e
  refine ⟨x, o, ?_, ?_⟩
  · rw [State.raise_contained hidle hsil hc, hq, State.failSeqs_nil, hn]
  · rw [← State.note_fatal s e, hn]

theorem State.raise_unitLost (hc : e.cls = 2) : s.raise e = s.unitLost e := by
  unfold State.raise
  rw [hsil, if_neg Bool.false_ne_true, State.judge_of_idle hidle, hc]
  exact congrArg s.unitLost (if_pos rfl)

end

end Sys2Proof.Machine
end

section
/-! PROOF. Tiles: work items, leaves from lower tiers, cosy, beat stalls and calibration (spec 02 R55 to R57, spec 04 R99 to R111,
spec 10 R251 to R256, spec 18 R446 to R450). -/

namespace Sys2Proof.Machine

variable {s : State} {t0 : TileAt} {w : WorkItem} {reads : List CoreRead}

/-! ## A tile -/

@[simp] theorem State.tileOf_onTile_self (s : State) (t : TileAt) (f : Tile → Tile) : (s.onTile t f).tileOf t = f (s.tileOf t) :=
  Tab.get_set_self s.comp.tiles _ _ _

theorem State.tileUsable_iff {t : TileAt} :
    s.tileUsable t = true ↔ t.die < 4 ∧ t.core < 64 ∧ t.tile < 2 ∧ s.tileLost t.die (TileAt_pos t) = false := by
  simp [State.tileUsable, and_assoc]

theorem State.tileUsable_congr {s u : State} (hc : u.comp.coreLost = s.comp.coreLost) (ht : u.comp.tileLost = s.comp.tileLost) (t : TileAt) :
    u.tileUsable t = s.tileUsable t := by
  simp only [State.tileUsable, State.tileLost, State.coreLost, hc, ht]

/-- A tile's last item read out: runs, tiles and errors in handling may change, no loss and no reissued item does (R99, R118). -/
theorem State.flushTile_frame (s : State) (t : TileAt) : ∃ c l x,
    s.flushTile t = { s with comp := c, steep := { s.steep with issued := l }, err := x } ∧
    c.reissue = s.comp.reissue ∧ c.coreLost = s.comp.coreLost ∧ c.tileLost = s.comp.tileLost := by
  have hitem (u : State) : ∃ c x, u.completeItem t = { u with comp := c, err := x } ∧
      c.reissue = u.comp.reissue ∧ c.coreLost = u.comp.coreLost ∧ c.tileLost = u.comp.tileLost := by
    unfold State.completeItem
    split
    · exact ⟨u.comp, u.err, rfl, rfl, rfl, rfl⟩
    · exact ⟨_, _, rfl, rfl, rfl, rfl⟩
  unfold State.flushTile
  split
  · exact ⟨s.comp, s.steep.issued, s.err, rfl, rfl, rfl, rfl⟩
  · rename_i w _ _
    dsimp only
    obtain ⟨c, x, e, hr, hc, ht⟩ := hitem ((s.onRun w.draft w.index (w.expert.getD 0) fun k => { k with
      sums := k.sums ++ (s.tileOf t).acc.map fun p => (512 * w.group + p.1, w.block, p.2) }).onTile t fun k =>
        { k with items := [], acc := [] })
    exact ⟨c, _, x, e, hr, hc, ht⟩

/-! ## An item is fed (R101 to R105) -/

/-- The item's first block in the shadow registers: the state in which a feeder reads the item's pieces (R101). -/
def State.fronted (s : State) (t : TileAt) (w : WorkItem) : State := s.onTile t fun k => { k with shadow := some (w, 0), gap := 0 }

section Feed

variable (hread : ∀ p ∈ (s.fronted t0 w).itemRanges w, (s.fronted t0 w).readFault p = none)

include hread

theorem State.findSome?_readFault_eq_none :
    ((s.fronted t0 w).itemRanges w).findSome? (fun p => ((s.fronted t0 w).readFault p).map fun e => (e, p.1)) = none := by
  simpa [List.findSome?_eq_none_iff] using fun a b h => hread (a, b) h

/-- With every piece good at its first read the item's results are in the accumulation region (R99, R101). -/
theorem State.feed_of_good (hpieces : ∀ p ∈ (s.fronted t0 w).itemPieces w, ∃ b,
      (s.fronted t0 w).readPiece reads ((s.fronted t0 w).itemPieces w) p = some (false, b)) (hu : s.tileUsable t0 = true) :
    let u := (s.fronted t0 w).dieRead t0.die ((s.fronted t0 w).itemRanges w)
    s.feed t0 w reads = u.onTile t0 fun k => { k with
      hold := none, shadow := none, active := some (w, u.itemChunks w - 1)
      acc := ((s.fronted t0 w).itemResults w reads).mapIdx fun i x => (i, x) } := by
  have hbad : (s.fronted t0 w).badPiece w reads = none := by
    refine List.find?_eq_none.2 fun p hp => ?_
    obtain ⟨b, hb⟩ := hpieces p hp
    simp [hb]
  have hagain : (((s.fronted t0 w).itemPieces w).filter fun p =>
      match (s.fronted t0 w).readPiece reads ((s.fronted t0 w).itemPieces w) p with | some b => b.1 | none => false) = [] := by
    refine List.filter_eq_nil_iff.2 fun p hp => ?_
    obtain ⟨b, hb⟩ := hpieces p hp
    simp [hb]
  have hus : (s.fronted t0 w).tileUsable t0 = true := hu
  unfold State.feed
  rw [← State.fronted]
  simp only [State.findSome?_readFault_eq_none hread, hbad]
  generalize hf : List.filter _ ((s.fronted t0 w).itemPieces w) = again
  obtain rfl : again = [] := hf.symm.trans hagain
  simp only [List.foldl_nil, hus, Bool.not_true, Bool.false_eq_true, if_false]

/-- A piece that fails both its reads makes the tile hold the item (R105). -/
theorem State.feed_of_bad (hbad : (s.fronted t0 w).badPiece w reads ≠ none) :
    s.feed t0 w reads = (s.fronted t0 w).onTile t0 fun k => { k with items := k.items.erase w, hold := some (w, reads) } := by
  obtain ⟨p, hp⟩ := Option.ne_none_iff_exists'.1 hbad
  unfold State.feed
  rw [← State.fronted]
  simp only [State.findSome?_readFault_eq_none hread, hp]

end Feed

end Sys2Proof.Machine
end

section
/-! PROOF. The rows of the tiles, the engines and the rebuild (spec 02 R55 to R57, spec 04 R99 to R111, spec 08 R198, spec 10 R251
to R256, spec 18 R449 to R453). -/

namespace Sys2Proof.Machine

variable {s : State}

/-! ## Work items (R99, R103 to R105) -/

/-- The tile's last item is read out and it takes an item (R99, R103). -/
def State.taken (s : State) (t : TileAt) (w : WorkItem) : State := (s.flushTile t).onTile t fun k => { k with items := [w] }

theorem State.tileUsable_taken (s : State) (t : TileAt) (w : WorkItem) : (s.taken t w).tileUsable t = s.tileUsable t := by
  obtain ⟨c, l, x, hflush, -, hc, ht⟩ := State.flushTile_frame s t
  rw [State.taken, hflush]
  exact State.tileUsable_congr hc ht t

theorem State.fronted_taken (s : State) (t : TileAt) (w : WorkItem) : (((s.taken t w).fronted t w).tileOf t).items = [w] ∧
    ((s.taken t w).fronted t w).mem = s.mem ∧ ((s.taken t w).fronted t w).err = (s.flushTile t).err := by
  obtain ⟨c, l, x, hflush, -⟩ := State.flushTile_frame s t
  refine ⟨?_, ?_, rfl⟩
  · rw [State.fronted, State.taken, State.tileOf_onTile_self, State.tileOf_onTile_self]
  · show (s.flushTile t).mem = s.mem
    rw [hflush]

section WorkItems

variable {t0 : TileAt} {w : WorkItem} {reads : List CoreRead} (hl : s.live = true) (hrun : s.steep.running = true)
  (h8 : s.steep.staged8 = false) (hfree : s.tileFree t0 = true) (hok : s.itemOk w = true)
  (hnew : (s.comp.reissue.any fun r => r.1 = t0.die) = false)

include hl hrun h8 hfree hok hnew

/-- With no reissued item on the die, the tile takes the item that the command brings (R449). -/
theorem exec_feederWorkItem : exec (.feederWorkItem t0 w reads none) s = .next ((s.taken t0 w).feed t0 w reads) := by
  obtain ⟨c, l, x, hflush, hre, -, -⟩ := State.flushTile_frame s t0
  have hhead : (s.flushTile t0).comp.reissue.find? (fun r => decide (r.1 = t0.die)) = none := by
    rw [hflush]
    dsimp only
    rw [hre]
    exact List.find?_eq_none.2 fun r hr => by simpa using List.any_eq_false.1 hnew r hr
  have hact : exec (.feederWorkItem t0 w reads none) s = _ := show execFeederWorkItem t0 w reads none s = _ from
    act_of_true (by simp [hl, hrun, h8, hfree, hok, faultOk]) s _
  rw [hact]
  dsimp only
  rw [hhead]
  rfl

variable (hread : ∀ p ∈ ((s.taken t0 w).fronted t0 w).itemRanges w, ((s.taken t0 w).fronted t0 w).readFault p = none)

include hread

theorem feederWorkItem_runs (hpieces : ∀ p ∈ ((s.taken t0 w).fronted t0 w).itemPieces w, ∃ b,
      ((s.taken t0 w).fronted t0 w).readPiece reads (((s.taken t0 w).fronted t0 w).itemPieces w) p = some (false, b)) :
    ∃ t : State, exec (.feederWorkItem t0 w reads none) s = .next t ∧
      (t.tileOf t0).acc = (((s.taken t0 w).fronted t0 w).itemResults w reads).mapIdx (fun i x => (i, x)) ∧
      (t.tileOf t0).items = [w] ∧ (t.tileOf t0).hold = none ∧ t.mem.hbm = s.mem.hbm ∧ t.err = (s.flushTile t0).err := by
  have husable : (s.taken t0 w).tileUsable t0 = true := by
    simp only [State.tileFree, Bool.and_eq_true, and_assoc] at hfree
    exact (State.tileUsable_taken s t0 w).trans hfree.1
  obtain ⟨hitems, hmem, herr⟩ := State.fronted_taken s t0 w
  refine ⟨_, exec_feederWorkItem hl hrun h8 hfree hok hnew, ?_⟩
  rw [State.feed_of_good hread hpieces husable]
  generalize (s.taken t0 w).fronted t0 w = u at hitems hmem herr ⊢
  obtain ⟨d, g, hd⟩ := State.dieRead_frame u t0.die (u.itemRanges w)
  rw [State.tileOf_onTile_self, hd]
  exact ⟨rfl, hitems, rfl, show u.mem.hbm = s.mem.hbm by rw [hmem], herr⟩

theorem feederWorkItem_holds (hbad : ((s.taken t0 w).fronted t0 w).badPiece w reads ≠ none) :
    ∃ t : State, exec (.feederWorkItem t0 w reads none) s = .next t ∧ (t.tileOf t0).hold = some (w, reads) ∧
      (t.tileOf t0).items = [] ∧ t.mem = s.mem ∧ t.err = (s.flushTile t0).err := by
  obtain ⟨hitems, hmem, herr⟩ := State.fronted_taken s t0 w
  refine ⟨_, exec_feederWorkItem hl hrun h8 hfree hok hnew, ?_⟩
  rw [State.feed_of_bad hread hbad, State.tileOf_onTile_self, hitems]
  exact ⟨rfl, List.erase_cons_head _ _, hmem, herr⟩

end WorkItems

/-! ## Leaves from lower tiers (R105, R109, R252 to R256) -/

theorem State.leafRecovered_of_idle (hidle : s.err.handling = []) (p : Piece) (unit die pos : Nat) (seqs : List Nat) :
    ∃ x o, s.leafRecovered p unit die pos seqs = { s with err := x, out := o } := by
  unfold State.leafRecovered
  rw [State.corrected_of_idle hidle rfl]
  exact State.note_frame s _

section Leaves

variable {t0 : TileAt}

/-- While fronts are withheld the tile holds on, with the bytes that passed (R105, R109). -/
theorem State.resume_of_withheld (hw : s.withheld t0 = true) (w : WorkItem) (reads : List CoreRead) (p : Piece) (b : List Byte) :
    ∃ k, s.resume t0 w reads p b = s.onTile t0 fun t => { t with hold := some (w, setRead reads k b) } :=
  ⟨_, if_pos hw⟩

theorem refetch_of_no_hold (h : (s.tileOf t0).hold = none) (first second : Option (List Byte)) (f1 f2 : FillIn) :
    exec (.leafRefetch t0 first second) s = .next s ∧ exec (.granuleRefetch t0 f1 f2) s = .next s := by
  simp [exec, execLeafRefetch, execGranuleRefetch, h]

variable {w : WorkItem} {reads : List CoreRead} {p : Piece} (hl : s.live = true) (hhold : (s.tileOf t0).hold = some (w, reads))
  (hbad : s.badPiece w reads = some p)

include hhold hbad

theorem granuleRefetch_waits (hq : p.addr / 0x10000 ∉ s.comp.refetch) (f1 f2 : FillIn) : exec (.granuleRefetch t0 f1 f2) s = .next s := by
  simp [exec, execGranuleRefetch, hhold, hbad, hq]

theorem leafRefetch_waits (hq : p.addr / 0x10000 ∈ s.comp.refetch) (first second : Option (List Byte)) :
    exec (.leafRefetch t0 first second) s = .next s := by
  simp [exec, execLeafRefetch, hhold, hbad, hq]

include hl

/-- A granule with a lower tier whose piece fails twice is queued to be fetched again (R254, R255). -/
theorem leafRefetch_queues (hu : s.tileUsable t0 = true) (hq : p.addr / 0x10000 ∉ s.comp.refetch) {first second : Option (List Byte)}
    (h1 : s.pieceOk p (first.getD (s.pieceBytes p)) = false) (h2 : s.pieceOk p (second.getD (s.pieceBytes p)) = false)
    (hb : belowHbm p.addr = true) : exec (.leafRefetch t0 first second) s =
      .next { s with comp := { s.comp with refetch := s.comp.refetch ++ [p.addr / 0x10000] } } := by
  simp [exec, execLeafRefetch, hhold, hbad, hl, hu, hq, h1, h2, hb]

/-- A held item goes on with a piece that passes when it is read again (R254). -/
theorem leafRefetch_resumes (hu : s.tileUsable t0 = true) (hq : p.addr / 0x10000 ∉ s.comp.refetch) {first : Option (List Byte)}
    (h1 : s.pieceOk p (first.getD (s.pieceBytes p)) = true) (hw : s.withheld t0 = true) (hidle : s.err.handling = [])
    (second : Option (List Byte)) : ∃ t k, exec (.leafRefetch t0 first second) s = .next t ∧ t.mem = s.mem ∧
      (t.tileOf t0).hold = some (w, setRead reads k (first.getD (s.pieceBytes p))) := by
  have hstep : ∃ ch, exec (.leafRefetch t0 first second) s = .next (if (s.leafRecovered p 3 0 ch (s.itemSeqs w)).tileUsable t0
      then (s.leafRecovered p 3 0 ch (s.itemSeqs w)).resume t0 w reads p (first.getD (s.pieceBytes p))
      else s.leafRecovered p 3 0 ch (s.itemSeqs w)) := by
    refine ⟨match s.place p.addr with | some q => q.1 | none => 0, ?_⟩
    simp only [exec, execLeafRefetch, hhold, hbad, hl, hu, List.contains_eq_mem, hq, h1, decide_false, Bool.not_true, Bool.or_self,
      Bool.false_eq_true, if_false, if_true] <;> rfl
  obtain ⟨ch, hex⟩ := hstep
  obtain ⟨x, o, hnote⟩ := State.leafRecovered_of_idle hidle p 3 0 ch (s.itemSeqs w)
  have hu' : State.tileUsable { s with err := x, out := o } t0 = true := hu
  rw [hnote, if_pos hu'] at hex
  obtain ⟨k, hk⟩ := State.resume_of_withheld (s := { s with err := x, out := o }) hw w reads p (first.getD (s.pieceBytes p))
  rw [hk] at hex
  exact ⟨_, k, hex, rfl, by rw [State.tileOf_onTile_self]⟩

/-- A queued granule that is fetched again leaves the queue (R255). -/
theorem granuleRefetch_takes (hq : p.addr / 0x10000 ∈ s.comp.refetch) (f1 f2 : FillIn) :
    ∃ t : State, exec (.granuleRefetch t0 f1 f2) s = .next t ∧ t.comp.refetch = s.comp.refetch.erase (p.addr / 0x10000) := by
  refine ⟨_, rfl, ?_⟩
  simp only [hhold, hbad, hl, List.contains_eq_mem, hq, decide_true, Bool.not_true, Bool.or_self, Bool.false_eq_true, if_false]
  have hstart := Lasts.refl { s with comp := { s.comp with refetch := s.comp.refetch.erase (p.addr / 0x10000) } }
  split
  · exact (State.feedWaiters_lasts (State.serveWaiters_lasts (State.rewriteGranule_lasts hstart _ _) _) _ _ _ _ _).refetch
  · exact (State.serveWaiters_lasts (State.leafFailure_lasts hstart _ _ _ _) _).refetch

end Leaves

end Sys2Proof.Machine
end

section
/-! PROOF. Cosy, beat stalls, calibration, engine failover and the rebuild (spec 02 R55 to R57, spec 04 R108 to R111, spec 08 R198,
spec 18 R449, R450, R453). -/

namespace Sys2Proof.Machine

variable {s : State} {t0 : TileAt}

/-! ## Cosy (R108 to R111) -/

section Cosy

variable (hl : s.live = true) (hrun : s.steep.running = true) (hu : s.tileUsable t0 = true) (hcosy : s.cosy = true)
  (hw : s.withheld t0 = false)

include hl hrun hu hcosy hw

theorem exec_cosyRampDown (hr : (s.tileOf t0).ramp = 0) {steps : Nat} (h1 : 1 ≤ steps) (h16 : steps ≤ 16) :
    exec (.cosyRampDown t0 48 steps) s = .next (s.onTile t0 fun k => { k with gap := 48, ramp := steps }) :=
  show execCosyRampDown t0 48 steps s = _ from act_of_true (by simp [hl, hrun, hu, hcosy, hw, hr, h1, h16]) s _

theorem exec_cosyRampUp (hr : (s.tileOf t0).ramp ≠ 0) :
    exec (.cosyRampUp t0) s = .next (s.onTile t0 fun k => { k with gap := 0, ramp := 0 }) :=
  show execCosyRampUp t0 s = _ from act_of_true (by simp [hl, hrun, hu, hcosy, hw, hr]) s _

end Cosy

@[simp] theorem State.onTile_steep (s : State) (t : TileAt) (f : Tile → Tile) : (s.onTile t f).steep = s.steep := rfl

/-! ## Beat stalls (R55 to R57, R449, R450) -/

theorem beatStall_waits (h : s.requestPending t0 = false) : exec (.beatStall t0) s = .next s := by
  simp [exec, execBeatStall, act, h]

theorem State.requestPending_iff : s.requestPending t0 = true ↔ s.steep.running = true ∧ s.steep.staged8 = false ∧
    (s.tileOf t0).items ≠ [] ∧ (s.tileOf t0).hold = none ∧ (s.tileOf t0).ramp < 16 := by
  simp [State.requestPending, and_assoc]

/-- The items of a tile that holds none go to the queue of reissued items (R449). -/
theorem State.reissueTile_of_no_hold {die pos : Nat} (hh : (s.tile die pos).hold = none) (hi : (s.tile die pos).items ≠ []) (index : Word) :
    (s.reissueTile die pos index).tile die pos = { s.tile die pos with
      items := [], hold := none, acc := [], active := none, shadow := none, forErr := none } ∧
    (s.reissueTile die pos index).mem = s.mem ∧
    (s.reissueTile die pos index).comp.reissue = s.comp.reissue ++ (s.tile die pos).items.map fun w => (die, w, index) := by
  have hne : ((s.tile die pos).items ++ (s.tile die pos).hold.toList.map Prod.fst).isEmpty = false := by simp [hi]
  unfold State.reissueTile
  dsimp only
  rw [hne, if_neg Bool.false_ne_true]
  refine ⟨Tab.get_set_self s.comp.tiles _ _ _, rfl, ?_⟩
  rw [hh, Option.toList_none, List.map_nil, List.append_nil]
  rfl

/-- A tile that is mapped out is lost (R107). -/
theorem State.tileLost_mapOutTile (s : State) (die : Nat) {pos : Nat} (hp : pos < 128) (index : Word) :
    (s.mapOutTile die pos index).tileLost die pos = true := by
  have hbit : ((1 : BitVec 128) <<< pos).getLsbD pos = true := by simp [hp]
  simp only [State.mapOutTile, State.tileLost, Tab.get_set_self, BitVec.getLsbD_or, hbit, Bool.or_true, Bool.true_or]

/-- The loss of a tile maps it out, whatever else follows for its core (R450, R451). -/
theorem State.unitLost_tile (s : State) {e : ErrIn} (hu : e.unit = 1) (hp : e.pos < 128) : (s.unitLost e).tileLost e.die e.pos = true := by
  have hlost := State.tileLost_mapOutTile (s.note e) e.die hp s.err.total
  have hsettle := Lasts.refl ((s.note e).mapOutTile e.die e.pos s.err.total).settleItems
  unfold State.unitLost
  rw [hu]
  dsimp only
  refine Lasts.tileLost (s := ((s.note e).mapOutTile e.die e.pos s.err.total).settleItems) ?_ _ _ hlost
  refine .ite (.ite (State.fatal_lasts hsettle _) ?_) hsettle
  exact State.settleItems_lasts (State.mapOutCore_lasts (State.note_lasts hsettle _) _ _ _)

theorem State.raise_tileLost (hidle : s.err.handling = []) (hsil : s.err.silent = false) {e : ErrIn} (hc : e.cls = 2) (hu : e.unit = 1)
    (hp : e.pos < 128) : (s.raise e).tileLost e.die e.pos = true := by
  rw [State.raise_unitLost hidle hsil hc]
  exact State.unitLost_tile s hu hp

/-- The first firing of a tile: its record, and its items from a tile that is parked (R57, R446, R449). -/
theorem State.stallTile_first (hu : s.tileUsable t0 = true) (hrun : s.steep.running = true) (hidle : s.err.handling = [])
    (hsil : s.err.silent = false) (hfatal : s.err.fatal = false) (hf : (s.tileOf t0).firings = 0) : ∃ v : State,
    s.stallTile t0 = (v.reissueTile t0.die (TileAt_pos t0) s.err.total).settleItems ∧
      v.tile t0.die (TileAt_pos t0) = { s.tileOf t0 with firings := 1, parked := true } ∧ v.mem = s.mem ∧
      v.comp.reissue = s.comp.reissue := by
  obtain ⟨x, o, hraise, hx⟩ := State.raise_alone (s := s.onTile t0 fun k => { k with firings := 1 })
    (e := { status := 0x0F04, cls := 1, unit := 1, die := t0.die, pos := TileAt_pos t0, until_ := .item }) hidle hsil rfl rfl
  obtain ⟨-, -, -, hlost⟩ := State.tileUsable_iff.1 hu
  have hgo : (State.tileLost { s.onTile t0 (fun k => { k with firings := 1 }) with err := x, out := o } t0.die (TileAt_pos t0) ||
      x.fatal) = false := by
    rw [Bool.or_eq_false_iff]
    exact ⟨hlost, hx.trans hfatal⟩
  have hfired : State.tileOf { s.onTile t0 (fun k => { k with firings := 1 }) with err := x, out := o } t0 =
      { s.tileOf t0 with firings := 1 } := State.tileOf_onTile_self s t0 fun k => { k with firings := 1 }
  refine ⟨State.onTile { s.onTile t0 (fun k => { k with firings := 1 }) with err := x, out := o } t0 fun k => { k with parked := true },
    ?_, ?_, rfl, rfl⟩
  · unfold State.stallTile
    dsimp only
    rw [hf, if_neg (by decide), hraise, if_neg (Bool.eq_false_iff.1 hgo), State.onTile_steep, hrun]
    rfl
  · rw [← State.tileOf, State.tileOf_onTile_self, hfired]

section Stall

variable (hl : s.live = true) (hu : s.tileUsable t0 = true) (hpend : s.requestPending t0 = true) (hpark : (s.tileOf t0).parked = false)

include hl hu hpend hpark

theorem exec_beatStall : exec (.beatStall t0) s = .next (s.stallTile t0) :=
  show execBeatStall t0 s = _ from act_of_true (by simp [hl, hu, hpend, hpark]) s _

variable (hidle : s.err.handling = []) (hsil : s.err.silent = false)

include hidle hsil

/-- The first firing parks the tile and reissues its items (R57, R449). -/
theorem beatStall_parks (hfatal : s.err.fatal = false) (hf : (s.tileOf t0).firings = 0) :
    ∃ t : State, exec (.beatStall t0) s = .next t ∧ (t.tileOf t0).firings = 1 ∧ (t.tileOf t0).parked = true ∧ (t.tileOf t0).items = [] ∧
      t.mem = s.mem ∧ t.comp.reissue = s.comp.reissue ++ (s.tileOf t0).items.map (fun w => (t0.die, w, s.err.total)) := by
  refine ⟨_, exec_beatStall hl hu hpend hpark, ?_⟩
  obtain ⟨hrun, -, hitems, hhold, -⟩ := State.requestPending_iff.1 hpend
  obtain ⟨v, hstall, htile, hmem, hqueue⟩ := State.stallTile_first hu hrun hidle hsil hfatal hf
  obtain ⟨hafter, hkept, hre⟩ := State.reissueTile_of_no_hold (s := v) (die := t0.die) (pos := TileAt_pos t0) (by rw [htile]; exact hhold)
    (by rw [htile]; exact hitems) s.err.total
  have hlast : (s.stallTile t0).tileOf t0 = { s.tileOf t0 with
      firings := 1, parked := true, items := [], hold := none, acc := [], active := none, shadow := none, forErr := none } := by
    rw [hstall]
    refine hafter.trans ?_
    rw [htile]
  rw [hlast, hstall]
  refine ⟨rfl, rfl, rfl, hkept.trans hmem, hre.trans ?_⟩
  rw [hqueue, htile]

/-- The second firing maps the tile out (R57, R450). -/
theorem beatStall_mapsOut (hf : 0 < (s.tileOf t0).firings) : ∃ t : State, exec (.beatStall t0) s = .next t ∧ t.tileUsable t0 = false := by
  obtain ⟨-, hcore, htile, -⟩ := State.tileUsable_iff.1 hu
  have hpos : TileAt_pos t0 < 128 := by unfold TileAt_pos; omega
  refine ⟨_, exec_beatStall hl hu hpend hpark, Bool.eq_false_iff.2 fun h => ?_⟩
  have hlost : (s.stallTile t0).tileLost t0.die (TileAt_pos t0) = true := by
    unfold State.stallTile
    dsimp only
    rw [if_pos (by omega)]
    exact State.raise_tileLost (s := s.onTile t0 _) (e := { status := 0x0F07, cls := 2, unit := 1, die := t0.die, pos := TileAt_pos t0, until_ := .item })
      hidle hsil rfl rfl hpos
  rw [(State.tileUsable_iff.1 h).2.2.2] at hlost
  exact Bool.false_ne_true hlost

end Stall

/-! ## Calibration (R56) -/

theorem exec_delayLineCalibration (hl : s.live = true) {die : Nat} (hd : die < 4) : exec (.delayLineCalibration die) s =
    .next (if s.time.calMv.getD die 0 + 25 < s.pwr.vcore.getD die 0 ∨ s.pwr.vcore.getD die 0 + 25 < s.time.calMv.getD die 0
      then { s with time := { s.time with calMv := s.time.calMv.set die (s.pwr.vcore.getD die 0) } } else s) := by
  have hp : s.powered = true := by
    simp only [State.live, Bool.and_eq_true] at hl
    exact hl.1.1
  show execDelayLineCalibration die s = _
  unfold execDelayLineCalibration act
  simp only [hp, hd, decide_true, Bool.true_and, decide_eq_true_eq]
  refine congrArg _ (ite_congr (propext ?_) (fun _ => rfl) fun _ => rfl)
  omega

/-! ## Engines (R198, R455) -/

/-- The loss of an engine, the primary or the mirror (R198). -/
def engineLoss (primaryLost : Bool) : ErrIn :=
  { status := 0x0F05, cls := 2, unit := 6, die := if primaryLost then 0 else 1, detail := b2n primaryLost }

theorem State.failSeqs_eng (s : State) (qs : List Nat) (status : Nat) : (s.failSeqs qs status).eng = s.eng := by
  obtain ⟨r, x, o, h⟩ := State.events_frame status qs { s with steep := { s.steep with
    failed := qs.foldl addNew s.steep.failed, staged := s.steep.staged.filter fun g => !qs.contains g.seq } }
  exact (congrArg State.eng h).trans rfl

/-- The lost engine is gone and the other goes on, the package not stopped (R198). -/
theorem State.failover_eng (s : State) (e : ErrIn) (lost : Bool) :
    (s.failover e lost).eng = (if lost then { s.eng with primary := false } else { s.eng with mirror := false }) ∧
    (s.failover e lost).err.fatal = s.err.fatal := by
  have hfatal := State.note_fatal s { e with detail := b2n lost }
  have heng : (s.note { e with detail := b2n lost }).eng = s.eng := by
    obtain ⟨x, o, hn⟩ := State.note_frame s { e with detail := b2n lost }
    rw [hn]
  unfold State.failover
  generalize s.note { e with detail := b2n lost } = n at hfatal heng ⊢
  have hprimary : { n.eng with primary := false } = { s.eng with primary := false } := by rw [heng]
  have hmirror : { n.eng with mirror := false } = { s.eng with mirror := false } := by rw [heng]
  dsimp only
  split
  · split
    · exact ⟨(State.failSeqs_eng _ _ _).trans hprimary, (State.failSeqs_fatal _ _ _).trans hfatal⟩
    · exact ⟨hprimary, hfatal⟩
  · exact ⟨hmirror, hfatal⟩

theorem State.settleRoutes_of_no_model (h : s.model = none) : s.settleRoutes = s := by
  simp [State.settleRoutes, h]

theorem engineFailover_waits (hm : s.eng.mirror = false) : exec (.engineFailover false) s = .next s := by
  simp [exec, execEngineFailover, act, hm]

section Engines

variable (hl : s.live = true) (hidle : s.err.handling = []) (hsil : s.err.silent = false) (hp : s.eng.primary = true)

include hl hidle hsil hp

/-- With both engines the other one goes on (R198). -/
theorem exec_engineFailover (hm : s.eng.mirror = true) (lost : Bool) :
    exec (.engineFailover lost) s = .next (s.failover (engineLoss lost) lost).settleRoutes := by
  have hraise : s.raise (engineLoss lost) = s.failover (engineLoss lost) lost := by
    rw [State.raise_unitLost hidle hsil rfl]
    show (if s.eng.primary && s.eng.mirror then s.failover (engineLoss lost) ((engineLoss lost).die = 0) else _) = _
    rw [hp, hm]
    cases lost <;> rfl
  rw [← hraise]
  exact show execEngineFailover lost s = _ from act_of_true (by cases lost <;> simp [hl, hp, hm]) s _

theorem engineFailover_leaves_other (hm : s.eng.mirror = true) :
    (∃ t : State, exec (.engineFailover true) s = .next t ∧ t.eng.primary = false ∧
      (s.model = none → t.eng.mirror = true ∧ t.err.fatal = s.err.fatal)) ∧
    (∃ t : State, exec (.engineFailover false) s = .next t ∧ t.eng.mirror = false ∧
      (s.model = none → t.eng.primary = true ∧ t.err.fatal = s.err.fatal)) := by
  have hnone (lost : Bool) (h : s.model = none) : (s.failover (engineLoss lost) lost).settleRoutes = s.failover (engineLoss lost) lost :=
    State.settleRoutes_of_no_model ((State.failover_kept (.refl s) _ _).model.trans h)
  have hlast (lost : Bool) := State.settleRoutes_lasts (.refl (s.failover (engineLoss lost) lost))
  have heng (lost : Bool) := State.failover_eng s (engineLoss lost) lost
  refine ⟨⟨_, exec_engineFailover hl hidle hsil hp hm true, (hlast true).primary ?_, fun h => ?_⟩,
    ⟨_, exec_engineFailover hl hidle hsil hp hm false, (hlast false).mirror ?_, fun h => ?_⟩⟩
  · rw [(heng true).1]
    rfl
  · rw [hnone true h, (heng true).1]
    exact ⟨hm, (heng true).2⟩
  · rw [(heng false).1]
    rfl
  · rw [hnone false h, (heng false).1]
    exact ⟨hp, (heng false).2⟩

/-- The loss of the last engine is package-fatal (R198, R455). -/
theorem engineFailover_stops (hm : s.eng.mirror = false) :
    ∃ t : State, exec (.engineFailover true) s = .next t ∧ t.err.fatal = true ∧ t.err.silent = true := by
  have hraise : s.raise (engineLoss true) = s.fatal { engineLoss true with cls := 3 } := by
    rw [State.raise_unitLost hidle hsil rfl]
    show (if s.eng.primary && s.eng.mirror then _ else s.fatal { engineLoss true with cls := 3 }) = _
    rw [hm, Bool.and_false, if_neg Bool.false_ne_true]
  obtain ⟨hfatal, hsilent⟩ := State.fatal_stops s { engineLoss true with cls := 3 }
  have hkeep := State.settleRoutes_keep (Keep.refl (s.fatal { engineLoss true with cls := 3 }))
  refine ⟨_, show execEngineFailover true s = _ from act_of_true (by simp [hl, hp]) s _, ?_⟩
  show (s.raise (engineLoss true)).settleRoutes.err.fatal = true ∧ (s.raise (engineLoss true)).settleRoutes.err.silent = true
  rw [hraise]
  exact ⟨hkeep.fatal hfatal, (hkeep.silent hsilent).1⟩

end Engines

/-! ## The rebuild after a channel loss (R195, R453) -/

/-- A record that is cached is not read from the table. -/
theorem State.readRecord_of_cached {q : Nat} (h : s.eng.cache.contains q = true) (bad : Bool) : s.readRecord q bad = s := by
  rw [State.readRecord, if_pos h]

theorem State.readRecords_of_cached (l : List (Nat × SeqRec)) (h : ∀ p ∈ l, s.eng.cache.contains p.1 = true) :
    l.foldl (fun s p => s.readRecord p.1 false) s = s := by
  induction l with
  | nil => rfl
  | cons p l ih =>
    rw [List.foldl_cons, State.readRecord_of_cached (h p List.mem_cons_self)]
    exact ih fun q hq => h q (List.mem_cons_of_mem _ hq)

theorem State.normReset_frame (s : State) (m : Model) (whole : Bool) : ∃ h d b w r o, s.normReset m whole =
    { s with mem := { s.mem with hbm := h, dieStore := d, badBursts := b }, waiting := w, rings := r, out := o } := by
  refine foldl_stores_frame (fun s i => ?_) _ s
  split
  · exact ⟨s.mem.hbm, s.mem.dieStore, s.mem.badBursts, s.waiting, s.rings, s.out, rfl⟩
  · exact State.storeOk_frame s _ _

theorem State.routeReset_frame (s : State) (m : Model) : ∃ h d b w r o, s.routeReset m =
    { s with mem := { s.mem with hbm := h, dieStore := d, badBursts := b }, waiting := w, rings := r, out := o } := by
  refine foldl_stores_frame (fun s i => ?_) _ s
  split
  · exact ⟨s.mem.hbm, s.mem.dieStore, s.mem.badBursts, s.waiting, s.rings, s.out, rfl⟩
  · exact State.storeOk_frame s _ _

theorem State.dropBacklog_eng_mem (s : State) (n : Nat) : (s.dropBacklog n).eng = s.eng ∧ (s.dropBacklog n).mem = s.mem := by
  unfold State.dropBacklog
  dsimp only
  split
  · exact ⟨rfl, rfl⟩
  · split
    · exact ⟨rfl, rfl⟩
    · obtain ⟨x, o, h⟩ := State.note_frame (s.setRing n { s.ring n with
        backlog := [], drop := (s.ring n).drop + BitVec.ofNat 64 (s.ring n).backlog.length, overflow := true })
        { status := 0x0104, cls := 0, unit := 9, pos := 1, detail := n }
      rw [h]
      exact ⟨rfl, rfl⟩

theorem State.dropBacklogs_eng_mem (l : List Nat) : ∀ s : State, (l.foldl (fun s n => s.dropBacklog n) s).eng = s.eng ∧
    (l.foldl (fun s n => s.dropBacklog n) s).mem = s.mem := by
  induction l with
  | nil => exact fun _ => ⟨rfl, rfl⟩
  | cons n l ih =>
    intro s
    obtain ⟨he, hm⟩ := ih (s.dropBacklog n)
    obtain ⟨he', hm'⟩ := State.dropBacklog_eng_mem s n
    exact ⟨he.trans he', hm.trans hm'⟩

/-- The tables of the loaded model after a rebuild (R88, R193, R453). -/
theorem State.resets_eng_rebuild (s : State) (m : Model) : ((s.normReset m true).routeReset m).eng = s.eng ∧
    ((s.normReset m true).routeReset m).mem.rebuild = s.mem.rebuild := by
  obtain ⟨_, _, _, _, _, _, hn⟩ := State.normReset_frame s m true
  obtain ⟨_, _, _, _, _, _, hr⟩ := State.routeReset_frame (s.normReset m true) m
  rw [hr, hn]
  exact ⟨rfl, rfl⟩

theorem seqTableRebuild_waits (h : s.mem.rebuild = false) : exec .seqTableRebuild s = .next s := by
  simp [exec, execSeqTableRebuild, act, h]

theorem seqTableRebuild_restores (hl : s.live = true) (hr : s.mem.rebuild = true) (hc : ∀ p ∈ s.eng.seqs, s.eng.cache.contains p.1 = true) :
    ∃ t : State, exec .seqTableRebuild s = .next t ∧ t.mem.rebuild = false ∧ t.eng = { s.eng with
      copy0 := true, copy1 := true
      tenants := s.eng.tenants.mapVals (fun _ t => { t with steerDir := 0, steerVer := t.steerVer + 1 }) } := by
  refine ⟨_, show execSeqTableRebuild s = _ from act_of_true (by simp [hl, hr]) s _, ?_⟩
  obtain ⟨m, hw⟩ := State.writeBack_frame s
  dsimp only
  rw [State.readRecords_of_cached _ hc, hw, State.setErr_mem, State.setErr_eng, (State.dropBacklogs_eng_mem _ _).1,
    (State.dropBacklogs_eng_mem _ _).2]
  dsimp only
  split
  · obtain ⟨he, hb⟩ := State.resets_eng_rebuild { s with
      eng := { s.eng with copy0 := true, copy1 := true }, mem := { m with rebuild := false } } ‹_›
    rw [he]
    exact ⟨hb, rfl⟩
  · exact ⟨rfl, rfl⟩

/-- Settles O30, a row at a time. -/
theorem tilesAndEnginesGoOn : Obligations.TilesAndEnginesGoOn := by
  unfold Obligations.TilesAndEnginesGoOn
  intro s hl
  refine ⟨?feeder, ?leaves, ?tiles, fun die hd => exec_delayLineCalibration hl hd, fun hidle hsil => ⟨?bothEngines, ?lastEngine⟩,
    seqTableRebuild_waits, ?rebuild⟩
  case feeder =>
    intro t0 w reads hrun h8 hfree hok hnew u hread
    exact ⟨feederWorkItem_runs hl hrun h8 hfree hok hnew hread, feederWorkItem_holds hl hrun h8 hfree hok hnew hread⟩
  case leaves =>
    intro t0 first second f1 f2
    refine ⟨fun h => refetch_of_no_hold h first second f1 f2, fun w reads p hhold hbad hu => ⟨fun hq => ⟨?_, ?_, ?_⟩, fun hq => ⟨?_, ?_⟩⟩⟩
    · exact granuleRefetch_waits hhold hbad hq f1 f2
    · exact leafRefetch_queues hl hhold hbad hu hq
    · exact fun h1 hw hidle => leafRefetch_resumes hl hhold hbad hu hq h1 hw hidle second
    · exact leafRefetch_waits hhold hbad hq first second
    · exact granuleRefetch_takes hl hhold hbad hq f1 f2
  case tiles =>
    intro t0 hu hrun
    refine ⟨fun hcosy hw hr steps h1 h16 => ?down, fun hcosy hw hr => ?up, beatStall_waits, fun hpend hpark hidle hsil hfatal =>
      ⟨fun hf => beatStall_parks hl hu hpend hpark hidle hsil hfatal hf, fun hf => beatStall_mapsOut hl hu hpend hpark hidle hsil hf⟩⟩
    case down => exact ⟨_, exec_cosyRampDown hl hrun hu hcosy hw hr h1 h16, State.tileOf_onTile_self _ _ _, rfl, rfl⟩
    case up => exact ⟨_, exec_cosyRampUp hl hrun hu hcosy hw hr, State.tileOf_onTile_self _ _ _, rfl, rfl⟩
  case bothEngines => exact fun hp hm => engineFailover_leaves_other hl hidle hsil hp hm
  case lastEngine => exact fun hp hm => ⟨engineFailover_waits hm, engineFailover_stops hl hidle hsil hp hm⟩
  case rebuild =>
    intro hr hc
    obtain ⟨t, ht, hb, he⟩ := seqTableRebuild_restores hl hr hc
    exact ⟨t, ht, by rw [he], by rw [he], hb, by rw [he], by rw [he]⟩

end Sys2Proof.Machine
end

section
/-! PROOF. The start-up tests of cores, tiles and memory channels (spec 04 R107, spec 18 R451, spec 20 R497, spec 21 R525). -/

namespace Sys2Proof.Machine

/-! ## Masks by die -/

theorem Tab.get_of_not_mem_keys {α : Type} {t : Tab α} {k : Nat} (h : k ∉ t.keys) (d : α) : t.get d k = d := by
  cases hf : t.find? k with
  | none => rw [Tab.get, hf, Option.getD_none]
  | some v => exact absurd (List.mem_map_of_mem (Tab.mem_of_find? hf)) h

/-- Entries that hold the default may be left out. -/
theorem Tab.get_filter_ne_zero {n : Nat} {t : Tab (BitVec n)} (h : t.keys.Nodup) (k : Nat) :
    Tab.get (t.filter fun p => p.2 != 0) 0 k = t.get 0 k := by
  induction t with
  | nil => rfl
  | cons p t ih =>
    obtain ⟨i, a⟩ := p
    obtain ⟨hi, ht⟩ := List.nodup_cons.1 h
    rcases eq_or_ne a 0 with rfl | ha
    · rw [List.filter_cons_of_neg (by simp), ih ht]
      rcases eq_or_ne i k with rfl | hk
      · rw [Tab.get_of_not_mem_keys hi]
        simp [Tab.get, Tab.find?]
      · simp [Tab.get, Tab.find?, hk]
    · rw [List.filter_cons_of_pos (by simpa using ha)]
      rcases eq_or_ne i k with rfl | hk
      · simp [Tab.get, Tab.find?]
      · simpa [Tab.get, Tab.find?, hk] using ih ht

theorem tabOf_get {n : Nat} (f : Nat → BitVec n) {d : Nat} (hd : d < 4) : (tabOf ((List.range 4).map f)).get 0 d = f d := by
  have hkeys : (Tab.keys ((List.range 4).zip ((List.range 4).map f))).Nodup := (by decide : [0, 1, 2, 3].Nodup)
  rw [tabOf, Tab.get_filter_ne_zero hkeys]
  match d, hd with
  | 0, _ | 1, _ | 2, _ | 3, _ => rfl

/-! ## Cores out with their tiles (R107) -/

theorem getLsbD_one_shiftLeft {w : Nat} (n : Nat) {i : Nat} (hi : i < w) :
    (((1 <<< n : Nat) : BitVec w)).getLsbD i = decide (i = n) := by
  rw [BitVec.natCast_eq_ofNat, BitVec.getLsbD_ofNat, Nat.one_shiftLeft, Nat.testBit_two_pow, decide_eq_true hi, Bool.true_and]
  exact decide_eq_decide.2 eq_comm

/-- The bits set one by one in a mask. -/
theorem getLsbD_foldl_or {w : Nat} (p : Nat → Bool) (m : BitVec w) (n : Nat) {i : Nat} (hi : i < w) :
    ((List.range n).foldl (fun (m : BitVec w) c => if p c then m ||| ((1 <<< c : Nat) : BitVec w) else m) m).getLsbD i =
      (m.getLsbD i || decide (i < n) && p i) := by
  induction n with
  | zero => simp
  | succ n ih =>
    rw [List.range_succ, List.foldl_append, List.foldl_cons, List.foldl_nil]
    rcases eq_or_ne i n with rfl | hne
    · cases hp : p i
      · rw [if_neg Bool.false_ne_true, ih, hp, Bool.and_false, Bool.and_false]
      · rw [if_pos rfl, BitVec.getLsbD_or, getLsbD_one_shiftLeft i hi]
        simp
    · have hlt : i < n + 1 ↔ i < n := by omega
      cases hp : p n
      · rw [if_neg Bool.false_ne_true, ih, decide_eq_decide.2 hlt]
      · rw [if_pos rfl, BitVec.getLsbD_or, getLsbD_one_shiftLeft n hi, ih, decide_eq_decide.2 hlt, decide_eq_false hne, Bool.or_false]

/-- The cores of a die that the test maps out: those that fail, and those whose tiles both fail (R107, R451). -/
def coresOut (cores : BitVec 64) (tiles : BitVec 128) : BitVec 64 :=
  (List.range 64).foldl (fun (m : BitVec 64) c => if tiles.getLsbD (2 * c) && tiles.getLsbD (2 * c + 1) then m ||| 1 <<< c else m) cores

theorem getLsbD_coresOut (cores : BitVec 64) (tiles : BitVec 128) {i : Nat} (hi : i < 64) :
    (coresOut cores tiles).getLsbD i = (cores.getLsbD i || tiles.getLsbD (2 * i) && tiles.getLsbD (2 * i + 1)) := by
  rw [coresOut, getLsbD_foldl_or (fun c => tiles.getLsbD (2 * c) && tiles.getLsbD (2 * c + 1)) cores 64 hi, decide_eq_true hi,
    Bool.true_and]

@[simp] theorem coresOut_zero (cores : BitVec 64) : coresOut cores 0#128 = cores :=
  BitVec.eq_of_getLsbD_eq fun i hi => by simp [getLsbD_coresOut _ _ hi]

/-- Both tiles of one core failing take that core and no other. -/
theorem coresOut_bothTiles {c : Nat} (hc : c < 64) : coresOut 0 ((3 : BitVec 128) <<< (2 * c)) = (1 : BitVec 64) <<< c := by
  have h3 (k : Nat) : (3#128).getLsbD k = decide (k < 2) := by
    match k with
    | 0 | 1 => rfl
    | k + 2 => simp [BitVec.getLsbD, Nat.testBit_succ]
  refine BitVec.eq_of_getLsbD_eq fun i hi => ?_
  rw [getLsbD_coresOut _ _ hi, Bool.eq_iff_iff]
  simp [BitVec.getLsbD_shiftLeft, h3, BitVec.getLsbD_one]
  omega

theorem oneCore_ne_allOnes (c : Nat) : (1 : BitVec 64) <<< c ≠ BitVec.allOnes 64 := by
  cases c with
  | zero => decide
  | succ c =>
    intro h
    have hbit : ((1 : BitVec 64) <<< (c + 1)).getLsbD 0 = (BitVec.allOnes 64).getLsbD 0 := by rw [h]
    simp at hbit

theorem State.coresOf_isEmpty {s : State} {d : Nat} (h : s.comp.coreLost.get 0 d ≠ BitVec.allOnes 64) : (s.coresOf d).isEmpty = false := by
  contrapose! h
  refine BitVec.eq_of_getLsbD_eq fun i hi => ?_
  have hall := List.filter_eq_nil_iff.1 (List.isEmpty_iff.1 (Bool.eq_true_of_not_eq_false h)) i (List.mem_range.2 hi)
  rw [BitVec.getLsbD_allOnes, decide_eq_true hi]
  simpa [State.coreLost] using hall

/-! ## CORE_TILE_TEST -/

/-- Start-up latches registers and does nothing else (R344). -/
theorem State.latchStart_frame (s : State) (offs : List Nat) : ∃ l, s.latchStart offs = { s with hif := { s.hif with latch := l } } := by
  induction offs generalizing s with
  | nil => exact ⟨s.hif.latch, rfl⟩
  | cons o offs ih => exact ih (s.latchAbove (s.regAt o) 0)

/-- The masks of the test take effect (R107, R525). -/
def State.withMasks (s : State) (cores : List (BitVec 64)) (tiles : List (BitVec 128)) : State := { s with
  comp := { s.comp with
    coreLost := tabOf ((List.range 4).map fun d => coresOut (cores.getD d 0) (tiles.getD d 0))
    tileLost := tabOf tiles }
  start := { s.start with coresTested := true } }

/-- The masks take effect and their registers' reset values are latched (R344, R363). -/
def State.mapOut (s : State) (cores : List (BitVec 64)) (tiles : List (BitVec 128)) : State :=
  (s.withMasks cores tiles).latchStart [0x1A0040, 0x1A0060, 0x1A0048, 0x1A0070, 0x1A0050, 0x1A0080, 0x1A0058, 0x1A0090]

theorem State.mapOut_frame (s : State) (cores : List (BitVec 64)) (tiles : List (BitVec 128)) :
    ∃ l, s.mapOut cores tiles = { s.withMasks cores tiles with hif := { s.hif with latch := l } } :=
  State.latchStart_frame ..

theorem State.mapOut_start (s : State) (cores : List (BitVec 64)) (tiles : List (BitVec 128)) :
    (s.mapOut cores tiles).start = { s.start with coresTested := true } := by
  obtain ⟨l, h⟩ := s.mapOut_frame cores tiles
  rw [h]
  rfl

theorem State.mapOut_err (s : State) (cores : List (BitVec 64)) (tiles : List (BitVec 128)) : (s.mapOut cores tiles).err = s.err := by
  obtain ⟨l, h⟩ := s.mapOut_frame cores tiles
  rw [h]
  rfl

theorem State.mapOut_tileLost (s : State) (cores : List (BitVec 64)) (tiles : List (BitVec 128)) :
    (s.mapOut cores tiles).comp.tileLost = tabOf tiles := by
  obtain ⟨l, h⟩ := s.mapOut_frame cores tiles
  rw [h]
  rfl

theorem State.mapOut_coreLost (s : State) (cores : List (BitVec 64)) (tiles : List (BitVec 128)) {d : Nat} (hd : d < 4) :
    (s.mapOut cores tiles).comp.coreLost.get 0 d = coresOut (cores.getD d 0) (tiles.getD d 0) := by
  obtain ⟨l, h⟩ := s.mapOut_frame cores tiles
  rw [h]
  exact tabOf_get (fun d => coresOut (cores.getD d 0) (tiles.getD d 0)) hd

/-- Where every die keeps a core, the test maps out and stops nothing (R451, R525). -/
theorem exec_coreTileTest {s : State} (hu : s.mgmtUp = true) (ht : s.start.coresTested = false) {cores : List (BitVec 64)}
    {tiles : List (BitVec 128)} (hkeep : ∀ d, d < 4 → coresOut (cores.getD d 0) (tiles.getD d 0) ≠ BitVec.allOnes 64) :
    exec (.coreTileTest cores tiles) s = .next (s.mapOut cores tiles) := by
  have hdies : (List.range 4).find? (fun d => ((s.mapOut cores tiles).coresOf d).isEmpty) = none := by
    refine List.find?_eq_none.2 fun d hd => ?_
    have hlt := List.mem_range.1 hd
    rw [State.coresOf_isEmpty (s.mapOut_coreLost cores tiles hlt ▸ hkeep d hlt)]
    exact Bool.false_ne_true
  refine (show execCoreTileTest cores tiles s = _ from act_of_true (by simp [hu, ht]) s _).trans (congrArg _ ?_)
  change (match (List.range 4).find? fun d => ((s.mapOut cores tiles).coresOf d).isEmpty with
    | some d => (s.mapOut cores tiles).fatal { status := 0x0F06, cls := 3, unit := 2, die := d }
    | none => s.mapOut cores tiles) = _
  rw [hdies]

/-! ## HBM_TRAIN_TEST -/

/-- Placing the sequence-table copies touches memory only past the channels lost at start, and the start record only where no
place is found (R196). -/
theorem State.seqPlace_frame (s : State) : s.seqPlace.mem.lostAtStart = s.mem.lostAtStart ∧
    s.seqPlace.start.hbmTested = s.start.hbmTested ∧ s.seqPlace.start.clearing = s.start.clearing ∧
    s.seqPlace.caddy = s.caddy ∧ s.seqPlace.comp = s.comp := by
  obtain ⟨x, o, hn⟩ := State.note_frame (s.setStart { s.start with seqPlaced := false }) { status := 0x055A, cls := 0 }
  unfold State.seqPlace
  split
  · rw [hn]
    exact ⟨rfl, rfl, rfl, rfl, rfl⟩
  · split
    · rw [hn]
      exact ⟨rfl, rfl, rfl, rfl, rfl⟩
    · exact ⟨rfl, rfl, rfl, rfl, rfl⟩

theorem exec_hbmTrainTest {s : State} (hu : s.mgmtUp = true) (ht : s.start.hbmTested = false) (lost : W512) :
    ∃ t : State, exec (.hbmTrainTest lost) s = .next t ∧
      t.mem.lostAtStart = lost &&& BitVec.ofNat 512 (2 ^ s.part.channels - 1) ∧ t.start.hbmTested = true ∧
      t.start.clearing = s.caddy.scrubRequired ∧ t.caddy = s.caddy ∧ t.comp = s.comp := by
  refine ⟨_, show execHbmTrainTest lost s = _ from act_of_true (by simp [hu, ht]) s _, ?_⟩
  dsimp only
  obtain ⟨l, hl⟩ := State.latchStart_frame (State.seqPlace _) _
  rw [hl]
  exact State.seqPlace_frame _

/-- Settles O57: the tests of cores and tiles by their masks, the test of channels by what placing the copies leaves. -/
theorem startTestsMapOut : Obligations.StartTestsMapOut := by
  unfold Obligations.StartTestsMapOut
  refine fun s hu => ⟨fun ht => ⟨?clean, ?cores, ?tiles⟩, fun ht lost => exec_hbmTrainTest hu ht lost⟩
  case clean =>
    have hmasks : tabOf ((List.range 4).map fun d => coresOut ([0, 0, 0, 0].getD d 0) ([0, 0, 0, 0].getD d 0)) = [] := by
      decide
    rw [exec_coreTileTest hu ht (by decide), State.mapOut, State.withMasks, hmasks]
    rfl
  case cores =>
    intro c0 c1 c2 c3 h0 h1 h2 h3
    have hlost {d : Nat} (hd : d < 4) : coresOut ([c0, c1, c2, c3].getD d 0) ([0, 0, 0, 0].getD d 0) = [c0, c1, c2, c3].getD d 0 := by
      match d, hd with
      | 0, _ | 1, _ | 2, _ | 3, _ => exact coresOut_zero _
    have hget {d : Nat} (hd : d < 4) := (s.mapOut_coreLost [c0, c1, c2, c3] [0, 0, 0, 0] hd).trans (hlost hd)
    refine ⟨_, exec_coreTileTest hu ht fun d hd => ?_, congrArg Start.coresTested (s.mapOut_start _ _), s.mapOut_err _ _,
      hget (d := 0) (by decide), hget (d := 1) (by decide), hget (d := 2) (by decide), hget (d := 3) (by decide)⟩
    rw [hlost hd]
    match d, hd with
    | 0, _ => exact h0
    | 1, _ => exact h1
    | 2, _ => exact h2
    | 3, _ => exact h3
  case tiles =>
    intro c hc
    refine ⟨_, exec_coreTileTest hu ht fun d hd => ?_, s.mapOut_err _ _,
      (s.mapOut_coreLost _ _ (by decide)).trans (coresOut_bothTiles hc), ?_⟩
    · match d, hd with
      | 0, _ => exact (coresOut_bothTiles hc).trans_ne (oneCore_ne_allOnes c)
      | 1, _ | 2, _ | 3, _ => exact (coresOut_zero 0).trans_ne (by decide)
    · rw [State.mapOut_tileLost]
      exact tabOf_get (fun d => [(3 : BitVec 128) <<< (2 * c), 0, 0, 0].getD d 0) (by decide : 0 < 4)

end Sys2Proof.Machine
end

section
/-! PROOF. `Stands`: neither the handling of an error nor the duties of a routed layer change what the routing units have
received and chosen, nor the state of discovery (spec 07 R182 to R192, spec 18 R442 to R458). Stated from an older state `r`,
so that the lemmas chain by `apply`. -/

namespace Sys2Proof.Machine

/-! ## The relation -/

/-- The routing units apart from the duties that their layers have seen carried out: end markers sent, shape words written,
combined lines put out. -/
def Route.received (x : Route) : Route := { x with dispSent := [], pourSent := [], shaped := [], layersDone := [] }

namespace Route

variable (x : Route) (l : List Nat)

theorem received_dispSent : { x with dispSent := l }.received = x.received := rfl
theorem received_pourSent : { x with pourSent := l }.received = x.received := rfl
theorem received_shaped : { x with shaped := l }.received = x.received := rfl
theorem received_layersDone : { x with layersDone := l }.received = x.received := rfl

end Route

/-- What was received and chosen stands, no DISP_END is sent twice, and discovery stays. -/
structure Stands (s t : State) : Prop where
  received : t.rte.received = s.rte.received
  sent : s.rte.dispSent ⊆ t.rte.dispSent
  disc : t.disc = s.disc

namespace Stands

variable {r s t : State}

theorem refl (s : State) : Stands s s := ⟨rfl, List.Subset.refl _, rfl⟩

theorem trans (h : Stands r s) (k : Stands s t) : Stands r t :=
  ⟨k.received.trans h.received, List.Subset.trans h.sent k.sent, k.disc.trans h.disc⟩

/-- An update of other fields. -/
theorem upd (h : Stands r s) (e : (t.rte, t.disc) = (s.rte, s.disc)) : Stands r t := by
  obtain ⟨hr, hd⟩ := Prod.mk.inj e
  exact h.trans ⟨congrArg _ hr, hr ▸ List.Subset.refl _, hd⟩

/-- An operation known by its frame, where the frame leaves these fields. -/
theorem eq (h : Stands r s) {u : State} (e : t = u) (hc : (u.rte, u.disc) = (s.rte, s.disc)) : Stands r t := e ▸ h.upd hc

/-- Duties carried out. -/
theorem duty (h : Stands r s) {x : Route} (e : x.received = s.rte.received) (hs : s.rte.dispSent ⊆ x.dispSent) :
    Stands r (s.setRte x) :=
  h.trans ⟨e, hs, rfl⟩

theorem foldl {α : Type} (h : Stands r s) {f : State → α → State} (hf : ∀ {t} a, Stands r t → Stands r (f t a)) (l : List α) :
    Stands r (l.foldl f s) := by
  induction l generalizing s with
  | nil => exact h
  | cons a l ih => exact ih (hf a h)

theorem ite {c : Prop} [Decidable c] (h : Stands r s) (k : Stands r t) : Stands r (if c then s else t) := by
  split <;> assumption

theorem lines (h : Stands s t) : t.rte.lines = s.rte.lines := (congrArg Route.lines h.received :)
theorem choices (h : Stands s t) : t.rte.choices = s.rte.choices := (congrArg Route.choices h.received :)
theorem dispEnds (h : Stands s t) : t.rte.dispEnds = s.rte.dispEnds := (congrArg Route.dispEnds h.received :)
theorem pourEnds (h : Stands s t) : t.rte.pourEnds = s.rte.pourEnds := (congrArg Route.pourEnds h.received :)
theorem combined (h : Stands s t) : t.rte.combined = s.rte.combined := (congrArg Route.combined h.received :)
theorem discClosed (h : Stands s t) : t.rte.discClosed = s.rte.discClosed := (congrArg Route.discClosed h.received :)
theorem discFailed (h : Stands s t) : t.rte.discFailed = s.rte.discFailed := (congrArg Route.discFailed h.received :)
theorem discInvalid (h : Stands s t) : t.rte.discInvalid = s.rte.discInvalid := (congrArg Route.discInvalid h.received :)
theorem discDup (h : Stands s t) : t.rte.discDup = s.rte.discDup := (congrArg Route.discDup h.received :)

end Stands

section

variable {r s : State} (h : Stands r s)

include h

/-! ## Records, events and sending -/

theorem State.note_stands (e : ErrIn) : Stands r (s.note e) := by
  obtain ⟨x, o, k⟩ := State.note_frame s e
  exact h.eq k rfl

theorem State.events_stands (qs : List Nat) (status : Nat) : Stands r (s.events qs status) := by
  obtain ⟨x, y, o, k⟩ := State.events_frame status qs s
  exact h.eq k rfl

theorem State.endWait_stands (w : Waiting) (status : Nat) : Stands r (s.endWait w status) := by
  obtain ⟨l, x, o, k⟩ := State.endWait_frame s w status
  exact h.eq k rfl

theorem State.store_stands (a : Nat) (bs : List Byte) : Stands r (s.store a bs) := by
  obtain ⟨hb, d, b, w, x, o, k⟩ := State.store_frame s a bs
  exact h.eq k rfl

theorem State.storeOk_stands (a : Nat) (bs : List Byte) : Stands r (s.storeOk a bs) := by
  obtain ⟨hb, d, b, w, x, o, k⟩ := State.storeOk_frame s a bs
  exact h.eq k rfl

theorem State.routeSend_stands (n : Nat) (p : RoutePkt) : Stands r (s.routeSend n p) := by
  obtain ⟨l, o, k⟩ := State.routeSend_frame s n p
  exact h.eq k rfl

theorem State.signalMiss_stands : Stands r s.signalMiss := by
  obtain ⟨a, hb, d, b, w, x, f, l, o, k⟩ := State.barrierSwap_frame s (2 ^ 63 + s.steep.number.toNat)
  exact h.eq k rfl

theorem State.leave_stands : Stands r s.leave := by
  obtain ⟨hb, d, b, w, x, f, l, o, k⟩ := State.sendOwn_frame s.drawByte.2 s.dom.manager 61 [s.drawByte.1]
  exact h.eq k rfl

/-! ## Failures of sequences, of units and of the package (R20, R198, R442 to R458) -/

theorem State.failSeqs_stands (qs : List Nat) (status : Nat) : Stands r (s.failSeqs qs status) :=
  State.events_stands (h.upd (by rfl)) qs status

theorem State.fatal_stands (e : ErrIn) : Stands r (s.fatal e) := by
  have hmiss : Stands r (if s.steep.running then s.signalMiss else s) := .ite (State.signalMiss_stands h) h
  have hleave := Stands.ite (c := (if s.steep.running then s.signalMiss else s).dom.manager = 0xFF) hmiss (State.leave_stands hmiss)
  have hstop : Stands r s.stopPackage := hleave.upd rfl
  exact (State.events_stands (State.note_stands (.ite h hstop) e) _ 0x0502).upd rfl

theorem State.settleItems_stands : Stands r s.settleItems := h.upd rfl

theorem State.reissueTile_stands (die pos : Nat) (index : Word) : Stands r (s.reissueTile die pos index) :=
  .ite h (h.upd (by rfl))

theorem State.mapOutTile_stands (die pos : Nat) (index : Word) : Stands r (s.mapOutTile die pos index) :=
  (State.reissueTile_stands h die pos index).upd rfl

theorem State.mapOutCore_stands (die core : Nat) (index : Word) : Stands r (s.mapOutCore die core index) :=
  (State.reissueTile_stands (State.reissueTile_stands h die (2 * core) index) die (2 * core + 1) index).upd rfl

theorem State.classRehash_stands (c ch : Nat) : Stands r (s.classRehash c ch) := .ite (h.upd (by rfl)) (h.upd (by rfl))

theorem State.dropChannel_stands (ch : Nat) : Stands r (s.dropChannel ch) := by
  unfold State.dropChannel
  dsimp only
  split
  · split
    · exact h.upd rfl
    · exact State.classRehash_stands (h.upd (by rfl)) _ _
  · exact h.upd rfl

theorem State.endPrefill_stands (q status : Nat) : Stands r (s.endPrefill q status) := by
  obtain ⟨l, x, o, k⟩ := State.endOp_frame s (s.seq q).opHandle.toNat status 0x0605
  exact .ite h ((h.eq k rfl).upd (by rfl))

theorem State.loseSeqs_stands (qs : List Nat) : Stands r (s.loseSeqs qs) := by
  unfold State.loseSeqs
  dsimp only
  have hlost := h.foldl (f := fun s q => (s.endPrefill q 0x0502).onSeq q fun r =>
      { r with state := .lost, paused := false, held := false, suspended := false })
    (fun q hk => (State.endPrefill_stands hk q 0x0502).upd (by rfl)) qs
  exact State.events_stands (hlost.upd (by rfl)) qs 0x0502

theorem State.syncLoss_stands : Stands r s.syncLoss := by
  unfold State.syncLoss
  dsimp only
  have hclear : Stands r s.syncClear := h.upd rfl
  have hends := hclear.foldl (f := fun s w => s.endWait w 0x0425) (fun w hk => State.endWait_stands hk w 0x0425)
    (s.syncClear.waiting.filter fun w => w.what.object.isSome)
  exact .ite (hends.upd (by rfl)) hends

theorem State.loseChannel_stands (e : ErrIn) : Stands r (s.loseChannel e) := by
  unfold State.loseChannel
  refine .ite (State.fatal_stands (h.upd (by rfl)) _) (.ite (State.fatal_stands (State.dropChannel_stands h _) _) ?_)
  have hlost (x : ErrIn) := State.loseSeqs_stands (State.dropChannel_stands (State.note_stands h x) e.pos) (s.lostSeqs (s.classOf e.pos))
  have hsync (x : ErrIn) := Stands.ite (c := e.pos / 32 = 1) (State.syncLoss_stands (hlost x)) (hlost x)
  exact .ite (State.signalMiss_stands (hsync _)) (hsync _)

theorem State.loseSegment_stands (die seg : Nat) : Stands r (s.loseSegment die seg) := by
  unfold State.loseSegment
  dsimp only
  split
  · exact h.upd rfl
  · refine .ite (h.upd (by rfl)) (Stands.upd (s := State.jnl _ 5 _ 0 0 0 0) ?_ (by rfl))
    exact .ite (h.upd (by rfl)) (h.upd (by rfl))

theorem State.failover_stands (e : ErrIn) (primaryLost : Bool) : Stands r (s.failover e primaryLost) := by
  unfold State.failover
  have hn := State.note_stands h { e with detail := b2n primaryLost }
  dsimp only
  split
  · exact .ite (State.failSeqs_stands (hn.upd (by rfl)) _ _) (hn.upd (by rfl))
  · exact hn.upd rfl

theorem State.unitLost_stands (e : ErrIn) : Stands r (s.unitLost e) := by
  unfold State.unitLost
  have hn := State.note_stands h e
  dsimp only
  split
  case h_1 =>
    have ht := State.settleItems_stands (State.mapOutTile_stands hn e.die e.pos s.err.total)
    refine .ite (.ite (State.fatal_stands ht _) ?_) ht
    exact State.settleItems_stands (State.mapOutCore_stands (State.note_stands ht _) _ _ _)
  case h_2 =>
    have hc := State.settleItems_stands (State.mapOutCore_stands hn e.die e.pos s.err.total)
    exact .ite (State.fatal_stands h _) (.ite (State.fatal_stands hc _) hc)
  case h_3 => exact State.loseChannel_stands h e
  case h_4 => exact (State.note_stands h _).upd rfl
  case h_5 => exact State.loseSegment_stands (State.note_stands h _) _ _
  case h_6 => exact .ite (State.failover_stands h e _) (State.fatal_stands h _)
  case h_7 => exact hn.upd rfl
  case h_8 => exact State.fatal_stands h _

theorem State.raise_stands (e : ErrIn) : Stands r (s.raise e) := by
  unfold State.raise
  split
  · exact h
  · dsimp only
    split
    · exact State.note_stands h e
    · exact State.failSeqs_stands (State.note_stands h e) _ _
    · exact State.unitLost_stands h _
    · exact State.fatal_stands h e

/-! ## The output path (R85 to R91, R124, R151) -/

theorem State.normCheck_stands (m : Model) (index : Nat) (rec : List Byte) (q : Nat) (x : List Word) :
    Stands r (s.normCheck m index rec q x) := by
  have hflag : Stands r (s.flagLine index q (lineNorm x)) :=
    .ite (State.raise_stands (h.upd (by rfl)) _) (h.upd (by rfl))
  exact .ite h (.ite hflag (h.upd (by rfl)))

theorem State.storeLine_stands (q a : Nat) (bs : List Byte) : Stands r (s.storeLine q a bs) := by
  unfold State.storeLine
  split
  · exact h
  · split
    · exact State.raise_stands h _
    · exact State.store_stands h a bs

theorem State.writeSlot_stands (m : Model) (draft : Bool) (rec : List Byte) (l : OpLine) (line : List Word) :
    Stands r (s.writeSlot m draft rec l line) := by
  unfold State.writeSlot
  dsimp only
  split
  · exact h
  · exact (State.storeLine_stands h _ _ _).upd rfl

theorem State.steps6to8_stands (m : Model) (draft : Bool) (index : Nat) (rec : List Byte) (lines row : Nat) (l : OpLine)
    (x : List Word) : Stands r (s.steps6to8 m draft index rec lines row l x) := by
  unfold State.steps6to8
  extract_lets n ft x₁ x₂ f y a s₁ s₂ s₃
  have h₁ : Stands r s₁ := State.storeLine_stands (State.storeLine_stands h _ _ _) _ _ _
  have h₂ : Stands r s₂ := .ite (State.storeLine_stands h₁ _ _ _) h₁
  have h₃ : Stands r s₃ := .ite h₂ (h₂.upd (by rfl))
  exact .ite (State.writeSlot_stands h₃ m draft rec l _) h₃

/-! ## Routed layers (R182 to R192) -/

theorem State.sendDispEnds_stands (layer : Nat) : Stands r (s.sendDispEnds layer) :=
  .ite h ((h.foldl (fun n hk => State.routeSend_stands hk n _) s.memberList).duty (Route.received_dispSent _ _) (List.subset_append_left _ _))

theorem State.sendPourEnds_stands (layer : Nat) : Stands r (s.sendPourEnds layer) :=
  .ite h ((h.foldl (fun n hk => State.routeSend_stands hk n _) s.memberList).duty (Route.received_pourSent _ _) (List.Subset.refl _))

theorem State.failedDuties_stands : Stands r s.failedDuties :=
  .ite (h.foldl (fun l hk => .ite (State.sendDispEnds_stands hk l) hk) s.routedList) h

theorem State.finishLayer_stands (m : Model) (layer : Nat) : Stands r (s.finishLayer m layer) := by
  unfold State.finishLayer
  dsimp only
  refine Stands.duty ?_ (Route.received_layersDone _ _) (List.Subset.refl _)
  split
  · exact h
  · exact (h.foldl (fun p hk => State.normCheck_stands hk m _ _ _ _) _).foldl
      (fun p hk => .ite hk (State.steps6to8_stands hk m false _ _ _ _ _ _)) _

theorem State.settleRoutes_stands : Stands r s.settleRoutes := by
  unfold State.settleRoutes
  split
  · exact h
  · refine h.foldl (fun l hk => ?_) _
    have hd := State.failedDuties_stands hk
    exact .ite (State.failedDuties_stands (State.finishLayer_stands hd _ l)) hd

theorem State.writeShape_stands (m : Model) (layer : Nat) (p : Nat × Nat) : Stands r (s.writeShape m layer p) :=
  State.storeOk_stands (State.storeOk_stands h _ _) _ _

theorem State.settleLayer_stands (layer : Nat) : Stands r (s.settleLayer layer) := by
  unfold State.settleLayer
  split
  · exact h
  · have hshapes := h.foldl (fun p hk => State.writeShape_stands hk ‹_› layer p) (s.homeExperts layer)
    exact .ite h (State.sendPourEnds_stands (hshapes.duty (Route.received_shaped _ (_ ++ [layer])) (List.Subset.refl _)) layer)

end

/-- A layer that sends its DISP_END has sent it. -/
theorem State.mem_sendDispEnds (s : State) (layer : Nat) : layer ∈ (s.sendDispEnds layer).rte.dispSent := by
  unfold State.sendDispEnds
  split
  · exact List.contains_iff_mem.1 ‹_›
  · exact List.mem_append_right _ List.mem_cons_self

end Sys2Proof.Machine
end

section
/-! PROOF. Routing packets as they arrive: counted, held for the next steep, or taken in the current one (spec 07 R182 to R190,
spec 10 R257). -/

namespace Sys2Proof.Machine

/-! ## What duties leave beside the routing units -/

/-- An update of the routing units, then their layers' duties: serving limits, power, locks and discovery stay. -/
theorem Stands.units {s u t : State} (h : Stands u t) (hk : Kept s t) (hd : u.disc = s.disc) :
    t.serve = s.serve ∧ t.pwr = s.pwr ∧ t.sec = s.sec ∧ t.disc = s.disc := ⟨hk.serve, hk.pwr, hk.sec, h.disc.trans hd⟩

/-! ## The filter (R12, R185, R190) -/

theorem State.steepness_number (s : State) : s.steepness s.steep.number = .current := if_pos rfl

section Filter

variable {s : State} (hl : s.live = true) {p : RoutePkt} {k : Nat} {next : Bool} {f : State → State}

include hl

theorem State.routeIn_badType (h : p.ptype < 1 ∨ 4 < p.ptype) : s.routeIn p k next f = s.discardInvalid := by
  have htype : (decide (p.ptype < 1) || decide (4 < p.ptype)) = true := by simpa using h
  rw [State.routeIn, hl, htype]
  rfl

variable (hk : 1 ≤ k ∧ k ≤ 4) (hp : p.ptype = k)

include hk hp

theorem State.routeIn_old (h : s.steepness p.steep = .old) : s.routeIn p k next f = s.discardOld := by
  simp [State.routeIn, hl, hp, h, hk.1, hk.2, Nat.not_lt.2]

theorem State.routeIn_far (h : s.steepness p.steep = .far) : s.routeIn p k next f = s.discardInvalid := by
  simp [State.routeIn, hl, hp, h, hk.1, hk.2, Nat.not_lt.2]

theorem State.routeIn_next (h : s.steepness p.steep = .next) :
    s.routeIn p k next f = if next then s.holdPkt p else s.discardInvalid := by
  simp [State.routeIn, hl, hp, h, hk.1, hk.2, Nat.not_lt.2]

theorem State.routeIn_current (h : p.steep = s.steep.number) : s.routeIn p k next f = f s := by
  simp [State.routeIn, hl, hp, h, hk.1, hk.2, Nat.not_lt.2, State.steepness_number]

end Filter

theorem State.heldTwice_dispatch (s : State) {p : RoutePkt} (hp : p.ptype = 1) : s.heldTwice p = true ↔
    ∃ q ∈ s.rte.held, q.ptype = 1 ∧ q.src = p.src ∧ q.layer = p.layer ∧ q.expert = p.expert ∧ q.slot = p.slot := by
  simp [State.heldTwice, hp, and_assoc]

theorem State.heldTwice_dispEnd (s : State) {p : RoutePkt} (hp : p.ptype = 2) : s.heldTwice p = true ↔
    ∃ q ∈ s.rte.held, q.ptype = 2 ∧ q.src = p.src ∧ q.layer = p.layer := by
  simp [State.heldTwice, hp, and_assoc]

theorem State.heldInvalid_dispatch (s : State) {p : RoutePkt} (hp : p.ptype = 1) :
    s.heldInvalid p = true ↔ s.rte.next = none ∧ s.quota p.layer p.expert p.src ≤ p.slot := by
  simp [State.heldInvalid, hp]

theorem State.holdPkt_invalid {s : State} {p : RoutePkt} (h : s.heldInvalid p = true) : s.holdPkt p = s.discardInvalid := if_pos h

theorem State.holdPkt_valid {s : State} {p : RoutePkt} (h : ¬ s.heldInvalid p = true) :
    s.holdPkt p = if s.heldTwice p = true then s.discardDup else s.setRte { s.rte with held := s.rte.held ++ [p] } := if_neg h

/-! ## The commands, of any steep -/

/-- Each routing packet command passes the filter with its type; dispatches and their end markers may be held. -/
theorem exec_routePkt (s : State) {p : RoutePkt} {c : Instr × Nat}
    (hc : c ∈ [(Instr.dispatch p, 1), (.dispEnd p, 2), (.pour p, 3), (.pourEnd p, 4)]) :
    (1 ≤ c.2 ∧ c.2 ≤ 4) ∧ ∃ f, exec c.1 s = .next (s.routeIn p c.2 (decide (c.2 ≤ 2)) f) := by
  simp only [List.mem_cons, List.not_mem_nil, or_false] at hc
  rcases hc with rfl | rfl | rfl | rfl <;> exact ⟨⟨by norm_num, by norm_num⟩, _, rfl⟩

section Commands

variable {s : State} (hl : s.live = true) {p : RoutePkt}

include hl

theorem exec_dispatch_next (hp : p.ptype = 1) (hn : s.steepness p.steep = .next) : exec (.dispatch p) s = .next (s.holdPkt p) :=
  congrArg _ (State.routeIn_next hl (by decide) hp hn)

theorem exec_dispEnd_next (hp : p.ptype = 2) (hn : s.steepness p.steep = .next) : exec (.dispEnd p) s = .next (s.holdPkt p) :=
  congrArg _ (State.routeIn_next hl (by decide) hp hn)

/-! ## Dispatches and their end markers in the current steep (R182, R183, R190) -/

variable (hs : p.steep = s.steep.number)

include hs

theorem exec_dispatch_current (hp : p.ptype = 1) : exec (.dispatch p) s = .next (s.takeDispatch p).settleRoutes :=
  congrArg _ (State.routeIn_current hl (by decide) hp hs)

theorem exec_dispEnd_current (hp : p.ptype = 2) : exec (.dispEnd p) s = .next (s.takeDispEnd p).settleRoutes :=
  congrArg _ (State.routeIn_current hl (by decide) hp hs)

theorem dispatch_beyondQuota (hp : p.ptype = 1) (hq : s.quota p.layer p.expert p.src ≤ p.slot) :
    ∃ t : State, exec (.dispatch p) s = .next t ∧ t.rte.discInvalid = s.rte.discInvalid + 1 ∧ t.rte.lines = s.rte.lines := by
  have htake : s.takeDispatch p = s.discardInvalid := if_pos hq
  have ht := State.settleRoutes_stands (.refl s.discardInvalid)
  exact ⟨_, (exec_dispatch_current hl hs hp).trans (by rw [htake]), ht.discInvalid, ht.lines⟩

theorem dispatch_twice (hp : p.ptype = 1) (hq : p.slot < s.quota p.layer p.expert p.src)
    (hdup : ∃ l ∈ s.rte.lines, l.src = p.src ∧ l.layer = p.layer ∧ l.expert = p.expert ∧ l.slot = p.slot) :
    ∃ t : State, exec (.dispatch p) s = .next t ∧ t.rte.discDup = s.rte.discDup + 1 ∧ t.rte.lines = s.rte.lines := by
  have htake : s.takeDispatch p = s.discardDup :=
    (if_neg (Nat.not_le.2 hq)).trans (if_pos (by simpa [and_assoc] using hdup))
  have ht := State.settleRoutes_stands (.refl s.discardDup)
  exact ⟨_, (exec_dispatch_current hl hs hp).trans (by rw [htake]), ht.discDup, ht.lines⟩

theorem dispatch_kept (hp : p.ptype = 1) (hq : p.slot < s.quota p.layer p.expert p.src)
    (hnew : ∀ l ∈ s.rte.lines, ¬ (l.src = p.src ∧ l.layer = p.layer ∧ l.expert = p.expert ∧ l.slot = p.slot)) :
    ∃ t : State, exec (.dispatch p) s = .next t ∧
      t.rte.lines = s.rte.lines ++ [⟨p.src, p.expert, p.slot, p.layer, p.homeNode, p.tag, p.steep, p.rowScale, none, false⟩] ∧
      t.rte.discInvalid = s.rte.discInvalid ∧ t.rte.choices = s.rte.choices ∧ t.serve = s.serve ∧ t.pwr = s.pwr ∧ t.sec = s.sec ∧
      t.disc = s.disc := by
  let a := s.rte.recvBase.toNat + dispStride s.routing s.wire s.hidden * s.recvLine p.layer p.expert p.src p.slot
  let bs := bytesAt p.payload 0 (min (dispStride s.routing s.wire s.hidden) (ceilDiv p.payload.length 64 * 64))
  obtain ⟨hb, d, b, w, x, o, hstore⟩ := State.storeOk_frame s a bs
  let u := (s.storeOk a bs).setRte { (s.storeOk a bs).rte with
    lines := (s.storeOk a bs).rte.lines ++ [⟨p.src, p.expert, p.slot, p.layer, p.homeNode, p.tag, p.steep, p.rowScale, none, false⟩] }
  have htake : s.takeDispatch p = u.settleLayer p.layer :=
    (if_neg (Nat.not_le.2 hq)).trans (if_neg (by simpa [and_assoc] using hnew))
  have ht := State.settleRoutes_stands (State.settleLayer_stands (.refl u) p.layer)
  have hk := State.settleRoutes_kept (State.takeDispatch_kept (.refl s) p)
  have hrte : (s.storeOk a bs).rte = s.rte := by rw [hstore]
  have hdisc : u.disc = s.disc := by dsimp only [u, State.setRte]; rw [hstore]
  rw [htake] at hk
  refine ⟨_, (exec_dispatch_current hl hs hp).trans (by rw [htake]), ht.lines.trans ?_, ht.discInvalid.trans ?_, ht.choices.trans ?_,
    ht.units hk hdisc⟩
  all_goals dsimp only [u, State.setRte]; rw [hrte]

theorem dispEnd_twice (hp : p.ptype = 2) (hdup : ∃ d ∈ s.rte.dispEnds, d.layer = p.layer ∧ d.node = p.src) :
    ∃ t : State, exec (.dispEnd p) s = .next t ∧ t.rte.discDup = s.rte.discDup + 1 ∧ t.rte.dispEnds = s.rte.dispEnds := by
  have htake : s.takeDispEnd p = s.discardDup := if_pos (by simpa using hdup)
  have ht := State.settleRoutes_stands (.refl s.discardDup)
  exact ⟨_, (exec_dispEnd_current hl hs hp).trans (by rw [htake]), ht.discDup, ht.dispEnds⟩

theorem dispEnd_kept (hp : p.ptype = 2) (hnew : ∀ d ∈ s.rte.dispEnds, ¬ (d.layer = p.layer ∧ d.node = p.src)) :
    ∃ t : State, exec (.dispEnd p) s = .next t ∧ t.rte.dispEnds = s.rte.dispEnds ++ [⟨p.layer, p.src, p.count, p.steep⟩] ∧
      t.rte.lines = s.rte.lines ∧ t.rte.choices = s.rte.choices ∧ t.serve = s.serve ∧ t.pwr = s.pwr ∧ t.sec = s.sec ∧
      t.disc = s.disc := by
  let u := s.setRte { s.rte with dispEnds := s.rte.dispEnds ++ [⟨p.layer, p.src, p.count, p.steep⟩] }
  have htake : s.takeDispEnd p = u.settleLayer p.layer := if_neg (by simpa using hnew)
  have ht := State.settleRoutes_stands (State.settleLayer_stands (.refl u) p.layer)
  have hk := State.settleRoutes_kept (State.settleLayer_kept (State.setRte_kept (.refl s) u.rte) p.layer)
  exact ⟨_, (exec_dispEnd_current hl hs hp).trans (by rw [htake]), ht.dispEnds, ht.lines, ht.choices, ht.units hk rfl⟩

/-! ## End markers of pours (R184, R190) -/

theorem pourEnd_twice (hp : p.ptype = 4) (hdup : ∃ d ∈ s.rte.pourEnds, d.layer = p.layer ∧ d.node = p.src) :
    exec (.pourEnd p) s = .next s.discardDup := by
  refine congrArg Host.Outcome.next ((State.routeIn_current hl (by decide) hp hs).trans ?_)
  exact if_pos (by simpa using hdup)

theorem pourEnd_kept (hp : p.ptype = 4) (hnew : ∀ d ∈ s.rte.pourEnds, ¬ (d.layer = p.layer ∧ d.node = p.src)) :
    ∃ t : State, exec (.pourEnd p) s = .next t ∧ t.rte.pourEnds = s.rte.pourEnds ++ [⟨p.layer, p.src, p.count, p.steep⟩] ∧
      t.rte.lines = s.rte.lines ∧ t.rte.choices = s.rte.choices ∧ t.serve = s.serve ∧ t.pwr = s.pwr ∧ t.sec = s.sec ∧
      t.disc = s.disc := by
  let u := s.setRte { s.rte with pourEnds := s.rte.pourEnds ++ [⟨p.layer, p.src, p.count, p.steep⟩] }
  have ht := State.settleRoutes_stands (.refl u)
  have hk := State.settleRoutes_kept (State.setRte_kept (.refl s) u.rte)
  refine ⟨u.settleRoutes, congrArg Host.Outcome.next ((State.routeIn_current hl (by decide) hp hs).trans ?_), ht.pourEnds, ht.lines,
    ht.choices, ht.units hk rfl⟩
  exact if_neg (by simpa using hnew)

end Commands

/-! ## Pours at home (R188 to R190, R257) -/

/-- The routing units with a choice marked. -/
def State.markChoice (s : State) (c : Choice) (f : Choice → Choice) : State :=
  s.setRte { s.rte with choices := updateIf s.rte.choices (· = c) f }

/-- A choice that some pour has reached. -/
def Choice.reached (c : Choice) : Choice := { c with arrived := true }

/-- A choice whose pour is held. -/
def Choice.poured (c : Choice) (y : List Word) : Choice := { c with arrived := true, pour := some y }

/-- The line of a pour, in FP32. -/
def State.pourIn (s : State) (p : RoutePkt) : List Word :=
  readLine (if rtPour s.routing = 1 then .bf16 else .fp32) 0 p.elems p.payload []

/-- What becomes of a pour of the current steep, by the sequence of its choice. -/
def State.takePour (s : State) (p : RoutePkt) (c : Choice) : State :=
  if s.endedSeq c.seq then
    ((s.setRte { s.rte with discClosed := s.rte.discClosed + 1 }).markChoice c Choice.reached).settleRoutes
  else if s.steep.failed.contains c.seq then
    ((s.setRte { s.rte with discFailed := s.rte.discFailed + 1 }).markChoice c Choice.reached).settleRoutes
  else if c.pour.isSome then s.discardDup
  else if p.elems = 0 then
    ((s.markChoice c Choice.reached).raise { status := 0x0410, cls := 1, seqs := [c.seq], until_ := .steep }).settleRoutes
  else ((s.markChoice c (·.poured (s.pourIn p))).combineRow c.layer c.row).settleRoutes

theorem State.combineRow_frame (s : State) (layer row : Nat) :
    ∃ k, s.combineRow layer row = s.setRte { s.rte with combined := k } := by
  unfold State.combineRow
  dsimp only
  split
  · exact ⟨s.rte.combined, rfl⟩
  · exact ⟨_, rfl⟩

section Pours

variable {s : State} (hl : s.live = true) {p : RoutePkt} (hs : p.steep = s.steep.number) (hp : p.ptype = 3)

include hl hs hp

theorem pour_noChoice (h : s.pourChoice p = none) : exec (.pour p) s = .next s := by
  refine congrArg Host.Outcome.next ((State.routeIn_current hl (by decide) hp hs).trans ?_)
  dsimp only
  rw [h]

variable {c : Choice} (hc : s.pourChoice p = some c)

include hc

theorem exec_pour_choice : exec (.pour p) s = .next (s.takePour p c) := by
  refine congrArg Host.Outcome.next ((State.routeIn_current hl (by decide) hp hs).trans ?_)
  dsimp only
  rw [hc]
  rfl

theorem pour_ended (he : s.endedSeq c.seq = true) : ∃ t : State, exec (.pour p) s = .next t ∧
    t.rte.discClosed = s.rte.discClosed + 1 ∧ t.rte.choices = updateIf s.rte.choices (· = c) Choice.reached := by
  have ht := State.settleRoutes_stands
    (.refl ((s.setRte { s.rte with discClosed := s.rte.discClosed + 1 }).markChoice c Choice.reached))
  exact ⟨_, (exec_pour_choice hl hs hp hc).trans (congrArg _ (if_pos he)), ht.discClosed, ht.choices⟩

theorem pour_failed (he : s.endedSeq c.seq = false) (hf : c.seq ∈ s.steep.failed) : ∃ t : State, exec (.pour p) s = .next t ∧
    t.rte.discFailed = s.rte.discFailed + 1 ∧ t.rte.choices = updateIf s.rte.choices (· = c) Choice.reached := by
  have htake := (if_neg (Bool.not_eq_true _ ▸ he) : s.takePour p c = _).trans (if_pos (List.contains_iff_mem.2 hf))
  have ht := State.settleRoutes_stands
    (.refl ((s.setRte { s.rte with discFailed := s.rte.discFailed + 1 }).markChoice c Choice.reached))
  exact ⟨_, (exec_pour_choice hl hs hp hc).trans (congrArg _ htake), ht.discFailed, ht.choices⟩

variable (hg : s.gone c.seq = false)

include hg

theorem pour_twice (hpour : c.pour.isSome = true) : exec (.pour p) s = .next s.discardDup := by
  obtain ⟨hf, he⟩ := Bool.or_eq_false_iff.1 hg
  rw [exec_pour_choice hl hs hp hc, State.takePour, he, hf, hpour]
  rfl

/-- A failed pour fails the sequence that it was for. -/
theorem pour_fails (hpour : c.pour = none) (hz : p.elems = 0) (hidle : s.err.handling = []) (hsil : s.err.silent = false) :
    ∃ t : State, exec (.pour p) s = .next t ∧ c.seq ∈ t.steep.failed ∧
      t.rte.choices = updateIf s.rte.choices (· = c) Choice.reached ∧ t.rte.lines = s.rte.lines := by
  obtain ⟨hf, he⟩ := Bool.or_eq_false_iff.1 hg
  let u := s.markChoice c Choice.reached
  let e : ErrIn := { status := 0x0410, cls := 1, seqs := [c.seq], until_ := .steep }
  have htake : s.takePour p c = (u.raise e).settleRoutes := by
    rw [State.takePour, he, hf, hpour, hz]
    rfl
  have ht := State.settleRoutes_stands (State.raise_stands (.refl u) e)
  have hfailed : c.seq ∈ (u.raise e).steep.failed := State.raise_fails (s := u) hidle hsil rfl List.mem_cons_self
  exact ⟨_, (exec_pour_choice hl hs hp hc).trans (congrArg _ htake),
    (State.settleRoutes_kept (.refl (u.raise e))).steep.failed _ hfailed, ht.choices, ht.lines⟩

theorem pour_kept (hpour : c.pour = none) (hz : p.elems ≠ 0) : ∃ t : State, exec (.pour p) s = .next t ∧
    t.rte.choices = updateIf s.rte.choices (· = c) (·.poured (s.pourIn p)) ∧
    t.rte.lines = s.rte.lines ∧ t.serve = s.serve ∧ t.pwr = s.pwr ∧ t.sec = s.sec ∧ t.disc = s.disc := by
  obtain ⟨hf, he⟩ := Bool.or_eq_false_iff.1 hg
  let u := s.markChoice c (·.poured (s.pourIn p))
  obtain ⟨k, hrow⟩ := State.combineRow_frame u c.layer c.row
  have htake : s.takePour p c = (u.setRte { u.rte with combined := k }).settleRoutes := by
    rw [← hrow, State.takePour, he, hf, hpour]
    exact if_neg hz
  have ht := State.settleRoutes_stands (.refl (u.setRte { u.rte with combined := k }))
  have hk := State.settleRoutes_kept (State.setRte_kept (State.setRte_kept (.refl s) u.rte) { u.rte with combined := k })
  exact ⟨_, (exec_pour_choice hl hs hp hc).trans (congrArg _ htake), ht.choices, ht.lines, ht.units hk rfl⟩

end Pours

/-- Settles O28: the filter by the type and the steep of a packet, then each type of the current steep. -/
theorem routingPacketsAreFiltered : Obligations.RoutingPacketsAreFiltered := by
  unfold Obligations.RoutingPacketsAreFiltered
  intro s p hl invalid dup hold
  refine ⟨fun c hc => ?filter, fun hp hn => ⟨fun hrev hq => ?heldInvalid, fun hok => ?heldDispatch⟩, fun hp hn => ?heldEnd, fun hs =>
    ⟨fun hp => ⟨dispatch_beyondQuota hl hs hp, dispatch_twice hl hs hp, dispatch_kept hl hs hp⟩,
     fun hp => ⟨dispEnd_twice hl hs hp, dispEnd_kept hl hs hp⟩, fun hp => ⟨pourEnd_twice hl hs hp, pourEnd_kept hl hs hp⟩,
     fun hp => ⟨pour_noChoice hl hs hp, fun c hc => ?pour⟩⟩⟩
  case filter =>
    obtain ⟨hk, f, he⟩ := exec_routePkt s hc
    rw [he]
    refine ⟨fun h => congrArg _ (State.routeIn_badType hl h), fun hp h => congrArg _ (State.routeIn_old hl hk hp h),
      fun hp h => congrArg _ (State.routeIn_far hl hk hp h), fun hp h h2 => congrArg _ ((State.routeIn_next hl hk hp h).trans ?_)⟩
    exact if_neg (by simpa using h2)
  case heldInvalid =>
    rw [exec_dispatch_next hl hp hn, State.holdPkt_invalid ((s.heldInvalid_dispatch hp).2 ⟨hrev, hq⟩)]
    rfl
  case heldDispatch =>
    have hvalid : ¬ s.heldInvalid p = true := fun h => by
      obtain ⟨hrev, hq⟩ := (s.heldInvalid_dispatch hp).1 h
      exact hok.elim (fun hne => hne hrev) (fun hlt => Nat.not_lt.2 hq hlt)
    rw [exec_dispatch_next hl hp hn, State.holdPkt_valid hvalid]
    exact congrArg _ (if_congr (s.heldTwice_dispatch hp) rfl rfl)
  case heldEnd =>
    have hvalid : ¬ s.heldInvalid p = true := by simp [State.heldInvalid, hp]
    rw [exec_dispEnd_next hl hp hn, State.holdPkt_valid hvalid]
    exact congrArg _ (if_congr (s.heldTwice_dispEnd hp) rfl rfl)
  case pour =>
    exact ⟨pour_ended hl hs hp hc, pour_failed hl hs hp hc, pour_twice hl hs hp hc,
      fun hg hpour hz hidle hsil _ => pour_fails hl hs hp hc hg hpour hz hidle hsil, pour_kept hl hs hp hc⟩

end Sys2Proof.Machine
end

section
/-! PROOF. Admission of the rows of a routed layer: every choice within its quota and at a slot of its own, each row without a
choice combined as zeros (spec 07 R170 to R182). -/

namespace Sys2Proof.Machine

/-! ## Sorted lists -/

theorem mem_insertBy {α : Type} {le : α → α → Bool} {a x : α} (l : List α) : x ∈ insertBy le a l ↔ x = a ∨ x ∈ l := by
  induction l with
  | nil => simp [insertBy]
  | cons b l ih =>
    unfold insertBy
    split
    · exact List.mem_cons
    · rw [List.mem_cons, ih, List.mem_cons, or_left_comm]

theorem mem_sortBy {α : Type} {le : α → α → Bool} {x : α} (l : List α) : x ∈ sortBy le l ↔ x ∈ l := by
  induction l with
  | nil => rfl
  | cons a l ih => exact (mem_insertBy _).trans ((or_congr_right ih).trans List.mem_cons.symm)

/-! ## Both rounds (R176, R177) -/

/-- What holds of an admission in progress, for quotas and `k` choices a row: every slot of an expert below the count of its
lines admitted so far, and given once. -/
structure Admission.Sound (quota : Nat → Nat) (k : Nat) (st : Admission) : Prop where
  pos : ∀ a ∈ st.adm, a.k < k
  rejected : ∀ p ∈ st.rej, p.2 < k
  within : ∀ a ∈ st.adm, a.slot < quota a.expert
  below : ∀ a ∈ st.adm, a.slot < st.used.get 0 a.expert
  once : ∀ a ∈ st.adm, ∀ b ∈ st.adm, a.expert = b.expert → a.slot = b.slot → a = b

namespace Admission.Sound

variable {quota : Nat → Nat} {k : Nat} {st : Admission}

theorem empty : Sound quota k {} where
  pos := fun _ h => nomatch h
  rejected := fun _ h => nomatch h
  within := fun _ h => nomatch h
  below := fun _ h => nomatch h
  once := fun _ h => nomatch h

/-- The next slot of an expert goes to one more choice. -/
theorem giveSlot (h : st.Sound quota k) (row : Nat) {i e : Nat} (spilled : Bool) (hi : i < k) (hq : st.used.get 0 e < quota e) :
    Sound quota k { st with
      adm := st.adm ++ [⟨row, i, e, st.used.get 0 e, spilled⟩], used := st.used.set e (st.used.get 0 e + 1) } where
  pos := List.forall_mem_append.2 ⟨h.pos, List.forall_mem_singleton.2 hi⟩
  rejected := h.rejected
  within := List.forall_mem_append.2 ⟨h.within, List.forall_mem_singleton.2 hq⟩
  below := by
    refine List.forall_mem_append.2 ⟨fun a ha => ?_, List.forall_mem_singleton.2 (by simp)⟩
    have hlt := h.below a ha
    rcases eq_or_ne a.expert e with he | he
    · rw [he, Tab.get_set_self]
      rw [he] at hlt
      exact Nat.lt_succ_of_lt hlt
    · rw [Tab.get_set_ne _ _ _ he]
      exact hlt
  once := by
    have hnew (a : Adm) (ha : a ∈ st.adm) (he : a.expert = e) : a.slot ≠ st.used.get 0 e := he ▸ (h.below a ha).ne
    intro a ha b hb he hs
    rcases List.mem_append.1 ha with ha | ha <;> rcases List.mem_append.1 hb with hb | hb
    · exact h.once a ha b hb he hs
    · obtain rfl := List.mem_singleton.1 hb
      exact absurd hs (hnew a ha he)
    · obtain rfl := List.mem_singleton.1 ha
      exact absurd hs.symm (hnew b hb he.symm)
    · exact (List.mem_singleton.1 ha).trans (List.mem_singleton.1 hb).symm

theorem admitOne (h : st.Sound quota k) (row : Nat) {i : Nat} (e : Nat) (hi : i < k) : (admitOne quota st row i e).Sound quota k := by
  unfold Machine.admitOne
  dsimp only
  split
  · exact h.giveSlot row false hi ‹_›
  · exact ⟨h.pos, List.forall_mem_append.2 ⟨h.rejected, List.forall_mem_singleton.2 hi⟩, h.within, h.below, h.once⟩

theorem spillOne (h : st.Sound quota k) (cands : Nat → List Nat) {p : Nat × Nat} (hp : p.2 < k) :
    (spillOne quota cands st p).Sound quota k := by
  unfold Machine.spillOne
  dsimp only
  split
  · have hfound := List.find?_some ‹_›
    simp only [Bool.and_eq_true, decide_eq_true_eq] at hfound
    exact h.giveSlot p.1 true hp hfound.2
  · exact h

end Admission.Sound

theorem admitRows_sound (quota : Nat → Nat) (k : Nat) (spill : Bool) (rows : List (Nat × List Nat)) :
    (admitRows quota k spill rows).Sound quota k := by
  unfold admitRows
  extract_lets st cands
  have hfirst : st.Sound quota k := by
    refine List.foldlRecOn rows _ .empty fun st h r _ => List.foldlRecOn _ _ h fun st h p hp => ?_
    obtain ⟨i, hi, rfl⟩ := List.mem_mapIdx.1 hp
    exact h.admitOne r.1 _ (hi.trans_le (List.length_take_le _ _))
  split
  · exact List.foldlRecOn st.rej _ hfirst fun u h p hp => h.spillOne cands (hfirst.rejected p hp)
  · exact hfirst

/-! ## The choices of admitted rows (R179, R180, R187) -/

/-- A choice new to the gate array, of a row and with an admitted expert and slot. -/
structure Choice.Admits (c : Choice) (layer : Nat) (w : RouteRow) (a : Adm) : Prop where
  layer : c.layer = layer
  row : c.row = w.row
  seq : c.seq = w.line.seq
  pos : c.pos = w.line.pos
  position : c.k = a.k
  expert : c.expert = a.expert
  slot : c.slot = a.slot
  pour : c.pour = none
  arrived : c.arrived = false

theorem State.admits_of_mem_choicesOf {s : State} {layer : Nat} {rows : List RouteRow} {st : Admission} {c : Choice}
    (h : c ∈ s.choicesOf layer rows st) : ∃ w ∈ rows, ∃ a ∈ st.adm, a.row = w.row ∧ c.Admits layer w a := by
  obtain ⟨w, hw, hc⟩ := List.mem_flatMap.1 h
  obtain ⟨i, hi, rfl⟩ := List.mem_mapIdx.1 hc
  obtain ⟨ha, hrow⟩ := List.mem_filter.1 ((mem_sortBy _).1 (List.getElem_mem hi))
  exact ⟨w, hw, _, ha, of_decide_eq_true hrow, rfl, rfl, rfl, rfl, rfl, rfl, rfl, rfl, rfl⟩

/-- Of the choices of sound admissions, an expert's slot belongs to one row and position. -/
theorem Admission.Sound.slot_once {quota : Nat → Nat} {k : Nat} {st : Admission} (h : st.Sound quota k) {s : State} {layer : Nat}
    {rows : List RouteRow} {c d : Choice} (hc : c ∈ s.choicesOf layer rows st) (hd : d ∈ s.choicesOf layer rows st)
    (he : c.expert = d.expert) (hs : c.slot = d.slot) : c.row = d.row ∧ c.k = d.k := by
  obtain ⟨w, -, a, ha, hrow, hca⟩ := State.admits_of_mem_choicesOf hc
  obtain ⟨x, -, b, hb, hrow', hdb⟩ := State.admits_of_mem_choicesOf hd
  obtain rfl := h.once a ha b hb (hca.expert.symm.trans (he.trans hdb.expert)) (hca.slot.symm.trans (hs.trans hdb.slot))
  exact ⟨hca.row.trans (hrow.symm.trans (hrow'.trans hdb.row.symm)), hca.position.trans hdb.position.symm⟩

/-! ## A layer admitted (R176 to R182) -/

/-- The admission of a layer's rows, by the quotas for this package (R176, R177). -/
def State.admission (s : State) (m : Model) (layer : Nat) (bias : List Word) (rows : List RouteRow) : Admission :=
  admitRows (fun e => s.quota layer e s.dom.node) (rtK m.routing) (rtSpill m.routing)
    (rows.map fun w => (w.row, (rankExperts (selectionKeys bias w.logits)).take (2 * rtK m.routing)))

theorem State.admission_sound (s : State) (m : Model) (layer : Nat) (bias : List Word) (rows : List RouteRow) :
    (s.admission m layer bias rows).Sound (fun e => s.quota layer e s.dom.node) (rtK m.routing) := admitRows_sound _ _ _ _

/-- A layer has been admitted with the given choices. -/
structure Admitted (s : State) (layer : Nat) (rows : List RouteRow) (new : List Choice) (t : State) : Prop where
  choices : t.rte.choices = s.rte.choices ++ new
  zeros : ∀ w ∈ rows, (∀ c ∈ new, c.row ≠ w.row) → ∃ k ∈ t.rte.combined, k.layer = layer ∧ k.row = w.row ∧ ∀ x ∈ k.line, x = 0
  sent : layer ∈ t.rte.dispSent
  lines : t.rte.lines = s.rte.lines
  disc : t.disc = s.disc
  kept : Kept s t

theorem Admitted.settleRoutes {s t : State} {layer : Nat} {rows : List RouteRow} {new : List Choice}
    (h : Admitted s layer rows new t) : Admitted s layer rows new t.settleRoutes := by
  have ht := State.settleRoutes_stands (.refl t)
  exact ⟨ht.choices.trans h.choices, ht.combined ▸ h.zeros, ht.sent h.sent, ht.lines.trans h.lines, ht.disc.trans h.disc,
    State.settleRoutes_kept h.kept⟩

theorem State.sendDispatch_stands {r s : State} (h : Stands r s) (layer : Nat) (input : List Word) (c : Choice) :
    Stands r (s.sendDispatch layer input c) := State.routeSend_stands h _ _

theorem State.sendDispatch_kept {r s : State} (h : Kept r s) (layer : Nat) (input : List Word) (c : Choice) :
    Kept r (s.sendDispatch layer input c) := State.routeSend_kept h _ _

theorem State.admitLayer_admitted (s : State) (m : Model) (layer : Nat) (r : List Byte) (bias : List Word) (rows : List RouteRow) :
    Admitted s layer rows (s.choicesOf layer rows (s.admission m layer bias rows)) (s.admitLayer m layer r bias rows) := by
  unfold State.admitLayer
  extract_lets k st new empty spilled s₁ width x s₂ s₃
  have hcounts : Kept s s₁ := (Kept.refl s).mark rfl
  have hkept : Kept s s₃ := (State.setRte_kept hcounts s₂.rte).foldl (fun c hk => by
    split
    · exact State.sendDispatch_kept hk _ _ _
    · exact hk) new
  have hsends : Stands s₂ s₃ := (Stands.refl s₂).foldl (fun c hk => by
    split
    · exact State.sendDispatch_stands hk _ _ _
    · exact hk) new
  have ht := State.sendDispEnds_stands hsends layer
  refine ⟨ht.choices, fun w hw hno => ?_, State.mem_sendDispEnds s₃ layer, ht.lines, ht.disc, State.sendDispEnds_kept hkept layer⟩
  have hempty : w ∈ empty := List.mem_filter.2 ⟨hw, by simpa using (fun c hc => hno c hc : ∀ c ∈ new, c.row ≠ w.row)⟩
  rw [ht.combined]
  exact ⟨⟨layer, w.row, List.replicate width 0⟩, List.mem_append_right _ (List.mem_map_of_mem hempty), rfl, rfl,
    fun x hx => List.eq_of_mem_replicate hx⟩

/-! ## The rows that are admitted (R169, R170) -/

/-- Rows that can be read, with finite values, fail no sequence. -/
theorem State.failRows_of_readable {s : State} {m : Model} {r : List Byte} {bias : List Word} {rows : List RouteRow}
    (h : ∀ w ∈ rows, s.routeFault m r w.row = none ∧ badRow bias w.logits = false) : s.failRows m r bias rows = s := by
  refine List.foldlRecOn (motive := fun t => t = s) rows _ rfl fun t ht w hw => ?_
  subst ht
  obtain ⟨hfault, hbad⟩ := h w hw
  rw [hfault, hbad]
  exact ite_self _

theorem State.filter_routeRows (s : State) (m : Model) (i : Nat) (r : List Byte) :
    (s.routeRows m i r).filter (fun w => !s.gone w.line.seq) = s.routeRows m i r := by
  refine List.filter_eq_self.2 fun w hw => ?_
  obtain ⟨p, -, hp⟩ := List.mem_filterMap.1 hw
  split at hp
  · cases hp
  · obtain rfl := Option.some.inj hp
    simpa using ‹¬ s.gone p.2.seq = true›

section Command

variable {s : State} {m : Model} {layer i : Nat} (hm : s.model = some m) (hi : m.routerOf layer = some i)

include hm hi

theorem routingAdmission_waits (hd : layer ∈ s.rte.dispSent) : exec (.routingAdmission layer) s = .next s := by
  refine congrArg Host.Outcome.next ?_
  rw [hm]
  dsimp only
  rw [hi]
  exact if_pos (by simp [hd])

theorem exec_routingAdmission (hl : s.live = true) (hd : layer ∉ s.rte.dispSent) (hrun : s.steep.running = true)
    (hdone : s.opDone false i = true) (hbefore : s.layersBefore layer = true) {r : List Byte} (hr : r = s.record_ m false i)
    {bias : List Word} (hbias : bias = if rBias2 r = 0 then [] else s.f32s (rBias2 r) s.nexp)
    (hrows : ∀ w ∈ s.routeRows m i r, s.routeFault m r w.row = none ∧ badRow bias w.logits = false) :
    exec (.routingAdmission layer) s = .next (s.admitLayer m layer r bias (s.routeRows m i r)).settleRoutes := by
  refine congrArg Host.Outcome.next ?_
  rw [hm]
  dsimp only
  rw [hi]
  refine (if_neg (by simp [hl, hrun, hdone, hbefore, hd])).trans ?_
  rw [← hr, ← hbias, State.failRows_of_readable hrows, State.filter_routeRows]

end Command

end Sys2Proof.Machine
end

section
/-! PROOF. Pours of received lines, revisions of the home table, and what is sent of a routed layer (spec 07 R173 to R192). -/

namespace Sys2Proof.Machine

/-! ## Pours of received lines (R184, R187, R192) -/

theorem State.mem_of_openLine {s : State} {src expert slot : Nat} {l : HeldLine} (h : s.openLine src expert slot = some l) :
    l ∈ s.rte.lines ∧ l.pourSent = false := by
  have hfound := List.find?_some h
  simp only [Bool.and_eq_true, Bool.not_eq_true'] at hfound
  exact ⟨List.mem_of_find?_eq_some h, hfound.2⟩

theorem State.routeSend_rte_disc (s : State) (n : Nat) (p : RoutePkt) :
    (s.routeSend n p).rte = s.rte ∧ (s.routeSend n p).disc = s.disc := by
  obtain ⟨ks, o, e⟩ := State.routeSend_frame s n p
  rw [e]
  exact ⟨rfl, rfl⟩

/-- The pour of an open line marks it answered. -/
theorem State.pourLine_open {s : State} {l : HeldLine} (hmem : l ∈ s.rte.lines) (hopen : l.pourSent = false) (line : Option (List Word)) :
    ∃ u : State, u.rte.lines = updateIf s.rte.lines (· = l) (fun l => { l with pourSent := true }) ∧
      u.rte.choices = s.rte.choices ∧ u.disc = s.disc ∧ Stands u (s.pourLine l line) := by
  have hguard : ¬ (l.pourSent || !s.rte.lines.contains l) = true := by simp [hopen, hmem]
  unfold State.pourLine
  rw [if_neg hguard]
  extract_lets localIx f payload blank u
  obtain ⟨hrte, hdisc⟩ : u.rte = s.rte ∧ u.disc = s.disc := State.routeSend_rte_disc s _ _
  refine ⟨u.setRte { u.rte with lines := updateIf u.rte.lines (· = l) fun l => { l with pourSent := true } },
    ?_, (congrArg Route.choices hrte :), hdisc, State.sendPourEnds_stands (.refl _) l.layer⟩
  rw [← hrte]
  rfl

section Pours

variable {s : State} {src expert slot : Nat}

theorem pourSend_noLine (h : s.openLine src expert slot = none) : exec (.pourSend src expert slot) s = .next s := by
  refine congrArg Host.Outcome.next ?_
  rw [h]

variable {l : HeldLine} (h : s.openLine src expert slot = some l)

include h

theorem pourSend_waits (hw : l.layer ∉ s.rte.shaped ∨ (s.expertStopped l.layer = false ∧ l.out = none)) :
    exec (.pourSend src expert slot) s = .next s := by
  refine congrArg Host.Outcome.next ?_
  rw [h]
  dsimp only
  split
  · rfl
  · rename_i hgo
    obtain ⟨hstop, hout⟩ := hw.resolve_left fun hn => hgo (by simp [hn])
    rw [hstop, hout]
    rfl

/-- A line whose layer's shape is written is answered once it is out, or once the program has stopped there. -/
theorem exec_pourSend (hl : s.live = true) (hrun : s.steep.running = true) (hshape : l.layer ∈ s.rte.shaped)
    (ho : s.expertStopped l.layer = true ∨ l.out ≠ none) :
    ∃ line, exec (.pourSend src expert slot) s = .next (s.pourLine l line).settleRoutes := by
  have hgo : ¬ (!s.live || !s.steep.running || !s.rte.shaped.contains l.layer) = true := by simp [hl, hrun, hshape]
  by_cases hstop : s.expertStopped l.layer = true
  · refine ⟨none, congrArg Host.Outcome.next ?_⟩
    rw [h]
    exact (if_neg hgo).trans (if_pos hstop)
  · obtain ⟨x, hx⟩ := Option.ne_none_iff_exists'.1 (ho.resolve_left hstop)
    refine ⟨some x, congrArg Host.Outcome.next ?_⟩
    rw [h]
    refine (if_neg hgo).trans ((if_neg hstop).trans ?_)
    rw [hx]

theorem pourSend_answers (hl : s.live = true) (hshape : l.layer ∈ s.rte.shaped) (hrun : s.steep.running = true)
    (ho : s.expertStopped l.layer = true ∨ l.out ≠ none) : ∃ t : State, exec (.pourSend src expert slot) s = .next t ∧
      t.rte.lines = updateIf s.rte.lines (· = l) (fun l => { l with pourSent := true }) ∧ t.rte.choices = s.rte.choices ∧
      t.serve = s.serve ∧ t.pwr = s.pwr ∧ t.sec = s.sec ∧ t.disc = s.disc := by
  obtain ⟨line, he⟩ := exec_pourSend h hl hrun hshape ho
  obtain ⟨hmem, hopen⟩ := State.mem_of_openLine h
  obtain ⟨u, hlines, hchoices, hdisc, hu⟩ := State.pourLine_open hmem hopen line
  have ht := State.settleRoutes_stands hu
  have hk := State.settleRoutes_kept (State.pourLine_kept (.refl s) l line)
  exact ⟨_, he, ht.lines.trans hlines, ht.choices.trans hchoices, ht.units hk hdisc⟩

end Pours

/-! ## Home table revisions (R173) -/

section Revisions

variable {s : State} (hl : s.live = true) (hd : s.disc.inDomain = true) {r : HomeRev}

include hl hd

theorem homeTableCheck_accepts (h : s.checkRevision r = none) : exec (.homeTableCheck r) s = .next { s with
    rte := { s.rte with next := some ⟨r.rev, r.members, r.entries⟩ }
    out := s.out ++ [.member s.dom.manager 2 [BitVec.ofNat 64 r.rev.toNat, 0]] } := by
  have hact : (s.live && s.disc.inDomain) = true := by rw [hl, hd]; rfl
  rw [show exec (.homeTableCheck r) s = execHomeTableCheck r s from rfl, execHomeTableCheck, act_of_true hact, h]
  rfl

theorem homeTableCheck_refuses {area : Bool} {d : Nat} (h : s.checkRevision r = some (area, d)) (hidle : s.err.handling = []) :
    ∃ t : State, exec (.homeTableCheck r) s = .next t ∧ t.rte = s.rte ∧ t.dom = s.dom ∧ t.mem = s.mem ∧ t.steep = s.steep ∧
      .member s.dom.manager 2 [BitVec.ofNat 64 r.rev.toNat, 1, BitVec.ofNat 64 (b2n area), BitVec.ofNat 64 d] ∈ t.out := by
  obtain ⟨x, o, hraise⟩ := State.raise_of_idle hidle
    (e := { status := 0x0541, cls := 0, unit := 8, die := 0, pos := 1, detail := d }) rfl
  refine ⟨State.emit { s with err := x, out := o } (.member s.dom.manager 2
    [BitVec.ofNat 64 r.rev.toNat, 1, BitVec.ofNat 64 (b2n area), BitVec.ofNat 64 d]), ?_, rfl, rfl, rfl, rfl,
    List.mem_append_right _ List.mem_cons_self⟩
  have hact : (s.live && s.disc.inDomain) = true := by rw [hl, hd]; rfl
  rw [show exec (.homeTableCheck r) s = execHomeTableCheck r s from rfl, execHomeTableCheck, act_of_true hact, h]
  dsimp only
  rw [hraise]

end Revisions

/-- Settles O29: admission by the sound rounds and the layer admitted, pours by their open line, revisions by their check. -/
theorem routingSendsOnce : Obligations.RoutingSendsOnce := by
  unfold Obligations.RoutingSendsOnce
  refine fun s hl => ⟨fun m layer i hm hi => ⟨routingAdmission_waits hm hi, ?admission⟩,
    fun src expert slot => ⟨pourSend_noLine, fun l h => ⟨pourSend_waits h, pourSend_answers h hl⟩⟩,
    fun r hd => ⟨homeTableCheck_accepts hl hd, fun area d => homeTableCheck_refuses hl hd⟩⟩
  case admission =>
    intro r bias hd hrun hdone hbefore hrows
    have ht := (s.admitLayer_admitted m layer r bias (s.routeRows m i r)).settleRoutes
    have hsound := s.admission_sound m layer bias (s.routeRows m i r)
    refine ⟨_, s.choicesOf layer (s.routeRows m i r) (s.admission m layer bias (s.routeRows m i r)),
      exec_routingAdmission hm hi hl hd hrun hdone hbefore rfl rfl hrows, ht.choices, ht.sent, fun c hc => ?_,
      fun c hc d hd => hsound.slot_once hc hd, ht.zeros, ht.lines, ht.kept.serve, ht.kept.pwr, ht.kept.sec, ht.disc⟩
    obtain ⟨w, hw, a, ha, -, hca⟩ := State.admits_of_mem_choicesOf hc
    refine ⟨hca.layer, hca.pour, hca.arrived, hca.position ▸ hsound.pos a ha, ?_, w, hw, hca.row.symm, hca.seq.symm, hca.pos.symm⟩
    rw [hca.slot, hca.expert]
    exact hsound.within a ha

end Sys2Proof.Machine
end

section
/-! PROOF. Writes of the slice registers and of word 15 of a class set (spec 08 R225, spec 11 R267, R268, spec 14 R344, R346, R354,
R355). -/

namespace Sys2Proof.Machine

variable {s : State}

/-! ## Slices (R267, R268, R354) -/

/-- The field of a slice register that a write gives (R354). -/
def sliceField (off : Nat) (v : Word) : Nat :=
  if off = 0x120000 then v.toNat % 2048 else if off = 0x120004 then v.toNat % 128 else v.toNat % 256

/-- A slice write: STATE outside BRINGUP and TEST, BUSY in use, RANGE for its value, else memory is laid out anew (R267, R346). -/
theorem State.writeSlice_of_unblocked (hb : s.blocked = none) (off : Nat) (v : Word) : s.writeSlice off v =
    let m := s.mem.withSlice off (sliceField off v)
    if !(s.dom.state = .bringup || s.dom.state = .test) then s.refuseWrite 2 off
    else if s.layoutBusy m then s.refuseWrite 3 off
    else if s.layoutBad m (off = 0x120004) then s.refuseWrite 1 off
    else s.relayout m := by
  have hfield : (if off = 0x120000 then bits v.toNat 10 0 else if off = 0x120004 then bits v.toNat 6 0 else bits v.toNat 7 0) =
      sliceField off v := by simp [bits, sliceField]
  unfold State.writeSlice
  rw [hfield, State.regWrite_of_unblocked hb]

theorem exec_memSliceWrite {off : Nat} (hu : s.hostUp = true) (ho : off = 0x120000 ∨ off = 0x120004 ∨ off = 0x120008) (v : Word) :
    exec (.memSliceWrite off v) s = .next (s.writeSlice off v) := by
  show execMemSliceWrite off v s = _
  exact act_of_true (by simp [hu, or_assoc, ho]) s _

/-- A layout with a slice changed leaves the pool's place, the ways and the class sets. -/
theorem Mem.withSlice_frame (m : Mem) (off u : Nat) :
    ∃ a b c, m.withSlice off u = { m with sliceShared := a, sliceLocal := b, sliceSpare := c } := by
  unfold Mem.withSlice
  split
  · exact ⟨u, m.sliceLocal, m.sliceSpare, rfl⟩
  · split
    · exact ⟨m.sliceShared, u, m.sliceSpare, rfl⟩
    · exact ⟨m.sliceShared, m.sliceLocal, u, rfl⟩

section Slices

variable {off : Nat} {v : Word} (hu : s.hostUp = true) (hb : s.blocked = none)
  (ho : off = 0x120000 ∨ off = 0x120004 ∨ off = 0x120008)

include hu hb ho

theorem exec_memSliceWrite_state (hst : ¬ (s.dom.state = .bringup ∨ s.dom.state = .test)) :
    exec (.memSliceWrite off v) s = .next (s.refuseWrite 2 off) := by
  rw [exec_memSliceWrite hu ho, State.writeSlice_of_unblocked hb]
  exact congrArg _ (if_pos (by simpa [not_or] using hst))

variable (hst : s.dom.state = .bringup ∨ s.dom.state = .test)

include hst

theorem exec_memSliceWrite_busy (hbusy : s.layoutBusy (s.mem.withSlice off (sliceField off v)) = true) :
    exec (.memSliceWrite off v) s = .next (s.refuseWrite 3 off) := by
  rw [exec_memSliceWrite hu ho, State.writeSlice_of_unblocked hb]
  dsimp only
  rw [if_neg (by simpa using or_iff_not_imp_left.1 hst), if_pos hbusy]

variable (hfree : s.layoutBusy (s.mem.withSlice off (sliceField off v)) = false)

include hfree

theorem exec_memSliceWrite_range (hbad : s.layoutBad (s.mem.withSlice off (sliceField off v)) (off = 0x120004) = true) :
    exec (.memSliceWrite off v) s = .next (s.refuseWrite 1 off) := by
  rw [exec_memSliceWrite hu ho, State.writeSlice_of_unblocked hb]
  dsimp only
  rw [if_neg (by simpa using or_iff_not_imp_left.1 hst), if_neg (by simp [hfree]), if_pos hbad]

theorem exec_memSliceWrite_applied (hok : s.layoutBad (s.mem.withSlice off (sliceField off v)) (off = 0x120004) = false) :
    exec (.memSliceWrite off v) s = .next (s.relayout (s.mem.withSlice off (sliceField off v))) := by
  rw [exec_memSliceWrite hu ho, State.writeSlice_of_unblocked hb]
  dsimp only
  rw [if_neg (by simpa using or_iff_not_imp_left.1 hst), if_neg (by simp [hfree]), if_neg (by simp [hok])]

end Slices

/-! ## Words of a wide register (R344) -/

/-- The value of `n` words, lowest first. -/
def wordSum (w : Nat → Word) (n : Nat) : Nat := (List.range n).foldl (fun v i => v + (w i).toNat * 2 ^ (32 * i)) 0

theorem wordSum_succ (w : Nat → Word) (n : Nat) : wordSum w (n + 1) = wordSum w n + (w n).toNat * 2 ^ (32 * n) := by
  simp [wordSum, List.range_succ]

theorem wordSum_lt (w : Nat → Word) (n : Nat) : wordSum w n < 2 ^ (32 * n) := by
  induction n with
  | zero => exact Nat.one_pos
  | succ n ih =>
    have hw : (w n).toNat + 1 ≤ 2 ^ 32 := (w n).isLt
    calc wordSum w (n + 1) = wordSum w n + (w n).toNat * 2 ^ (32 * n) := wordSum_succ w n
      _ < ((w n).toNat + 1) * 2 ^ (32 * n) := by
        rw [Nat.succ_mul (w n).toNat, Nat.add_comm]
        exact Nat.add_lt_add_left ih _
      _ ≤ 2 ^ 32 * 2 ^ (32 * n) := Nat.mul_le_mul_right _ hw
      _ = 2 ^ (32 * (n + 1)) := by rw [← Nat.pow_add, Nat.mul_succ, Nat.add_comm]

/-- The highest bits of a register are its highest word. -/
theorem wordSum_high (w : Nat → Word) {n k : Nat} (hk : k = 32 * (n + 1)) :
    (BitVec.ofNat k (wordSum w (n + 1))).toNat / 2 ^ (32 * n) = (w n).toNat := by
  rw [BitVec.toNat_ofNat, hk, Nat.mod_eq_of_lt (wordSum_lt w (n + 1)), wordSum_succ, Nat.add_mul_div_right _ _ (Nat.two_pow_pos _),
    Nat.div_eq_of_lt (wordSum_lt w n), Nat.zero_add]

/-! ## Class sets (R225, R267, R355) -/

/-- MEM_CLASS_CH of a class is one register of 16 words (R354). -/
theorem State.regAt_classCh (s : State) {c : Nat} (hc : c < 16) :
    s.regAt (classChOff c) = ⟨classChOff c, 16, (s.mem.classCh.get 0 c).toNat⟩ := by
  interval_cases c <;> rfl

/-- Word 15 of a set is the word that commits it. -/
theorem State.stagedSet_high (s : State) {c : Nat} (hc : c < 16) (v : Word) :
    ((s.stage (classChOff c + 0x3C) v).stagedSet c).toNat / 2 ^ 480 = v.toNat := by
  have hreg := (s.stage (classChOff c + 0x3C) v).regAt_classCh hc
  have hset : (s.stage (classChOff c + 0x3C) v).stagedSet c = BitVec.ofNat 512 (wordSum (fun i =>
      ((s.hif.staged.set (classChOff c + 0x3C) v).find? (classChOff c + 4 * i)).getD
        (Reg.word ⟨classChOff c, 16, (s.mem.classCh.get 0 c).toNat⟩ i)) 16) := by
    unfold State.stagedSet
    rw [hreg]
    rfl
  rw [hset, wordSum_high (n := 15) _ rfl, Tab.find?_set_self, Option.getD_some]

/-- Discarding staged words changes nothing else. -/
theorem State.unstageSet_frame (s : State) (c : Nat) : ∃ x, s.unstageSet c = { s with hif := { s.hif with staged := x } } := by
  unfold State.unstageSet
  generalize List.range 16 = l
  induction l generalizing s with
  | nil => exact ⟨s.hif.staged, rfl⟩
  | cons i l ih =>
    obtain ⟨x, hx⟩ := ih (s.unstage (classChOff c + 4 * i))
    exact ⟨x, hx⟩

/-- The set that word 15 commits, the other words as staged (R355). -/
def State.committedSet (s : State) (c : Nat) (v : Word) : W512 := (s.stage (classChOff c + 0x3C) v).stagedSet c

section Sets

variable {c : Nat} {v : Word} (hu : s.hostUp = true) (hc : c < 16) (hb : s.blocked = none)

include hu hc hb

/-- Word 15 commits the set: BUSY where it changes a class in use, RANGE for its channels, and the staged words go (R346, R355). -/
theorem exec_memClassChCommit : exec (.memClassChCommit c v) s = .next (State.unstageSet
    (if s.committedSet c v != s.mem.classCh.get 0 c && s.classOpen c then s.refuseWrite 3 (classChOff c + 0x3C)
     else if s.setBad c (s.committedSet c v) then s.refuseWrite 1 (classChOff c + 0x3C)
     else if s.committedSet c v = s.mem.classCh.get 0 c then s else s.setClassCh c (s.committedSet c v)) c) := by
  have hact : (s.hostUp && decide (c < 16)) = true := by simp [hu, hc]
  have hlast : ¬ ((classChOff c + 0x3C - 0x120400) % 0x40 != 0x3C) = true := by simp [classChOff]; omega
  have hclass : (classChOff c + 0x3C - 0x120400) / 0x40 = c := by unfold classChOff; omega
  rw [show exec (.memClassChCommit c v) s = execMemClassChCommit c v s from rfl, execMemClassChCommit, act_of_true hact,
    State.writeClassCh, if_neg hlast, hclass]
  dsimp only
  rw [State.regWrite_of_unblocked hb, if_neg Bool.false_ne_true, ← State.committedSet]

theorem exec_memClassChCommit_takes (hfree : s.committedSet c v = s.mem.classCh.get 0 c ∨ s.classOpen c = false)
    (hok : s.setBad c (s.committedSet c v) = false) : ∃ t : State, exec (.memClassChCommit c v) s = .next t ∧
      t.mem.classCh.get 0 c = s.committedSet c v ∧ t.hif.refCnt = s.hif.refCnt ∧
      (∀ k, k ≠ c → t.mem.classCh.get 0 k = s.mem.classCh.get 0 k) ∧ t.mem.sharedWays = s.mem.sharedWays ∧ t.eng = s.eng := by
  have hidle : ¬ (s.committedSet c v != s.mem.classCh.get 0 c && s.classOpen c) = true := by
    rcases hfree with h | h
    · simp [h]
    · simp [h]
  refine ⟨_, exec_memClassChCommit hu hc hb, ?_⟩
  rw [if_neg hidle, if_neg (by simp [hok])]
  split
  case isTrue hsame =>
    obtain ⟨x, hx⟩ := s.unstageSet_frame c
    rw [hx]
    exact ⟨hsame.symm, rfl, fun k _ => rfl, rfl, rfl⟩
  case isFalse =>
    obtain ⟨x, hx⟩ := (s.setClassCh c (s.committedSet c v)).unstageSet_frame c
    rw [hx]
    exact ⟨Tab.get_set_self .., rfl, fun k hk => Tab.get_set_ne _ _ _ hk, rfl, rfl⟩

theorem exec_memClassChCommit_busy (hne : s.committedSet c v ≠ s.mem.classCh.get 0 c) (hopen : s.classOpen c = true) :
    ∃ t : State, exec (.memClassChCommit c v) s = .next t ∧ t.mem = s.mem ∧ t.hif.refReason = 3 := by
  refine ⟨_, exec_memClassChCommit hu hc hb, ?_⟩
  obtain ⟨x, hx⟩ := (s.refuseWrite 3 (classChOff c + 0x3C)).unstageSet_frame c
  rw [if_pos (Bool.and_eq_true_iff.2 ⟨bne_iff_ne.2 hne, hopen⟩), hx]
  exact ⟨rfl, rfl⟩

theorem exec_memClassChCommit_range (hfree : s.classOpen c = false) (hbad : s.setBad c (s.committedSet c v) = true) :
    ∃ t : State, exec (.memClassChCommit c v) s = .next t ∧ t.mem = s.mem ∧ t.hif.refReason = 1 := by
  refine ⟨_, exec_memClassChCommit hu hc hb, ?_⟩
  obtain ⟨x, hx⟩ := (s.refuseWrite 1 (classChOff c + 0x3C)).unstageSet_frame c
  rw [if_neg (by simp [hfree]), if_pos hbad, hx]
  exact ⟨rfl, rfl⟩

end Sets

/-- Settles O16: each clause is the case of a write that its hypotheses select. -/
theorem memoryLayoutTakesWrites : Obligations.MemoryLayoutTakesWrites := by
  unfold Obligations.MemoryLayoutTakesWrites
  refine ⟨?slices, ?sets⟩
  case slices =>
    intro s off v hu hr hh hl ho u m st no
    have hb : s.blocked = none := State.blocked_eq_none hr hh hl
    refine ⟨fun hst hfree hok => ?applied, fun hst hbusy => exec_memSliceWrite_busy hu hb ho hst hbusy,
      fun hst hfree hbad => exec_memSliceWrite_range hu hb ho hst hfree hbad, fun hst => exec_memSliceWrite_state hu hb ho hst⟩
    case applied =>
      refine ⟨_, exec_memSliceWrite_applied hu hb ho hst hfree hok, rfl, rfl, rfl, rfl, ?_, ?_, ?_, rfl, rfl⟩
      all_goals
        obtain ⟨a, b, e, hm⟩ := s.mem.withSlice_frame off (sliceField off v)
        rw [hm]
        rfl
  case sets =>
    intro s c v hu hc hr hh hl m held
    have hb : s.blocked = none := State.blocked_eq_none hr hh hl
    exact ⟨s.stagedSet_high hc v, exec_memClassChCommit_takes hu hc hb, exec_memClassChCommit_busy hu hc hb,
      exec_memClassChCommit_range hu hc hb⟩

end Sys2Proof.Machine
end

section
/-! PROOF. Descriptors of sequences: open, prompt, changes, close and cancel, query (spec 08 R195, R199 to R209, spec 13 R330). -/

namespace Sys2Proof.Machine

/-! ## Sequence records, tenants and the cache -/

theorem Tab.find?_erase_ne {α : Type} (t : Tab α) {j k : Nat} (hj : j ≠ k) : (t.erase k).find? j = t.find? j := by
  induction t with
  | nil => rfl
  | cons p t ih =>
    obtain ⟨i, a⟩ := p
    rcases eq_or_ne i k with rfl | hi
    · simp [Tab.erase, Tab.find?, hj.symm]
    · simp [Tab.erase, Tab.find?, hi, ih]

theorem Tab.get_erase_ne {α : Type} (t : Tab α) (d : α) {j k : Nat} (hj : j ≠ k) : (t.erase k).get d j = t.get d j := by
  simp [Tab.get, Tab.find?_erase_ne t hj]

@[simp] theorem State.seq_setSeq_self (s : State) (q : Nat) (r : SeqRec) : (s.setSeq q r).seq q = r := Tab.get_set_self ..

theorem State.seq_setSeq_ne (s : State) {p q : Nat} (r : SeqRec) (hp : p ≠ q) : (s.setSeq q r).seq p = s.seq p :=
  Tab.get_set_ne s.eng.seqs _ r hp

/-- A record that is used is in the cache (R195). -/
theorem State.mem_cacheTouch (s : State) (q : Nat) : q ∈ (s.cacheTouch q).eng.cache :=
  List.mem_append_right _ (List.mem_singleton_self q)

/-- A record is read from the cache, or from a copy of the table, whose error is recorded (R195). -/
theorem State.readRecord_frame {s : State} {q : Nat} (h : s.eng.cache.contains q = true ∨ s.err.handling = []) (bad : Bool) :
    ∃ x o, s.readRecord q bad = { s with err := x, out := o } := by
  unfold State.readRecord
  split
  · exact ⟨s.err, s.out, rfl⟩
  · rename_i hout
    split
    · exact State.raise_of_idle (h.resolve_left hout) rfl
    · exact ⟨s.err, s.out, rfl⟩

/-! ## What records leave -/

namespace Answered

variable {r s t : State}

theorem seq (h : Answered s t) (p : Nat) : t.seq p = s.seq p := by rw [State.seq, h.eng, State.seq]

theorem longOps (h : Answered s t) : t.longOps = s.longOps := by
  obtain ⟨w, r, o, rfl⟩ := h.frame
  rfl

theorem steep (h : Answered s t) : t.steep = s.steep := by
  obtain ⟨w, r, o, rfl⟩ := h.frame
  rfl

theorem noSteeps (h : Answered s t) : t.noSteeps = s.noSteeps := by
  obtain ⟨w, r, o, rfl⟩ := h.frame
  rfl

theorem setSeq (h : Answered s t) (q : Nat) (x : SeqRec) : Answered (s.setSeq q x) (t.setSeq q x) where
  frame := by
    obtain ⟨w, r, o, rfl⟩ := h.frame
    exact ⟨w, r, o, rfl⟩
  sent := h.sent
  cuts := h.cuts

theorem hold (h : Answered r s) (n : Nat) (d : W512) (w : WaitFor) : Answered r (s.hold n d w) :=
  h.trans ⟨⟨_, s.rings, s.out, rfl⟩, fun _ h => h, fun _ h _ => List.mem_append_left _ h⟩

theorem finishControl (h : Answered r s) (c : OpControl) (status : Nat) : Answered r (s.finishControl c status) := by
  unfold State.finishControl
  dsimp only
  split
  · exact ((h.setRing c.ring _).release c.ring 1).drain c.ring
  · exact ((h.setRing c.ring _).reservedRecord c.ring 1 _).drain c.ring

end Answered

/-- A long operation starts under the next handle, with its ACCEPTED record (R338, R339). -/
theorem State.startOp_answered (s : State) (n : Nat) (d : W512) (k : OpKind) (total : Nat) :
    Answered { s with
      nextHandle := if s.nextHandle + 1 = 0 then 1 else s.nextHandle + 1
      longOps := s.longOps.set s.nextHandle.toNat
        { kind := k, ring := n, tag := dTag d, quiet := dQuiet d, desc := d, total := total } } (s.startOp n d k total).1 :=
  ((Answered.refl _).setRing n _).reservedRecord n 1 _

/-- A long operation that ends leaves the list, and its records go out (R338, R341). -/
theorem State.endOp_answered (s : State) (h status ctl : Nat) : ∃ l, Answered { s with longOps := l } (s.endOp h status ctl false) ∧
    ∀ o, s.longOps.find? h = some o → l = s.longOps.erase h := by
  unfold State.endOp
  split
  case h_1 hnone => exact ⟨s.longOps, .refl s, fun o ho => nomatch hnone.symm.trans ho⟩
  case h_2 op _ =>
    refine ⟨s.longOps.erase h, ?_, fun _ _ => rfl⟩
    simp only [Bool.false_eq_true, if_false]
    refine Answered.foldl ?_ (fun c hc => hc.finishControl c ctl) op.waiters
    split
    · exact ((Answered.refl _).release op.ring 1).drain op.ring
    · exact ((Answered.refl _).reservedRecord op.ring 1 _).drain op.ring

/-! ## Open (R199, R203, R238) -/

section

variable (s : State) (n : Nat) (d : W512)

/-- The number that an open gives. -/
def State.openNumber : Nat := lowestFree s.eng.seqs.keys (2 ^ 20)

theorem State.openSeq_opens : ∃ (v : State) (r : SeqRec), Answered v (s.openSeq n d) ∧ v.eng.seqs = s.eng.seqs.set s.openNumber r ∧
    v.mem = s.mem ∧ s.openNumber ∈ v.eng.cache ∧
    v.eng.tenants = s.eng.tenants.set (dTenant d) { s.tenant (dTenant d) with openSeqs := (s.tenant (dTenant d)).openSeqs + 1 } ∧
    r.state = .idle ∧ r.ring = n ∧ r.tenant = dTenant d ∧ r.committed = 0 ∧ r.userTag = BitVec.ofNat 64 (dField d 32 8) ∧
    r.goal = dField d 8 2 ∧ r.priority = bits (dField d 8 4) 17 16 ∧ r.sampleSeed = BitVec.ofNat 64 (dField d 40 8) ∧
    r.cls = (s.tenant (dTenant d)).cls := by
  unfold State.openSeq
  extract_lets q t draft r u
  exact ⟨_, r, (Answered.refl (u.cacheTouch q)).finish n d 0 _, rfl, rfl, u.mem_cacheTouch q, rfl, rfl, rfl, rfl, rfl, rfl, rfl, rfl, rfl, rfl⟩

/-! ## Prompt (R203, R209) -/

/-- The number of the sequence that a descriptor names in bytes 8 to 11. -/
def seqNumber : Nat := dField d 8 4 % 2 ^ 20

/-- A record as a prompt leaves it (R203). -/
def SeqRec.prompted (r : SeqRec) (d : W512) : SeqRec :=
  { r with
    state := .prefill, committed := promptFrom r, promptStart := promptFrom r, promptAddr := BitVec.ofNat 64 (dField d 16 8)
    promptRemain := dField d 24 4, newMax := dField d 28 4, newCount := 0, maskAddr := BitVec.ofNat 64 (dField d 32 8)
    tokDev := bit (dField d 12 4) 0, freePages := r.freePages || r.state = .lost }

/-- A prompt's record is in the cache and prefills. -/
def State.prompted : State :=
  ((s.readRecord (seqNumber d) false).cacheTouch (seqNumber d)).setSeq (seqNumber d) ((s.seq (seqNumber d)).prompted d)

/-- Up to 32,768 tokens a prompt ends with its record. -/
theorem State.promptSeq_short (h : ¬ 32768 < dField d 24 4) : Answered (s.prompted d) (s.promptSeq n d) := by
  unfold State.promptSeq
  dsimp only
  rw [if_neg h]
  exact (Answered.refl _).finish n d 0 _

/-- A longer prompt is a long operation, whose handle the record holds (R209). -/
theorem State.promptSeq_long (h : 32768 < dField d 24 4) :
    s.promptSeq n d = ((s.prompted d).startOp n d (.prefill (seqNumber d)) (dField d 24 4)).1.setSeq (seqNumber d)
      { (s.seq (seqNumber d)).prompted d with opHandle := (s.prompted d).nextHandle } := by
  have hseq : ((s.prompted d).startOp n d (.prefill (seqNumber d)) (dField d 24 4)).1.seq (seqNumber d) = (s.seq (seqNumber d)).prompted d :=
    ((s.prompted d).startOp_answered n d _ _).seq _ |>.trans (State.seq_setSeq_self ..)
  have hhandle : BitVec.ofNat 32 ((s.prompted d).startOp n d (.prefill (seqNumber d)) (dField d 24 4)).2 = (s.prompted d).nextHandle :=
    (BitVec.ofNat_toNat ..).trans (BitVec.setWidth_eq _)
  rw [← hseq, ← hhandle]
  exact if_pos h

variable {s n d}

/-- A prompt changes its record, the cache and the records of errors. -/
theorem State.prompted_frame (h : s.eng.cache.contains (seqNumber d) = true ∨ s.err.handling = []) : ∃ c x o, seqNumber d ∈ c ∧
    s.prompted d = { s with
      err := x, out := o
      eng := { s.eng with seqs := s.eng.seqs.set (seqNumber d) ((s.seq (seqNumber d)).prompted d), cache := c } } := by
  obtain ⟨x, o, hread⟩ := State.readRecord_frame h false
  refine ⟨_, x, o, State.mem_cacheTouch { s with err := x, out := o } (seqNumber d), ?_⟩
  rw [State.prompted, hread]
  rfl

theorem State.promptSeq_prefills (h : s.eng.cache.contains (seqNumber d) = true ∨ s.err.handling = []) :
    ∃ (v : State) (k : Word), Answered v (s.promptSeq n d) ∧ v.mem = s.mem ∧ seqNumber d ∈ v.eng.cache ∧
      v.seq (seqNumber d) = { (s.seq (seqNumber d)).prompted d with opHandle := k } ∧ (∀ p, p ≠ seqNumber d → v.seq p = s.seq p) ∧
      (32768 < dField d 24 4 → k = s.nextHandle ∧ ∃ o : LongOp, v.longOps.find? s.nextHandle.toNat = some o ∧
        o.kind = .prefill (seqNumber d) ∧ o.total = dField d 24 4) := by
  obtain ⟨c, x, o, hc, hframe⟩ := State.prompted_frame h
  by_cases hlong : 32768 < dField d 24 4
  · have hstart := ((s.prompted d).startOp_answered n d (.prefill (seqNumber d)) (dField d 24 4)).setSeq (seqNumber d)
      { (s.seq (seqNumber d)).prompted d with opHandle := (s.prompted d).nextHandle }
    rw [← State.promptSeq_long s n d hlong, hframe] at hstart
    exact ⟨_, _, hstart, rfl, hc, State.seq_setSeq_self .., fun p hp => (State.seq_setSeq_ne _ _ hp).trans (Tab.get_set_ne _ _ _ hp),
      fun _ => ⟨rfl, _, Tab.find?_set_self .., rfl, rfl⟩⟩
  · have hshort := State.promptSeq_short s n d hlong
    rw [hframe] at hshort
    exact ⟨_, _, hshort, rfl, hc, Tab.get_set_self .., fun p hp => Tab.get_set_ne _ _ _ hp, fun h => absurd h hlong⟩

/-! ## Changes (R205) -/

/-- A record as a change leaves it, by the mask of its groups (R330). -/
def SeqRec.change (e : SeqRec) (d : W512) : SeqRec :=
  let m := bits (dField d 28 4) 27 24
  { e with
    priority := if bit m 0 then bits (dField d 8 4) 17 16 else e.priority
    goal := if bit m 1 then dField d 8 2 else e.goal
    stop0 := if bit m 2 then BitVec.ofNat 32 (dField d 20 4) else e.stop0
    stop1 := if bit m 2 then BitVec.ofNat 32 (dField d 24 4) else e.stop1
    temp := if bit m 3 then BitVec.ofNat 32 (dField d 16 4) else e.temp
    topk := if bit m 3 then dField d 14 2 else e.topk
    sampleSeed := if bit m 3 then BitVec.ofNat 64 (dField d 40 8) else e.sampleSeed }

theorem State.effectSeqSet_changes {w : Waiting} (h : (s.seq (dField w.desc 28 4 % 2 ^ 20)).state ≠ .free) :
    Answered (s.setSeq (dField w.desc 28 4 % 2 ^ 20) ((s.seq (dField w.desc 28 4 % 2 ^ 20)).change w.desc)) (s.effectSeqSet w) := by
  unfold State.effectSeqSet
  extract_lets d q m r r₀ r₁ r₂ r₃
  have hchange : r.change d = r₃ := by
    simp only [r₃, r₂, r₁, r₀, SeqRec.change]
    split_ifs <;> rfl
  rw [if_neg h]
  exact hchange ▸ (Answered.refl (s.setSeq q (r.change d))).finish w.ring d 0 []

/-! ## Close and cancel (R27, R199, R205, R336) -/

section

variable (s) (q : Nat)

/-- The sequence is closing and stages nothing more. -/
def State.stopSeq : State :=
  (s.setSeq q { s.seq q with closing := true }).setSteep { s.steep with
    ended := if (s.item q).isSome then addNew s.steep.ended q else s.steep.ended
    staged := s.steep.staged.filter fun g => g.seq != q }

/-- Its long prefill, if any, ends with CANCELLED. -/
def State.closePrefill (k : Word) : State := if k = 0 then s else s.endOp k.toNat 0x0602 0x0605 false

/-- Its record is freed where no steeps run. -/
def State.freeNow : State := if s.noSteeps then s.freeSeq q else s

theorem State.stopSeq_steep : (∀ g ∈ (s.stopSeq q).steep.staged, g.seq ≠ q) ∧ ((s.item q).isSome = true → q ∈ (s.stopSeq q).steep.ended) := by
  refine ⟨fun g hg => by simpa using (List.mem_filter.1 hg).2, fun hitem => ?_⟩
  show q ∈ (if (s.item q).isSome then addNew s.steep.ended q else s.steep.ended)
  rw [if_pos hitem]
  exact (mem_foldl_addNew [q] _).2 (.inr List.mem_cons_self)

theorem State.closePrefill_answered (k : Word) : ∃ l, Answered { s with longOps := l } (s.closePrefill k) ∧
    ∀ o, k ≠ 0 → s.longOps.find? k.toNat = some o → l = s.longOps.erase k.toNat := by
  unfold State.closePrefill
  split
  case isTrue h => exact ⟨s.longOps, .refl s, fun o hk => absurd h hk⟩
  case isFalse =>
    obtain ⟨l, hl, herase⟩ := s.endOp_answered k.toNat 0x0602 0x0605
    exact ⟨l, hl, fun o _ => herase o⟩

/-- A record that is freed leaves the table (R199). -/
theorem State.freeSeq_seqs : (s.freeSeq q).eng.seqs = s.eng.seqs.erase q := by
  unfold State.freeSeq
  dsimp only
  split
  · rfl
  · rfl

theorem State.freeNow_of_noSteeps (h : s.noSteeps = true) : s.freeNow q = s.freeSeq q := if_pos h

theorem State.freeNow_of_steeps (h : s.noSteeps = false) : s.freeNow q = s := if_neg (by simp [h])

theorem State.freeNow_frame : ∃ e m, s.freeNow q = { s with eng := e, mem := m } := by
  unfold State.freeNow
  split
  · exact s.freeSeq_frame q
  · exact ⟨s.eng, s.mem, rfl⟩

theorem State.seq_freeNow_ne {p : Nat} (hp : p ≠ q) : (s.freeNow q).seq p = s.seq p := by
  unfold State.freeNow
  split
  · rw [State.seq, State.freeSeq_seqs]
    exact Tab.get_erase_ne _ _ hp
  · rfl

/-- A close: its final record waits for the records of the sequence that are backlogged (R332). -/
theorem State.closeSeq_eq : s.closeSeq n d =
    let q := seqNumber d
    let k := (s.seq q).committed
    let t := ((s.stopSeq q).closePrefill (s.seq q).opHandle).freeNow q
    if (t.ring n).backlog.any (recordOf q) then t.hold n d (.records q k) else t.endClose n d q k := rfl

theorem State.closeSeq_answered : Answered (((s.stopSeq (seqNumber d)).closePrefill (s.seq (seqNumber d)).opHandle).freeNow (seqNumber d))
    (s.closeSeq n d) := by
  rw [State.closeSeq_eq]
  extract_lets q k t
  split
  · exact (Answered.refl t).hold n d _
  · exact (Answered.refl t).finish n d _ _

end

theorem State.closeSeq_closes : let q := seqNumber d
    ∃ v : State, Answered v (s.closeSeq n d) ∧ (∀ g ∈ v.steep.staged, g.seq ≠ q) ∧ ((s.item q).isSome = true → q ∈ v.steep.ended) ∧
      (∀ o, (s.seq q).opHandle ≠ 0 → s.longOps.find? (s.seq q).opHandle.toNat = some o →
        v.longOps = s.longOps.erase (s.seq q).opHandle.toNat) ∧
      (s.noSteeps = false → v.seq q = { s.seq q with closing := true } ∧ v.mem = s.mem) ∧
      (s.noSteeps = true → v.eng.seqs = (s.eng.seqs.set q { s.seq q with closing := true }).erase q) ∧
      ∀ p, p ≠ q → v.seq p = s.seq p := by
  intro q
  obtain ⟨l, hend, herase⟩ := (s.stopSeq q).closePrefill_answered (s.seq q).opHandle
  obtain ⟨hstaged, hended⟩ := s.stopSeq_steep q
  obtain ⟨e, m, hfree⟩ := ((s.stopSeq q).closePrefill (s.seq q).opHandle).freeNow_frame q
  have hsteep : (((s.stopSeq q).closePrefill (s.seq q).opHandle).freeNow q).steep = (s.stopSeq q).steep := by
    rw [hfree]
    exact hend.steep
  have hops : (((s.stopSeq q).closePrefill (s.seq q).opHandle).freeNow q).longOps = l := by
    rw [hfree]
    exact hend.longOps
  refine ⟨_, s.closeSeq_answered, hsteep ▸ hstaged, hsteep ▸ hended, fun o hk ho => hops.trans (herase o hk ho), fun hns => ?steeps,
    fun hns => ?noSteeps, fun p hp => ?other⟩
  case steeps =>
    rw [State.freeNow_of_steeps _ _ (hend.noSteeps.trans hns)]
    exact ⟨(hend.seq q).trans (Tab.get_set_self ..), hend.mem⟩
  case noSteeps =>
    rw [State.freeNow_of_noSteeps _ _ (hend.noSteeps.trans hns), State.freeSeq_seqs, hend.eng]
    rfl
  case other =>
    rw [State.seq_freeNow_ne _ _ hp, hend.seq]
    exact Tab.get_set_ne _ _ _ hp

end

/-! ## The descriptors -/

section

variable {s : State} {n : Nat} {d : W512} (hl : s.live = true) (hfind : s.accepted.find? (fun a => a.ring = n) = some ⟨n, d⟩)
  (hcheck : ({ s with accepted := [] } : State).checkDesc n d = none)

include hl hfind hcheck

theorem seqOpen_acts (hop : dOpcode d = 0x10) : let q := s.openNumber
    ∃ t : State, exec (.seqOpen n) s = .next t ∧ (t.seq q).state = .idle ∧ (t.seq q).ring = n ∧ (t.seq q).tenant = dTenant d ∧
      (t.seq q).committed = 0 ∧ (t.seq q).userTag = BitVec.ofNat 64 (dField d 32 8) ∧ (t.seq q).goal = dField d 8 2 ∧
      (t.seq q).priority = bits (dField d 8 4) 17 16 ∧ (t.seq q).sampleSeed = BitVec.ofNat 64 (dField d 40 8) ∧
      (t.seq q).cls = (s.tenant (dTenant d)).cls ∧ q ∈ t.eng.cache ∧
      t.tenant (dTenant d) = { s.tenant (dTenant d) with openSeqs := (s.tenant (dTenant d)).openSeqs + 1 } ∧
      (∀ p, p ≠ q → t.seq p = s.seq p) ∧ t.mem = s.mem := by
  intro q
  obtain ⟨v, r, hv, hseqs, hmem, hcache, htenants, hr⟩ := State.openSeq_opens { s with accepted := s.accepted.erase ⟨n, d⟩ } n d
  obtain ⟨t, he, ht⟩ := row_answered (c := .seqOpen n) (f := fun d s => s.openSeq n d) hl hfind hcheck rfl hop (by decide) hv
  have hq : t.seq q = r := by
    rw [ht.seq, State.seq, hseqs]
    exact Tab.get_set_self ..
  obtain ⟨hstate, hring, htenant, hcommitted, htag, hgoal, hpriority, hseed, hcls⟩ := hr
  refine ⟨t, he, ?_⟩
  rw [hq]
  refine ⟨hstate, hring, htenant, hcommitted, htag, hgoal, hpriority, hseed, hcls, ht.eng ▸ hcache, ?_, fun p hp => ?_, ht.mem.trans hmem⟩
  · rw [State.tenant, ht.eng, htenants]
    exact Tab.get_set_self ..
  · rw [ht.seq, State.seq, hseqs]
    exact Tab.get_set_ne _ _ _ hp

theorem seqPrompt_acts (hop : dOpcode d = 0x11) (hread : s.eng.cache.contains (seqNumber d) = true ∨ s.err.handling = []) :
    ∃ (t : State) (k : Word), exec (.seqPrompt n) s = .next t ∧ t.seq (seqNumber d) = { (s.seq (seqNumber d)).prompted d with opHandle := k } ∧
      seqNumber d ∈ t.eng.cache ∧ (∀ p, p ≠ seqNumber d → t.seq p = s.seq p) ∧ t.mem = s.mem ∧
      (32768 < dField d 24 4 → k = s.nextHandle ∧ ∃ o : LongOp, t.longOps.find? s.nextHandle.toNat = some o ∧
        o.kind = .prefill (seqNumber d) ∧ o.total = dField d 24 4) := by
  obtain ⟨v, k, hv, hmem, hcache, hq, hother, hlong⟩ :=
    State.promptSeq_prefills (s := { s with accepted := s.accepted.erase ⟨n, d⟩ }) (n := n) hread
  obtain ⟨t, he, ht⟩ := row_answered (c := .seqPrompt n) (f := fun d s => s.promptSeq n d) hl hfind hcheck rfl hop (by decide) hv
  exact ⟨t, k, he, (ht.seq _).trans hq, ht.eng ▸ hcache, fun p hp => (ht.seq p).trans (hother p hp), ht.mem.trans hmem,
    ht.longOps ▸ hlong⟩

theorem seqSet_acts (hop : dOpcode d = 0x12) (hns : s.noSteeps = true) : let q := dField d 28 4 % 2 ^ 20
    (s.seq q).state ≠ .free → ∃ t : State, exec (.seqSet n) s = .next t ∧ t.seq q = (s.seq q).change d ∧
      (∀ p, p ≠ q → t.seq p = s.seq p) ∧ t.mem = s.mem := by
  intro q hq
  have heffect : (({ s with accepted := s.accepted.erase ⟨n, d⟩ } : State).hold n d .cut).effect ⟨n, d, .cut⟩ =
      (s.atOnce n d).effectSeqSet ⟨n, d, .cut⟩ := by
    simp only [State.effect, hop, State.atOnce]
  obtain ⟨t, he, ht⟩ := atCut_effect (c := .seqSet n) hl hfind hcheck rfl hop (by decide) hns
    (by rw [heffect]; exact State.effectSeqSet_changes (w := ⟨n, d, .cut⟩) hq)
  exact ⟨t, he, (ht.seq q).trans (State.seq_setSeq_self ..), fun p hp => (ht.seq p).trans (State.seq_setSeq_ne _ _ hp), ht.mem⟩

/-- Close and cancel are one row but for their opcode and final status. -/
theorem close_acts {c : Instr} {op : Nat} (hc : exec c s = s.row n op anyDesc fun d s => s.closeSeq n d) (hop : dOpcode d = op)
    (hctl : op < 0x30) : let q := seqNumber d
    ∃ t : State, exec c s = .next t ∧ (∀ g ∈ t.steep.staged, g.seq ≠ q) ∧ ((s.item q).isSome = true → q ∈ t.steep.ended) ∧
      (∀ o, (s.seq q).opHandle ≠ 0 → s.longOps.find? (s.seq q).opHandle.toNat = some o →
        t.longOps = s.longOps.erase (s.seq q).opHandle.toNat) ∧
      (s.noSteeps = false → t.seq q = { s.seq q with closing := true } ∧ t.mem = s.mem) ∧
      (s.noSteeps = true → t.eng.seqs = (s.eng.seqs.set q { s.seq q with closing := true }).erase q) ∧
      ∀ p, p ≠ q → t.seq p = s.seq p := by
  intro q
  obtain ⟨v, hv, hstaged, hended, hops, hlater, hnow, hother⟩ :=
    State.closeSeq_closes (s := { s with accepted := s.accepted.erase ⟨n, d⟩ }) (n := n) (d := d)
  obtain ⟨t, he, ht⟩ := row_answered hl hfind hcheck hc hop hctl hv
  exact ⟨t, he, ht.steep ▸ hstaged, ht.steep ▸ hended, ht.longOps ▸ hops,
    fun hns => ⟨(ht.seq q).trans (hlater hns).1, ht.mem.trans (hlater hns).2⟩, ht.eng ▸ hnow, fun p hp => (ht.seq p).trans (hother p hp)⟩

theorem seqQuery_acts (hop : dOpcode d = 0x15) (hread : s.eng.cache.contains (seqNumber d) = true ∨ s.err.handling = []) :
    ∃ t : State, exec (.seqQuery n) s = .next t ∧ t.eng = s.eng ∧ t.mem = s.mem ∧
      .hostWrite (s.ring n).tagPasid (BitVec.ofNat 64 (dField d 16 8)) (seqBytes (seqNumber d) (s.seq (seqNumber d))) ∈ t.out := by
  obtain ⟨x, o, hframe⟩ := State.readRecord_frame (s := { s with accepted := s.accepted.erase ⟨n, d⟩ }) hread false
  have hv : Answered (State.emit { s with accepted := s.accepted.erase ⟨n, d⟩, err := x, out := o }
      (.hostWrite (s.ring n).tagPasid (BitVec.ofNat 64 (dField d 16 8)) (seqBytes (seqNumber d) (s.seq (seqNumber d)))))
      ((State.readRecord { s with accepted := s.accepted.erase ⟨n, d⟩ } (seqNumber d) false).queryResult n d
        (seqBytes (seqNumber d) (s.seq (seqNumber d)))) := by
    rw [hframe]
    exact (Answered.refl _).finish n d 0 []
  obtain ⟨t, he, ht⟩ := row_answered (c := .seqQuery n)
    (f := fun d s => (s.readRecord (seqNumber d) false).queryResult n d (seqBytes (seqNumber d) (s.seq (seqNumber d))))
    hl hfind hcheck rfl hop (by decide) hv
  exact ⟨t, he, ht.eng, ht.mem, ht.sent _ (List.mem_append_right _ (List.mem_singleton_self _))⟩

end

/-- Settles O23, a row at a time: what each does before its record, then `Answered`. -/
theorem sequenceDescriptorsAct : Obligations.SequenceDescriptorsAct := by
  unfold Obligations.SequenceDescriptorsAct
  intro s n d hl hfind hcheck q
  refine ⟨seqOpen_acts hl hfind hcheck, ?prompt, fun hop hns => atCut_holds hl hfind hcheck rfl hop (by decide) hns,
    fun hop hns => seqSet_acts hl hfind hcheck hop hns, ?close, seqQuery_acts hl hfind hcheck⟩
  case prompt =>
    intro hop hread
    obtain ⟨t, k, he, hq, hcache, hother, hmem, hlong⟩ := seqPrompt_acts hl hfind hcheck hop hread
    refine ⟨t, he, ?_⟩
    rw [show t.seq q = _ from hq]
    exact ⟨rfl, rfl, rfl, rfl, rfl, rfl, rfl, hcache, hother, hmem, hlong⟩
  case close =>
    intro c hc hop
    simp only [List.mem_cons, List.not_mem_nil, or_false] at hc
    rcases hc with rfl | rfl
    · exact close_acts hl hfind hcheck rfl hop (by decide)
    · exact close_acts hl hfind hcheck rfl hop (by decide)

end Sys2Proof.Machine
end

section
/-! PROOF. The migration pool: a free granule for a fill, and what a copy that passes its checks leaves (spec 11 R278 to R285). -/

namespace Sys2Proof.Machine

/-! ## A free number -/

/-- With fewer numbers used than there are, the lowest free one is free. -/
theorem lowestFree_free {used : List Nat} {n : Nat} (h : used.length < n) : lowestFree used n < n ∧ lowestFree used n ∉ used := by
  unfold lowestFree
  rw [Nat.min_eq_right h]
  cases hfind : (List.range (used.length + 1)).find? fun i => !used.contains i with
  | some i =>
    have hi := List.mem_range.1 (List.mem_of_find?_eq_some hfind)
    have hfree := List.find?_some hfind
    exact ⟨by simp only [Option.getD_some]; omega, by simpa using hfree⟩
  | none =>
    have hused : List.range (used.length + 1) ⊆ used := fun i hi => by simpa using List.find?_eq_none.1 hfind i hi
    have hlen := (List.nodup_range.subperm hused).length_le
    simp only [List.length_range] at hlen
    omega

/-- A number picked freely is free (notes/assumptions/14.md). -/
theorem State.pickFree_free (s : State) {used : List Nat} {n : Nat} (h : used.length < n) :
    (s.pickFree used n).1 < n ∧ (s.pickFree used n).1 ∉ used := by
  unfold State.pickFree
  extract_lets rest k go
  cases hk : go[k]? with
  | none => exact lowestFree_free h
  | some i =>
    have hi := List.mem_filter.1 (List.mem_of_getElem? hk)
    exact ⟨(Nat.min_le_left _ _).trans_lt' (List.mem_range.1 hi.1), by simpa using hi.2⟩

/-! ## A new granule (R278, R282) -/

/-- An entry outside the stream buffer takes a free pool granule there. -/
theorem State.newGranule_adds (s : State) {e : Granule} (hplace : e.place ≠ 2) (hroom : s.mainRoom = true) :
    ∃ k f, s.newGranule e = { s with free := f, mem := { s.mem with granules := s.mem.granules ++ [{ e with pool := k }] } } ∧
      k < s.mainGranules ∧ ∀ x ∈ s.mainEntries, x.pool ≠ k := by
  have hlen : (s.mainEntries.map Granule.pool).length < s.mainGranules := by simpa [State.mainRoom] using hroom
  obtain ⟨hlt, hnew⟩ := s.pickFree_free hlen
  refine ⟨(s.pickFree (s.mainEntries.map Granule.pool) s.mainGranules).1, s.free + 1, ?_, hlt,
    fun x hx h => hnew (h ▸ List.mem_map_of_mem hx)⟩
  simp only [State.newGranule, hplace, if_false, List.map_id']
  rfl

/-! ## A miss (R255, R278, R282, R283) -/

/-- A request joins the ones that wait for a granule. -/
def State.joinGranule (s : State) (e : Granule) (q : Nat) : State :=
  { s with mem := { s.mem with granules := s.mem.granules.map fun x => if x = e then { e with waiters := e.waiters ++ [q] } else x } }

/-- The entry of a fill that a request starts. -/
def State.missEntry (s : State) (a q : Nat) : Granule :=
  { num := a / 0x10000, gen := s.genOf a, pool := 0, place := s.placeOf a, filling := true, waiters := [q] }

section

variable {s : State} {a q : Nat} (hl : s.live = true) (hlow : s.lowTier a = true)

include hl hlow

theorem lowTier_guard : (s.live && s.lowTier a) = true := by rw [hl, hlow]; rfl

/-- A granule that is fetched again keeps the request (R255). -/
theorem granuleMiss_refetching {e : Granule} (hres : s.resident (a / 0x10000) = some e)
    (hre : s.comp.refetch.contains (a / 0x10000) = true) : exec (.granuleMiss a q) s = .next (s.joinGranule e q) := by
  show execGranuleMiss a q s = _
  rw [execGranuleMiss, act_of_true (lowTier_guard hl hlow)]
  simp only [hres, hre, if_true]
  rfl

/-- A resident granule serves the request. -/
theorem granuleMiss_hits {e : Granule} (hres : s.resident (a / 0x10000) = some e) (hre : s.comp.refetch.contains (a / 0x10000) = false) :
    ∃ t : State, exec (.granuleMiss a q) s = .next t ∧ .served q a ∈ t.out ∧ t.mem.hbm = s.mem.hbm ∧
      t.mem.granules.map Granule.num = s.mem.granules.map Granule.num := by
  have hexec : exec (.granuleMiss a q) s = .next ((s.setGranules (s.mem.granules.map fun x =>
      if x = e then { e with readSince := true } else x)).emit (.served q a)) := by
    show execGranuleMiss a q s = _
    rw [execGranuleMiss, act_of_true (lowTier_guard hl hlow)]
    simp only [hres, hre, Bool.false_eq_true, if_false]
  refine ⟨_, hexec, List.mem_append_right _ (List.mem_singleton_self _), rfl, ?_⟩
  refine (List.map_map ..).trans (List.map_congr_left fun x _ => ?_)
  dsimp only [Function.comp]
  split
  case isTrue h => exact (congrArg Granule.num h).symm
  case isFalse => rfl

/-- A fill in progress under the same generation keeps the request. -/
theorem granuleMiss_joins {e : Granule} (hres : s.resident (a / 0x10000) = none)
    (hfill : s.mem.granules.find? (fun e => e.num = a / 0x10000 && e.filling && !e.drop && e.gen = s.genOf a) = some e) :
    exec (.granuleMiss a q) s = .next (s.joinGranule e q) := by
  show execGranuleMiss a q s = _
  rw [execGranuleMiss, act_of_true (lowTier_guard hl hlow)]
  simp only [hres, hfill]
  rfl

/-- A miss with a free pool granule starts a fill there. -/
theorem granuleMiss_fills (hnew : ∀ e ∈ s.mem.granules, e.num ≠ a / 0x10000) (hplace : s.placeOf a ≠ 2)
    (hroom : s.mainRoom = true) : ∃ (t : State) (e : Granule), exec (.granuleMiss a q) s = .next t ∧
      t.mem.granules = s.mem.granules ++ [e] ∧ e.num = a / 0x10000 ∧ e.filling = true ∧ e.waiters = [q] ∧ e.gen = s.genOf a ∧
      e.place = s.placeOf a ∧ e.pool < s.mainGranules ∧ (∀ x ∈ s.mainEntries, x.pool ≠ e.pool) ∧ t.mem.hbm = s.mem.hbm := by
  have hres : s.resident (a / 0x10000) = none := List.find?_eq_none.2 fun e he => by simp [hnew e he]
  have hfill : s.mem.granules.find? (fun e => e.num = a / 0x10000 && e.filling && !e.drop && e.gen = s.genOf a) = none :=
    List.find?_eq_none.2 fun e he => by simp [hnew e he]
  obtain ⟨k, f, hadd, hlt, hfree⟩ := s.newGranule_adds (e := s.missEntry a q) hplace hroom
  have hstart : s.startFill a [q] = some (s.newGranule (s.missEntry a q)) := by
    unfold State.startFill
    rw [if_neg hplace, if_pos hroom]
    rfl
  have hexec : exec (.granuleMiss a q) s = .next ((s.startFill a [q]).getD s) := by
    show execGranuleMiss a q s = _
    rw [execGranuleMiss, act_of_true (lowTier_guard hl hlow)]
    simp only [hres, hfill]
  rw [hstart, hadd] at hexec
  exact ⟨_, _, hexec, rfl, rfl, rfl, rfl, rfl, rfl, hlt, hfree, rfl⟩

end

/-! ## A write of the pool (R271, R286) -/

/-- Bytes stand in HBM from an address, unless a class drops one of its channels, and no other byte changed. -/
structure Written (s : State) (a : Nat) (bs : List Byte) (t : State) : Prop where
  inside : s.mem.classDrop = [] → ∀ i, i < bs.length → Memory.byte t.mem.hbm (a + i) = bs.getD i 0
  outside : ∀ b, b < a ∨ a + bs.length ≤ b → Memory.byte t.mem.hbm b = Memory.byte s.mem.hbm b

theorem State.devWrite_writes (s : State) (a : Nat) (bs : List Byte) : Written s a bs (s.devWrite a bs) where
  inside := fun hd i hi => by
    rw [← State.store_hbm]
    exact State.store_byte_in hd a hi
  outside := fun b hb => by
    rw [← State.store_hbm]
    exact State.store_byte_out s a bs hb

/-! ## A fill completes (R278, R279, R282, R284) -/

/-- Pin settings that complete write their records. -/
theorem Answered.settlePins {r s : State} (h : Answered r s) : Answered r s.settlePins := by
  refine List.foldlRecOn (motive := fun t => Answered r t) _ _ h fun t ht w hw => ht.endOther ?_ w.ring w.desc 0 _
  rintro hcut
  have hpin := (List.mem_filter.1 hw).2
  simp [hcut, WaitFor.pinned] at hpin

/-- The entries after a fill: a stream granule is freed, any other is resident, at the placement that is in force. -/
def State.filledGranules (s : State) (e : Granule) (place : Nat) : List Granule :=
  if e.place = 2 then s.mem.granules.filter (· != e)
  else s.mem.granules.map fun x => if x = e then { e with filling := false, waiters := [], failed := none, place := place } else x

/-- A copy in its pool granule, with the requests it serves. -/
def State.filled (s : State) (e : Granule) (bs : List Byte) (place : Nat) : State :=
  { (s.devWrite (s.poolAddr e.pool) bs).setGranules (s.filledGranules e place) with
    out := s.out ++ e.waiters.map fun r => .served r (e.num * 0x10000) }

/-- A copy of a granule still wanted is written to its pool granule and nowhere else, and serves the requests that wait. -/
theorem State.fillDone_answered (s : State) {e : Granule} (bs : List Byte) (corrected : Bool) (recovered : Option (Nat × Nat))
    (hdrop : e.drop = false) (hgen : e.gen = none ∨ e.gen = some s.mem.genCurrent) :
    ∃ x o place, Answered (({ s with err := x, out := o } : State).filled e bs place) (s.fillDone e bs corrected recovered) := by
  unfold State.fillDone
  extract_lets a u s₁ s₂ s₃ s₄ s₅
  have hnotes : ∃ x o, s₂ = { s with err := x, out := o } := by
    obtain ⟨x₁, o₁, h₁⟩ : ∃ x o, s₁ = { s with err := x, out := o } := by
      cases recovered with
      | none => exact ⟨s.err, s.out, rfl⟩
      | some l => exact State.note_frame s _
    by_cases hc : (corrected && decide (u.1 = 5)) = true
    · obtain ⟨x, o, h⟩ := State.note_frame s₁ { status := 0x0438, cls := 0, unit := 5, die := u.2.1, pos := u.2.2, addr := a }
      exact ⟨x, o, (if_pos hc).trans (h.trans (by rw [h₁]))⟩
    · exact ⟨x₁, o₁, (if_neg hc).trans h₁⟩
  obtain ⟨x, o, hs₂⟩ := hnotes
  have hwanted : ¬ (e.drop || (e.gen.isSome && e.gen != some s₂.mem.genCurrent)) = true := by
    rw [hs₂, hdrop]
    rcases hgen with hgen | hgen <;> simp [hgen]
  refine ⟨x, o, s₄.placeOf a, ?_⟩
  rw [if_neg hwanted]
  have hs₅ : s₅ = State.filled { s with err := x, out := o } e bs (s₄.placeOf a) := by
    have hout : s₄ = { s₃ with out := s₃.out ++ e.waiters.map fun r => .served r a } := foldl_emit (.served · a) e.waiters s₃
    have hgran : s₄.mem.granules = s.mem.granules := by rw [hout, show s₃.mem.granules = s₂.mem.granules from rfl, hs₂]
    simp only [s₅, State.filled, State.filledGranules, hgran]
    split
    · rw [hout, show s₃ = s₂.devWrite (s₂.poolAddr e.pool) bs from rfl, hs₂]; rfl
    · rw [hout, show s₃ = s₂.devWrite (s₂.poolAddr e.pool) bs from rfl, hs₂]; rfl
  exact hs₅ ▸ (Answered.refl _).settlePins

/-- The fill of an entry has ended: its copy is in its pool granule, its requests are served, and it is freed or resident. -/
structure Filled (s : State) (e : Granule) (bs : List Byte) (t : State) : Prop where
  served : ∀ r ∈ e.waiters, .served r (e.num * 0x10000) ∈ t.out
  written : Written s (s.poolAddr e.pool) bs t
  freed : e.place = 2 → e ∉ t.mem.granules
  kept : e.place ≠ 2 → ∃ x ∈ t.mem.granules, x.num = e.num ∧ x.pool = e.pool ∧ x.filling = false

theorem State.fillDone_fills (s : State) {e : Granule} (he : e ∈ s.mem.granules) (bs : List Byte) (corrected : Bool)
    (recovered : Option (Nat × Nat)) (hdrop : e.drop = false) (hgen : e.gen = none ∨ e.gen = some s.mem.genCurrent) :
    Filled s e bs (s.fillDone e bs corrected recovered) := by
  obtain ⟨x, o, place, ht⟩ := s.fillDone_answered bs corrected recovered hdrop hgen
  have hgran : (s.fillDone e bs corrected recovered).mem.granules = s.filledGranules e place := by rw [ht.mem]; rfl
  have hwritten := State.devWrite_writes { s with err := x, out := o } (s.poolAddr e.pool) bs
  refine ⟨fun r hr => ht.sent _ (List.mem_append_right _ (List.mem_map_of_mem hr)), ⟨fun hd i hi => ?_, fun b hb => ?_⟩,
    fun h => ?_, fun h => ?_⟩
  · rw [ht.mem]
    exact hwritten.inside hd i hi
  · rw [ht.mem]
    exact hwritten.outside b hb
  · rw [hgran, State.filledGranules, if_pos h]
    simp
  · rw [hgran, State.filledGranules, if_neg h]
    exact ⟨_, List.mem_map_of_mem he, by rw [if_pos rfl], by rw [if_pos rfl], by rw [if_pos rfl]⟩

section

variable {s : State} {a : Nat} (hl : s.live = true) (hlow : s.lowTier a = true)

include hl hlow

/-- The end of a fill in progress, by what its two readings pass. -/
theorem granuleFillComplete_ends {e : Granule} (hfill : s.fillingOf (a / 0x10000) = some e) (f h : FillIn) :
    (∀ bs, s.fillOk (a / 0x10000) f = some bs → exec (.granuleFillComplete a f h) s = .next (s.fillDone e bs f.corrected e.failed)) ∧
    (s.fillOk (a / 0x10000) f = none →
      (∀ bs, s.fillOk (a / 0x10000) h = some bs → exec (.granuleFillComplete a f h) s =
        .next (s.fillDone e bs h.corrected (some (e.failed.getD (s.fillBad (a / 0x10000) f))))) ∧
      (s.fillOk (a / 0x10000) h = none → exec (.granuleFillComplete a f h) s = .next (s.fillFailed e h))) := by
  refine ⟨fun bs hbs => ?_, fun hf => ⟨fun bs hbs => ?_, fun hh => ?_⟩⟩
  all_goals
    show execGranuleFillComplete a f h s = _
    rw [execGranuleFillComplete, act_of_true (lowTier_guard hl hlow)]
    simp only [hfill, Option.isNone_some, Bool.false_and, Bool.false_eq_true, if_false]
  · simp only [hbs]
  · simp only [hf, hbs]
  · simp only [hf, hh]

/-- A fill that is not in progress of a resident granule has nothing to end. -/
theorem granuleFillComplete_idle (f h : FillIn) (hfill : s.fillingOf (a / 0x10000) = none) (hres : s.resident (a / 0x10000) ≠ none) :
    exec (.granuleFillComplete a f h) s = .next s := by
  show execGranuleFillComplete a f h s = _
  rw [execGranuleFillComplete, act_of_true (lowTier_guard hl hlow)]
  have hsome : (s.resident (a / 0x10000)).isNone = false := Option.isNone_eq_false_iff.2 (Option.isSome_iff_ne_none.2 hres)
  simp only [hfill, hsome, Bool.and_false, Bool.false_and, Bool.false_eq_true, if_false]

/-- A reading that passes, the first or the second, ends the fill with its copy in place. -/
theorem granuleFillComplete_fills {e : Granule} {f h : FillIn} {bs : List Byte} (hfill : s.fillingOf (a / 0x10000) = some e)
    (hdrop : e.drop = false) (hgen : e.gen = none ∨ e.gen = some s.mem.genCurrent)
    (hok : s.fillOk (a / 0x10000) f = some bs ∨ (s.fillOk (a / 0x10000) f = none ∧ s.fillOk (a / 0x10000) h = some bs)) :
    ∃ t : State, exec (.granuleFillComplete a f h) s = .next t ∧ Filled s e bs t := by
  have he : e ∈ s.mem.granules := List.mem_of_find?_eq_some hfill
  obtain ⟨hfirst, hsecond⟩ := granuleFillComplete_ends hl hlow hfill f h
  rcases hok with hok | ⟨hf, hok⟩
  · exact ⟨_, hfirst bs hok, s.fillDone_fills he bs _ _ hdrop hgen⟩
  · exact ⟨_, (hsecond hf).1 bs hok, s.fillDone_fills he bs _ _ hdrop hgen⟩

end

/-! ## Prefill (R280) -/

/-- Prefill has taken a granule: its entry has pool granule `k`. -/
def State.prefillTaken (s : State) (gen : Word) (granule k x : Nat) : State :=
  { s.prefillFrom (granule + 1) with
    free := x
    mem := { s.mem with granules := s.mem.granules ++ [{ num := granule, gen := some gen, pool := k, place := 1, prefill := true }] } }

section

variable {s : State} {gen : Word} {granule : Nat} {f : FillIn} (hl : s.live = true) (harm : s.caddy.armed = some gen)
  (hq : s.start.quiesced = false) (hnext : s.prefillNext = some granule)

include hl harm hq hnext

/-- With no free granule prefill stops. -/
theorem swapPrefill_stops (hroom : s.mainRoom = false) : exec (.swapPrefill granule f) s = .next (s.prefillFrom (2 ^ 32)) := by
  show execSwapPrefill granule f s = _
  simp [execSwapPrefill, harm, hl, hq, hnext, hroom]

/-- A granule whose copy fails is passed over (notes/assumptions/131.md). -/
theorem swapPrefill_passes (hroom : s.mainRoom = true) (hf : s.asIdle.fillOk granule f = none) :
    exec (.swapPrefill granule f) s = .next (s.prefillFrom (granule + 1)) := by
  show execSwapPrefill granule f s = _
  simp [execSwapPrefill, harm, hl, hq, hnext, hroom, hf]

/-- A copy that passes goes into a free pool granule, a prefill of the generation being armed. -/
theorem swapPrefill_fills {bs : List Byte} (hroom : s.mainRoom = true) (hf : s.asIdle.fillOk granule f = some bs) :
    ∃ (t : State) (e : Granule), exec (.swapPrefill granule f) s = .next t ∧ t.mem.granules = s.mem.granules ++ [e] ∧
      e.num = granule ∧ e.gen = some gen ∧ e.prefill = true ∧ e.filling = false ∧ t.caddy.prefillAt = granule + 1 ∧
      Written s (s.poolAddr e.pool) bs t := by
  obtain ⟨k, x, hadd, -, -⟩ := (s.prefillFrom (granule + 1)).newGranule_adds
    (e := { num := granule, gen := some gen, pool := 0, place := 1, prefill := true }) (by simp) hroom
  have hexec : exec (.swapPrefill granule f) s = .next ((s.prefillTaken gen granule k x).devWrite (s.poolAddr k) bs) := by
    show execSwapPrefill granule f s = _
    simp only [execSwapPrefill, harm, hl, hq, hnext, hroom, hf, hadd, Bool.not_false, Bool.not_true, Bool.and_self, decide_true, if_true,
      Bool.false_eq_true, if_false, List.getLast?_append, List.getLast?_singleton, Option.some_or]
    rfl
  have hwritten := (s.prefillTaken gen granule k x).devWrite_writes (s.poolAddr k) bs
  exact ⟨_, _, hexec, rfl, rfl, rfl, rfl, rfl, rfl, hwritten.inside, hwritten.outside⟩

end

end Sys2Proof.Machine
end

section
/-! PROOF. Scrubs, local atomics and the loss of a channel (spec 11 R252, R272 to R276, R286, R287, spec 18 R452 to R458, spec 20
R497). -/

namespace Sys2Proof.Machine

/-! ## Scrub (R252, R273, R274) -/

/-- A burst whose leaves all pass. -/
theorem State.scrubLeaf_clean {s : State} {b : Nat} (h : s.scrubBad b = none) : s.scrubLeaf b = s := by rw [State.scrubLeaf, h]

/-- Fewer than sixteen uncorrectable bursts within 1 s map no channel out (R452). -/
theorem State.badRead_few {s : State} (h : s.mem.badReads.length < 15) (b ch : Nat) :
    ∃ l, s.badRead b ch = { s with mem := { s.mem with badReads := l } } := by
  unfold State.badRead
  extract_lets old m u
  have hfew : (u.mem.badReads.filter fun r => r.1 = ch).length ≤ s.mem.badReads.length + 1 :=
    (List.length_filter_le ..).trans (by
      rw [show u.mem.badReads = old ++ [(ch, b, s.now)] from rfl, List.length_append]
      exact Nat.add_le_add_right (List.length_filter_le ..) 1)
  exact ⟨_, if_neg (by omega)⟩

/-- A resident granule that holds a burst. -/
def State.granuleHolds (s : State) (b : Nat) (e : Granule) : Bool := s.poolAddr e.pool ≤ b * 64 && b * 64 < s.poolAddr e.pool + 0x10000

section

variable {s : State} {a ch o : Nat} (hl : s.live = true) (hplace : s.place a = some (ch, o)) (hch : s.chLost.getLsbD ch = false)
  (hidle : ∀ e ∈ s.mem.granules, s.granuleHolds (a / 64) e = true → e.filling = false)

include hl hch hidle

theorem patrolScrub_unblocked :
    ¬ (!s.live || s.chLost.getLsbD ch || s.mem.granules.any fun e => e.filling && s.granuleHolds (a / 64) e) = true := by
  rw [hl, hch]
  simp only [Bool.not_true, Bool.or_self, Bool.false_or, List.any_eq_true, Bool.and_eq_true, not_exists, not_and]
  intro e he hfill hholds
  exact absurd (hidle e he hholds) (by simp [hfill])

include hplace

theorem patrolScrub_clean (hgood : s.scrubBad (a / 64) = none) : exec (.patrolScrub a .clean) s = .next s := by
  show execPatrolScrub a .clean s = _
  simp only [execPatrolScrub, hplace]
  refine (congrArg Host.Outcome.next (if_neg (patrolScrub_unblocked hl hch hidle))).trans ?_
  rw [State.scrubLeaf_clean hgood]

theorem patrolScrub_corrected (hgood : s.scrubBad (a / 64) = none) :
    ∃ t : State, exec (.patrolScrub a .corrected) s = .next t ∧ t.mem = s.mem := by
  obtain ⟨x, y, hn⟩ := State.note_frame s { status := 0x0427, cls := 0, unit := 3, pos := ch, addr := a / 64 * 64 }
  have hgood' : ({ s with err := x, out := y } : State).scrubBad (a / 64) = none := hgood
  refine ⟨{ s with err := x, out := y }, ?_, rfl⟩
  show execPatrolScrub a .corrected s = _
  simp only [execPatrolScrub, hplace]
  refine (congrArg Host.Outcome.next (if_neg (patrolScrub_unblocked hl hch hidle))).trans ?_
  rw [hn, State.scrubLeaf_clean hgood']

/-- An uncorrectable burst is marked, or takes the resident granules that hold it. -/
theorem patrolScrub_uncorrectable (hfew : s.mem.badReads.length < 15) :
    ∃ t : State, exec (.patrolScrub a .uncorrectable) s = .next t ∧ t.mem.hbm = s.mem.hbm ∧
      t.mem.granules = s.mem.granules.filter (fun e => !s.granuleHolds (a / 64) e) ∧
      t.mem.badBursts = (if s.mem.granules.any (s.granuleHolds (a / 64)) then s.mem.badBursts else addNew s.mem.badBursts (a / 64)) := by
  have hexec : exec (.patrolScrub a .uncorrectable) s = .next (State.badRead (if s.mem.granules.any (s.granuleHolds (a / 64)) then
      s.setGranules (s.mem.granules.filter fun e => !s.granuleHolds (a / 64) e)
      else ({ s with mem := { s.mem with badBursts := addNew s.mem.badBursts (a / 64) } } : State).note
        { status := 0x0428, cls := 0, unit := 3, pos := ch, addr := a / 64 * 64 }) (a / 64) ch) := by
    show execPatrolScrub a .uncorrectable s = _
    simp only [execPatrolScrub, hplace]
    exact congrArg Host.Outcome.next (if_neg (patrolScrub_unblocked hl hch hidle))
  by_cases hany : s.mem.granules.any (s.granuleHolds (a / 64)) = true
  · obtain ⟨l, hbad⟩ := State.badRead_few (s := s.setGranules (s.mem.granules.filter fun e => !s.granuleHolds (a / 64) e)) hfew
      (a / 64) ch
    rw [if_pos hany, hbad] at hexec
    exact ⟨_, hexec, rfl, rfl, by rw [if_pos hany]; rfl⟩
  · obtain ⟨x, y, hn⟩ := State.note_frame { s with mem := { s.mem with badBursts := addNew s.mem.badBursts (a / 64) } }
      { status := 0x0428, cls := 0, unit := 3, pos := ch, addr := a / 64 * 64 }
    obtain ⟨l, hbad⟩ := State.badRead_few
      (s := { s with mem := { s.mem with badBursts := addNew s.mem.badBursts (a / 64) }, err := x, out := y }) hfew (a / 64) ch
    have hnone : s.mem.granules.filter (fun e => !s.granuleHolds (a / 64) e) = s.mem.granules :=
      List.filter_eq_self.2 fun e he => by simpa using fun h => hany (List.any_eq_true.2 ⟨e, he, h⟩)
    rw [if_neg hany, hn, hbad] at hexec
    exact ⟨_, hexec, rfl, hnone.symm, by rw [if_neg hany]⟩

end

/-- CLEARING_SCRUB leaves zeros (R497). -/
theorem clearingScrub_clears {s : State} (hl : s.live = true) : exec .clearingScrub s = .next (if s.start.clearing then { s with
      mem := { s.mem with hbm := [], badBursts := [], dieStore := [] }
      caddy := { s.caddy with scrubRequired := false }, start := { s.start with clearing := false } } else s) := by
  have hpow : s.powered = true := by
    simp only [State.live, Bool.and_eq_true] at hl
    exact hl.1.1
  show execClearingScrub s = _
  rw [execClearingScrub, hpow]
  rfl

/-! ## Local atomics (R275, R276) -/

section

variable {s : State} {op : AtomicOp} {wide : Bool} {a : Nat} {operand compare : DWord} (hl : s.live = true)

include hl

theorem localAtomic_unaligned (ha : a % (if wide then 8 else 4) ≠ 0) :
    exec (.localAtomic op wide a operand compare) s = .next (s.emit (.atomic 0x0242 0)) := by
  show execLocalAtomic op wide a operand compare s = _
  rw [execLocalAtomic, act_of_true hl, if_pos (bne_iff_ne.2 ha)]

theorem localAtomic_refused {st : Nat} (ha : a % (if wide then 8 else 4) = 0) (hw : s.checkWrite a (if wide then 8 else 4) = some st) :
    exec (.localAtomic op wide a operand compare) s = .next (s.emit (.atomic st 0)) := by
  show execLocalAtomic op wide a operand compare s = _
  rw [execLocalAtomic, act_of_true hl, if_neg (by simp [ha]), hw]

/-- An atomic answers the value before, and writes its location alone. -/
theorem localAtomic_acts (ha : a % (if wide then 8 else 4) = 0) (hw : s.checkWrite a (if wide then 8 else 4) = none)
    (hr : s.readable a (if wide then 8 else 4) = true) : ∃ t : State, exec (.localAtomic op wide a operand compare) s = .next t ∧
      .atomic 0 (BitVec.ofNat 64 (Memory.num s.mem.hbm a (if wide then 8 else 4))) ∈ t.out ∧
      ∀ b, b < a ∨ a + (if wide then 8 else 4) ≤ b → Memory.byte t.mem.hbm b = Memory.byte s.mem.hbm b := by
  refine ⟨(s.atomicOp op (if wide then 8 else 4) a operand.toNat compare.toNat).2.emit (.atomic 0 (BitVec.ofNat 64
    (Memory.num s.mem.hbm a (if wide then 8 else 4)))), ?_, List.mem_append_right _ (List.mem_singleton_self _),
    fun b hb => State.store_byte_out s a _ (by rw [length_leBytes]; exact hb)⟩
  show execLocalAtomic op wide a operand compare s = _
  rw [execLocalAtomic, act_of_true hl, if_neg (by simp [ha]), hw]
  simp only [hr, Bool.not_true, Bool.false_eq_true, if_false]
  rfl

end

/-! ## Loss of a channel (R286, R287, R452 to R454) -/

/-- The channels that are lost, their redirects, the rebuild they ask for, and the stop flag. -/
def State.losses (s : State) : W512 × W512 × List Redirect × Bool × Bool :=
  (s.mem.lostAtStart, s.mem.lostSince, s.mem.redirects, s.mem.rebuild, s.err.fatal)

theorem State.note_losses (s : State) (e : ErrIn) : (s.note e).losses = s.losses := by
  have hfatal := State.note_fatal s e
  obtain ⟨x, o, h⟩ := State.note_frame s e
  rw [h] at hfatal ⊢
  exact congrArg (fun b => (s.mem.lostAtStart, s.mem.lostSince, s.mem.redirects, s.mem.rebuild, b)) hfatal

theorem State.events_losses (s : State) (qs : List Nat) (status : Nat) : (s.events qs status).losses = s.losses := by
  have hfatal := State.events_fatal qs status s
  obtain ⟨r, x, o, h⟩ := State.events_frame status qs s
  rw [h] at hfatal ⊢
  exact congrArg (fun b => (s.mem.lostAtStart, s.mem.lostSince, s.mem.redirects, s.mem.rebuild, b)) hfatal

theorem State.endPrefill_losses (s : State) (q status : Nat) : (s.endPrefill q status).losses = s.losses := by
  unfold State.endPrefill
  extract_lets k
  split
  · rfl
  · obtain ⟨l, r, o, h⟩ := State.endOp_frame s k status 0x0605
    rw [h]
    rfl

theorem State.signalMiss_losses (s : State) : s.signalMiss.losses = s.losses := by
  obtain ⟨a, h, d, b, w, r, f, ks, o, e⟩ := State.barrierSwap_frame s (2 ^ 63 + s.steep.number.toNat)
  rw [State.signalMiss, e]
  rfl

/-- A fold of steps that each leave the losses leaves them. -/
theorem foldl_losses {α : Type} {f : State → α → State} (hf : ∀ s a, (f s a).losses = s.losses) (l : List α) (s : State) :
    (l.foldl f s).losses = s.losses :=
  List.foldlRecOn (motive := fun t : State => t.losses = s.losses) l f rfl fun t ht a _ => (hf t a).trans ht

theorem State.loseSeqs_losses (s : State) (qs : List Nat) : (s.loseSeqs qs).losses = s.losses := by
  unfold State.loseSeqs
  extract_lets u st v
  have hends : u.losses = s.losses := foldl_losses (f := fun s q => (s.endPrefill q 0x0502).onSeq q fun r =>
    { r with state := .lost, paused := false, held := false, suspended := false }) (fun t q => State.endPrefill_losses t q 0x0502) qs s
  exact (State.events_losses v qs 0x0502).trans hends

theorem State.syncLoss_losses (s : State) : s.syncLoss.losses = s.losses := by
  unfold State.syncLoss
  extract_lets u v
  have hends : v.losses = s.losses := foldl_losses (fun t w => by
    obtain ⟨l, r, o, h⟩ := State.endWait_frame t w 0x0425
    rw [h]
    rfl) _ u
  split
  · exact hends
  · exact hends

/-- A channel whose class holds no other slice of it: redirect and loss, and nothing rehashed. -/
theorem State.dropChannel_losses {s : State} {ch : Nat} (hc : s.classOf ch = none) : (s.dropChannel ch).losses =
    (s.mem.lostAtStart, s.mem.lostSince ||| (1 : W512) <<< ch, s.mem.redirects ++ [s.redirectOf ch], true, s.err.fatal) := by
  unfold State.dropChannel
  simp only [hc]
  rfl

section

variable {s : State} {ch : Nat}

/-- A channel of no class is lost alone where its survivors hold its slices and no model structure lies on it. -/
theorem State.loseChannel_losses {e : ErrIn} (he : e.pos = ch) (hfits : s.redirectFits (s.redirectOf ch) = true) (hc : s.classOf ch = none)
    (hm : s.modelOn ch = false) : (s.loseChannel e).losses =
      (s.mem.lostAtStart, s.mem.lostSince ||| (1 : W512) <<< ch, s.mem.redirects ++ [s.redirectOf ch], true, s.err.fatal) := by
  subst he
  unfold State.loseChannel
  extract_lets ch cls left m qs u v w
  have hcls : cls = none := hc
  have hleft : left = false := by simp only [left, hcls]
  rw [if_neg (by simp [ch, hfits, hleft]), if_neg (by simp [ch, hm])]
  have hu : ∃ x o, u = { s with err := x, out := o } := State.note_frame s _
  have hul : u.losses = s.losses := State.note_losses s _
  have hdrop : (u.dropChannel ch).losses =
      (s.mem.lostAtStart, s.mem.lostSince ||| (1 : W512) <<< ch, s.mem.redirects ++ [s.redirectOf ch], true, s.err.fatal) := by
    obtain ⟨x, o, hu⟩ := hu
    rw [hu] at hul ⊢
    rw [State.dropChannel_losses (by exact hc)]
    exact congrArg (fun b => (s.mem.lostAtStart, s.mem.lostSince ||| (1 : W512) <<< ch, s.mem.redirects ++ [s.redirectOf ch], true, b))
      (congrArg (fun l => l.2.2.2.2) hul)
  have hw : w.losses = (u.dropChannel ch).losses := by
    have hv : v.losses = (u.dropChannel ch).losses := State.loseSeqs_losses _ _
    simp only [w]
    split
    · exact (State.syncLoss_losses v).trans hv
    · exact hv
  split
  · exact ((State.signalMiss_losses w).trans hw).trans hdrop
  · exact hw.trans hdrop

variable (hl : s.live = true) (hfit : ch < s.part.channels) (hlost : s.chLost.getLsbD ch = false) (hidle : s.err.handling = [])
  (hsil : s.err.silent = false)

include hl hfit hlost hidle hsil

theorem channelLoss_loses : exec (.channelLoss ch) s =
    .next (s.loseChannel { status := 0x0425, cls := 2, unit := 3, pos := ch, until_ := .channel }) := by
  show execChannelLoss ch s = _
  rw [execChannelLoss, act_of_true (by simp [hl, hfit, hlost]), State.raise_unitLost hidle hsil rfl]
  rfl

/-- With no survivors to hold its slices the loss is package-fatal (R287). -/
theorem channelLoss_stops (hfits : s.redirectFits (s.redirectOf ch) = false) :
    ∃ t : State, exec (.channelLoss ch) s = .next t ∧ t.err.fatal = true ∧ t.err.silent = true := by
  refine ⟨_, channelLoss_loses hl hfit hlost hidle hsil, ?_⟩
  unfold State.loseChannel
  extract_lets c cls left
  rw [if_pos (by simp [c, hfits])]
  exact State.fatal_stops _ _

theorem channelLoss_redirects (h512 : ch < 512) (hfits : s.redirectFits (s.redirectOf ch) = true) (hc : s.classOf ch = none)
    (hm : s.modelOn ch = false) : ∃ t : State, exec (.channelLoss ch) s = .next t ∧ t.chLost.getLsbD ch = true ∧
      t.mem.redirects = s.mem.redirects ++ [s.redirectOf ch] ∧ t.mem.rebuild = true ∧ t.err.fatal = s.err.fatal := by
  refine ⟨_, channelLoss_loses hl hfit hlost hidle hsil, ?_⟩
  have hloss := State.loseChannel_losses (e := { status := 0x0425, cls := 2, unit := 3, pos := ch, until_ := .channel }) rfl hfits hc hm
  simp only [State.losses, Prod.mk.injEq] at hloss
  obtain ⟨-, hsince, hredirects, hrebuild, hfatal⟩ := hloss
  refine ⟨?_, hredirects, hrebuild, hfatal⟩
  simp [State.chLost, hsince, h512]

end

/-- Settles O19, a row at a time. -/
theorem tiersServeReads : Obligations.TiersServeReads := by
  unfold Obligations.TiersServeReads
  intro s hl
  refine ⟨fun a q hlow => ⟨fun e hres => ?resident, fun hres => ?absent, fun e f h bs hfill hdrop hgen hok => ?filled,
      fun e f h hfill hf hh => ((granuleFillComplete_ends hl hlow hfill f h).2 hf).2 hh, fun f h => granuleFillComplete_idle hl hlow f h⟩,
    fun gen granule f harm hq hnext => ⟨swapPrefill_stops hl harm hq hnext, swapPrefill_passes hl harm hq hnext,
      fun bs hroom hf => ?prefilled⟩,
    fun a ch o hplace hch hgood => ?scrub, clearingScrub_clears hl,
    fun op wide a operand compare => ⟨localAtomic_unaligned hl, fun st => localAtomic_refused hl, localAtomic_acts hl⟩,
    fun ch hfit h512 hlost hidle hsil => ⟨channelLoss_stops hl hfit hlost hidle hsil,
      channelLoss_redirects hl hfit hlost hidle hsil h512⟩⟩
  case resident => exact ⟨granuleMiss_refetching hl hlow hres, granuleMiss_hits hl hlow hres⟩
  case absent => exact ⟨fun e => granuleMiss_joins hl hlow hres, granuleMiss_fills hl hlow⟩
  case filled =>
    obtain ⟨t, he, ht⟩ := granuleFillComplete_fills hl hlow hfill hdrop hgen hok
    exact ⟨t, he, ht.served, ht.written.inside, ht.written.outside, ht.freed, ht.kept⟩
  case prefilled =>
    obtain ⟨t, e, he, hadd, hnum, hgen, hpre, hfilling, hat, hwritten⟩ := swapPrefill_fills hl harm hq hnext hroom hf
    exact ⟨t, e, he, hadd, hnum, hgen, hpre, hfilling, hat, hwritten.inside, hwritten.outside⟩
  case scrub =>
    intro holds hidle
    exact ⟨patrolScrub_clean hl hplace hch hidle hgood, patrolScrub_corrected hl hplace hch hidle hgood,
      patrolScrub_uncorrectable hl hplace hch hidle⟩

end Sys2Proof.Machine
end

section
/-! PROOF. Long operations: how they start, and the controls of the table of R341 (spec 12 R299, spec 13 R324, R330, R338 to
R341). -/

namespace Sys2Proof.Machine

/-! ## What progress records leave -/

/-- Records of any kind: rings, waiting descriptors, the error block and what is sent change; nothing sent is taken back. -/
structure Noted (s t : State) : Prop where
  frame : ∃ w r x o, t = { s with waiting := w, rings := r, err := x, out := o }
  sent : ∀ o ∈ s.out, o ∈ t.out

namespace Noted

variable {r s t : State}

theorem refl (s : State) : Noted s s := ⟨⟨s.waiting, s.rings, s.err, s.out, rfl⟩, fun _ h => h⟩

theorem trans (h : Noted r s) (k : Noted s t) : Noted r t where
  frame := by
    obtain ⟨w, x, y, o, rfl⟩ := h.frame
    obtain ⟨w', x', y', o', rfl⟩ := k.frame
    exact ⟨w', x', y', o', rfl⟩
  sent := fun o ho => k.sent o (h.sent o ho)

/-- Final records are records. -/
theorem answered (h : Noted r s) (k : Answered s t) : Noted r t := by
  obtain ⟨w, x, o, e⟩ := k.frame
  exact h.trans ⟨⟨w, x, s.err, o, e⟩, k.sent⟩

theorem longOps (h : Noted s t) : t.longOps = s.longOps := by
  obtain ⟨w, r, x, o, rfl⟩ := h.frame
  rfl

theorem mem (h : Noted s t) : t.mem = s.mem := by
  obtain ⟨w, r, x, o, rfl⟩ := h.frame
  rfl

theorem eng (h : Noted s t) : t.eng = s.eng := by
  obtain ⟨w, r, x, o, rfl⟩ := h.frame
  rfl

theorem setErr (h : Noted r s) (e : Err) : Noted r (s.setErr e) := h.trans ⟨⟨s.waiting, s.rings, e, s.out, rfl⟩, fun _ h => h⟩

theorem putRecord (h : Noted r s) (x : W512) : Noted r (s.putRecord x) := by
  have hput {u : State} (hu : Noted r u) : Noted r (u.errRingPut x) := by
    unfold State.errRingPut
    extract_lets e phased next v
    split
    · exact hu
    · split
      · exact (hu.setErr _).answered (((Answered.refl v).emit _).emit _)
      · exact hu.setErr _
  exact hput (h.setErr _)

theorem note (h : Noted r s) (e : ErrIn) : Noted r (s.note e) := by
  unfold State.note State.record
  split
  · exact h
  · extract_lets j e₀ u c v rec w
    split
    · split
      · split
        · exact h.setErr _
        · exact (h.setErr _).putRecord _
      · exact (h.setErr _).putRecord _
    · have hw : Noted r w := by
        simp only [w, State.enterHandling]
        split
        · exact h
        · exact h.setErr _
      exact hw.putRecord _

theorem overflowRing (h : Noted r s) (n : Nat) : Noted r (s.overflowRing n) := by
  unfold State.overflowRing
  extract_lets x u
  have hu : Noted r u := h.answered ((Answered.refl s).setRing n _)
  split
  · exact hu
  · exact hu.note _

theorem loose (h : Noted r s) (n : Nat) (k : Loose) (rec : W256) : Noted r (s.loose n k rec) := by
  unfold State.loose
  extract_lets x
  split
  · split
    · exact h.answered ((Answered.refl s).setRing n _)
    · exact h
  · split
    · exact h.answered ((Answered.refl s).putCompletion n rec)
    · split
      · exact h.answered ((Answered.refl s).setRing n _)
      · split
        · exact h
        · exact h.overflowRing n

theorem opNote (h : Noted r s) (k : Nat) (o : LongOp) (status : Nat) : Noted r (s.opNote k o status) := h.loose _ _ _

theorem answer (h : Noted r s) (cs : List OpControl) (status : Nat) : Noted r (s.answer cs status) :=
  h.answered ((Answered.refl s).foldl (fun c hc => hc.finishControl c status) cs)

theorem finish (h : Noted r s) (n : Nat) (d : W512) (status : Nat) (res : List (Nat × Nat × Nat)) : Noted r (s.finish n d status res) :=
  h.answered ((Answered.refl s).finish n d status res)

/-- The same operation replaced before and after some records. -/
theorem setOp (h : Noted s t) (k : Nat) (o : LongOp) : Noted (s.setOp k o) (t.setOp k o) where
  frame := by
    obtain ⟨w, r, x, y, rfl⟩ := h.frame
    exact ⟨w, r, x, y, rfl⟩
  sent := h.sent

end Noted

theorem Answered.nextHandle {s t : State} (h : Answered s t) : t.nextHandle = s.nextHandle := by
  obtain ⟨w, r, o, rfl⟩ := h.frame
  rfl

/-- An operation that is known leaves the list at its end (R338). -/
theorem State.endOp_erases {s : State} {h : Nat} {o : LongOp} (ho : s.longOps.find? h = some o) (status ctl : Nat) :
    Answered { s with longOps := s.longOps.erase h } (s.endOp h status ctl false) := by
  obtain ⟨l, hl, herase⟩ := s.endOp_answered h status ctl
  exact herase o ho ▸ hl

/-! ## What a cancel leaves (R209, R301, R340) -/

theorem State.scramble_longOps (s : State) (a n : Nat) : (s.scramble a n).longOps = s.longOps := by
  unfold State.scramble
  split
  · rfl
  · obtain ⟨h, d, b, w, r, o, e⟩ := State.store_frame s a ((List.range n).map fun i => BitVec.ofNat 8 (Config.freeNat (s.free + i)))
    rw [e]

theorem State.bulkUndefined_longOps (s : State) (o : LongOp) (upto : Nat) : (s.bulkUndefined o upto).longOps = s.longOps := by
  have hfold : ((bulkWrites o.desc o.param).foldl (fun s w => s.scramble w.1 w.2.1) s).longOps = s.longOps :=
    List.foldlRecOn (motive := fun t : State => t.longOps = s.longOps) _ _ rfl fun t ht w _ => (State.scramble_longOps t _ _).trans ht
  unfold State.bulkUndefined
  split
  · split
    · rfl
    · exact State.scramble_longOps s _ _
  · exact hfold
  · exact hfold
  · rfl

theorem State.cancelOp_longOps (s : State) (o : LongOp) : (s.cancelOp o).longOps = s.longOps := by
  unfold State.cancelOp
  split
  · rfl
  · rfl
  · rfl
  · exact State.bulkUndefined_longOps s o o.done
  · exact State.bulkUndefined_longOps s o o.done
  · exact State.bulkUndefined_longOps s o o.done
  · rfl

/-! ## The row of a descriptor of any opcode -/

/-- The state on which a row acts: the descriptor is no longer among those accepted. -/
def State.actedOn (s : State) (n : Nat) (d : W512) : State := { s with accepted := s.accepted.erase ⟨n, d⟩ }

section

variable {s : State} {n op : Nat} {d : W512} {sel : W512 → Bool} {c : Instr} {f : W512 → State → State} (hl : s.live = true)
  (hfind : s.accepted.find? (fun a => a.ring = n) = some ⟨n, d⟩) (hctl : s.controlBefore ⟨n, d⟩ = false)
  (hcheck : ({ s with accepted := [] } : State).checkDesc n d = none)

include hl hfind hctl hcheck

/-- A row acts on the oldest accepted descriptor of its ring, whose checks pass and whose turn it is (R324). -/
theorem row_acts_turn (hc : exec c s = s.row n op sel f) (hop : dOpcode d = op) (hsel : sel d = true) :
    exec c s = .next (f d (s.actedOn n d)).settleCloses := by
  unfold State.row at hc
  rw [hc, hfind]
  simp [hl, hop, hsel, hctl, hcheck, State.actedOn]

end

/-! ## Starts (R299, R330, R338) -/

/-- A long operation has started under the next handle, as `o`. -/
structure Started (s : State) (n : Nat) (d : W512) (k : OpKind) (o : LongOp) (t : State) : Prop where
  known : t.longOps.find? s.nextHandle.toNat = some o
  kind : o.kind = k
  ring : o.ring = n
  desc : o.desc = d
  done : o.done = 0
  state : o.state = .running
  handle : t.nextHandle = if s.nextHandle + 1 = 0 then 1 else s.nextHandle + 1
  mem : t.mem = s.mem

theorem Started.answered {s t u : State} {n : Nat} {d : W512} {k : OpKind} {o : LongOp} (h : Started s n d k o t) (ha : Answered t u) :
    Started s n d k o u :=
  { h with known := ha.longOps ▸ h.known, handle := ha.nextHandle.trans h.handle, mem := ha.mem.trans h.mem }

/-- An operation as it starts. -/
def newOp (n : Nat) (d : W512) (k : OpKind) (total : Nat) : LongOp :=
  { kind := k, ring := n, tag := dTag d, quiet := dQuiet d, desc := d, total := total }

theorem State.startOp_starts (s : State) (n : Nat) (d : W512) (k : OpKind) (total : Nat) :
    Started s n d k (newOp n d k total) (s.startOp n d k total).1 := by
  have hstart : Started s n d k (newOp n d k total) { s with
      nextHandle := if s.nextHandle + 1 = 0 then 1 else s.nextHandle + 1
      longOps := s.longOps.set s.nextHandle.toNat (newOp n d k total) } :=
    ⟨Tab.find?_set_self .., rfl, rfl, rfl, rfl, rfl, rfl, rfl⟩
  exact hstart.answered (s.startOp_answered n d k total)

/-- Bytes of the banks that a caddy scrub names (R310). -/
def scrubTotal (d : W512) : Nat := (b2n (bit (dField d 8 4) 0) + b2n (bit (dField d 8 4) 1)) * (184 * 2 ^ 30)

/-- A bulk copy keeps its parameter block. -/
theorem State.startBulk_starts (s : State) (n : Nat) (d : W512) (k : OpKind) :
    Started s n d k { newOp n d k (bulkTotal d (s.bulkBlock d)) with param := s.bulkBlock d } (s.startBulk n d k) := by
  have hstart := s.startOp_starts n d k (bulkTotal d (s.bulkBlock d))
  have hbulk : s.startBulk n d k = (s.startOp n d k (bulkTotal d (s.bulkBlock d))).1.setOp s.nextHandle.toNat
      { newOp n d k (bulkTotal d (s.bulkBlock d)) with param := s.bulkBlock d } := by
    unfold State.startBulk
    extract_lets p x
    rw [show x.1.longOps.find? x.2 = some _ from hstart.known]
    rfl
  rw [hbulk]
  exact { hstart with
    known := Tab.find?_set_self .., kind := rfl, ring := rfl, desc := rfl, done := rfl, state := rfl }

/-! ## Builds begin (R299, R300, R303, R491) -/

@[simp] theorem Caddy.bank_setBank_self (c : Caddy) (b : Nat) (k : Bank) : (c.setBank b k).bank b = k := by
  unfold Caddy.setBank Caddy.bank
  split
  · rfl
  · rfl

theorem Caddy.setBank_build (c : Caddy) (b : Nat) (k : Bank) : (c.setBank b k).build = c.build := by
  unfold Caddy.setBank
  split
  · rfl
  · rfl

theorem Caddy.setBank_active (c : Caddy) (b : Nat) (k : Bank) : (c.setBank b k).active = c.active := by
  unfold Caddy.setBank
  split
  · rfl
  · rfl

/-- A journal record changes the journal alone (R303). -/
theorem State.jnl_frame (s : State) (type bank : Nat) (gen : Word) (geom : DWord) (digest : W256) (ref : Word) :
    ∃ j₀ j₁, s.jnl type bank gen geom digest ref = { s with caddy := { s.caddy with journal0 := j₀, journal1 := j₁ } } := by
  unfold State.jnl
  split
  · exact ⟨s.caddy.journal0, s.caddy.journal1, rfl⟩
  · exact ⟨_, _, rfl⟩

theorem State.jnlActivate_frame (s : State) (bank : Nat) :
    ∃ j₀ j₁, s.jnlActivate bank = { s with caddy := { s.caddy with journal0 := j₀, journal1 := j₁ } } := by
  unfold State.jnlActivate
  split
  · exact State.jnl_frame s ..
  · exact ⟨s.caddy.journal0, s.caddy.journal1, rfl⟩

/-- A build begins on the idle bank, which is built no longer. -/
theorem State.startBuild_begins (s : State) (handle : Nat) : ∃ c f, s.startBuild handle = { s with caddy := c, free := f } ∧
    (∃ b, c.build = some b ∧ b.handle = handle ∧ b.bank = s.caddy.idle) ∧ (c.bank s.caddy.idle).built = false := by
  unfold State.startBuild
  extract_lets b k key c₀ v₀ u v
  have hu : ∃ c f, u = { s with caddy := c, free := f } := by
    simp only [u]
    split
    · exact ⟨s.caddy, s.free, rfl⟩
    · exact ⟨_, _, rfl⟩
  obtain ⟨c, f, hu⟩ := hu
  obtain ⟨j₀, j₁, hv⟩ := State.jnl_frame u 1 b 0 0 0 0
  have hf : ∀ y, v.setCaddy y = { s with caddy := y, free := f } := fun y => by
    rw [show v = _ from hv, hu]
    rfl
  exact ⟨_, f, hf _, ⟨_, Caddy.setBank_build _ b _, rfl, rfl⟩, by rw [Caddy.bank_setBank_self]⟩

/-- A command starts a long operation: a bulk copy with its total and parameter block, a build or install with the idle bank. -/
def Starts (s : State) (n : Nat) (d : W512) (op : Nat) (k : OpKind) (c : Instr) : Prop :=
  ∃ (t : State) (o : LongOp), exec c s = .next t ∧ Started s n d k o t ∧
    (op = 0x21 → o.total = bulkTotal d (s.bulkBlock d) ∧ o.param = s.bulkBlock d) ∧
    (op = 0x28 ∨ op = 0x29 → (∃ b, t.caddy.build = some b ∧ b.handle = s.nextHandle.toNat ∧ b.bank = s.caddy.idle) ∧
      (t.caddy.bank s.caddy.idle).built = false ∧ o.total = dField d 24 8)

section

variable {s : State} {n : Nat} {d : W512} {k : OpKind} {c : Instr} (hl : s.live = true)
  (hfind : s.accepted.find? (fun a => a.ring = n) = some ⟨n, d⟩) (hctl : s.controlBefore ⟨n, d⟩ = false)
  (hcheck : ({ s with accepted := [] } : State).checkDesc n d = none)

include hl hfind hctl hcheck

/-- A bulk copy of any function starts with its total and its parameter block (notes/assumptions/31.md). -/
theorem bulk_starts {f : Nat} (hc : exec c s = s.row n 0x21 (fun d => bcFunc d = f) fun d s => s.startBulk n d k) (hop : dOpcode d = 0x21)
    (hf : bcFunc d = f) : Starts s n d 0x21 k c := by
  have hstart := (s.actedOn n d).startBulk_starts n d k
  have hs : Started s n d k _ (State.startBulk (s.actedOn n d) n d k) := { hstart with }
  exact ⟨_, _, row_acts_turn hl hfind hctl hcheck hc hop (decide_eq_true hf),
    hs.answered (Answered.refl (State.startBulk (s.actedOn n d) n d k)).settleCloses, fun _ => ⟨rfl, rfl⟩, by simp⟩

/-- An install and a build take the idle bank. -/
theorem build_starts {op : Nat} (hc : exec c s = s.row n op anyDesc fun d s =>
      let x := s.startOp n d k (dField d 24 8)
      x.1.startBuild x.2) (hop : dOpcode d = op) (hbulk : op ≠ 0x21) : Starts s n d op k c := by
  obtain ⟨u, hu⟩ : ∃ u, u = ((s.actedOn n d).startOp n d k (dField d 24 8)).1 := ⟨_, rfl⟩
  have hstart : Started (s.actedOn n d) n d k (newOp n d k (dField d 24 8)) u := hu ▸ (s.actedOn n d).startOp_starts n d k _
  have hcaddy : u.caddy = s.caddy := hu ▸ ((s.actedOn n d).startOp_answered n d k (dField d 24 8)).caddy
  obtain ⟨y, f, hbegin, hbuild, hbuilt⟩ := u.startBuild_begins s.nextHandle.toNat
  rw [hcaddy] at hbuild hbuilt
  have hrow : exec c s = .next (u.startBuild s.nextHandle.toNat).settleCloses := hu ▸ row_acts_turn hl hfind hctl hcheck hc hop rfl
  have ht := (Answered.refl (u.startBuild s.nextHandle.toNat)).settleCloses
  have hs : Started s n d k (newOp n d k (dField d 24 8)) (u.startBuild s.nextHandle.toNat) := by
    rw [hbegin]
    exact { hstart with }
  refine ⟨_, _, hrow, hs.answered ht, fun h => absurd h hbulk, fun _ => ⟨?_, ?_, rfl⟩⟩
  · rw [ht.caddy, hbegin]
    exact hbuild
  · rw [ht.caddy, hbegin]
    exact hbuilt

theorem caddyScrub_starts (hop : dOpcode d = 0x2A) : Starts s n d 0x2A .scrub (.caddyScrub n) := by
  have hstart := (s.actedOn n d).startOp_starts n d .scrub (scrubTotal d)
  have hs : Started s n d .scrub (newOp n d .scrub (scrubTotal d)) ((s.actedOn n d).startOp n d .scrub (scrubTotal d)).1 := { hstart with }
  exact ⟨_, _,
    row_acts_turn (c := .caddyScrub n) (f := fun d s => (s.startOp n d .scrub (scrubTotal d)).1) hl hfind hctl hcheck rfl hop rfl,
    hs.answered (Answered.refl ((s.actedOn n d).startOp n d .scrub (scrubTotal d)).1).settleCloses, by simp, by simp⟩

end

end Sys2Proof.Machine
end

section
/-! PROOF. The controls of a long operation, by the table of R341 (spec 13 R333, R341). -/

namespace Sys2Proof.Machine

/-! ## The table -/

section

variable (h : Nat) (o : LongOp) (c : OpControl) (l : Tab LongOp)

/-- The operations after a suspend. -/
def suspendedOps : Tab LongOp :=
  match o.state with
  | .running => l.set h { o with state := .suspendPending, waiters := [c] }
  | .suspendPending => l.set h { o with waiters := o.waiters ++ [c] }
  | .suspended => l
  | .cancelPending => l
  | .resumePending => l.set h { o with state := .suspended, waiters := [] }

/-- The operations after a resume: a long prefill resumes at the next batch forming. -/
def resumedOps : Tab LongOp :=
  match o.state with
  | .running => l
  | .suspendPending => l.set h { o with state := .running, waiters := [] }
  | .suspended => match o.kind with
    | .prefill _ => l.set h { o with state := .resumePending, waiters := [c] }
    | _ => l.set h { o with state := .running, waiters := [] }
  | .cancelPending => l
  | .resumePending => l.set h { o with waiters := o.waiters ++ [c] }

end

/-! ## What the controls do -/

section

variable {s : State} {n : Nat} {d : W512} {o : LongOp} (ho : s.longOps.find? (dField d 8 4) = some o)

include ho

/-- A control acts on the operation of its handle. -/
theorem State.control_of_known (f : Nat → LongOp → State → State) : s.control d f = f (dField d 8 4) o s := by
  unfold State.control
  dsimp only
  rw [ho]

theorem State.suspendOp_noted :
    Noted { s with longOps := suspendedOps (dField d 8 4) o (controlOf n d) s.longOps } (s.suspendOp n d) := by
  rw [State.suspendOp, State.control_of_known ho]
  unfold suspendedOps
  cases o.state with
  | running => exact .refl _
  | suspendPending => exact .refl _
  | suspended => exact (Noted.refl s).finish n d _ _
  | cancelPending => exact (Noted.refl s).finish n d _ _
  | resumePending => exact ((Noted.refl _).answer _ _).finish n d _ _

theorem State.resumeOp_noted :
    Noted { s with longOps := resumedOps (dField d 8 4) o (controlOf n d) s.longOps } (s.resumeOp n d) := by
  rw [State.resumeOp, State.control_of_known ho]
  unfold resumedOps
  cases o.state with
  | running => exact (Noted.refl s).finish n d _ _
  | suspendPending => exact ((Noted.refl _).answer _ _).finish n d _ _
  | suspended =>
    cases o.kind with
    | prefill q => exact .refl _
    | _ => exact ((Noted.refl _).opNote _ _ _).finish n d _ _
  | cancelPending => exact (Noted.refl s).finish n d _ _
  | resumePending => exact .refl _

/-- A cancel of a working operation waits for its next safe point. -/
theorem State.cancelCtl_working (hst : o.state = .running ∨ o.state = .suspendPending) :
    Noted (s.setOp (dField d 8 4) { o with state := .cancelPending, waiters := [controlOf n d] }) (s.cancelCtl n d) := by
  rw [State.cancelCtl, State.control_of_known ho]
  rcases hst with hst | hst
  · simp only [hst]
    exact .refl _
  · simp only [hst]
    exact (Noted.refl _).answer _ _

/-- A further cancel waits with the first. -/
theorem State.cancelCtl_again (hst : o.state = .cancelPending) :
    s.cancelCtl n d = s.setOp (dField d 8 4) { o with waiters := o.waiters ++ [controlOf n d] } := by
  rw [State.cancelCtl, State.control_of_known ho]
  simp only [hst]

/-- A suspended operation is cancelled at once. -/
theorem State.cancelCtl_suspended (hst : o.state = .suspended ∨ o.state = .resumePending) :
    (s.cancelCtl n d).longOps = (s.longOps.set (dField d 8 4) { o with state := .suspended, waiters := [] }).erase (dField d 8 4) := by
  have hnow : s.cancelCtl n d = s.cancelNow n d (dField d 8 4) o := by
    rw [State.cancelCtl, State.control_of_known ho]
    rcases hst with hst | hst
    · simp only [hst]
    · simp only [hst]
  rw [hnow]
  unfold State.cancelNow
  extract_lets u
  have hu : u.longOps = s.longOps.set (dField d 8 4) { o with state := .suspended, waiters := [] } :=
    ((Noted.refl (s.setOp (dField d 8 4) { o with state := .suspended, waiters := [] })).answer o.waiters 0x0605).longOps
  have hops : (u.cancelOp o).longOps = s.longOps.set (dField d 8 4) { o with state := .suspended, waiters := [] } :=
    (State.cancelOp_longOps u o).trans hu
  have hend := State.endOp_erases (s := u.cancelOp o) (h := dField d 8 4) (by rw [hops]; exact Tab.find?_set_self ..) 0x0602 0x0605
  exact (((Answered.refl _).finish n d 0 []).longOps.trans hend.longOps).trans (congrArg (Tab.erase · (dField d 8 4)) hops)

end

/-! ## The descriptors -/

section

variable {s : State} {n : Nat} {d : W512} {o : LongOp} (hl : s.live = true)
  (hfind : s.accepted.find? (fun a => a.ring = n) = some ⟨n, d⟩) (hctl : s.controlBefore ⟨n, d⟩ = false)
  (hcheck : ({ s with accepted := [] } : State).checkDesc n d = none) (ho : s.longOps.find? (dField d 8 4) = some o)

include hl hfind hctl hcheck

/-- A control whose records alone go out leaves memory, sequences, and the operations of its table. -/
theorem control_noted {op : Nat} {c : Instr} {f : W512 → State → State} {l : Tab LongOp} (hc : exec c s = s.row n op anyDesc f)
    (hop : dOpcode d = op) (hf : Noted { s.actedOn n d with longOps := l } (f d (s.actedOn n d))) :
    ∃ t : State, exec c s = .next t ∧ t.mem = s.mem ∧ t.eng = s.eng ∧ t.longOps = l := by
  have ht := hf.answered (Answered.refl (f d (s.actedOn n d))).settleCloses
  exact ⟨_, row_acts_turn hl hfind hctl hcheck hc hop rfl, ht.mem, ht.eng, ht.longOps⟩

include ho

theorem opSuspend_acts (hop : dOpcode d = 0x30) : ∃ t : State, exec (.opSuspend n) s = .next t ∧ t.mem = s.mem ∧ t.eng = s.eng ∧
    t.longOps = suspendedOps (dField d 8 4) o (controlOf n d) s.longOps :=
  control_noted (c := .opSuspend n) (f := fun d s => s.suspendOp n d) hl hfind hctl hcheck rfl hop (State.suspendOp_noted (by exact ho))

theorem opResume_acts (hop : dOpcode d = 0x31) : ∃ t : State, exec (.opResume n) s = .next t ∧ t.mem = s.mem ∧ t.eng = s.eng ∧
    t.longOps = resumedOps (dField d 8 4) o (controlOf n d) s.longOps :=
  control_noted (c := .opResume n) (f := fun d s => s.resumeOp n d) hl hfind hctl hcheck rfl hop (State.resumeOp_noted (by exact ho))

theorem opCancel_acts (hop : dOpcode d = 0x32) : ∃ t : State, exec (.opCancel n) s = .next t ∧
    (o.state = .running ∨ o.state = .suspendPending →
      t.longOps = s.longOps.set (dField d 8 4) { o with state := .cancelPending, waiters := [controlOf n d] } ∧ t.mem = s.mem) ∧
    (o.state = .cancelPending →
      t.longOps = s.longOps.set (dField d 8 4) { o with waiters := o.waiters ++ [controlOf n d] } ∧ t.mem = s.mem) ∧
    (o.state = .suspended ∨ o.state = .resumePending →
      t.longOps = (s.longOps.set (dField d 8 4) { o with state := .suspended, waiters := [] }).erase (dField d 8 4)) := by
  have hu : (s.actedOn n d).longOps.find? (dField d 8 4) = some o := ho
  have ht := (Answered.refl ((s.actedOn n d).cancelCtl n d)).settleCloses
  refine ⟨_, row_acts_turn (c := .opCancel n) (f := fun d s => s.cancelCtl n d) hl hfind hctl hcheck rfl hop rfl, fun hst => ?working,
    fun hst => ?again, fun hst => ht.longOps.trans (State.cancelCtl_suspended hu hst)⟩
  case working =>
    have hw := (State.cancelCtl_working hu hst).answered ht
    exact ⟨hw.longOps, hw.mem⟩
  case again =>
    rw [ht.longOps, ht.mem, State.cancelCtl_again hu hst]
    exact ⟨rfl, rfl⟩

theorem opQuery_acts (hop : dOpcode d = 0x33) :
    ∃ t : State, exec (.opQuery n) s = .next t ∧ t.mem = s.mem ∧ t.eng = s.eng ∧ t.longOps = s.longOps := by
  refine control_noted (c := .opQuery n) (f := fun d s => s.control d fun h o s =>
    s.finish n d 0 [(8, 4, h), (12, 4, opStateCode o.state), (16, 8, o.done), (24, 8, o.total)]) hl hfind hctl hcheck rfl hop ?_
  rw [State.control_of_known (s := s.actedOn n d) (by exact ho)]
  exact (Noted.refl _).finish n d _ _

end

end Sys2Proof.Machine
end

section
/-! PROOF. Safe points and ends of long operations (spec 10 R258, R259, spec 12 R296 to R299, R310, spec 13 R330, R338 to R341). -/

namespace Sys2Proof.Machine

/-! ## A safe point is passed (R339 to R341) -/

/-- An operation has passed a safe point: its count, and the pending suspend or cancel that took effect. -/
structure PassedPoint (s : State) (h : Nat) (o : LongOp) (done : Nat) (t : State) : Prop where
  runs : o.state = .running → t.longOps = s.longOps.set h { o with done := done } ∧ t.mem = s.mem
  suspends : o.state = .suspendPending →
    t.longOps.find? h = some { o with done := done, state := .suspended, waiters := [] } ∧ t.mem = s.mem
  cancels : o.state = .cancelPending → t.longOps = (s.longOps.set h { o with done := done }).erase h

section

variable {s : State} {h done : Nat} {o : LongOp} {cancel : State → State} (ho : s.longOps.find? h = some o)

include ho

theorem State.passPoint_runs (hst : o.state = .running) : Noted (s.setOp h { o with done := done }) (s.passPoint h done cancel) := by
  unfold State.passPoint
  simp only [ho, hst]
  exact (Noted.refl _).opNote _ _ _

/-- A pending suspend takes effect. -/
theorem State.passPoint_suspends (hst : o.state = .suspendPending) :
    Noted ((s.setOp h { o with done := done }).setOp h { o with done := done, state := .suspended, waiters := [] })
      (s.passPoint h done cancel) := by
  unfold State.passPoint
  simp only [ho, hst]
  exact ((((Noted.refl _).opNote _ _ _).setOp h _).opNote _ _ _).answer _ _

/-- A pending cancel ends the operation. -/
theorem State.passPoint_cancels (hcancel : ∀ u, (cancel u).longOps = u.longOps) (hst : o.state = .cancelPending) :
    (s.passPoint h done cancel).longOps = (s.longOps.set h { o with done := done }).erase h := by
  have hpass : s.passPoint h done cancel =
      (cancel ((s.setOp h { o with done := done }).opNote h { o with done := done } 0x0003)).endOp h 0x0602 0 false := by
    unfold State.passPoint
    simp only [ho, hst]
  have hops : (cancel ((s.setOp h { o with done := done }).opNote h { o with done := done } 0x0003)).longOps =
      s.longOps.set h { o with done := done } := (hcancel _).trans ((Noted.refl _).opNote _ _ _).longOps
  rw [hpass, (State.endOp_erases (by rw [hops]; exact Tab.find?_set_self ..) 0x0602 0).longOps]
  exact congrArg (Tab.erase · h) hops

/-- What a safe point counts, and the pending changes that take effect there. -/
theorem State.passPoint_passed (hcancel : ∀ u, (cancel u).longOps = u.longOps) : PassedPoint s h o done (s.passPoint h done cancel) where
  runs := fun hst => by
    have ht := State.passPoint_runs (done := done) (cancel := cancel) ho hst
    exact ⟨ht.longOps, ht.mem⟩
  suspends := fun hst => by
    have ht := State.passPoint_suspends (done := done) (cancel := cancel) ho hst
    exact ⟨ht.longOps ▸ Tab.find?_set_self .., ht.mem⟩
  cancels := State.passPoint_cancels ho hcancel

end

/-! ## Reads that do not fail (R292, R310, R311) -/

section

variable (s : State) (o : LongOp) {inp : OpIn} (hfail : inp.hostFail = false) (hlost : inp.lostSegs = []) (hfixed : inp.fixedSegs = [])

include hlost

theorem State.takeSegs_none (hfixed : inp.fixedSegs = []) (covers : Nat → Nat → Bool) : s.takeSegs inp covers = s := by
  simp [State.takeSegs, hlost, hfixed]

theorem State.sourceSegs_none (hfixed : inp.fixedSegs = []) : s.sourceSegs o inp = s := by
  unfold State.sourceSegs
  split
  · exact s.takeSegs_none hlost hfixed _
  · rfl

theorem State.sourceFault_none (hfail : inp.hostFail = false) : s.sourceFault o inp = none := by
  simp [State.sourceFault, hfail, hlost]

end

/-! ## A copy from the host (R330) -/

section

variable {s : State} {o : LongOp} {inp : OpIn} (hfunc : bcFunc o.desc = 0) (hsrc : bcSrcHost o.desc = true)

include hfunc hsrc

/-- A copy from the host reads no device memory, so that nothing overlaps. -/
theorem bulkOverlap_fromHost (p : List Byte) : bulkOverlap o.desc p = false := by
  simp [bulkOverlap, bulkReads, hfunc, hsrc]

omit hfunc

variable (hfail : inp.hostFail = false) (hlost : inp.lostSegs = [])

include hfail hlost

/-- Bytes of the host go back to the host. -/
theorem State.copyStep_toHost (hdst : bcDstHost o.desc = true) (k n : Nat) : s.copyStep o inp k n =
    (none, s.emit (.hostWrite (s.ring o.ring).tagPasid (BitVec.ofNat 64 (bcDst o.desc + k)) (bytesAt inp.hostData 0 (n - k)))) := by
  simp [State.copyStep, State.sourceFault_none s o hlost hfail, State.bulkFault, State.copyBytes, hsrc, hdst]

/-- Bytes of the host are written to device memory that may be written. -/
theorem State.copyStep_toDevice (hdst : bcDstHost o.desc = false) {k n : Nat} (hw : s.checkWrite (bcDst o.desc + k) (n - k) = none) :
    s.copyStep o inp k n = (none, s.store (bcDst o.desc + k) (bytesAt inp.hostData 0 (n - k))) := by
  simp [State.copyStep, State.sourceFault_none s o hlost hfail, State.bulkFault, State.copyBytes, hsrc, hdst, hw]

end

/-- A write of device memory wakes waiters, and changes no memory beyond the write. -/
theorem State.store_mem (s : State) (a : Nat) (bs : List Byte) : (s.store a bs).mem = (s.devWrite a bs).mem := by
  unfold State.store
  dsimp only
  split
  · obtain ⟨w, r, o, h⟩ := State.wake_frame (s.devWrite a bs)
    rw [h]
  · rfl

theorem State.store_longOps (s : State) (a : Nat) (bs : List Byte) : (s.store a bs).longOps = s.longOps := by
  obtain ⟨h, d, b, w, r, o, e⟩ := State.store_frame s a bs
  rw [e]

/-! ## Safe points (R339, R340) -/

section

variable {s : State} {h done : Nat} {o : LongOp} {inp : OpIn} (ho : s.longOps.find? h = some o)

include ho

theorem longOpSafePoint_rests (hrest : o.working = false ∨ o.pointAt done = false) : exec (.longOpSafePoint h done inp) s = .next s := by
  show execLongOpSafePoint h done inp s = _
  simp only [execLongOpSafePoint, ho]
  exact congrArg Host.Outcome.next (if_pos (by rcases hrest with h | h <;> simp [h]))

theorem longOpComplete_rests (hrest : o.working = false) : exec (.longOpComplete h inp) s = .next s := by
  show execLongOpComplete h inp s = _
  simp only [execLongOpComplete, ho]
  exact congrArg Host.Outcome.next (if_pos (by simp [hrest]))

variable (hl : s.live = true) (hw : o.working = true)

include hl hw

section

variable (hp : o.pointAt done = true)

include hp

theorem longOpSafePoint_scrubs (hk : o.kind = .scrub) : exec (.longOpSafePoint h done inp) s =
    .next ((s.takeSegs inp (scrubCovers o.desc)).passPoint h done fun s => s) := by
  show execLongOpSafePoint h done inp s = _
  simp [execLongOpSafePoint, ho, hl, hw, hp, hk]

theorem longOpSafePoint_builds (hk : o.kind = .convert ∨ o.kind = .compress) :
    exec (.longOpSafePoint h done inp) s = .next (s.buildTo h o inp done) := by
  show execLongOpSafePoint h done inp s = _
  rcases hk with hk | hk <;> simp [execLongOpSafePoint, ho, hl, hw, hp, hk]

variable (hfail : inp.hostFail = false) (hlost : inp.lostSegs = []) (hfixed : inp.fixedSegs = [])

include hlost hfixed

/-- A copy whose step succeeds passes its safe point. -/
theorem longOpSafePoint_copies {u : State} (hk : o.kind = .copy) (hover : bulkOverlap o.desc o.param = false)
    (hstep : s.copyStep o inp o.done done = (none, u)) :
    exec (.longOpSafePoint h done inp) s = .next (u.passPoint h done fun s => s.cancelOp { o with done := done }) := by
  show execLongOpSafePoint h done inp s = _
  simp [execLongOpSafePoint, ho, hl, hw, hp, hk, State.sourceSegs_none s o hlost hfixed, hover, hstep]

include hfail

/-- A convert whose ranges are still good passes its safe point, its source unread (notes/assumptions/84.md). -/
theorem longOpSafePoint_converts (hk : o.kind = .convert)
    (hfault : s.bulkFault (bulkReads o.desc o.param) (bulkWrites o.desc o.param ++ bulkHeader o.desc) = none) :
    exec (.longOpSafePoint h done inp) s = .next (s.passPoint h done fun s => s.cancelOp { o with done := done }) := by
  rw [longOpSafePoint_builds ho hl hw hp (.inl hk)]
  simp [State.buildTo, State.sourceSegs_none s o hlost hfixed, State.sourceFault_none s o hlost hfail, hfault, hk]

/-- A compress builds its segments up to its safe point. -/
theorem longOpSafePoint_compresses (hk : o.kind = .compress)
    (hfault : s.bulkFault (bulkReads o.desc o.param) (bulkWrites o.desc o.param ++ bulkHeader o.desc) = none)
    (hover : bulkOverlap o.desc o.param = false) (hok : (s.compressTo o done).1 = 0) :
    let r := s.compressTo o done
    exec (.longOpSafePoint h done inp) s = .next ((r.2.2.setOp h { o with rates := r.2.1 }).passPoint h done fun t =>
      t.cancelOp { o with rates := r.2.1, done := done }) := by
  intro r
  rw [longOpSafePoint_builds ho hl hw hp (.inr hk)]
  simp [State.buildTo, State.sourceSegs_none s o hlost hfixed, State.sourceFault_none s o hlost hfail, hfault, hk, hover, hok, r]

/-- Scrubs and converts count, and pending changes take effect. -/
theorem longOpSafePoint_counts (hk : o.kind = .scrub ∨ (o.kind = .convert ∧
      s.bulkFault (bulkReads o.desc o.param) (bulkWrites o.desc o.param ++ bulkHeader o.desc) = none)) :
    ∃ t : State, exec (.longOpSafePoint h done inp) s = .next t ∧ PassedPoint s h o done t := by
  rcases hk with hk | ⟨hk, hfault⟩
  · have hexec := longOpSafePoint_scrubs (inp := inp) ho hl hw hp hk
    rw [State.takeSegs_none s hlost hfixed] at hexec
    exact ⟨_, hexec, State.passPoint_passed ho fun _ => rfl⟩
  · exact ⟨_, longOpSafePoint_converts ho hl hw hp hfail hlost hfixed hk hfault,
      State.passPoint_passed ho fun u => State.cancelOp_longOps u _⟩

/-- A running copy from the host writes what it has read. -/
theorem longOpSafePoint_writes (hk : o.kind = .copy) (hfunc : bcFunc o.desc = 0) (hsrc : bcSrcHost o.desc = true)
    (hst : o.state = .running) : let bs := bytesAt inp.hostData 0 (done - o.done)
    (bcDstHost o.desc = true → ∃ t : State, exec (.longOpSafePoint h done inp) s = .next t ∧
      t.longOps = s.longOps.set h { o with done := done } ∧ t.mem = s.mem ∧
      .hostWrite (s.ring o.ring).tagPasid (BitVec.ofNat 64 (bcDst o.desc + o.done)) bs ∈ t.out) ∧
    (bcDstHost o.desc = false → s.checkWrite (bcDst o.desc + o.done) (done - o.done) = none →
      ∃ t : State, exec (.longOpSafePoint h done inp) s = .next t ∧ t.longOps = s.longOps.set h { o with done := done } ∧
        t.mem = (s.devWrite (bcDst o.desc + o.done) bs).mem) := by
  intro bs
  have hover := bulkOverlap_fromHost hfunc hsrc o.param
  refine ⟨fun hdst => ?host, fun hdst hwrite => ?device⟩
  case host =>
    have hstep := State.copyStep_toHost (s := s) hsrc hfail hlost hdst o.done done
    have ht := State.passPoint_runs (s := s.emit (.hostWrite (s.ring o.ring).tagPasid (BitVec.ofNat 64 (bcDst o.desc + o.done)) bs))
      (done := done) (cancel := fun s => s.cancelOp { o with done := done }) ho hst
    exact ⟨_, longOpSafePoint_copies ho hl hw hp hlost hfixed hk hover hstep, ht.longOps, ht.mem,
      ht.sent _ (List.mem_append_right _ (List.mem_singleton_self _))⟩
  case device =>
    have hstep := State.copyStep_toDevice hsrc hfail hlost hdst hwrite
    have hops := State.store_longOps s (bcDst o.desc + o.done) bs
    have ht := State.passPoint_runs (s := s.store (bcDst o.desc + o.done) bs) (done := done)
      (cancel := fun s => s.cancelOp { o with done := done }) (hops ▸ ho) hst
    exact ⟨_, longOpSafePoint_copies ho hl hw hp hlost hfixed hk hover hstep,
      ht.longOps.trans (congrArg (fun l : Tab LongOp => l.set h { o with done := done }) hops), ht.mem.trans (State.store_mem s _ bs)⟩

end

/-! ## Ends (R298, R310, R339) -/

/-- A copy from the host to the host ends with the rest of its bytes sent. -/
theorem longOpComplete_copies (hk : o.kind = .copy) (hfunc : bcFunc o.desc = 0) (hsrc : bcSrcHost o.desc = true)
    (hdst : bcDstHost o.desc = true) (hlast : o.total ≤ o.nextPoint) (hfail : inp.hostFail = false) (hlost : inp.lostSegs = [])
    (hfixed : inp.fixedSegs = []) : ∃ t : State, exec (.longOpComplete h inp) s = .next t ∧
      t.longOps = (s.longOps.set h { o with done := o.total }).erase h ∧ t.mem = s.mem ∧
      .hostWrite (s.ring o.ring).tagPasid (BitVec.ofNat 64 (bcDst o.desc + o.done))
        (bytesAt inp.hostData 0 (o.total - o.done)) ∈ t.out := by
  have hend := State.endOp_erases (s := (s.emit (.hostWrite (s.ring o.ring).tagPasid (BitVec.ofNat 64 (bcDst o.desc + o.done))
    (bytesAt inp.hostData 0 (o.total - o.done)))).setOp h { o with done := o.total }) (h := h) (Tab.find?_set_self ..) 0 0x0605
  refine ⟨_, ?_, hend.longOps, hend.mem, hend.sent _ (List.mem_append_right _ (List.mem_singleton_self _))⟩
  show execLongOpComplete h inp s = _
  simp [execLongOpComplete, ho, hl, hw, hk, hlast, State.bulkEnd, State.sourceSegs_none s o hlost hfixed,
    bulkOverlap_fromHost hfunc hsrc, State.copyStep_toHost hsrc hfail hlost hdst]

theorem longOpComplete_scrubs (hk : o.kind = .scrub) (hlast : o.total ≤ o.nextPoint) (hlost : inp.lostSegs = [])
    (hfixed : inp.fixedSegs = []) : ∃ t : State, exec (.longOpComplete h inp) s = .next t ∧
      t.longOps = (s.longOps.set h { o with done := o.total }).erase h ∧ t.mem = s.mem := by
  have hend := State.endOp_erases (s := s.setOp h { o with done := o.total }) (h := h) (Tab.find?_set_self ..) 0 0x0605
  refine ⟨_, ?_, hend.longOps, hend.mem⟩
  show execLongOpComplete h inp s = _
  simp [execLongOpComplete, ho, hl, hw, hk, hlast, State.takeSegs_none s hlost hfixed]

end

end Sys2Proof.Machine
end

section
/-! PROOF. The end of a build or install, and every row of the long operations (spec 10 R258, spec 12 R296 to R299, R303, spec 13
R338 to R341). -/

namespace Sys2Proof.Machine

/-! ## A build is done (R296, R298, R299, R303) -/

/-- A bank as a good build of an image leaves it. -/
structure Bank.Holds (k : Bank) (i : ImageHdr) : Prop where
  built : k.built = true
  gen : k.gen = i.generation
  geom : k.geom = i.attnGeom
  winBytes : k.winBytes = i.winBytes

/-- A build leaves its bank built, and memory and the active bank alone. -/
theorem State.buildDone_build (s : State) (b : Build) (i : ImageHdr) : ∃ c, s.buildDone b i false = { s with caddy := c } ∧
    (c.bank b.bank).Holds i ∧ c.active = s.caddy.active := by
  unfold State.buildDone
  extract_lets k digest k' u
  obtain ⟨j₀, j₁, hu⟩ := State.jnl_frame (s.setCaddy (s.caddy.setBank b.bank k')) 2 b.bank i.generation i.attnGeom digest 0
  refine ⟨_, (if_neg Bool.false_ne_true).trans hu, ?_, Caddy.setBank_active s.caddy b.bank k'⟩
  show ((s.caddy.setBank b.bank k').bank b.bank).Holds i
  rw [Caddy.bank_setBank_self]
  exact ⟨rfl, rfl, rfl, rfl⟩

/-- An install activates its bank too. -/
theorem State.buildDone_install (s : State) (b : Build) (i : ImageHdr) : ∃ c m w r o,
    s.buildDone b i true = { s with caddy := c, mem := m, waiting := w, rings := r, out := o } ∧ (c.bank b.bank).Holds i ∧
    c.active = b.bank ∧ c.erased = false ∧ m.genCurrent = i.generation := by
  obtain ⟨c, hc, hbank, -⟩ := s.buildDone_build b i
  unfold State.buildDone
  extract_lets k digest k' u u₁ c₁ u₂ m₁ v
  have hu : u = { s with caddy := c } := hc
  obtain ⟨j₀, j₁, hj⟩ := State.jnlActivate_frame u b.bank
  have hu₁ : u₁ = { u with caddy := { u.caddy with journal0 := j₀, journal1 := j₁ } } := hj
  have hv : v = { s with caddy := v.caddy, mem := v.mem } :=
    (show v = { u₁ with caddy := v.caddy, mem := v.mem } from rfl).trans (by rw [hu₁, hu])
  have hholds : (v.caddy.bank b.bank).Holds i := by
    show (u₁.caddy.bank b.bank).Holds i
    rw [hu₁]
    show (u.caddy.bank b.bank).Holds i
    rw [hu]
    exact hbank
  rw [if_pos rfl]
  split
  · obtain ⟨hb, d, bad, w, r, o, hn⟩ := State.normReset_frame v ‹_› false
    exact ⟨v.caddy, _, w, r, o, hn.trans (by rw [hv]), hholds, rfl, rfl, rfl⟩
  · exact ⟨v.caddy, v.mem, s.waiting, s.rings, s.out, hv, hholds, rfl, rfl, rfl⟩

/-- What ends a build: its operation leaves the list, and no build is in progress (R297). -/
theorem State.endBuild_ends {s : State} {h : Nat} {o : LongOp} (ho : s.longOps.find? h = some o) (status : Nat) :
    Answered { s with caddy := { s.caddy with build := none }, longOps := s.longOps.erase h } (s.endBuild h status) :=
  State.endOp_erases (s := s.setBuild none) ho status 0x0605

section

variable {s : State} {h : Nat} {o : LongOp} {b : Build} {i : ImageHdr} (ho : s.longOps.find? h = some o) (hl : s.live = true)
  (hw : o.working = true) (hb : s.caddy.build = some b) (hh : b.handle = h) (hi : b.hdr = some i) (hdone : b.chunksDone = i.chunks)
  (hq : s.start.quiesced = false)

include ho hl hw hb hh hi hdone hq

/-- The last chunk taken, a build or install ends well. -/
theorem longOpComplete_finishes (hk : o.kind = .install ∨ o.kind = .build) (inp : OpIn) : exec (.longOpComplete h inp) s =
    .next (((s.setOp h { o with done := o.total }).buildDone b i (o.kind = .install)).endBuild h 0) := by
  show execLongOpComplete h inp s = _
  rcases hk with hk | hk <;> simp [execLongOpComplete, ho, hl, hw, hk, hb, hi, hh, hdone, hq]

/-- The end of a build: its bank is built, and an install's is the active one. -/
theorem longOpComplete_built (hk : o.kind = .install ∨ o.kind = .build) (inp : OpIn) :
    ∃ t : State, exec (.longOpComplete h inp) s = .next t ∧ t.longOps = (s.longOps.set h { o with done := o.total }).erase h ∧
      t.caddy.build = none ∧ (t.caddy.bank b.bank).Holds i ∧
      (o.kind = .install → t.caddy.active = b.bank ∧ t.caddy.erased = false ∧ t.mem.genCurrent = i.generation) ∧
      (o.kind = .build → t.caddy.active = s.caddy.active ∧ t.mem = s.mem) := by
  have hexec := longOpComplete_finishes ho hl hw hb hh hi hdone hq hk inp
  rcases hk with hk | hk
  · obtain ⟨c, m, w, r, x, hinstall, hholds, hactive, herased, hgen⟩ := (s.setOp h { o with done := o.total }).buildDone_install b i
    rw [decide_eq_true hk, hinstall] at hexec
    have ht := State.endBuild_ends
      (s := { s.setOp h { o with done := o.total } with caddy := c, mem := m, waiting := w, rings := r, out := x }) (h := h)
      (Tab.find?_set_self ..) 0
    refine ⟨_, hexec, ht.longOps, ?_, ?_, fun _ => ?_, fun hbuild => absurd (hk.symm.trans hbuild) (by simp)⟩
    · rw [ht.caddy]
    · rw [ht.caddy]
      exact hholds
    · rw [ht.caddy, ht.mem]
      exact ⟨hactive, herased, hgen⟩
  · obtain ⟨c, hbuild, hholds, hactive⟩ := (s.setOp h { o with done := o.total }).buildDone_build b i
    rw [decide_eq_false (by simp [hk]), hbuild] at hexec
    have ht := State.endBuild_ends (s := { s.setOp h { o with done := o.total } with caddy := c }) (h := h) (Tab.find?_set_self ..) 0
    refine ⟨_, hexec, ht.longOps, ?_, ?_, fun hinstall => absurd (hk.symm.trans hinstall) (by simp), fun _ => ?_⟩
    · rw [ht.caddy]
    · rw [ht.caddy]
      exact hholds
    · rw [ht.caddy, ht.mem]
      exact ⟨hactive, rfl⟩

end

/-- Settles O24: the starts and controls by their rows, safe points and ends by the kind of the operation. -/
theorem longOperationsRun : Obligations.LongOperationsRun := by
  unfold Obligations.LongOperationsRun
  intro s hl
  refine ⟨fun n d hfind hctl hcheck => ⟨fun c hc hop hfunc => ?starts, fun o ho => ⟨fun hop => ?suspend, fun hop => ?resume,
    opCancel_acts hl hfind hctl hcheck ho, fun hop => ?query⟩⟩, fun h o ho => ⟨fun hw done inp => ?rests,
    fun done hp inp => longOpSafePoint_rests ho (.inr hp), fun done inp hw hp hfail hlost hfixed => ?points, fun inp hw => ?ends⟩⟩
  case starts =>
    have hstarts : Starts s n d c.1 c.2.2.2 c.2.2.1 := by
      simp only [List.mem_cons, List.not_mem_nil, or_false] at hc
      rcases hc with rfl | rfl | rfl | rfl | rfl | rfl
      · exact bulk_starts hl hfind hctl hcheck rfl hop (hfunc 0 rfl)
      · exact bulk_starts hl hfind hctl hcheck rfl hop (hfunc 1 rfl)
      · exact bulk_starts hl hfind hctl hcheck rfl hop (hfunc 2 rfl)
      · exact build_starts hl hfind hctl hcheck rfl hop (by simp)
      · exact build_starts hl hfind hctl hcheck rfl hop (by simp)
      · exact caddyScrub_starts hl hfind hctl hcheck hop
    obtain ⟨t, o, he, ho, hbulk, hbuild⟩ := hstarts
    exact ⟨t, o, he, ho.known, ho.kind, ho.ring, ho.desc, ho.done, ho.state, ho.handle, ho.mem, hbulk, hbuild⟩
  case suspend =>
    obtain ⟨t, he, hm, heng, hops⟩ := opSuspend_acts hl hfind hctl hcheck ho hop
    exact ⟨t, he, hm, heng, hops⟩
  case resume =>
    obtain ⟨t, he, hm, heng, hops⟩ := opResume_acts hl hfind hctl hcheck ho hop
    exact ⟨t, he, hm, heng, hops⟩
  case query =>
    obtain ⟨t, he, hm, heng, hops⟩ := opQuery_acts hl hfind hctl hcheck ho hop
    exact ⟨t, he, hops, hm, heng⟩
  case rests => exact ⟨longOpSafePoint_rests ho (.inl hw), longOpComplete_rests ho hw⟩
  case points =>
    refine ⟨fun hk => ?_, longOpSafePoint_writes ho hl hw hp hfail hlost hfixed,
      longOpSafePoint_compresses ho hl hw hp hfail hlost hfixed⟩
    obtain ⟨t, he, ht⟩ := longOpSafePoint_counts ho hl hw hp hfail hlost hfixed hk
    exact ⟨t, he, ht.runs, ht.suspends, ht.cancels⟩
  case ends =>
    refine ⟨longOpComplete_copies ho hl hw, longOpComplete_scrubs ho hl hw, fun b i hk hb hh hi hdone hq => ?_⟩
    obtain ⟨t, he, hops, hnone, hholds, hinstall, hbuild⟩ := longOpComplete_built ho hl hw hb hh hi hdone hq hk inp
    exact ⟨t, he, hops, hnone, hholds.built, hholds.gen, hholds.geom, hholds.winBytes, hinstall, hbuild⟩

end Sys2Proof.Machine
end

section
/-! PROOF. The canonical form of the byte stores: it holds at reset and every step keeps it (spec 11 R264;
notes/assumptions/4.md). -/

namespace Sys2Proof.Machine

/-- `Left`, the resets' counterpart of `Keep`, for every command outside `Keep` (R514 to R518, R524). -/
theorem Resets.exec_left {c : Instr} (hc : Resets c) (s : State) : ∃ t, exec c s = .next t ∧ Left s t := by
  cases hc with
  | powerOnReset =>
    obtain ⟨t, ht, hleft, -⟩ := execPowerOnReset_left s
    exact ⟨t, ht, hleft⟩
  | pkgResetN =>
    obtain ⟨t, ht, hleft, -⟩ := execPkgResetN_left s
    exact ⟨t, ht, hleft⟩
  | vaonLoss =>
    obtain ⟨t, ht, hleft, -⟩ := execVaonLoss_left s
    exact ⟨t, ht, hleft⟩
  | startGateMet vinOk =>
    obtain ⟨t, ht, hleft, -⟩ := execStartGateMet_left vinOk s
    exact ⟨t, ht, hleft⟩
  | emergencyOffN chatter =>
    obtain ⟨t, ht, hleft, -⟩ := execEmergencyOffN_left chatter s
    exact ⟨t, ht, hleft⟩
  | thermalTrip unit die pos =>
    obtain ⟨t, ht, hleft, -⟩ := execThermalTrip_left unit die pos s
    exact ⟨t, ht, hleft⟩
  | firstStageOpen cause =>
    obtain ⟨t, ht, hleft, -⟩ := execFirstStageOpen_left cause s
    exact ⟨t, ht, hleft⟩

/-- Every command keeps the canonical form. The commands within `Keep` are compared to the state with its log loud: the
rails' raising is within `Keep` only there, and `memWf` does not look at the log. -/
theorem exec_memWf (c : Instr) {s t : State} (hs : s.memWf = true) (he : exec c s = .next t) : t.memWf = true := by
  obtain hc | ⟨u, hu, hkeep⟩ := exec_keep (Keep.loud s) c fun _ _ => rfl
  · obtain ⟨u, hu, hleft⟩ := hc.exec_left s
    obtain rfl : u = t := by simpa using hu.symm.trans he
    exact hleft.wf hs
  · obtain rfl : u = t := by simpa using hu.symm.trans he
    exact hkeep.wf hs

/-- A period of TCLK changes no byte store (notes/assumptions/5.md). -/
theorem State.tick_memWf (s : State) : s.tick.memWf = s.memWf := by
  unfold State.tick
  split <;> rfl

/-- Settles O4: a waiting command by `exec_memWf`, an idle period by `State.tick_memWf`. -/
theorem stepsKeepTheMemoryForm : Obligations.StepsKeepTheMemoryForm := by
  unfold Obligations.StepsKeepTheMemoryForm
  intro s t hs he
  cases hp : s.pending with
  | nil =>
    obtain rfl : s.tick = t := by simpa using (step_of_nil hp).symm.trans he
    exact s.tick_memWf.trans hs
  | cons c cs => exact exec_memWf c (s := { s with pending := cs }) hs ((step_of_cons hp).symm.trans he)

/-- Settles O5: every byte store of the reset state is the empty list, and so is its queue. -/
theorem resetHasTheMemoryForm : Obligations.ResetHasTheMemoryForm := by
  unfold Obligations.ResetHasTheMemoryForm
  exact ⟨rfl, rfl⟩

end Sys2Proof.Machine
end

section
/-! PROOF. Numbering: what a frame sent on a link leaves, and the rows that answer, assign, resend and join (spec 12 R308, spec 15
R384, R385, R387). -/

namespace Sys2Proof.Machine

/-! ## Frames on links (R371, R379) -/

/-- Sending on links: links and what is sent change; nothing sent is taken back. -/
structure SentOn (s t : State) : Prop where
  frame : ∃ ks o, t = { s with links := ks, out := o }
  sent : ∀ o ∈ s.out, o ∈ t.out

namespace SentOn

variable {r s t : State}

theorem refl (s : State) : SentOn s s := ⟨⟨s.links, s.out, rfl⟩, fun _ h => h⟩

theorem trans (h : SentOn r s) (k : SentOn s t) : SentOn r t where
  frame := by
    obtain ⟨ks, o, rfl⟩ := h.frame
    obtain ⟨ks', o', rfl⟩ := k.frame
    exact ⟨ks', o', rfl⟩
  sent := fun o ho => k.sent o (h.sent o ho)

theorem setLink (h : SentOn r s) (l : Nat) (k : Link) : SentOn r (s.setLink l k) := h.trans ⟨⟨_, s.out, rfl⟩, fun _ h => h⟩

theorem emit (h : SentOn r s) (x : Out) : SentOn r (s.emit x) :=
  h.trans ⟨⟨s.links, _, rfl⟩, fun _ h => List.mem_append_left _ h⟩

theorem pump (k : Nat) (h : SentOn r s) (l : Nat) : SentOn r (State.pump k s l) := by
  induction k generalizing s with
  | zero => exact h
  | succ k ih =>
    unfold State.pump
    dsimp only
    split
    · exact h
    · split
      · exact ih ((h.setLink l _).emit _)
      · exact h

theorem linkSend (h : SentOn r s) (l vc : Nat) (bs : List Byte) (p : Option SentPkt) : SentOn r (s.linkSend l vc bs p) :=
  (h.setLink l _).pump _ l

theorem sendFrame (h : SentOn r s) (l : Nat) (f : Frame) : SentOn r (s.sendFrame l f) := (h.emit _).linkSend ..

theorem foldl {α : Type} {f : State → α → State} (h : SentOn r s) (hf : ∀ {t} a, SentOn r t → SentOn r (f t a)) (l : List α) :
    SentOn r (l.foldl f s) := by
  induction l generalizing s with
  | nil => exact h
  | cons a l ih => exact ih (hf a h)

theorem dom (h : SentOn s t) : t.dom = s.dom := by
  obtain ⟨ks, o, rfl⟩ := h.frame
  rfl

theorem disc (h : SentOn s t) : t.disc = s.disc := by
  obtain ⟨ks, o, rfl⟩ := h.frame
  rfl

theorem mem (h : SentOn s t) : t.mem = s.mem := by
  obtain ⟨ks, o, rfl⟩ := h.frame
  rfl

end SentOn

/-- A frame that is sent leaves the package. -/
theorem State.sendFrame_sends (s : State) (l : Nat) (f : Frame) : .frame l f ∈ (s.sendFrame l f).out :=
  ((SentOn.refl (s.emit (.frame l f))).linkSend l 4 (frameBytes f) none).sent _ (List.mem_append_right _ (List.mem_singleton_self _))

/-- A step of a round: the discovery state advances, and one frame goes out. -/
theorem State.setDisc_sendFrame (s : State) (d : Disc) (l : Nat) (f : Frame) : ((s.setDisc d).sendFrame l f).dom = s.dom ∧
    ((s.setDisc d).sendFrame l f).disc = d ∧ .frame l f ∈ ((s.setDisc d).sendFrame l f).out :=
  have hsent := (SentOn.refl (s.setDisc d)).sendFrame l f
  ⟨hsent.dom, hsent.disc, State.sendFrame_sends _ l f⟩

/-! ## A package that is numbered (R384, R385) -/

section

variable {s : State} {l : Nat} {f : Frame} (hlive : s.live = true) (hl : l < s.part.links) (hf : f.intact = true)
  (hd : s.domainLink l = true)

include hlive hl hf hd

theorem query_answered (hk : f.kind = 3) :
    exec (.query l f) s = .next (s.sendFrame l { s.frame l 4 with targetPort := f.swPort }) := by
  show execQuery l f s = _
  exact act_of_true (by simp [hlive, hl, hf, hd, hk]) s _

/-- The package takes its number, acknowledges it and reports its links. -/
theorem assign_taken (hk : f.kind = 5) (hr : s.dom.role ≠ .manager) : ∃ t : State, exec (.assign l f) s = .next t ∧
    t.dom = { s.dom with node := f.assignNode, manager := f.manager } ∧ t.disc = { s.disc with epoch := f.epoch } ∧ t.mem = s.mem ∧
    .frame l { s.frame l 6 with node := f.assignNode, manager := f.manager, epoch := f.epoch, targetPort := f.swPort } ∈ t.out := by
  refine ⟨_, show execAssign l f s = _ from act_of_true (by simp [hlive, hl, hf, hd, hk, hr]) s _, ?_⟩
  extract_lets dom u disc v ack w
  have hreports := (SentOn.refl w).foldl
    (f := fun s k => s.sendFrame l { s.linkReportFrame k with lanes := (s.link l).lanes, targetPort := f.swPort })
    (fun _ h => h.sendFrame ..) w.domainLinks
  have hall := ((SentOn.refl v).sendFrame l _).trans hreports
  exact ⟨hall.dom, hall.disc, hall.mem, hreports.sent _ (State.sendFrame_sends v l _)⟩

end

/-! ## The manager's round (R384) -/

section

variable {s : State} {l port : Nat} {f : Frame} {w : Sweep} {rest : List (Nat × Nat)} (hup : s.mgmtUp = true)
  (hm : s.dom.role = .manager) (hw : s.disc.sweep = some w) (htodo : w.todo = (l, port) :: rest)

include hup hm hw htodo

/-- An unnumbered occupant, or one of an earlier round, is assigned the next number. -/
theorem reply_assigns (hf : f.intact = true) (ha : w.assigning = false) (hk : f.kind = 4) (hport : port = 0xFFFF ∨ f.swPort = port)
    (hs : f.senderKind = 0) (hn : f.node = 0xFF ∨ f.epoch ≠ s.disc.epoch) (hnext : w.next ≤ 0xFF) : exec (.reply l f) s =
      .next ((s.setDisc { s.disc with sweep := some { w with assigning := true, sentAt := s.now, tries := 0 } }).sendFrame l
        { s.frame l 5 with targetPort := port, assignNode := w.next }) := by
  show execReply l f s = _
  simp only [execReply, hw, htodo]
  rw [if_neg (by simpa [hup, hm, hf, ha, hk] using or_iff_not_imp_left.1 hport), if_pos (by simpa [hs] using hn), if_pos hnext]
  rfl

variable (hlate : 2500 ≤ s.since w.sentAt)

include hlate

/-- A silent occupant is sent the same frame again. -/
theorem queryTimeout_resends (htries : w.tries < 3) : exec .queryTimeout s =
    .next ((s.setDisc { s.disc with sweep := some { w with tries := w.tries + 1, sentAt := s.now } }).sendFrame l
      (if w.assigning then { s.frame l 5 with targetPort := port, assignNode := w.next }
       else { s.frame l 3 with targetPort := port })) := by
  show execQueryTimeout s = _
  simp only [execQueryTimeout, hw, htodo]
  rw [if_neg (by simp [hup, hm, hlate]), if_pos htries]
  split
  · rfl
  · rfl

/-- After the last resend to the last occupant the round is over. -/
theorem queryTimeout_ends (htries : 3 ≤ w.tries) (hrest : rest = []) :
    exec .queryTimeout s = .next { s with disc := { s.disc with sweep := none } } := by
  show execQueryTimeout s = _
  simp only [execQueryTimeout, hw, htodo]
  rw [if_neg (by simp [hup, hm, hlate]), if_neg (Nat.not_lt.2 htries)]
  simp only [State.nextOccupant, hw, htodo, hrest]
  rfl

end

/-- With no round in progress an acknowledgement adds its node (R384, R387). -/
theorem assignAck_adds {s : State} {l : Nat} {f : Frame} (hup : s.mgmtUp = true) (hm : s.dom.role = .manager) (hl : l < s.part.links)
    (hf : f.intact = true) (hk : f.kind = 6) (hnone : s.disc.sweep = none) : exec (.assignAck l f) s = .next (s.setDisc { s.disc with
      found := addNew s.disc.found f.node, prio := s.disc.prio.set f.node f.mgrPrio }) := by
  show execAssignAck l f s = _
  simp only [execAssignAck, hnone]
  exact congrArg Host.Outcome.next (if_neg (by simp [hup, hm, hf, hk, hl]))

/-! ## Joining (R308, R387) -/

/-- The lowest unused number is the one that is unused while every lower one is used. -/
theorem lowestFree_eq {used : List Nat} {k n : Nat} (hk : n < k) (hfree : n ∉ used) (hused : ∀ i, i < n → i ∈ used) :
    lowestFree used k = n := by
  have hsub : List.range n ⊆ used := fun i hi => hused i (List.mem_range.1 hi)
  have hlen : n ≤ used.length := by simpa using (List.nodup_range.subperm hsub).length_le
  have hfind : (List.range (min k (used.length + 1))).find? (fun i => !used.contains i) = some n :=
    List.find?_range_eq_some.2 ⟨by simpa using hfree, List.mem_range.2 (by omega), fun i hi => by simpa using hused i hi⟩
  rw [lowestFree, hfind, Option.getD_some]

/-- What a package tells of its generations goes to no number, and takes nothing back. -/
theorem State.takeGens_keeps (s : State) (n : Nat) (gens : Option GenReport) : (s.takeGens n gens).dom = s.dom ∧
    (s.takeGens n gens).disc.found = s.disc.found ∧ ∀ o ∈ s.out, o ∈ (s.takeGens n gens).out := by
  unfold State.takeGens
  split
  · exact ⟨rfl, rfl, fun _ h => h⟩
  · dsimp only
    split
    · exact ⟨rfl, rfl, fun _ h => List.mem_append_left _ h⟩
    · exact ⟨rfl, rfl, fun _ h => h⟩

/-- A joiner is sent the lowest unused number. -/
theorem State.takeJoin_assigns (s : State) (l : Nat) (f : Frame) (gens : Option GenReport) {n : Nat}
    (hn : lowestFree (s.disc.found ++ nodesOf s.dom.members) 256 = n) (hle : n ≤ 0xFF) : (s.takeJoin l f gens).dom = s.dom ∧
      (s.takeJoin l f gens).disc.found = s.disc.found ∧
      .frame l { s.frame l 5 with targetPort := f.swPort, assignNode := n } ∈ (s.takeJoin l f gens).out := by
  unfold State.takeJoin
  rw [hn]
  extract_lets k newer disc u
  rw [if_pos hle]
  obtain ⟨hdom, hfound, hsent⟩ := (u.sendFrame l { u.frame l 5 with targetPort := f.swPort, assignNode := n }).takeGens_keeps n gens
  have hframe := (SentOn.refl u).sendFrame l { u.frame l 5 with targetPort := f.swPort, assignNode := n }
  exact ⟨hdom.trans hframe.dom, hfound.trans (congrArg Disc.found hframe.disc :), hsent _ (State.sendFrame_sends u l _)⟩

/-- With no round in progress the manager takes a JOIN. -/
theorem join_taken {s : State} {l : Nat} {f : Frame} (hup : s.mgmtUp = true) (hm : s.dom.role = .manager) (hl : l < s.part.links)
    (hf : f.intact = true) (hd : s.domainLink l = true) (hk : f.kind = 8) (hnone : s.disc.sweep = none) (gens : Option GenReport) :
    exec (.join l f gens none) s = .next (s.takeJoin l f gens) := by
  show execJoin l f gens none s = _
  simp [execJoin, hup, hm, hl, hd, hf, hk, hnone]

/-- The idle bank becomes the active one, and its generation is in force. -/
theorem State.takeBank_takes (s : State) (g : Word) : (s.takeBank g).mem.genCurrent = g ∧
    (s.takeBank g).caddy.active = s.caddy.idle ∧ (s.takeBank g).dom = s.dom := by
  unfold State.takeBank
  extract_lets b caddy u m v
  obtain ⟨j₀, j₁, hu⟩ := State.jnlActivate_frame (s.setCaddy { s.caddy with active := b, armed := none }) b
  have hv : v.mem.genCurrent = g ∧ v.caddy.active = s.caddy.idle ∧ v.dom = s.dom :=
    ⟨rfl, (congrArg (fun t : State => t.caddy.active) hu :), (congrArg State.dom hu :)⟩
  split
  · obtain ⟨h, d, bad, w, r, o, hn⟩ := State.normReset_frame v ‹_› false
    rw [hn]
    exact hv
  · exact hv

/-- On the manager's order the idle bank of its generation is taken. -/
theorem join_takesOrder {s : State} (hlive : s.live = true) (hr : s.dom.role ≠ .manager) (hst : s.dom.state = .bringup)
    (hq : s.start.quiesced = false) (hbuilt : (s.caddy.bank s.caddy.idle).built = true)
    (hne : s.mem.genCurrent ≠ (s.caddy.bank s.caddy.idle).gen) (l : Nat) (f : Frame) (gens : Option GenReport) :
    exec (.join l f gens (some (s.caddy.bank s.caddy.idle).gen)) s = .next (s.takeBank (s.caddy.bank s.caddy.idle).gen) := by
  show execJoin l f gens (some _) s = _
  simp [execJoin, State.takeOrder, hlive, hr, hst, hq, hbuilt, hne]

/-- Settles O36: the numbered package's rows by what their frames leave, the manager's by the occupant in turn and the lowest unused
number, the order by the change of bank. -/
theorem numberingAssignsNodes : Obligations.NumberingAssignsNodes := by
  unfold Obligations.NumberingAssignsNodes
  intro s l f hlive hl hf
  refine ⟨fun hk hd => ?query, fun hk hd hr => assign_taken hlive hl hf hd hk hr, fun hup hm => ⟨fun w port rest hw htodo =>
    ⟨fun ha hk hport hs hn hnext => ?reply, fun hlate htries => ?resend, fun hlate htries hrest =>
      queryTimeout_ends hup hm hw htodo hlate htries hrest⟩, fun hk hnone => assignAck_adds hup hm hl hf hk hnone,
    fun hk hd hnone n hn hfree hused gens => ?join⟩, fun gens g hr hst hq hbuilt hgen hne => ?order⟩
  case query =>
    have hsent := (SentOn.refl s).sendFrame l { s.frame l 4 with targetPort := f.swPort }
    exact ⟨_, query_answered hlive hl hf hd hk, State.sendFrame_sends .., hsent.disc, hsent.dom, hsent.mem⟩
  case reply => exact ⟨_, reply_assigns hup hm hw htodo hf ha hk hport hs hn hnext, State.setDisc_sendFrame ..⟩
  case resend =>
    obtain ⟨hdom, hdisc, hsent⟩ := State.setDisc_sendFrame s _ l _
    refine ⟨_, queryTimeout_resends hup hm hw htodo hlate htries, hdom, hdisc, ?_⟩
    cases ha : w.assigning <;> simpa [ha] using hsent
  case join =>
    exact ⟨_, join_taken hup hm hl hf hd hk hnone gens,
      s.takeJoin_assigns l f gens (lowestFree_eq hn hfree hused) (Nat.le_of_lt_succ hn)⟩
  case order =>
    subst hgen
    obtain ⟨hcur, hactive, hdom⟩ := s.takeBank_takes (s.caddy.bank s.caddy.idle).gen
    exact ⟨_, join_takesOrder hlive hr hst hq hbuilt hne l f gens, hcur, hactive, hdom⟩

end Sys2Proof.Machine
end

section
/-! PROOF. The caddy opens, builds, arms, disarms and quiesces (spec 12 R294 to R297, R301, R302, R304 to R306, R309). -/

namespace Sys2Proof.Machine

/-! ## Opening (R302, R304) -/

/-- A bank replaced leaves the rest of the caddy. -/
theorem Caddy.setBank_frame (c : Caddy) (b : Nat) (k : Bank) : ∃ x y, c.setBank b k = { c with bankA := x, bankB := y } := by
  unfold Caddy.setBank
  split
  · exact ⟨k, c.bankB, rfl⟩
  · exact ⟨c.bankA, k, rfl⟩

/-- The bank of a committed record is the active one, and holds the record's generation (R304). -/
def Caddy.activated (c : Caddy) (r : JRec) : Caddy := ({ c with active := r.bank } : Caddy).setBank r.bank
  { c.bank r.bank with built := true, gen := r.gen, geom := r.geom, digest := r.digest }

theorem Caddy.activated_parts (c : Caddy) (r : JRec) : (c.activated r).opened = c.opened ∧ (c.activated r).journal0 = c.journal0 ∧
    (c.activated r).journal1 = c.journal1 ∧ (c.activated r).active = r.bank ∧ ((c.activated r).bank r.bank).built = true ∧
    ((c.activated r).bank r.bank).gen = r.gen := by
  have hbank : (c.activated r).bank r.bank = _ := Caddy.bank_setBank_self _ r.bank _
  obtain ⟨x, y, h⟩ : ∃ x y, c.activated r = _ := Caddy.setBank_frame _ r.bank _
  exact ⟨(congrArg Caddy.opened h :), (congrArg Caddy.journal0 h :), (congrArg Caddy.journal1 h :), (congrArg Caddy.active h :),
    (congrArg Bank.built hbank :), (congrArg Bank.gen hbank :)⟩

/-- The same record made for every element of a list changes the error block and what is sent. -/
theorem State.notes_frame {α : Type} (e : α → ErrIn) (l : List α) : ∀ s : State, ∃ x o,
    l.foldl (fun s a => s.note (e a)) s = { s with err := x, out := o } := by
  induction l with
  | nil => exact fun s => ⟨s.err, s.out, rfl⟩
  | cons a l ih =>
    intro s
    obtain ⟨x, o, h⟩ := State.note_frame s (e a)
    obtain ⟨x', o', h'⟩ := ih (s.note (e a))
    exact ⟨x', o', by rw [List.foldl_cons, h', h]⟩

/-- The records that decide at open, both dies read and the second one's journal rewritten (R304). -/
def Caddy.deciders (c : Caddy) : List JRec := ({ c with journal1 := c.journal } : Caddy).journal.filter jKnown

/-- A caddy as it is opened, with the generation then in force (R302, R304). -/
structure Caddy.Opens (c t : Caddy) (gen : Word) : Prop where
  opened : t.opened = true
  journal0 : t.journal0 = c.journal0
  journal1 : t.journal1 = c.journal
  commits : ∀ r, committed c.deciders = some r →
    t.active = r.bank ∧ (t.bank r.bank).built = true ∧ (t.bank r.bank).gen = r.gen ∧ gen = r.gen
  none : committed c.deciders = none → t.active = 3

/-- The journals decide the banks; a key that is not erased leaves both as they were read. -/
theorem State.openCaddy_opens {s : State} (he : s.caddy.erased = false) :
    s.caddy.Opens s.openCaddy.caddy s.openCaddy.mem.genCurrent ∧ s.openCaddy.dom = s.dom ∧ s.openCaddy.mem.hbm = s.mem.hbm := by
  unfold State.openCaddy
  extract_lets c read u₀ u c₁ s₁ s₂ l c₂ v c₃
  obtain ⟨x₀, o₀, hu₀⟩ := State.notes_frame (fun d => { status := 0x0439, cls := 0, unit := 5, die := d, pos := 0 })
    ((c.journal0.filter fun r => r.crcOk && !jKnown r).map fun _ => 0) s
  obtain ⟨x, o, hu⟩ := State.notes_frame (fun d => { status := 0x0439, cls := 0, unit := 5, die := d, pos := 0 })
    ((c.journal1.filter fun r => r.crcOk && !jKnown r).map fun _ => 1) u₀
  have hs₁ : s₁ = { u with caddy := { u.caddy with
      journal1 := read, opened := true, key := if c.keyValid then some c.wrappedKey else none } } := rfl
  have hs₂ : s₂ = { s with err := x, out := o, caddy := { s.caddy with
      journal1 := read, opened := true, key := if c.keyValid then some c.wrappedKey else none } } := by
    rw [show s₂ = s₁ from if_neg (by simp [c, he]), hs₁, show u = _ from hu, show u₀ = _ from hu₀]
  have hl : l = s.caddy.deciders := by
    show s₂.caddy.journal.filter jKnown = _
    rw [hs₂]
    rfl
  have hopened : v.caddy.opened = true := (congrArg (fun t : State => t.caddy.opened) hs₂ :)
  have hj₀ : v.caddy.journal0 = c.journal0 := (congrArg (fun t : State => t.caddy.journal0) hs₂ :)
  have hj₁ : v.caddy.journal1 = c.journal := (congrArg (fun t : State => t.caddy.journal1) hs₂ :)
  have hdom : v.dom = s.dom := (congrArg State.dom hs₂ :)
  have hhbm : v.mem.hbm = s.mem.hbm := (congrArg (fun t : State => t.mem.hbm) hs₂ :)
  rw [hl]
  split
  case h_1 r hr =>
    obtain ⟨hopen, hjnl₀, hjnl₁, hactive, hbuilt, hgen⟩ := v.caddy.activated_parts r
    refine ⟨⟨hopen.trans hopened, hjnl₀.trans hj₀, hjnl₁.trans hj₁, fun q hq => ?_, fun hn => nomatch hr.symm.trans hn⟩,
      hdom, hhbm⟩
    obtain rfl : r = q := Option.some.inj (hr.symm.trans hq)
    exact ⟨hactive, hbuilt, hgen, rfl⟩
  case h_2 hr =>
    obtain ⟨y, z, hnote⟩ := State.note_frame (v.setCaddy { c₃ with active := 3 }) { status := 0x0437, cls := 0 }
    rw [hnote]
    exact ⟨⟨hopened, hj₀, hj₁, fun q hq => absurd (hr.symm.trans hq) (by simp), fun _ => rfl⟩, hdom, hhbm⟩

/-- The caddy opens, and start-up latches its registers (R344). -/
theorem caddyOpen_opens {s : State} (hup : s.mgmtUp = true) (hc : s.caddy.opened = false) (he : s.caddy.erased = false) :
    ∃ t : State, exec .caddyOpen s = .next t ∧ s.caddy.Opens t.caddy t.mem.genCurrent ∧ t.dom = s.dom ∧ t.mem.hbm = s.mem.hbm := by
  obtain ⟨l, hl⟩ := State.latchStart_frame s.openCaddy [0x130020, 0x130040, 0x130060]
  refine ⟨_, show execCaddyOpen s = _ from act_of_true (by simp [hup, hc]) s _, ?_⟩
  rw [hl]
  exact State.openCaddy_opens he

/-! ## What ends a build, and what a safe point leaves of the caddy (R297, R301) -/

theorem Noted.caddy {s t : State} (h : Noted s t) : t.caddy = s.caddy := by
  obtain ⟨w, r, x, o, rfl⟩ := h.frame
  rfl

/-- A build passes a safe point: its banks stay, and a pending cancel alone ends it. -/
theorem State.passPoint_keepsBanks {s : State} {h done : Nat} {o : LongOp} (ho : s.longOps.find? h = some o) (hw : o.working = true) :
    let t := s.passPoint h done fun s => s.setBuild none
    (∀ b, t.caddy.bank b = s.caddy.bank b) ∧ (o.state ≠ .cancelPending → t.caddy = s.caddy) := by
  intro t
  have hkept (k : t.caddy = s.caddy) : (∀ b, t.caddy.bank b = s.caddy.bank b) ∧ (o.state ≠ .cancelPending → t.caddy = s.caddy) :=
    ⟨fun b => by rw [k], fun _ => k⟩
  cases hst : o.state with
  | running => simpa [hst] using hkept (State.passPoint_runs ho hst).caddy
  | suspendPending => simpa [hst] using hkept (State.passPoint_suspends ho hst).caddy
  | cancelPending =>
    have ht : t = (((s.setOp h { o with done := done }).opNote h { o with done := done } 0x0003).setBuild none).endOp h 0x0602 0 false := by
      simp only [t, State.passPoint, ho, hst]
    obtain ⟨l, r, x, hend⟩ := State.endOp_frame
      (((s.setOp h { o with done := done }).opNote h { o with done := done } 0x0003).setBuild none) h 0x0602 0
    have hnote := ((Noted.refl (s.setOp h { o with done := done })).opNote h { o with done := done } 0x0003).caddy
    refine ⟨fun b => ?_, fun hne => absurd rfl hne⟩
    rw [ht, hend]
    exact (congrArg (fun c : Caddy => c.bank b) hnote :)
  | suspended => simp [LongOp.working, hst] at hw
  | resumePending => simp [LongOp.working, hst] at hw

/-! ## The header and the chunks of an image (R294 to R297) -/

section

variable {s : State} {b : Build} {o : LongOp} (hl : s.live = true) (hq : s.start.quiesced = false) (hb : s.caddy.build = some b)
  (ho : s.longOps.find? b.handle = some o) (hw : o.working = true)

include hl hq hb ho hw

theorem buildChunk_fails : exec (.buildChunk b.handle .hostFail) s = .next (s.endBuild b.handle 0x0203) := by
  show execBuildChunk b.handle .hostFail s = _
  simp [execBuildChunk, hl, hq, hb, ho, hw]

theorem buildChunk_header {i : ImageHdr} (hnone : b.hdr = none) (hkey : i.keyBlock.length = 1632) :
    exec (.buildChunk b.handle (.header i)) s = .next (s.buildHeader b i) := by
  show execBuildChunk b.handle (.header i) s = _
  simp [execBuildChunk, hl, hq, hb, ho, hw, hnone, hkey]

theorem buildChunk_chunk {i : ImageHdr} {h : ChunkHdr} {payload : List Byte} (hi : b.hdr = some i) (hmore : b.chunksDone < i.chunks)
    (hlen : payload.length = if 4 ≤ h.kind then 0 else h.length) (bad : List Nat) :
    exec (.buildChunk b.handle (.chunk h payload bad)) s = .next (s.buildChunk b i h payload bad) := by
  show execBuildChunk b.handle (.chunk h payload bad) s = _
  simp [execBuildChunk, hl, hq, hb, ho, hw, hi, hmore, hlen]

end

theorem State.buildHeader_refuses {s : State} {b : Build} {i : ImageHdr} (h : s.imageOk b i = false) :
    s.buildHeader b i = s.endBuild b.handle 0x0430 := by
  simp [State.buildHeader, h]

/-- A header whose key cannot be unwrapped ends the build. -/
theorem State.buildHeader_keyless {s : State} {b : Build} {i : ImageHdr} (h : s.imageOk b i = true) (hk : s.unwrapKey i = none) :
    s.buildHeader b i = s.endBuild b.handle 0x0431 := by
  simp [State.buildHeader, h, hk]

/-- With no segment lost, no segment is mapped to a spare (R311). -/
theorem State.buildHeader_takes {s : State} {b : Build} {i : ImageHdr} {k : W256} (h : s.imageOk b i = true)
    (hlost : s.caddy.lostSegs = []) (hk : s.unwrapKey i = some k) :
    s.buildHeader b i = s.setBuild (some { b with hdr := some i, weightKey := some k, heads := imgHead i }) := by
  simp [State.buildHeader, h, hk, State.mapLost, hlost]

theorem State.buildChunk_refuses {s : State} {b : Build} {i : ImageHdr} {h : ChunkHdr} (hbad : chunkOk b i h = false)
    (payload : List Byte) (bad : List Nat) : s.buildChunk b i h payload bad = s.endBuild b.handle 0x0430 := by
  simp [State.buildChunk, hbad]

/-- A build after one more chunk (R298). -/
def Build.after (b : Build) (h : ChunkHdr) : Build :=
  { b with chunksDone := b.chunksDone + 1, covered := h.winOffset + h.length, heads := b.heads ++ chunkHead h }

/-- A clear chunk whose tag is right is written as it is decrypted, window bytes that no chunk covers become zero, and a safe
point is passed. -/
theorem State.buildChunk_writes {s : State} {b : Build} {i : ImageHdr} {h : ChunkHdr} {payload : List Byte}
    (hok : chunkOk b i h = true) (hkind : h.kind = 0)
    (htag : Config.gcmTag (b.weightKey.getD 0) (chunkNonce b.chunksDone i.generation) (chunkAad i h) payload = h.tag) (bad : List Nat) :
    let plain := Config.gcmOpen (b.weightKey.getD 0) (chunkNonce b.chunksDone i.generation) (chunkAad i h) payload
    ∃ (u : State) (done : Nat), s.buildChunk b i h payload bad = u.passPoint b.handle done (fun s => s.setBuild none) ∧
      u.longOps = s.longOps ∧ u.caddy.build = some (b.after h) ∧ (u.caddy.bank b.bank).data =
        Memory.clear (Memory.write (s.caddy.bank b.bank).data h.winOffset plain) b.covered (h.winOffset - b.covered) := by
  intro plain
  unfold State.buildChunk
  extract_lets from_ copy hit failed run tagOk old w r b' done k v
  rw [if_neg (by simp [hok, copy, hkind]), if_neg (by simp [hit, copy, hkind])]
  have hrun : run = some [plain] := by simp [run, State.chunkRun, hkind, plain]
  have hbytes : s.chunkBytes i h [plain] = plain := by simp [State.chunkBytes, hkind]
  have hr : r = (0, w) := by simp [r, hrun, show tagOk from htag, State.anyOf]
  have hw : w.longOps = s.longOps ∧
      (w.caddy.bank b.bank).data = Memory.write (s.caddy.bank b.bank).data h.winOffset plain := by
    simp only [w, hrun, hbytes]
    exact ⟨rfl, congrArg Bank.data (Caddy.bank_setBank_self ..)⟩
  obtain ⟨hops, hdata⟩ := hw
  rw [if_neg (by simp [hr])]
  have hv : v.caddy.bank b.bank = { k with data := Memory.clear k.data b.covered (h.winOffset - b.covered) } :=
    Caddy.bank_setBank_self ..
  refine ⟨v.setBuild (some b'), done, rfl, hops, rfl, ?_⟩
  rw [show ((v.setBuild (some b')).caddy.bank b.bank).data = _ from congrArg Bank.data hv, ← hdata]

/-- What the end of a build leaves: no build, its operation gone, its bank as it was. -/
theorem State.endBuild_leaves {s : State} {h : Nat} {o : LongOp} (ho : s.longOps.find? h = some o) (status : Nat) :
    (s.endBuild h status).caddy.build = none ∧ (s.endBuild h status).longOps = s.longOps.erase h ∧
      ∀ b, (s.endBuild h status).caddy.bank b = s.caddy.bank b := by
  have hend := State.endBuild_ends ho status
  refine ⟨?_, hend.longOps, fun b => ?_⟩
  · rw [hend.caddy]
  · rw [hend.caddy]
    rfl

/-! ## Arming (R305, R306) -/

/-- A member answers an arm, and is armed where it accepts. -/
theorem swapArmReceive_answers {s : State} (hl : s.live = true) (hq : s.start.quiesced = false) (hd : s.disc.inDomain = true)
    (hr : s.dom.role ≠ .manager) (g : Word) (r : HomeRev) : ∃ t : State, exec (.swapArmReceive g r) s = .next t ∧
      .member s.dom.manager 6 [g.setWidth 64, BitVec.ofNat 64 (s.armCheck g r)] ∈ t.out ∧
      (if s.armCheck g r = 0 then t.caddy.armed = some g ∧ t.rte.next = some ⟨r.rev, r.members, r.entries⟩
       else t.caddy = s.caddy ∧ t.rte = s.rte) := by
  refine ⟨_, show execSwapArmReceive g r s = _ from act_of_true (by simp [hl, hq, hd, hr]) s _, ?_⟩
  extract_lets c u
  have hsent : u.dom.manager = s.dom.manager := by
    simp only [u]
    split
    · rfl
    · rfl
  refine ⟨List.mem_append_right _ (by rw [hsent]; exact List.mem_singleton_self _), ?_⟩
  split
  case isTrue h =>
    rw [show u = s.armSelf g r from if_pos h]
    exact ⟨rfl, rfl⟩
  case isFalse h =>
    rw [show u = s from if_neg h]
    exact ⟨rfl, rfl⟩

section

variable {s : State} {a : Arming} {node : Nat} (hl : s.live = true) (hr : s.dom.role = .manager) (ha : s.dom.arm = some a)
  (hopen : a.armed = false) (hm : s.isMember node = true) (hnew : node ∉ a.accepted)

include hl hr ha hopen hm hnew

/-- An arm in progress waits for a member that has not accepted. -/
theorem State.armWaits_member : s.armWaits node = true := by simp [State.armWaits, hl, hr, ha, hopen, hm, hnew]

theorem swapArmReply_accepts : exec (.swapArmReply node 0) s = .next { s with dom := { s.dom with arm := some { a with
    accepted := a.accepted ++ [node], armed := s.memberList.all (a.accepted ++ [node]).contains } } } := by
  have hadd : addNew a.accepted node = a.accepted ++ [node] := by simp [addNew, hnew]
  show execSwapArmReply node 0 s = _
  simp only [execSwapArmReply, ha, State.armWaits_member hl hr ha hopen hm hnew, State.armAccepted, hadd]
  rfl

theorem swapArmReply_refuses {c : Nat} (hc : c ≠ 0) : exec (.swapArmReply node c) s = .next (s.armRefused node c) := by
  show execSwapArmReply node c s = _
  simp [execSwapArmReply, ha, State.armWaits_member hl hr ha hopen hm hnew, hc]

/-- 100 ms of silence are a refusal with condition 5. -/
theorem swapArmTimeout_refuses (hlate : 2500000 ≤ s.since a.sentAt) : exec (.swapArmTimeout node) s = .next (s.armRefused node 5) := by
  show execSwapArmTimeout node s = _
  simp [execSwapArmTimeout, ha, State.armWaits_member hl hr ha hopen hm hnew, hlate]

omit hl hr hopen hm hnew in
theorem swapArmTimeout_waits (hsoon : s.since a.sentAt < 2500000) : exec (.swapArmTimeout node) s = .next s := by
  show execSwapArmTimeout node s = _
  simp [execSwapArmTimeout, ha, hsoon]

end

/-! ## Quick quiesce (R309) -/

/-- A leave notice leaves the start-up state, the caddy and the domain (R309). -/
theorem State.leave_keeps (s : State) : s.leave.start = s.start ∧ s.leave.caddy = s.caddy ∧ s.leave.dom = s.dom := by
  obtain ⟨hb, d, b, w, r, f, ks, o, h⟩ := State.sendOwn_frame s.drawByte.2 s.dom.manager 61 [s.drawByte.1]
  exact ⟨(congrArg State.start h :), (congrArg State.caddy h :), (congrArg State.dom h :)⟩

/-- The package stops, a build in progress ends, and the manager is told. -/
theorem quickQuiesce_stops {s : State} (hl : s.live = true) (ht : s.start.trayPin = true) (hg : s.start.gatePassed = true)
    (hq : s.start.quiesced = false) : ∃ t : State, exec .quickQuiesce s = .next t ∧ t.start = { s.start with quiesced := true } ∧
      t.caddy.build = none ∧ t.dom = s.dom := by
  refine ⟨_, show execQuickQuiesce s = _ from act_of_true (by simp [hl, ht, hg, hq]) s _, ?_⟩
  extract_lets u start v
  obtain ⟨hstart, hbuild, hdom⟩ : u.start = s.start ∧ u.caddy.build = none ∧ u.dom = s.dom := by
    simp only [u]
    split
    · obtain ⟨l, r, o, h⟩ := State.endOp_frame (State.setBuild { s with free := s.free + 1 } none) ‹Build›.handle
        (1 + Config.freeNat s.free % 0xFFFF) 0x0605
      rw [State.endBuild, h]
      exact ⟨rfl, rfl, rfl⟩
    · exact ⟨rfl, ‹_›, rfl⟩
  have hv : v.start = { s.start with quiesced := true } := by
    show ({ u.start with quiesced := true } : Start) = _
    rw [hstart]
  split
  · exact ⟨hv, hbuild, hdom⟩
  · obtain ⟨hleave, hcaddy, hdomain⟩ := v.leave_keeps
    exact ⟨hleave.trans hv, (congrArg Caddy.build hcaddy).trans hbuild, hdomain.trans hdom⟩

/-- Settles O20, a row at a time: opening by the committed record, builds by their inputs, arms by the answers, and the tray pull. -/
theorem caddyOpensBuildsAndArms : Obligations.CaddyOpensBuildsAndArms := by
  unfold Obligations.CaddyOpensBuildsAndArms
  intro s
  refine ⟨fun hup hc he => ?opens, fun hl hq => ⟨fun b o hb ho hw => ⟨?fails, fun i hnone hkey => ⟨fun hbad => ?refusesHeader,
    fun hok hlost => ?takesHeader⟩, fun i h payload bad hi hmore hlen => ⟨fun hbad => ?refusesChunk, fun hok hkind htag => ?writes⟩⟩,
    swapArmReceive_answers hl hq⟩, fun hl hr a node ha hopen hm hnew => ?arms, quickQuiesce_stops⟩
  case opens =>
    obtain ⟨t, he, hopens, hdom, hhbm⟩ := caddyOpen_opens hup hc he
    exact ⟨t, he, hopens.opened, hhbm, hdom, hopens.journal0, hopens.journal1, hopens.commits, hopens.none⟩
  case fails =>
    obtain ⟨hnone, hops, -⟩ := State.endBuild_leaves ho 0x0203
    exact ⟨_, buildChunk_fails hl hq hb ho hw, hnone, hops⟩
  case refusesHeader =>
    obtain ⟨hend, hops, -⟩ := State.endBuild_leaves ho 0x0430
    exact ⟨_, (buildChunk_header hl hq hb ho hw hnone hkey).trans (by rw [State.buildHeader_refuses hbad]), hend, hops⟩
  case takesHeader =>
    refine ⟨_, buildChunk_header hl hq hb ho hw hnone hkey, ?_⟩
    cases hk : s.unwrapKey i with
    | none =>
      rw [State.buildHeader_keyless hok hk]
      exact (State.endBuild_leaves ho 0x0431).1
    | some k =>
      rw [State.buildHeader_takes hok hlost hk]
      exact ⟨rfl, rfl⟩
  case refusesChunk =>
    obtain ⟨hend, -, hbank⟩ := State.endBuild_leaves ho 0x0430
    exact ⟨_, (buildChunk_chunk hl hq hb ho hw hi hmore hlen bad).trans (by rw [State.buildChunk_refuses hbad]), hend, hbank _⟩
  case writes =>
    intro plain
    obtain ⟨u, done, hchunk, hops, hbuild, hdata⟩ := s.buildChunk_writes hok hkind htag bad
    obtain ⟨hbanks, hkept⟩ := State.passPoint_keepsBanks (done := done) (hops ▸ ho) hw
    refine ⟨_, (buildChunk_chunk hl hq hb ho hw hi hmore hlen bad).trans (by rw [hchunk]), ?_, fun hne => ?_⟩
    · rw [hbanks]
      exact hdata
    · rw [hkept hne]
      exact hbuild
  case arms =>
    have hdisarm (c : Nat) := s.endArm_disarms 0x0433 [(8, 4, putBits node 7 0 + putBits c 11 8)]
    refine ⟨swapArmReply_accepts hl hr ha hopen hm hnew, fun c hc => ?_, fun hlate => ?_, swapArmTimeout_waits ha⟩
    · obtain ⟨harm, harmed, -, hsent⟩ := hdisarm c
      exact ⟨_, swapArmReply_refuses hl hr ha hopen hm hnew hc, harm, harmed, hsent⟩
    · have htimeout := swapArmTimeout_refuses hl hr ha hopen hm hnew hlate
      exact ⟨htimeout.trans (swapArmReply_refuses hl hr ha hopen hm hnew (by decide)).symm, _, htimeout, (hdisarm 5).1⟩

end Sys2Proof.Machine
end

section
/-! PROOF. Completion entries, interrupts and final records of a ring pair: what they leave where nothing waits in its backlog
(spec 13 R321 to R326, R332, R337). -/

namespace Sys2Proof.Machine

variable {s : State} {n : Nat}

/-! ## Nothing to drain, no close to complete (R336, R337) -/

theorem State.drain_of_empty (hb : (s.ring n).backlog = []) : s.drain n = s := by
  rw [State.drain, hb]
  rfl

/-- Closes complete only where a waiting descriptor is one. -/
theorem State.settleCloses_of_no_close (hw : ∀ w ∈ s.waiting, w.what.closed = none) : s.settleCloses = s := by
  unfold State.settleCloses
  rw [List.foldl_ext _ (fun t _ => t) s fun t w h => by rw [hw w h]]
  exact List.foldl_fixed' (fun _ => rfl) _

/-- What a doorbell and a final record end with, on a pair with an empty backlog. -/
theorem State.settle_of_empty (hb : (s.ring n).backlog = []) (hw : ∀ w ∈ s.waiting, w.what.closed = none) :
    (s.drain n).settleCloses = s := by
  rw [State.drain_of_empty hb, State.settleCloses_of_no_close hw]

@[simp] theorem State.ring_emit (s : State) (n : Nat) (o : Out) : (s.emit o).ring n = s.ring n := rfl

/-! ## Heads and arming (R321, R326) -/

/-- The records that a head value passes (R321). -/
def RingPair.passed (r : RingPair) (head : Nat) : Nat := (head % 2 ^ r.cqLog2 + 2 ^ r.cqLog2 - r.cqHead) % 2 ^ r.cqLog2

theorem RingPair.consume_of_le {r : RingPair} {head : Nat} (hk : r.passed head ≤ r.unread.length) :
    r.consume head = { r with cqHead := head % 2 ^ r.cqLog2, unread := r.unread.drop (r.passed head) } := if_pos hk

theorem RingPair.consume_of_gt {r : RingPair} {head : Nat} (hk : r.unread.length < r.passed head) : r.consume head = r :=
  if_neg hk.not_ge

@[simp] theorem RingPair.consume_backlog (r : RingPair) (head : Nat) : (r.consume head).backlog = r.backlog := by
  by_cases hk : r.passed head ≤ r.unread.length
  · rw [RingPair.consume_of_le hk]
  · rw [RingPair.consume_of_gt (not_le.1 hk)]

theorem State.armRing_of_empty (he : (s.ring n).unread = []) : s.armRing n = s.setRing n { s.ring n with armed := true } := by
  simp [State.armRing, he]

theorem State.armRing_of_unread (he : (s.ring n).unread ≠ []) :
    s.armRing n = (s.setRing n { s.ring n with armed := false }).emit (.msix (s.ring n).vector) := by
  simp [State.armRing, he]

@[simp] theorem State.armRing_backlog (s : State) (n : Nat) : ((s.armRing n).ring n).backlog = (s.ring n).backlog := by
  by_cases he : (s.ring n).unread = []
  · rw [State.armRing_of_empty he, State.ring_setRing_self]
  · rw [State.armRing_of_unread he]
    simp

@[simp] theorem State.armRing_waiting (s : State) (n : Nat) : (s.armRing n).waiting = s.waiting := by
  by_cases he : (s.ring n).unread = []
  · rw [State.armRing_of_empty he, State.setRing_waiting]
  · rw [State.armRing_of_unread he, State.emit_waiting, State.setRing_waiting]

/-! ## Interrupts and completion entries (R325, R326) -/

theorem State.interrupt_of_disarmed (ha : (s.ring n).armed = false) : s.interrupt n = s := by
  simp [State.interrupt, ha]

/-- The time of an armed pair's oldest record has passed: its message is sent (R326). -/
theorem State.interrupt_of_time {first : DWord} {rest : List DWord} (ha : (s.ring n).armed = true)
    (hr : (s.ring n).unread = first :: rest) (hpast : (s.ring n).modTime * 25 ≤ s.since first) :
    s.interrupt n = (s.setRing n { s.ring n with armed := false }).emit (.msix (s.ring n).vector) := by
  simp [State.interrupt, ha, hr, hpast]

/-- A message disarms the pair, or nothing changes. -/
theorem State.interrupt_ring (s : State) (n : Nat) : ∃ a, (s.interrupt n).ring n = { s.ring n with armed := a } := by
  unfold State.interrupt
  extract_lets r due
  split
  · exact ⟨false, State.ring_setRing_self ..⟩
  · exact ⟨r.armed, rfl⟩

/-- The pair after a record in its next entry (R325). -/
theorem State.putCompletion_ring (s : State) (n : Nat) (rec : W256) :
    let r := s.ring n
    let next := (r.cqTail + 1) % 2 ^ r.cqLog2
    ∃ a, (s.putCompletion n rec).ring n = { r with
      cqTail := next, phase := (if next = 0 then !r.phase else r.phase), unread := r.unread ++ [s.now], armed := a } := by
  intro r next
  obtain ⟨a, h⟩ := State.interrupt_ring ((s.setRing n _).emit _) n
  exact ⟨a, h.trans (by rw [State.ring_emit, State.ring_setRing_self])⟩

/-- The record is written to the pair's next entry, with its phase (R325). -/
theorem State.putCompletion_writes (s : State) (n : Nat) (rec : W256) :
    .hostWrite (s.ring n).tagPasid ((s.ring n).cqBase + BitVec.ofNat 64 ((s.ring n).cqTail * 32))
      (leBytes 32 (rec.toNat + putBits (b2n (s.ring n).phase) 63 63)) ∈ (s.putCompletion n rec).out := by
  unfold State.putCompletion
  extract_lets r _ r' bytes
  exact ((Answered.refl ((s.setRing n r').emit _)).interrupt n).sent _ (List.mem_append_right _ List.mem_cons_self)

/-! ## Final records (R327, R332) -/

/-- The state whose next completion entry takes a descriptor's final record: one fewer is open, its entries given back. -/
def State.completing (s : State) (n : Nat) (d : W512) : State :=
  (s.onRing n fun r => { r with open_ := r.open_ - 1 }).release n (dEntries d)

theorem State.completing_ring (s : State) (n : Nat) (d : W512) : (s.completing n d).ring n =
    { s.ring n with open_ := (s.ring n).open_ - 1, reserved := (s.ring n).reserved - dEntries d } := by
  simp [State.completing, State.release]

theorem Answered.completing {r s : State} (h : Answered r s) (n : Nat) (d : W512) : Answered r (s.completing n d) :=
  (h.setRing n _).release n _

/-- A final record of an enabled pair that is not left out (R327, R332). -/
theorem State.finish_of_enabled {d : W512} {status : Nat} (he : (s.ring n).enable = true)
    (hq : (dQuiet d && decide (status = 0)) = false) (res : List (Nat × Nat × Nat)) :
    s.finish n d status res = ((s.completing n d).putCompletion n (mkRecord (dTag d) true false 0 status res)).drain n := by
  have hen : ((s.completing n d).ring n).enable = true := by rw [State.completing_ring]; exact he
  unfold State.finish State.reservedRecord
  extract_lets u v
  rw [hq, if_neg Bool.false_ne_true]
  exact congrArg (State.drain · n) (if_pos hen)

/-- The one final record of an enabled pair with an empty backlog: where it is written, and what it leaves (R325, R327, R332). -/
theorem State.finish_settled {d : W512} (he : (s.ring n).enable = true) (hq : dQuiet d = false) (hb : (s.ring n).backlog = [])
    (hw : ∀ w ∈ s.waiting, w.what.closed = none) :
    (s.finish n d 0 []).settleCloses = (s.completing n d).putCompletion n (mkRecord (dTag d) true false 0 0 []) := by
  rw [State.finish_of_enabled he (by simp [hq])]
  refine State.settle_of_empty ?_ ?_
  · obtain ⟨a, h⟩ := (s.completing n d).putCompletion_ring n (mkRecord (dTag d) true false 0 0 [])
    rw [h, State.completing_ring]
    exact hb
  · obtain ⟨r, o, h⟩ := (s.completing n d).putCompletion_frame n (mkRecord (dTag d) true false 0 0 [])
    rw [h]
    exact hw

end Sys2Proof.Machine
end

section
/-! PROOF. Doorbells, descriptor reads, and the descriptor that asks for nothing (spec 13 R321 to R329, R332). -/

namespace Sys2Proof.Machine

variable {s : State} {n : Nat}

/-! ## Doorbells (R321, R322, R326) -/

section

variable (hu : s.hostUp = true) (hn : n < 8192) (he : (s.ring n).enable = true)

include hu hn he

theorem exec_sqTail (tail : BitVec 16) :
    exec (.sqTail n tail) s = .next (s.setRing n { s.ring n with sqTail := tail.toNat % 2 ^ (s.ring n).sqLog2, stopped := false }) := by
  show execSqTail n tail s = _
  exact act_of_true (by simp [hu, hn, he]) s _

theorem exec_moderationTimeout : exec (.moderationTimeout n) s = .next (s.interrupt n) := by
  show execModerationTimeout n s = _
  exact act_of_true (by simp [hu, hn, he]) s _

variable (hb : (s.ring n).backlog = []) (hw : ∀ w ∈ s.waiting, w.what.closed = none)

include hb hw

/-- A head alone consumes what it passes (R321). -/
theorem exec_cqHead (head : BitVec 20) : exec (.cqHead n false head) s = .next (s.setRing n ((s.ring n).consume head.toNat)) := by
  show execCqHead n false head s = _
  refine (act_of_true (by simp [hu, hn, he]) s _).trans (congrArg _ (State.settle_of_empty ?_ hw))
  simp [hb]

/-- A head that also arms the pair does so after it has consumed (R326). -/
theorem exec_cqHead_arm (head : BitVec 20) :
    exec (.cqHead n true head) s = .next ((s.setRing n ((s.ring n).consume head.toNat)).armRing n) := by
  show execCqHead n true head s = _
  refine (act_of_true (by simp [hu, hn, he]) s _).trans (congrArg _ (State.settle_of_empty ?_ ?_))
  · simp [hb]
  · rwa [if_pos rfl, State.armRing_waiting]

/-- With every record consumed, the pair is armed and waits for the next (R326). -/
theorem exec_cqHead_arms {head : BitVec 20} (hk : (s.ring n).passed head.toNat = (s.ring n).unread.length) :
    ∃ t : State, exec (.cqHead n true head) s = .next t ∧ (t.ring n).armed = true ∧ t.out = s.out := by
  have harm := exec_cqHead_arm hu hn he hb hw head
  rw [RingPair.consume_of_le hk.le] at harm
  refine ⟨_, harm, ?_⟩
  rw [State.armRing_of_empty (by simp [hk])]
  simp

/-- With a record left unconsumed, the message goes at once and the pair is disarmed (R326). -/
theorem exec_cqHead_sends {head : BitVec 20} (hk : (s.ring n).passed head.toNat < (s.ring n).unread.length) :
    ∃ t : State, exec (.cqHead n true head) s = .next t ∧ (t.ring n).armed = false ∧ .msix (s.ring n).vector ∈ t.out := by
  have harm := exec_cqHead_arm hu hn he hb hw head
  rw [RingPair.consume_of_le hk.le] at harm
  refine ⟨_, harm, ?_⟩
  rw [State.armRing_of_unread (by simpa using hk)]
  simp

end

/-! ## Descriptor reads (R322, R323, R328) -/

section

/-- A descriptor that cannot be accepted waits in the ring (R323). -/
theorem exec_descriptorRead_waits {d : W512} (ha : s.canAccept n d = false) : exec (.descriptorRead n (some d)) s = .next s := by
  show execDescriptorRead n (some d) s = _
  simp [execDescriptorRead, act, ha]

variable (hr : s.ringReads n = true)

include hr

/-- A failed read stops the ring (R322). -/
theorem exec_descriptorRead_failed : ∃ t : State, exec (.descriptorRead n none) s = .next t ∧
    t.ring n = { s.ring n with stopped := true } ∧ t.accepted = s.accepted ∧ t.mem = s.mem := by
  obtain ⟨x, o, h⟩ := State.note_frame (s.setRing n { s.ring n with stopped := true })
    { status := 0x0203, cls := 0, unit := 9, pos := 1, detail := n }
  have hread : exec (.descriptorRead n none) s = .next ((s.setRing n { s.ring n with stopped := true }).note
      { status := 0x0203, cls := 0, unit := 9, pos := 1, detail := n }) := by
    show execDescriptorRead n none s = _
    exact act_of_true hr s _
  refine ⟨_, hread, ?_⟩
  rw [h]
  exact ⟨State.ring_setRing_self .., rfl, rfl⟩

variable {d : W512} (ha : s.canAccept n d = true)

include ha

/-- A descriptor that fails a check is refused once its entries are reserved (R328). -/
theorem exec_descriptorRead_refuses {e : Nat × Nat} (hc : (s.accept n d).checkDesc n d = some e) :
    exec (.descriptorRead n (some d)) s = .next ((s.accept n d).refuse n d e.1 e.2) := by
  show execDescriptorRead n (some d) s = _
  simp [execDescriptorRead, act_of_true hr, ha, hc]

/-- A descriptor whose checks pass is accepted after those before it (R322, R324). -/
theorem exec_descriptorRead_accepts (hc : (s.accept n d).checkDesc n d = none) : exec (.descriptorRead n (some d)) s =
    .next { s.accept n d with accepted := s.accepted ++ [{ ring := n, desc := d }] } := by
  show execDescriptorRead n (some d) s = _
  simp [execDescriptorRead, act_of_true hr, ha, hc]
  rfl

end

/-- The pair once a descriptor is accepted: head and entries, with the head shadow written (R322, R323). -/
theorem State.accept_ring (s : State) (n : Nat) (d : W512) : (s.accept n d).ring n = { s.ring n with
    sqHead := ((s.ring n).sqHead + 1) % 2 ^ (s.ring n).sqLog2, reserved := (s.ring n).reserved + dEntries d
    open_ := (s.ring n).open_ + 1 } := by
  simp [State.accept]

/-! ## The oldest accepted descriptor (R328, R329, R332) -/

/-- Only a control of a long operation has to follow an earlier one (R324). -/
theorem State.controlBefore_of_opcode (s : State) (n : Nat) {d : W512} (hop : dOpcode d < 0x30) : s.controlBefore ⟨n, d⟩ = false := by
  simp [State.controlBefore, hop.not_ge]

/-- A row refuses the oldest accepted descriptor of its ring where a check now fails (R328). -/
theorem row_refuses {op : Nat} {d : W512} {e : Nat × Nat} {c : Instr} {f : W512 → State → State} (hl : s.live = true)
    (hfind : s.accepted.find? (fun a => a.ring = n) = some ⟨n, d⟩) (hctl : s.controlBefore ⟨n, d⟩ = false)
    (hcheck : ({ s with accepted := [] } : State).checkDesc n d = some e) (hc : exec c s = s.row n op anyDesc f) (hop : dOpcode d = op) :
    exec c s = .next ((s.actedOn n d).refuse n d e.1 e.2) := by
  unfold State.row at hc
  rw [hc, hfind]
  simp [hl, hop, anyDesc, hctl, hcheck, State.actedOn]

/-- A NOP asks for its record alone (R329). -/
theorem exec_nop : exec (.nop n) s = s.row n 0x00 anyDesc fun d s => s.finish n d 0 [] := rfl

theorem dEntries_nop {d : W512} (hop : dOpcode d = 0) : dEntries d = 1 := by
  simp [dEntries, dLong, hop]

/-- Settles O21: doorbells by their equations, a descriptor read by its checks, the oldest descriptor by its one final record. -/
theorem ringsTakeDescriptors : Obligations.RingsTakeDescriptors := by
  unfold Obligations.RingsTakeDescriptors
  intro s n hu hn he r
  refine ⟨exec_sqTail hu hn he, fun head hb hw => ?heads, fun ha => ?disarmed, fun ha first rest hunread hpast => ?times,
    fun hr => ⟨exec_descriptorRead_failed hr, fun d ha => exec_descriptorRead_waits ha, fun d ha =>
      ⟨fun e hc => exec_descriptorRead_refuses hr ha hc, fun hc => ?accepts⟩⟩,
    fun d hl hfind hop => ⟨fun e hcheck =>
      row_refuses hl hfind (s.controlBefore_of_opcode n (by omega)) hcheck exec_nop hop, fun hcheck hq hb hw => ?nop⟩⟩
  case heads =>
    intro k
    have hhead := exec_cqHead hu hn he hb hw head
    refine ⟨fun hk => ?_, fun hk => ?_, exec_cqHead_arms hu hn he hb hw, exec_cqHead_sends hu hn he hb hw⟩
    · rw [hhead, RingPair.consume_of_le hk]
      rfl
    · exact ⟨_, hhead, by rw [State.ring_setRing_self, RingPair.consume_of_gt hk]⟩
  case disarmed => rw [exec_moderationTimeout hu hn he, State.interrupt_of_disarmed ha]
  case times => rw [exec_moderationTimeout hu hn he, State.interrupt_of_time ha hunread hpast]
  case accepts =>
    exact ⟨_, exec_descriptorRead_accepts hr ha hc, rfl, s.accept_ring n d, List.mem_append_right _ List.mem_cons_self, rfl⟩
  case nop =>
    have hrow := (row_acts_turn hl hfind (s.controlBefore_of_opcode n (by omega)) hcheck exec_nop hop rfl).trans
      (congrArg Host.Outcome.next (State.finish_settled (s := s.actedOn n d) he hq hb hw))
    obtain ⟨a, hring⟩ := ((s.actedOn n d).completing n d).putCompletion_ring n (mkRecord (dTag d) true false 0 0 [])
    have hwrite := ((s.actedOn n d).completing n d).putCompletion_writes n (mkRecord (dTag d) true false 0 0 [])
    have hleft := ((Answered.refl (s.actedOn n d)).completing n d).putCompletion n (mkRecord (dTag d) true false 0 0 [])
    rw [State.completing_ring] at hring hwrite
    rw [dEntries_nop hop] at hring
    exact ⟨_, hrow, hleft.accepted, congrArg RingPair.cqTail hring, congrArg RingPair.open_ hring,
      congrArg RingPair.reserved hring, congrArg RingPair.phase hring, hwrite, hleft.mem, hleft.eng⟩

end Sys2Proof.Machine
end

section
/-! PROOF. The error log's selector, the head of the error ring, and errors that DBG_INJECT raises (spec 13 R321, R343, spec 14
R346, R363, R364, spec 20 R502). -/

namespace Sys2Proof.Machine

variable {s : State}

theorem bits_from_zero (v hi : Nat) : bits v hi 0 = v % 2 ^ (hi + 1) := by simp [bits]

/-! ## The error log and the error ring (R364) -/

/-- The records of the error ring that a head value passes (R321, R364). -/
def Err.passed (e : Err) (head : Nat) : Nat := (head % 2 ^ e.ringLog2 + 2 ^ e.ringLog2 - e.ringHead) % 2 ^ e.ringLog2

theorem Err.consume_of_le {e : Err} {head : Nat} (hk : e.passed head ≤ e.ringUsed) :
    e.consume head = { e with ringHead := head % 2 ^ e.ringLog2, ringUsed := e.ringUsed - e.passed head } := if_pos hk

theorem Err.consume_of_gt {e : Err} {head : Nat} (hk : e.ringUsed < e.passed head) : e.consume head = e := if_neg hk.not_ge

section

variable (hu : s.hostUp = true) (hb : s.blocked = none)

include hu hb

theorem exec_errLogSel (v : Word) :
    exec (.errLogSel v) s = .next (s.setErr { s.err with data := s.err.log.get 0 (v.toNat % 256) }) := by
  refine (act_of_true hu s _ : execErrLogSel v s = _).trans (congrArg _ ?_)
  rw [State.writeLogSel, State.regWrite_of_unblocked hb, bits_from_zero]
  rfl

/-- The head is read only of an enabled error ring (R364). -/
theorem exec_errRingHead (v : Word) : exec (.errRingHead v) s =
    .next (if s.err.ringEn then s.setErr (s.err.consume (v.toNat % 65536)) else s) := by
  refine (act_of_true hu s _ : execErrRingHead v s = _).trans (congrArg _ ?_)
  rw [State.writeErrHead, State.regWrite_of_unblocked hb, bits_from_zero]
  rfl

end

/-! ## Injected errors (R343, R363, R502) -/

/-- A debug register is LOCKED on a debug-locked part before its own refusals (R346, R363, R502). -/
theorem State.dbgWrite_of_unblocked (hb : s.blocked = none) (off : Nat) (state range : Bool) (f : State → State) :
    s.dbgWrite off state range f =
      if s.debugLock then s.refuseWrite 4 off else if state then s.refuseWrite 2 off else if range then s.refuseWrite 1 off else f s := by
  rw [State.dbgWrite, hb, State.regWrite_of_unblocked hb]
  rfl

theorem State.writeInject_locked (hb : s.blocked = none) (hlock : s.debugLock = true) (v : Word) :
    s.writeInject v = s.refuseWrite 4 0x1A0008 := by
  simp [State.writeInject, State.dbgWrite_of_unblocked hb, hlock]

theorem State.writeInject_inDomain (hb : s.blocked = none) (hlock : s.debugLock = false) (hd : s.disc.inDomain = true)
    (ht : s.dom.state ≠ .test) (v : Word) : s.writeInject v = s.refuseWrite 2 0x1A0008 := by
  simp [State.writeInject, State.dbgWrite_of_unblocked hb, hlock, hd, ht]

/-- The word of DBG_INJECT with GO, a kind, a unit and a position (R363). -/
def injectWord (kind unit pos : Nat) : Word := BitVec.ofNat 32 (2 ^ 31 + kind * 2 ^ 24 + unit * 2 ^ 20 + pos)

section

variable {kind unit pos : Nat} (hk : kind < 16) (hu : unit < 16) (hp : pos < 65536)

include hk hu hp

theorem injectWord_toNat : (injectWord kind unit pos).toNat = 2 ^ 31 + kind * 2 ^ 24 + unit * 2 ^ 20 + pos := by
  rw [injectWord, BitVec.toNat_ofNat]
  omega

theorem injectWord_go : (injectWord kind unit pos).getLsbD 31 = true := by
  rw [BitVec.getLsbD, injectWord_toNat hk hu hp, Nat.testBit_eq_decide_div_mod_eq]
  simp only [decide_eq_true_eq]
  omega

theorem injectWord_fields : bits (injectWord kind unit pos).toNat 27 24 = kind ∧ bits (injectWord kind unit pos).toNat 23 20 = unit ∧
    bits (injectWord kind unit pos).toNat 15 0 = pos := by
  rw [injectWord_toNat hk hu hp]
  simp only [bits]
  omega

end

/-- A kind and unit that R363 lists: RANGE for a position beyond the unit's, else the error (R343, R363). -/
theorem State.writeInject_of_allowed {kind unit pos : Nat} (hb : s.blocked = none) (hlock : s.debugLock = false)
    (ht : s.disc.inDomain = false ∨ s.dom.state = .test) (hk : 1 ≤ kind ∧ kind ≤ 3) (hu : unit ≤ 4) (hp : pos < 65536) :
    s.writeInject (injectWord kind unit pos) =
      if s.injectTop unit ≤ pos then s.refuseWrite 1 0x1A0008 else s.inject kind unit pos := by
  have hstate : (s.disc.inDomain && s.dom.state != .test) = false := by rcases ht with h | h <;> simp [h]
  obtain ⟨hkind, hunit, hpos⟩ := injectWord_fields (pos := pos) (show kind < 16 by omega) (show unit < 16 by omega) hp
  have hgo := injectWord_go (pos := pos) (show kind < 16 by omega) (show unit < 16 by omega) hp
  rw [State.writeInject, hkind, hunit, hpos, hgo, hstate]
  simp [State.dbgWrite_of_unblocked hb, hlock, hk, hu.not_gt]

theorem exec_dbgInject (hu : s.hostUp = true) (v : Word) : exec (.dbgInject v) s = .next (s.writeInject v) :=
  (act_of_true hu s _ : execDbgInject v s = _)

/-- A corrected error on an HBM channel is a corrected read of it (R343). -/
theorem State.inject_correctedRead (s : State) (p : Nat) :
    s.inject 1 2 p = s.corrected { status := 0x0427, cls := 0, unit := 3, pos := p } (s.unitSeqs 2 0 p) := rfl

/-- A fatal error on a link is its loss (R343). -/
theorem State.inject_linkLoss (s : State) (p : Nat) :
    s.inject 3 3 p = s.raise { status := 0x0310, cls := 2, unit := 4, die := linkDie p, pos := p } := rfl

theorem Part.channels_le (p : Part) : p.channels ≤ 512 := by
  unfold Part.channels Part.stacks
  split
  · decide
  · split <;> decide

theorem Part.links_le (p : Part) : p.links ≤ 72 := by
  unfold Part.links
  split <;> decide

/-- Settles O17: the log and the ring by their equations, DBG_INJECT by the first refusal that holds. -/
theorem errorsAreReadAndInjected : Obligations.ErrorsAreReadAndInjected := by
  unfold Obligations.ErrorsAreReadAndInjected
  refine ⟨fun s v hu hr hh hl => ?log, fun s hu hr hh hl => ?inject⟩
  all_goals have hb := State.blocked_eq_none hr hh hl
  case log =>
    have hhead := exec_errRingHead hu hb v
    refine ⟨exec_errLogSel hu hb v, fun hen => ?_, fun hen => ⟨fun hk => ?_, fun hk => ?_⟩⟩ <;> rw [hhead, hen]
    · rfl
    · exact congrArg (fun e => Host.Outcome.next (s.setErr e)) (Err.consume_of_le hk)
    · exact congrArg (fun e => Host.Outcome.next (s.setErr e)) (Err.consume_of_gt hk)
  case inject =>
    intro no
    have hinject := exec_dbgInject hu
    refine ⟨fun hlock ht => ⟨fun p hp => ?channel, fun p hp => ?link, fun p hp hw => ?beyond⟩,
      fun hlock hd ht v => ?inDomain, fun hlock v => ?locked⟩
    case channel =>
      have hw := State.writeInject_of_allowed hb hlock ht (kind := 1) (unit := 2) (by decide) (by decide)
        (hp.trans_le (s.part.channels_le.trans (by decide)))
      rw [if_neg (by exact hp.not_ge), State.inject_correctedRead] at hw
      exact (hinject _).trans (congrArg _ hw)
    case link =>
      have hw := State.writeInject_of_allowed hb hlock ht (kind := 3) (unit := 3) (by decide) (by decide)
        (hp.trans_le (s.part.links_le.trans (by decide)))
      rw [if_neg (by exact hp.not_ge), State.inject_linkLoss] at hw
      exact (hinject _).trans (congrArg _ hw)
    case beyond =>
      have hw := State.writeInject_of_allowed hb hlock ht (kind := 3) (unit := 3) (by decide) (by decide) hw
      rw [if_pos (by exact hp)] at hw
      exact (hinject _).trans (congrArg _ hw)
    case inDomain => exact (hinject v).trans (congrArg _ (State.writeInject_inDomain hb hlock hd ht v))
    case locked => exact (hinject v).trans (congrArg _ (State.writeInject_locked hb hlock v))

end Sys2Proof.Machine
end

section
/-! PROOF. SPDM requests in clear: negotiation in its order, chunks of large messages, and DOE discovery (spec 13 R316, spec 20
R504). -/

namespace Sys2Proof.Machine

variable {s : State}

/-! ## Requests in their place (R504) -/

/-- A response of at most 4,096 bytes goes out whole. -/
theorem State.respond_of_short (q : SpdmReq) (code p1 p2 : Nat) {body : List Byte} (h : body.length ≤ 4096) :
    s.respond q code p1 p2 body = s.emit (.spdm q.session code p1 p2 body) := if_pos h

section

variable {q : SpdmReq} (hr : s.responder = true) (hq : q.session = none) {step : Nat} {f : State → State}

include hr hq

/-- A request in clear in its place is answered (R504). -/
theorem State.spdm_in_clear (hs : step ≤ s.sec.spdmStep) : s.spdm q step f = .next (f s) := by
  simp [State.spdm, act, hr, State.sessionOk, hq, hs.not_gt]

/-- A request in clear ahead of its place is answered UnexpectedRequest (R504). -/
theorem State.spdm_ahead (hs : s.sec.spdmStep < step) : s.spdm q step f = .next (s.emit (.spdm none 0x7F 0x04 0 [])) := by
  simp [State.spdm, act, hr, State.sessionOk, hq, hs, State.spdmError, eUnexpected]

end

/-! ## Negotiation (R504) -/

section

variable {q : SpdmReq} (hr : s.responder = true) (hq : q.session = none)

include hr hq

theorem exec_getVersion : exec (.getVersion q) s = .next { s with
    sec := { s.sec with spdmStep := 1, session := none, ideKeys := [], ideSecure := false, chunkIn := none, chunkOut := none }
    out := s.out ++ [.spdm none 0x04 0 0 [0x00, 0x01, 0x00, 0x13]] } := by
  refine (State.spdm_in_clear hr hq (Nat.zero_le _) : execGetVersion q s = _).trans (congrArg _ ?_)
  rw [State.respond_of_short _ _ _ _ (by decide), hq]
  rfl

theorem exec_getCapabilities (hs : 1 ≤ s.sec.spdmStep) : exec (.getCapabilities q) s = .next
    (({ s with sec := { s.sec with spdmStep := max 2 s.sec.spdmStep } } : State).respond q 0x61 0 0 (Config.spdmBody 0x61 q.body)) :=
  (State.spdm_in_clear hr hq hs : execGetCapabilities q s = _)

/-- A requester that selects an algorithm for each use, the last its own choice, is agreed with (R504). -/
theorem exec_negotiateAlgorithms (hs : 2 ≤ s.sec.spdmStep) {k : Nat} (hk : k ≠ 0) :
    exec (.negotiateAlgorithms q [1, 2, 3, k]) s = .next (({ s with sec := { s.sec with spdmStep := 3 } } : State).respond q 0x63 0 0 (Config.spdmBody 0x63 q.body)) := by
  refine (State.spdm_in_clear hr hq hs : execNegotiateAlgorithms q [1, 2, 3, k] s = _).trans (congrArg _ ?_)
  exact if_pos (by simp [hk])

/-- A requester that selects none for a use ends the negotiation (R504). -/
theorem exec_negotiateAlgorithms_none (hs : 2 ≤ s.sec.spdmStep) : exec (.negotiateAlgorithms q [0, 2, 3, 1]) s = .next { s with
    sec := { s.sec with spdmStep := 0 }, out := s.out ++ [.spdm none 0x7F 0x01 0 []] } := by
  refine (State.spdm_in_clear hr hq hs : execNegotiateAlgorithms q [0, 2, 3, 1] s = _).trans (congrArg _ ?_)
  rw [← hq]
  rfl

theorem exec_spdmUnsupportedRequest {code : Nat} (hc : code < 256) :
    exec (.spdmUnsupportedRequest q code) s = .next (s.emit (.spdm none 0x7F 0x07 code [])) := by
  refine (State.spdm_in_clear hr hq (Nat.zero_le _) : execSpdmUnsupportedRequest q code s = _).trans (congrArg _ ?_)
  rw [← hq, Nat.mod_eq_of_lt hc]
  rfl

/-! ## Chunks (R504; notes/assumptions/109.md) -/

variable (hs : 3 ≤ s.sec.spdmStep)

include hs

/-- The first chunk of a large request. -/
theorem exec_chunkSend_first (hin : s.sec.chunkIn = none) (h : Nat) : exec (.chunkSend q h 0 false 0) s = .next
    (({ s with sec := { s.sec with chunkIn := some (h, 1, q.body) } } : State).respond q 0x05 0 h [0, 0]) := by
  refine (State.spdm_in_clear hr hq hs : execChunkSend q h 0 false 0 s = _).trans (congrArg _ ?_)
  rw [hin]
  rfl

section

variable {h n : Nat} {b : List Byte} (hin : s.sec.chunkIn = some (h, n, b))

include hin

/-- A further chunk that is not the last. -/
theorem exec_chunkSend_next (total : Nat) : exec (.chunkSend q h n false total) s = .next
    (({ s with sec := { s.sec with chunkIn := some (h, n + 1, b ++ q.body) } } : State).respond q 0x05 0 h (leBytes 2 n)) := by
  refine (State.spdm_in_clear hr hq hs : execChunkSend q h n false total s = _).trans (congrArg _ ?_)
  rw [hin]
  dsimp only
  rw [if_pos (by simp)]
  rfl

/-- The last chunk, with the length that the requester gave. -/
theorem exec_chunkSend_last : exec (.chunkSend q h n true (b ++ q.body).length) s = .next
    (({ s with sec := { s.sec with chunkIn := none } } : State).respond q 0x05 0 h
      (leBytes 2 n ++ Config.spdmBody 0x05 (b ++ q.body))) := by
  refine (State.spdm_in_clear hr hq hs : execChunkSend q h n true (b ++ q.body).length s = _).trans (congrArg _ ?_)
  rw [hin]
  dsimp only
  rw [if_pos (by simp)]
  dsimp only
  rw [if_pos rfl, if_pos rfl]
  rfl

/-- A chunk out of its order drops those before it. -/
theorem exec_chunkSend_misplaced {k : Nat} (hk : k ≠ n) (last : Bool) (total : Nat) :
    exec (.chunkSend q h k last total) s = .next { s with
      sec := { s.sec with chunkIn := none }, out := s.out ++ [.spdm none 0x7F 0x01 0 []] } := by
  refine (State.spdm_in_clear hr hq hs : execChunkSend q h k last total s = _).trans (congrArg _ ?_)
  rw [hin, ← hq]
  dsimp only
  rw [if_neg (by simp [hk.symm])]
  rfl

end

section

variable {code n : Nat} {b : List Byte} (hout : s.sec.chunkOut = some (code, n, b)) (h : Nat)

include hout

/-- The next part of a large response. -/
theorem exec_chunkGet : exec (.chunkGet q h n) s = .next { s with
    sec := { s.sec with chunkOut := if b.length ≤ 4084 then none else some (code, n + 1, b.drop 4084) }
    out := s.out ++ [.spdm none 0x06 (if b.length ≤ 4084 then 1 else 0) h
      (leBytes 2 n ++ [0, 0] ++ leBytes 4 (min 4084 b.length) ++ b.take 4084)] } := by
  refine (State.spdm_in_clear hr hq hs : execChunkGet q h n s = _).trans (congrArg _ ?_)
  rw [hout, ← hq]
  have hrest : (b.drop 4084).isEmpty = decide (b.length ≤ 4084) := by
    rw [Bool.eq_iff_iff, List.isEmpty_iff, List.drop_eq_nil_iff, decide_eq_true_iff]
  simp only [bne_self_eq_false, Bool.false_eq_true, if_false, hrest, b2n, decide_eq_true_eq, List.length_take]
  rfl

theorem exec_chunkGet_misplaced {k : Nat} (hk : k ≠ n) :
    exec (.chunkGet q h k) s = .next (s.emit (.spdm none 0x7F 0x01 0 [])) := by
  refine (State.spdm_in_clear hr hq hs : execChunkGet q h k s = _).trans (congrArg _ ?_)
  rw [hout, ← hq]
  exact if_pos (by simp [hk.symm])

end

end

/-! ## DOE discovery (R316) -/

/-- The protocol of a discovery index: vendor 0x0001 and the index that follows, 0 after the last. -/
theorem exec_doeDiscovery (hu : s.hostUp = true) {i : Nat} (hi : i < 3) :
    exec (.doeDiscovery i) s = .next (s.emit (.doe [0x01, 0x00, BitVec.ofNat 8 i, BitVec.ofNat 8 ((i + 1) % 3)])) := by
  refine (act_of_true hu s _ : execDoeDiscovery i s = _).trans (congrArg _ ?_)
  interval_cases i <;> rfl

/-- An index past the last names no protocol. -/
theorem exec_doeDiscovery_past (hu : s.hostUp = true) {i : Nat} (hi : 3 ≤ i) :
    exec (.doeDiscovery i) s = .next (s.emit (.doe [0xFF, 0xFF, 0x00, 0x00])) := by
  refine (act_of_true hu s _ : execDoeDiscovery i s = _).trans (congrArg _ ?_)
  rw [if_neg hi.not_gt]
  rfl

/-- Settles O50: a request in its place by its equation, one ahead of its place by `State.spdm_ahead`. -/
theorem spdmNegotiatesAndChunks : Obligations.SpdmNegotiatesAndChunks := by
  unfold Obligations.SpdmNegotiatesAndChunks
  refine ⟨fun s q hr hq => ?negotiates, fun s q h hr hq hs => ?chunks⟩
  case negotiates =>
    intro error
    have hahead {step : Nat} {f : State → State} (hs : s.sec.spdmStep < step) : s.spdm q step f = .next (error 0x04 0) :=
      State.spdm_ahead hr hq hs
    exact ⟨exec_getVersion hr hq, exec_getCapabilities hr hq, fun hs => (hahead hs : execGetCapabilities q s = _),
      fun hs => ⟨fun k => exec_negotiateAlgorithms hr hq hs, exec_negotiateAlgorithms_none hr hq hs⟩,
      fun hs sel => (hahead hs : execNegotiateAlgorithms q sel s = _),
      fun hs => ⟨(hahead hs : execGetDigests q s = _), (hahead hs : execKeyExchange q s = _), (hahead hs : execFinish q s = _)⟩,
      fun code => exec_spdmUnsupportedRequest hr hq,
      fun body code p1 p2 hlen => (s.respond_of_short q code p1 p2 hlen).trans (by rw [hq]; rfl)⟩
  case chunks =>
    exact ⟨fun hin => exec_chunkSend_first hr hq hs hin h,
      fun n b hin => ⟨exec_chunkSend_next hr hq hs hin, exec_chunkSend_last hr hq hs hin,
        fun k last total hk => exec_chunkSend_misplaced hr hq hs hin hk last total⟩,
      fun code n b hout => ⟨exec_chunkGet hr hq hs hout h, fun k => exec_chunkGet_misplaced hr hq hs hout h⟩,
      fun hu => ⟨exec_doeDiscovery hu (i := 0) (by decide), exec_doeDiscovery hu (i := 1) (by decide),
        exec_doeDiscovery hu (i := 2) (by decide), fun i => exec_doeDiscovery_past hu⟩⟩

end Sys2Proof.Machine
end

section
/-! PROOF. The first reason of a refusal, and writes of the 64-bit base of a ring pair's submission queue (spec 14 R344, R346,
R350). -/

namespace Sys2Proof.Machine

variable {s : State} {n : Nat}

theorem act_of_false {c : Bool} (hc : c = false) (s : State) (f : State → State) : act c s f = .next s := by
  simp [act, hc]

/-- MGMT comes before LOCKED, and both before a register's own reasons (R346). -/
theorem State.regWrite_eq (s : State) (off : Nat) (state busy range : Bool) (f : State → State) :
    s.regWrite off state busy range f =
      if s.start.mgmtReset || s.start.mgmtHeld then s.refuseWrite 5 off else if s.sec.locked then s.refuseWrite 4 off
      else if state then s.refuseWrite 2 off else if busy then s.refuseWrite 3 off else if range then s.refuseWrite 1 off else f s := by
  unfold State.regWrite State.blocked
  split_ifs <;> rfl

/-- Settles O11: the order of the reasons is that of `State.regWrite_eq`. -/
theorem refusalsComeInOrder : Obligations.RefusalsComeInOrder := by
  unfold Obligations.RefusalsComeInOrder
  exact State.regWrite_eq

/-! ## SQ_BASE of a pair -/

/-- BAR0 offset of SQ_BASE of a pair (R350). -/
def sqBaseOff (n : Nat) : Nat := 0x10000 + n * 0x40 + 0x08

/-- Both words of SQ_BASE lie on the pair's registers, in its 64-bit register at 0x08. -/
theorem sqBaseOff_word {off : Nat} (h : off = sqBaseOff n ∨ off = sqBaseOff n + 4) :
    0x10000 ≤ off ∧ (off - 0x10000) / 0x40 = n ∧ 0x08 ≤ (off - 0x10000) % 0x40 ∧ (off - 0x10000) % 0x40 < 0x10 ∧
      0x10000 + (off - 0x10000) / 8 * 8 = sqBaseOff n := by
  unfold sqBaseOff at h ⊢
  omega

theorem sqBaseOff_add_lt (hn : n < 8192) {k : Nat} (hk : k ≤ 4) : sqBaseOff n + k < 0x90000 := by
  unfold sqBaseOff
  omega

section Words

variable {off : Nat} (hn : n < 8192) (h : off = sqBaseOff n ∨ off = sqBaseOff n + 4)

include hn h

theorem sqBaseOff_lt : off < 0x90000 := by
  obtain rfl | rfl := h
  · exact sqBaseOff_add_lt hn (Nat.zero_le 4)
  · exact sqBaseOff_add_lt hn le_rfl

/-- SQ_BASE is one register of two words (R350). -/
theorem State.regAt_sqBase (s : State) : s.regAt off = ⟨sqBaseOff n, 2, (s.ring n).sqBase.toNat⟩ := by
  obtain ⟨hlow, hpair, ho, ho', hbase⟩ := sqBaseOff_word h
  have hring : s.regAt off = s.ringReg off := by
    rw [State.regAt, if_neg (by omega), if_pos (by simpa [hlow] using sqBaseOff_lt hn h)]
  rw [hring, State.ringReg]
  rw [hpair, if_neg (by omega), if_neg (by omega), if_pos (by simp [ho, ho']), rWide, hbase]

/-- A write of a word of SQ_BASE, or of it whole, is a write of a 64-bit register that an enabled pair refuses (R346, R350). -/
theorem State.writeOne_sqBase (hb : s.blocked = none) (size : Nat) (v : DWord) : s.writeOne off size v =
    s.write64 off size v false (s.ring n).enable (fun _ => false) fun b s => s.onRing n fun r => { r with sqBase := b } := by
  obtain ⟨hlow, hpair, ho, ho', -⟩ := sqBaseOff_word h
  have hring : s.writeOne off size v = s.writeRing off size v := by
    have hlt := sqBaseOff_lt hn h
    have halarm : off ≠ 0x180004 := by omega
    have hhif : ¬ off < 0x1000 := by omega
    simp [State.writeOne, hb, halarm, hhif, hlow, hlt]
  rw [hring, State.writeRing]
  rw [hpair, if_neg (by omega), if_neg (by omega), if_pos (by simp [ho, ho'])]

end Words

section Writes

variable (hn : n < 8192) (hb : s.blocked = none)

include hn hb

/-- Whole: it takes effect at once and discards a staged low word, unless the pair is enabled (R344, R346). -/
theorem State.writeOne_sqBase_whole (v : DWord) : s.writeOne (sqBaseOff n) 8 v =
    if (s.ring n).enable then s.refuseWrite 3 (sqBaseOff n)
    else (s.onRing n fun r => { r with sqBase := v }).unstage (sqBaseOff n) := by
  rw [State.writeOne_sqBase hn (.inl rfl) hb, State.write64]
  dsimp only
  rw [if_pos rfl, State.regWrite_of_unblocked hb, State.regAt_sqBase hn (.inl rfl)]
  rfl

variable (he : (s.ring n).enable = false)

include he

/-- The low word of a pair not enabled is staged (R344). -/
theorem State.writeOne_sqBase_low (v : DWord) :
    s.writeOne (sqBaseOff n) 4 v = s.stage (sqBaseOff n) (v.setWidth 32) := by
  rw [State.writeOne_sqBase hn (.inl rfl) hb, State.write64, State.regAt_sqBase hn (.inl rfl), he]
  dsimp only
  rw [if_neg (by decide), if_pos rfl, State.regWrite_of_unblocked hb]
  rfl

/-- The high word applies both, the low one as it was staged (R344). -/
theorem State.writeOne_sqBase_high {low : Word} (hs : s.hif.staged.find? (sqBaseOff n) = some low) (v : DWord) :
    s.writeOne (sqBaseOff n + 4) 4 v = (s.onRing n fun r =>
      { r with sqBase := BitVec.ofNat 64 (low.toNat + v.toNat % 2 ^ 32 * 2 ^ 32) }).unstage (sqBaseOff n) := by
  rw [State.writeOne_sqBase hn (.inr rfl) hb, State.write64, State.regAt_sqBase hn (.inr rfl), he]
  dsimp only
  rw [if_neg (by decide), if_neg (by omega), hs, State.regWrite_of_unblocked hb]
  rfl

end Writes

/-- A write of a 64-bit register, aligned and whole, is one write (R344). -/
theorem exec_registerWrite_sqBase_whole (hu : s.hostUp = true) (hn : n < 8192) (v : DWord) :
    exec (.registerWrite (sqBaseOff n) 8 v) s = .next (s.writeOne (sqBaseOff n) 8 v) := by
  have ho : sqBaseOff n < 0x1000000 := (sqBaseOff_add_lt hn (Nat.zero_le 4)).trans (by decide)
  have hgood : badAccess (sqBaseOff n) 8 = false := by
    have : sqBaseOff n % 8 = 0 := by unfold sqBaseOff; omega
    simp [badAccess, this]
  have hwrite : s.barWrite (sqBaseOff n) 8 v = s.writeOne (sqBaseOff n) 8 v := by
    simp [State.barWrite, hgood, State.regAt_sqBase hn (.inl rfl)]
  rw [← hwrite]
  exact (act_of_true (by simp [hu, ho]) s _ : execRegisterWrite (sqBaseOff n) 8 v s = _)

/-- A write of one word of SQ_BASE. -/
theorem exec_registerWrite_sqBase_word (hu : s.hostUp = true) (hn : n < 8192) {k : Nat} (hk : k = 0 ∨ k = 4) (v : DWord) :
    exec (.registerWrite (sqBaseOff n + k) 4 v) s = .next (s.writeOne (sqBaseOff n + k) 4 v) :=
  exec_registerWrite_word hu ((sqBaseOff_add_lt hn (by omega)).trans (by decide)) (by unfold sqBaseOff; omega) v

@[simp] theorem State.ring_unstage (s : State) (off k : Nat) : (s.unstage off).ring k = s.ring k := rfl
@[simp] theorem State.ring_stage (s : State) (off : Nat) (v : Word) (k : Nat) : (s.stage off v).ring k = s.ring k := rfl

/-- Settles O13: a write of SQ_BASE whole by its equation, in two words by the staged low one. -/
theorem wideRegistersAreStaged : Obligations.WideRegistersAreStaged := by
  unfold Obligations.WideRegistersAreStaged
  intro s n hu hn hr hh hl off
  have hb : s.blocked = none := State.blocked_eq_none hr hh hl
  refine ⟨fun he => ⟨fun v => ?whole, fun lo hi => ?staged⟩, fun he v => ?busy⟩
  case whole =>
    refine ⟨_, (exec_registerWrite_sqBase_whole hu hn v).trans (congrArg _ (State.writeOne_sqBase_whole hn hb v)), ?_⟩
    rw [he, if_neg Bool.false_ne_true]
    exact ⟨by rw [State.ring_unstage, State.ring_onRing_self], rfl⟩
  case staged =>
    have hlow : exec (.registerWrite off 4 lo) s = .next (s.stage off (lo.setWidth 32)) :=
      (exec_registerWrite_sqBase_word hu hn (.inl rfl) lo).trans (congrArg _ (State.writeOne_sqBase_low hn hb he lo))
    have hstaged : (s.stage off (lo.setWidth 32)).hif.staged.find? (sqBaseOff n) = some (lo.setWidth 32) :=
      Tab.find?_set_self ..
    have hhigh : exec (.registerWrite (off + 4) 4 hi) (s.stage off (lo.setWidth 32)) = _ :=
      (exec_registerWrite_sqBase_word (s := s.stage off (lo.setWidth 32)) hu hn (.inr rfl) hi).trans
        (congrArg _ (State.writeOne_sqBase_high (s := s.stage off (lo.setWidth 32)) hn hb he hstaged hi))
    refine ⟨_, _, hlow, rfl, hhigh, ?_, rfl, fun k hk => ?_⟩
    · rw [State.ring_unstage, State.ring_onRing_self, State.ring_stage, BitVec.toNat_setWidth]
    · rw [State.ring_unstage, State.ring_onRing_ne _ _ hk, State.ring_stage]
  case busy =>
    refine ⟨_, (exec_registerWrite_sqBase_whole hu hn v).trans (congrArg _ (State.writeOne_sqBase_whole hn hb v)), ?_⟩
    rw [he, if_pos rfl]
    exact ⟨rfl, rfl, rfl, rfl⟩

end Sys2Proof.Machine
end

section
/-! PROOF. The kettle's limits: caps and the limit in force, voltage steps, droop holds, the brake and the thermal limit (spec 14
R361, spec 19 R470 to R479, spec 21 R530). -/

namespace Sys2Proof.Machine

variable {s : State}

/-! ## The lowest source (R361) -/

/-- The fold over the sources keeps the first of the lowest of those it has seen. -/
theorem foldl_lowest (t : List (Nat × Nat)) : ∀ a : Nat × Nat, (∀ x ∈ t, a.2 ≤ x.2) → t.Pairwise (·.2 ≤ ·.2) →
    let m := t.foldl (fun m x => if x.1 < m.1 then x else m) a
    m ∈ a :: t ∧ ∀ x ∈ a :: t, m.1 < x.1 ∨ (m.1 = x.1 ∧ m.2 ≤ x.2) := by
  induction t with
  | nil => simp
  | cons b t ih =>
    intro a ha ht
    obtain ⟨hb, ht⟩ := List.pairwise_cons.1 ht
    have hab : a.2 ≤ b.2 := ha b (List.mem_cons_self ..)
    rw [List.foldl_cons]
    split_ifs with hlt
    · obtain ⟨hmem, hle⟩ := ih b hb ht
      refine ⟨List.mem_cons_of_mem _ hmem, fun x hx => ?_⟩
      rcases List.mem_cons.1 hx with rfl | hx
      · have := hle b (List.mem_cons_self ..)
        omega
      · exact hle x hx
    · obtain ⟨hmem, hle⟩ := ih a (fun x hx => ha x (List.mem_cons_of_mem _ hx)) ht
      refine ⟨?_, fun x hx => ?_⟩
      · rcases List.mem_cons.1 hmem with h | h
        · simp [h]
        · exact List.mem_cons_of_mem _ (List.mem_cons_of_mem _ h)
      · have hfirst := hle a (List.mem_cons_self ..)
        rcases List.mem_cons.1 hx with rfl | hx
        · exact hfirst
        · rcases List.mem_cons.1 hx with rfl | hx
          · omega
          · exact hle x (List.mem_cons_of_mem _ hx)

/-- Of sources in the order of their codes, the lowest, and on a tie the lowest code (R361). -/
theorem lowestSource_of_sorted {l : List (Nat × Nat)} (hne : l ≠ []) (hl : l.Pairwise (·.2 ≤ ·.2)) :
    lowestSource l ∈ l ∧ ∀ x ∈ l, (lowestSource l).1 < x.1 ∨ ((lowestSource l).1 = x.1 ∧ (lowestSource l).2 ≤ x.2) := by
  cases l with
  | nil => exact absurd rfl hne
  | cons a t =>
    obtain ⟨ha, ht⟩ := List.pairwise_cons.1 hl
    exact foldl_lowest t a ha ht

/-- The sources of the limit in force stand in the order of their codes. -/
theorem State.lowest_limitSources (s : State) : lowestSource s.limitSources ∈ s.limitSources ∧ ∀ x ∈ s.limitSources,
    (lowestSource s.limitSources).1 < x.1 ∨ ((lowestSource s.limitSources).1 = x.1 ∧ (lowestSource s.limitSources).2 ≤ x.2) := by
  refine lowestSource_of_sorted (by simp [State.limitSources]) ?_
  unfold State.limitSources
  cases s.pwr.brake <;> simp

/-! ## The limit follows its sources (R361, R473) -/

/-- The power block once the limit follows its sources: the limit and its source, the enforced limit and the two flags change. -/
theorem State.relimit_pwr (s : State) : s.relimit.pwr = { s.pwr with
    limit := (lowestSource s.limitSources).1
    source := (lowestSource s.limitSources).2
    enforced := min (if s.pwr.brake then min s.pwr.enforced 1200 else s.pwr.enforced) s.pwr.thermalLimit
    capLag := s.pwr.capLag && decide ((lowestSource s.limitSources).1 <
      min (if s.pwr.brake then min s.pwr.enforced 1200 else s.pwr.enforced) s.pwr.thermalLimit)
    thermal := decide (s.pwr.thermalLimit < s.variantMax) } := rfl

/-- No source lies below the limit in force. -/
theorem State.relimit_limit_le {x : Nat × Nat} (hx : x ∈ s.limitSources) : s.relimit.pwr.limit ≤ x.1 := by
  rcases s.lowest_limitSources.2 x hx with h | h
  · exact h.le
  · exact h.1.le

theorem State.relimit_limit_le_thermalLimit (s : State) : s.relimit.pwr.limit ≤ s.pwr.thermalLimit :=
  State.relimit_limit_le (x := (s.pwr.thermalLimit, 3)) (by simp [State.limitSources])

/-- While BRAKE is 1 the limit and the enforced limit stay at or below the brake floor (R477). -/
theorem State.relimit_braked (hb : s.pwr.brake = true) : s.relimit.pwr.limit ≤ 1200 ∧ s.relimit.pwr.enforced ≤ 1200 := by
  refine ⟨State.relimit_limit_le (x := (brakeFloor, 2)) (by simp [State.limitSources, hb]), ?_⟩
  rw [State.relimit_pwr, hb, if_pos rfl]
  exact (Nat.min_le_left ..).trans (Nat.min_le_right ..)

/-! ## Caps (R361) -/

/-- A power block with a cap stored from either source. -/
def Power.capped (p : Power) (host rack : Nat) (low : Bool) : Power := { p with cap := host, rackCap := rack, clamped := p.clamped || low }

/-- A record that a condition asks for changes at most the error block and what is sent. -/
theorem State.noteIf_frame (c : Prop) [Decidable c] (s : State) (e : ErrIn) :
    ∃ x o, (if c then s.note e else s) = { s with err := x, out := o } := by
  split
  · exact State.note_frame s e
  · exact ⟨s.err, s.out, rfl⟩

/-- A record at most follows a cap that is stored. -/
theorem State.storeCap_frame (s : State) (w : Nat) (put : Power → Nat → Power) : ∃ x o, s.storeCap w put =
    { (s.setPwr { put s.pwr (max w 1000) with clamped := s.pwr.clamped || decide (w < 1000) }).relimit with err := x, out := o } :=
  State.noteIf_frame ..

/-- The caps as stored, and the limit in force with its source, the lowest of them all. -/
theorem State.capped_relimit {t : State} {host rack : Nat} {low : Bool} (ht : t.pwr = (s.setPwr (s.pwr.capped host rack low)).relimit.pwr) :
    t.pwr.cap = host ∧ t.pwr.rackCap = rack ∧ t.pwr.clamped = (s.pwr.clamped || low) ∧
      (let sources := [(host, 0), (rack, 1)] ++ (if s.pwr.brake then [(1200, 2)] else []) ++ [(s.pwr.thermalLimit, 3), (s.variantMax, 4)]
       (t.pwr.limit, t.pwr.source) ∈ sources ∧
       ∀ x ∈ sources, t.pwr.limit < x.1 ∨ (t.pwr.limit = x.1 ∧ t.pwr.source ≤ x.2)) := by
  rw [ht]
  exact ⟨rfl, rfl, rfl, State.lowest_limitSources (s.setPwr (s.pwr.capped host rack low))⟩

theorem exec_pwrCapWrite (hu : s.hostUp = true) (hb : s.blocked = none) (v : Word) : exec (.pwrCapWrite v) s =
    .next (s.storeCap (v.toNat % 65536) fun p w => { p with cap := w }) := by
  refine (act_of_true hu s _ : execPwrCapWrite v s = _).trans (congrArg _ ?_)
  rw [State.writeCap, State.regWrite_of_unblocked hb, bits_from_zero]
  rfl

theorem exec_rackCap (hu : s.sideUp = true) (hl : s.sec.locked = false) {v : Word} (hv : v.toNat < 65536) : exec (.rackCap 0 v) s =
    .next ((s.storeCap v.toNat fun p w => { p with rackCap := w }).emit (.sideband 0 [])) := by
  have hhigh : bits v.toNat 31 16 = 0 := by rw [bits, Nat.div_eq_of_lt (b := 2 ^ 16) hv, Nat.zero_mod]
  have hlow : bits v.toNat 15 0 = v.toNat := by rw [bits_from_zero, Nat.mod_eq_of_lt (b := 2 ^ 16) hv]
  refine (act_of_true hu s _ : execRackCap 0 v s = _).trans (congrArg _ ?_)
  rw [hl, hhigh, hlow]
  rfl

/-- Settles O45: either cap by what storing it leaves, the limit by the lowest of its sources. -/
theorem capsAreClampedAndLimit : Obligations.CapsAreClampedAndLimit := by
  unfold Obligations.CapsAreClampedAndLimit
  refine fun s => ⟨fun hu hr hh hl v => ?host, fun hu hl v hv => ?rack⟩
  case host =>
    obtain ⟨x, o, hstore⟩ := s.storeCap_frame (v.toNat % 65536) fun p w => { p with cap := w }
    exact ⟨_, exec_pwrCapWrite hu (State.blocked_eq_none hr hh hl) v, State.capped_relimit (congrArg State.pwr hstore :)⟩
  case rack =>
    obtain ⟨x, o, hstore⟩ := s.storeCap_frame v.toNat fun p w => { p with rackCap := w }
    exact ⟨_, exec_rackCap hu hl hv, List.getLast?_concat, State.capped_relimit (congrArg State.pwr hstore :)⟩

end Sys2Proof.Machine
end

section
/-! PROOF. The kettle's millisecond, its droop detectors, the brake and the thermal limit (spec 19 R470 to R479, spec 21 R513). -/

namespace Sys2Proof.Machine

variable {s : State}

/-! ## Voltage and droop (R470, R472) -/

/-- A die's voltage after 125 windows: up, down or as it stands. -/
theorem nextV_eq (v : Nat) {as : List Nat} {ws : List KettleWindow} (hn : as.length = 125) :
    nextV v as (ws.all fun w => 100 * w.input ≤ 97 * w.enforced) =
      if (∀ x ∈ as, x = 256) ∧ ∀ w ∈ ws, 100 * w.input ≤ 97 * w.enforced then min 850 (v + 5)
      else if as.sum < 192 * 125 then max 650 (v - 5) else v := by
  simp [nextV, hn]

/-- Once a millisecond each die takes its next voltage (R470). -/
theorem exec_vcoreStep (hk : s.kettleOn = true) (hw : s.pwr.windows.length = 125) (he : s.elapsed s.pwr.vcoreAt 25000 = true) :
    exec .vcoreStep s = .next (s.setPwr { s.pwr with
      vcoreAt := some s.time.count
      vcore := (List.range 4).map fun d => nextV (s.pwr.vcore.getD d 750) (s.msAllowances d) s.below3 }) :=
  (act_of_true (by simp [hk, he, State.msPassed, hw, msWindows]) s _ : execVcoreStep s = _)

theorem exec_vcoreStep_early (h : s.pwr.windows.length ≠ 125 ∨ s.elapsed s.pwr.vcoreAt 25000 = false) :
    exec .vcoreStep s = .next s := by
  have hc : (s.kettleOn && s.msPassed && s.elapsed s.pwr.vcoreAt 25000) = false := by
    rcases h with h | h
    · simp [State.msPassed, msWindows, h]
    · simp [h]
  exact (act_of_false hc s _ : execVcoreStep s = _)

section

variable {die det : Nat} (hp : s.powered = true)

include hp

theorem exec_droopTrip (hd : die < 4) (ht : det < 16) (h : (die, det) ∉ s.pwr.droop) :
    exec (.droopTrip die det) s = .next (s.setPwr { s.pwr with droop := s.pwr.droop ++ [(die, det)] }) :=
  (act_of_true (by simp [hp, hd, ht, h]) s _ : execDroopTrip die det s = _)

theorem exec_droopRelease (h : (die, det) ∈ s.pwr.droop) :
    exec (.droopRelease die det) s = .next (s.setPwr { s.pwr with droop := s.pwr.droop.erase (die, det) }) :=
  (act_of_true (by simp [hp, h]) s _ : execDroopRelease die det s = _)

end

/-! ## The brake (R473, R477, R513) -/

/-- Counting an assertion that chatter caused changes the count alone. -/
theorem State.chatter_frame (s : State) (i : Nat) (yes : Bool) : ∃ c, s.chatter i yes = { s with pwr := { s.pwr with chatter := c } } := by
  unfold State.chatter
  split
  · exact ⟨_, rfl⟩
  · exact ⟨s.pwr.chatter, rfl⟩

/-- What the brake holds at once: BRAKE, pacing, the floor in the limit and in E, the brake allowance in every limiter (R477). -/
theorem State.brakeOn_pwr (s : State) : s.brakeOn.pwr.brake = true ∧ s.brakeOn.pwr.pace = true ∧ s.brakeOn.pwr.limit ≤ 1200 ∧
    s.brakeOn.pwr.enforced ≤ 1200 ∧ ∀ a ∈ s.brakeOn.pwr.allowance, a ≤ s.pwr.brakeAllow := by
  obtain ⟨hlimit, henforced⟩ : s.brakeOn.pwr.limit ≤ 1200 ∧ s.brakeOn.pwr.enforced ≤ 1200 := State.relimit_braked rfl
  refine ⟨rfl, rfl, hlimit, henforced, fun a ha => ?_⟩
  obtain ⟨b, -, rfl⟩ := List.mem_map.1 (show a ∈ s.pwr.allowance.map fun a => min a s.pwr.brakeAllow from ha)
  exact Nat.min_le_right ..

theorem exec_pwrBrakeAssert (hv : s.start.vaon = true) (hb : s.start.brakePin = false) (hk : s.kettleOn = true) (chatter : Bool) :
    ∃ c, exec (.pwrBrakeAssert chatter) s = .next (State.brakeOn { s with
      start := { s.start with brakePin := true }, pwr := { s.pwr with chatter := c } }) := by
  obtain ⟨c, hc⟩ := State.chatter_frame { s with start := { s.start with brakePin := true } } 1 chatter
  refine ⟨c, (act_of_true (by simp [hv, hb]) s _ : execPwrBrakeAssert chatter s = _).trans (congrArg _ ?_)⟩
  dsimp only
  rw [hc]
  exact if_pos hk

theorem exec_pwrBrakeRelease (hv : s.start.vaon = true) (hb : s.start.brakePin = true) : exec .pwrBrakeRelease s =
    .next (State.relimit { s with
      start := { s.start with brakePin := false }
      pwr := { s.pwr with brake := false, brakeHeld := false, brakeStart := none, brakeLim := none } }) :=
  (act_of_true (by simp [hv, hb]) s _ : execPwrBrakeRelease s = _)

section

variable (hk : s.kettleOn = true) (hb : s.pwr.brake = true) (hh : s.pwr.brakeHeld = false) {since : DWord}
  (hs : s.pwr.brakeStart = some since)

include hs

theorem State.brakeLong_eq : s.brakeLong = decide (250000000 ≤ (s.time.count - since).toNat) := by
  simp only [State.brakeLong, hs]
  rfl

theorem exec_brakeHeld_early (h : (s.time.count - since).toNat < 250000000) : exec .brakeHeld s = .next s := by
  have hc : (s.kettleOn && s.pwr.brake && !s.pwr.brakeHeld && s.brakeLong) = false := by
    rw [State.brakeLong_eq hs, decide_eq_false h.not_ge, Bool.and_false]
  exact (act_of_false hc s _ : execBrakeHeld s = _)

include hk hb hh

theorem exec_brakeHeld (h : 250000000 ≤ (s.time.count - since).toNat) : exec .brakeHeld s =
    .next ((s.setPwr { s.pwr with brakeHeld := true }).note { status := 0x0703, cls := 0 }) :=
  (act_of_true (by rw [hk, hb, hh, State.brakeLong_eq hs, decide_eq_true h]; rfl) s _ : execBrakeHeld s = _)

end

/-! ## Temperature (R478, R479) -/

/-- The largest of the sensors' margins is the hot margin (R478). -/
theorem hotMargin_of_max {m : TempMeas} {h : Int} (hmem : h ∈ marginsOf m) (hmax : ∀ x ∈ marginsOf m, x ≤ h) :
    hotMargin m = some h :=
  List.max?_eq_some_iff.2 ⟨hmem, hmax⟩

/-- The readings taken, and the thermal limit that follows the hot margin `h` of them (R479). -/
def State.heated (s : State) (m : TempMeas) (h : Int) : State := State.relimit (s.setPwr { s.pwr with
  temps := m, thermalAt := some s.now, thermalLimit := nextTL s.pwr.thermalLimit s.variantMax h s.p1ms })

/-- The thermal limit follows the hot margin, and a record at most follows its onset (R479). -/
theorem exec_thermalLimitUpdate {m : TempMeas} {h : Int} (hk : s.kettleOn = true) (hw : s.pwr.windows.length = 125)
    (he : s.elapsed s.pwr.thermalAt 25000 = true) (hh : hotMargin m = some h) :
    ∃ x o, exec (.thermalLimitUpdate m) s = .next { s.heated m h with err := x, out := o } := by
  obtain ⟨x, o, hn⟩ := State.noteIf_frame (((s.heated m h).pwr.thermal && !s.pwr.thermal) = true) (s.heated m h)
    { status := 0x0704, cls := 0 }
  refine ⟨x, o, ?_⟩
  refine (act_of_true (by simp [hk, he, State.msPassed, hw, msWindows, hh]) s _ : execThermalLimitUpdate m s = _).trans
    (congrArg _ (.trans ?_ hn))
  rw [hh]
  rfl

/-- Settles O47: each row by its equation, the brake and the thermal limit by how the limit follows its sources. -/
theorem voltageBrakeAndTemperature : Obligations.VoltageBrakeAndTemperature := by
  unfold Obligations.VoltageBrakeAndTemperature
  refine ⟨fun s => ⟨fun hk hw he => ?voltage, exec_vcoreStep_early, fun die det hp hd ht =>
      ⟨exec_droopTrip hp hd ht, exec_droopRelease hp⟩⟩,
    fun s => ⟨fun hv hb hk chatter => ?assert, fun hv hb => ?release, fun since hk hb hh hs => ⟨fun h => ?held, exec_brakeHeld_early hs⟩⟩,
    fun s m h hk hw he hh => ?thermal⟩
  case voltage =>
    refine ⟨_, exec_vcoreStep hk hw he, fun d hd => ?_⟩
    have hget : ((List.range 4).map fun d => nextV (s.pwr.vcore.getD d 750) (s.msAllowances d) s.below3).getD d 0 =
        nextV (s.pwr.vcore.getD d 750) (s.msAllowances d) s.below3 := by
      simp [List.getD_eq_getElem?_getD, hd]
    rw [hget]
    exact nextV_eq _ (by rw [State.msAllowances, List.length_map, hw])
  case assert =>
    obtain ⟨c, hexec⟩ := exec_pwrBrakeAssert hv hb hk chatter
    obtain ⟨hbrake, hpace, hlimit, henforced, hallow⟩ := State.brakeOn_pwr { s with
      start := { s.start with brakePin := true }, pwr := { s.pwr with chatter := c } }
    exact ⟨_, hexec, rfl, hbrake, hpace, hlimit, henforced, hallow, rfl⟩
  case release => exact ⟨_, exec_pwrBrakeRelease hv hb, rfl, rfl, rfl, rfl, rfl⟩
  case held =>
    obtain ⟨x, o, hn⟩ := State.note_frame (s.setPwr { s.pwr with brakeHeld := true }) { status := 0x0703, cls := 0 }
    exact ⟨_, exec_brakeHeld hk hb hh hs h, (congrArg State.pwr hn :)⟩
  case thermal =>
    obtain ⟨hmem, hmax⟩ := hh
    obtain ⟨x, o, hexec⟩ := exec_thermalLimitUpdate hk hw he (hotMargin_of_max hmem hmax)
    exact ⟨_, hexec, rfl, rfl, rfl, State.relimit_limit_le_thermalLimit _, Nat.min_le_right .., rfl, rfl, rfl⟩

end Sys2Proof.Machine
end

section
/-! PROOF. The boot ROM: the start of its run, and its verdict on an image of either source (spec 14 R349, spec 20 R487, R500, R501,
spec 21 R516, R525 to R528). -/

namespace Sys2Proof.Machine

variable {s : State}

/-! ## The verdict (R500, R501, R526) -/

/-- The image is authentic and its SVN is not below ROLLBACK (R500). -/
def State.fwOk (s : State) (b : List Byte) : Bool := s.fwAuthentic b && decide (s.part.rollback ≤ fwSvn b)

theorem State.fwStatus_eq_zero_iff (s : State) (b : List Byte) : s.fwStatus (some b) = 0 ↔ s.fwOk b = true := by
  cases ha : s.fwAuthentic b <;> simp [State.fwStatus, State.fwOk, ha]

/-- Run or refused: what the boot ROM does with an image that was read. -/
theorem State.tryImage_some (s : State) (b : List Byte) :
    s.tryImage (some b) = if s.fwOk b then s.runImage b else s.refuseImage (s.fwStatus (some b)) := by
  simp only [State.tryImage, State.fwStatus_eq_zero_iff, Option.getD_some]

/-- ROLLBACK as an image that runs leaves it: the larger of its value and the SVN, where the image asks for it (R501). -/
def nextRollback (rollback : Nat) (b : List Byte) : Nat := if fwCommit b then max rollback (fwSvn b) else rollback

/-- An image runs: ROLLBACK, what BAR0 shows of the firmware, the time of the last service and the links in training (R349, R501). -/
theorem State.runImage_frame (s : State) (b : List Byte) : ∃ ks, s.runImage b = { s with
    part := { s.part with rollback := nextRollback s.part.rollback b }
    hif := { s.hif with
      mgmtRun := true, bootWait := false, fwVer := BitVec.ofNat 32 (leAt b 4 4), fwDigest := Config.shake256 (fwSigned b) }
    start := { s.start with served := s.now }
    links := ks } := by
  have hpart : (if fwCommit b && decide (s.part.rollback < fwSvn b) then
      { s with part := { s.part with rollback := fwSvn b } } else s) =
        { s with part := { s.part with rollback := nextRollback s.part.rollback b } } := by
    by_cases hc : fwCommit b = true
    · by_cases hlt : s.part.rollback < fwSvn b
      · simp [nextRollback, hc, hlt, Nat.max_eq_right hlt.le]
      · simp [nextRollback, hc, hlt, Nat.max_eq_left (Nat.not_lt.1 hlt)]
    · simp [nextRollback, hc]
  unfold State.runImage
  extract_lets svn p u h v w
  replace hpart : u = _ := hpart
  clear_value u
  subst hpart
  exact ⟨_, rfl⟩

/-- A refused image: a record, the next source, and the wait for the host after the SPI sources (R526). -/
theorem State.refuseImage_frame (s : State) (status : Nat) : ∃ x o, s.refuseImage status = { s with
    hif := { s.hif with bootWait := s.hif.bootWait || decide (1 ≤ s.start.bootSource) }
    start := { s.start with bootSource := min 2 (s.start.bootSource + 1) }
    err := x, out := o } := by
  obtain ⟨x, o, hn⟩ := State.note_frame s { status := status, cls := 0, unit := 9, pos := 2 }
  refine ⟨x, o, ?_⟩
  unfold State.refuseImage
  rw [hn]
  by_cases h : 1 ≤ s.start.bootSource
  · simp [h]
  · have hmin : min 2 (s.start.bootSource + 1) = s.start.bootSource + 1 := by omega
    simp [h, hmin]

/-! ## The host's image (R528) -/

theorem exec_hifBootGo {v : Word} (hu : s.hostUp = true) (hv : v.getLsbD 31 = true) (hb : s.blocked = none) : exec (.hifBootGo v) s =
    .next (if s.hif.bootWait = false then s.refuseWrite 2 0x38 else if 0x800000 < v.toNat % 2 ^ 24 then s.refuseWrite 1 0x38
      else State.tryImage { s with hif := { s.hif with bootLength := v.toNat % 2 ^ 24, bootWait := false } }
        (some (Memory.read s.hif.bootWin 0 (v.toNat % 2 ^ 24)))) := by
  refine (act_of_true (by rw [hu, hv]; rfl) s _ : execHifBootGo v s = _).trans (congrArg _ ?_)
  simp [State.bootGo, State.regWrite_of_unblocked hb, bits_from_zero]

/-- What the boot ROM leaves of the host's image, whichever its verdict. -/
theorem State.tryImage_host (hs : s.start.bootSource = 2) (b : List Byte) :
    (s.tryImage (some b)).hif.bootLength = s.hif.bootLength ∧ (s.tryImage (some b)).hif.bootWait = !s.fwOk b ∧
      (s.tryImage (some b)).hif.mgmtRun = (s.fwOk b || s.hif.mgmtRun) ∧ (s.tryImage (some b)).start.bootSource = 2 ∧
      (s.tryImage (some b)).hif.bootWin = s.hif.bootWin ∧ (s.tryImage (some b)).mem = s.mem := by
  rw [State.tryImage_some]
  cases hok : s.fwOk b
  · obtain ⟨x, o, h⟩ := s.refuseImage_frame (s.fwStatus (some b))
    rw [if_neg Bool.false_ne_true, h]
    exact ⟨rfl, by simp [hs], rfl, by simp [hs], rfl, rfl⟩
  · obtain ⟨ks, h⟩ := s.runImage_frame b
    rw [if_pos rfl, h]
    exact ⟨rfl, rfl, rfl, hs, rfl, rfl⟩

/-- Settles O18: the write by its refusals, the image by the boot ROM's verdict. -/
theorem bootGoRunsTheWindow : Obligations.BootGoRunsTheWindow := by
  unfold Obligations.BootGoRunsTheWindow
  intro s v hu hv hr hh hl n image ok no
  rw [exec_hifBootGo hu hv (State.blocked_eq_none hr hh hl)]
  refine ⟨fun hw hs hn => ?runs, fun hw hn => ?range, fun hw => ?state⟩
  case runs =>
    rw [if_neg (by simp [hw]), if_neg hn.not_gt]
    exact ⟨_, rfl, State.tryImage_host (s := { s with hif := { s.hif with bootLength := n, bootWait := false } }) hs image⟩
  case range =>
    rw [if_neg (by simp [hw]), if_pos hn]
    rfl
  case state =>
    rw [if_pos hw]
    rfl

/-! ## The start of the run, and the SPI sources (R487, R516, R525, R526) -/

/-- A fuse check that fails no field changes nothing (R487). -/
theorem State.fuseCheck_nil (s : State) : s.fuseCheck [] = s := rfl

/-- Nothing owed, no record is paid. -/
theorem State.payRecords_of_none (ht : s.pwr.trip = none) (hf : s.pwr.railFault = none) (ho : s.sec.owed = false) :
    s.payRecords = s := by
  simp [State.payRecords, ht, hf, ho]

/-- The rails are in regulation: PKG_PG is high, and BOOT_HOST picks the source (R516, R526). -/
def State.railsUp (s : State) : State := { s with
  start := { s.start with pkgPg := true, bootSource := if s.start.straps.bootHost then 2 else 0 }
  hif := { s.hif with bootWait := s.start.straps.bootHost }
  out := s.out ++ [.pin "PKG_PG" true] }

theorem exec_pkgPgHigh (hv : s.start.vaon = true) (hf : s.start.firstStage = true) (hr : s.start.inReset = false)
    (hp : s.start.pkgPg = false) (ht : s.pwr.trip = none) (hrail : s.pwr.railFault = none) (ho : s.sec.owed = false) :
    exec (.pkgPgHigh []) s = .next (s.railsUp.setSec { s.sec with fuseAt := some s.time.count }) := by
  have hpay : s.railsUp.payRecords = s.railsUp := State.payRecords_of_none ht hrail ho
  refine (act_of_true (by simp [hv, hf, hr, hp]) s _ : execPkgPgHigh [] s = _).trans (congrArg _ ?_)
  show State.fuseCheck (s.railsUp.payRecords.setSec { s.railsUp.payRecords.sec with fuseAt := some s.railsUp.payRecords.now }) [] = _
  rw [State.fuseCheck_nil, hpay]
  rfl

section

variable (hp : s.powered = true) (hl : s.sec.locked = false) (hrun : s.hif.mgmtRun = false) (hr : s.start.mgmtReset = false)
  (hh : s.start.mgmtHeld = false) (hs : s.start.bootSource < 2)

include hp hl hrun hr hh hs

theorem exec_bootImageVerify (image : Option (List Byte)) : exec (.bootImageVerify image) s = .next (s.tryImage image) :=
  (act_of_true (by simp [State.booting, hp, hl, hrun, hr, hh, hs]) s _ : execBootImageVerify image s = _)

/-- A source without an image: the next one, or the wait for the host. -/
theorem bootImageVerify_absent : ∃ t : State, exec (.bootImageVerify none) s = .next t ∧ t.hif.mgmtRun = false ∧ t.part = s.part ∧
    t.start.bootSource = s.start.bootSource + 1 ∧ t.hif.bootWait = (s.hif.bootWait || s.start.bootSource == 1) := by
  obtain ⟨x, o, h⟩ := s.refuseImage_frame 0x0804
  refine ⟨_, (exec_bootImageVerify hp hl hrun hr hh hs none).trans (congrArg _ h), hrun, rfl, Nat.min_eq_right hs, ?_⟩
  have hlast : decide (1 ≤ s.start.bootSource) = (s.start.bootSource == 1) := by
    rw [Bool.eq_iff_iff, decide_eq_true_iff, beq_iff_eq]
    omega
  exact congrArg (s.hif.bootWait || ·) hlast

/-- An image of an SPI source: it runs, or the next source is tried. -/
theorem bootImageVerify_present (b : List Byte) : ∃ t : State, exec (.bootImageVerify (some b)) s = .next t ∧ t.hif.mgmtRun = s.fwOk b ∧
    t.hif.fwVer = (if s.fwOk b then BitVec.ofNat 32 (leAt b 4 4) else s.hif.fwVer) ∧
    t.part = { s.part with rollback := if s.fwOk b && fwCommit b then max s.part.rollback (fwSvn b) else s.part.rollback } ∧
    t.start.bootSource = (if s.fwOk b then s.start.bootSource else s.start.bootSource + 1) ∧ t.mem = s.mem ∧ t.caddy = s.caddy := by
  refine ⟨_, exec_bootImageVerify hp hl hrun hr hh hs (some b), ?_⟩
  rw [State.tryImage_some]
  cases hok : s.fwOk b
  · obtain ⟨x, o, h⟩ := s.refuseImage_frame (s.fwStatus (some b))
    rw [if_neg Bool.false_ne_true, h]
    exact ⟨hrun, rfl, rfl, Nat.min_eq_right hs, rfl, rfl⟩
  · obtain ⟨ks, h⟩ := s.runImage_frame b
    rw [if_pos rfl, h]
    exact ⟨rfl, rfl, rfl, rfl, rfl, rfl⟩

end

/-- Settles O56: the start of the run by its equation, a source by the boot ROM's verdict on it. -/
theorem bootRomRunsAnImage : Obligations.BootRomRunsAnImage := by
  unfold Obligations.BootRomRunsAnImage
  exact ⟨fun s => exec_pkgPgHigh, fun s hp hl hrun hr hh hs =>
    ⟨bootImageVerify_absent hp hl hrun hr hh hs, bootImageVerify_present hp hl hrun hr hh hs⟩⟩

end Sys2Proof.Machine
end

section
/-! PROOF. LNK_CTRL: a link is let train or taken down, and what a link going down leaves of the others (spec 14 R359, spec 15 R369 to
R377). -/

namespace Sys2Proof.Machine

/-! ## A packet takes a link that is up (R377) -/

theorem State.pickLink_mem {s : State} {set : List Nat} {d f l : Nat} (h : s.pickLink set d f = some l) : l ∈ set := by
  unfold State.pickLink at h
  dsimp only at h
  split_ifs at h
  · exact List.mem_of_getElem? h
  · exact (List.mem_filter.1 (List.mem_of_getElem? h)).1

theorem State.isUp_of_portSet {s : State} {p d l : Nat} (h : l ∈ s.portSet p d) : (s.link l).isUp = true := by
  obtain ⟨-, h⟩ := List.mem_filter.1 h
  simp only [State.reaches, Bool.and_eq_true] at h
  exact h.2.1.1

theorem State.isUp_of_linkFor {s : State} {d f l : Nat} (h : s.linkFor d f = some l) : (s.link l).isUp = true := by
  unfold State.linkFor at h
  split at h
  · exact State.isUp_of_portSet (State.pickLink_mem h)
  · exact absurd h (by simp)

theorem State.isUp_of_messageLink {s : State} {p d l : Nat} (h : s.messageLink p d = some l) : (s.link l).isUp = true := by
  unfold State.messageLink at h
  split at h
  · exact State.isUp_of_portSet (State.pickLink_mem h)
  · obtain ⟨-, hup⟩ := List.mem_filter.1 (State.pickLink_mem h)
    simp only [Bool.and_eq_true] at hup
    exact hup.1.2

/-! ## What sending leaves of a link that is down -/

@[simp] theorem State.link_setLink_self (s : State) (l : Nat) (k : Link) : (s.setLink l k).link l = k := Tab.get_set_self ..

theorem State.link_setLink_ne (s : State) {l m : Nat} (k : Link) (hm : l ≠ m) : (s.setLink m k).link l = s.link l :=
  Tab.get_set_ne _ _ _ hm

/-- Sending past a link: discovery, links and what is sent change, and that link stays as it was. -/
structure SentPast (l : Nat) (s t : State) : Prop where
  frame : ∃ d ks o, t = { s with disc := d, links := ks, out := o }
  link : t.link l = s.link l

namespace SentPast

variable {l : Nat} {r s t : State}

theorem refl (s : State) : SentPast l s s := ⟨⟨s.disc, s.links, s.out, rfl⟩, rfl⟩

theorem trans (h : SentPast l r s) (k : SentPast l s t) : SentPast l r t where
  frame := by
    obtain ⟨d, ks, o, rfl⟩ := h.frame
    obtain ⟨d', ks', o', rfl⟩ := k.frame
    exact ⟨d', ks', o', rfl⟩
  link := k.link.trans h.link

theorem emit (h : SentPast l r s) (x : Out) : SentPast l r (s.emit x) := h.trans ⟨⟨s.disc, s.links, _, rfl⟩, rfl⟩

theorem setDisc (h : SentPast l r s) (d : Disc) : SentPast l r { s with disc := d } := h.trans ⟨⟨d, s.links, s.out, rfl⟩, rfl⟩

theorem setLink (h : SentPast l r s) {m : Nat} (hm : l ≠ m) (k : Link) : SentPast l r (s.setLink m k) :=
  h.trans ⟨⟨s.disc, _, s.out, rfl⟩, s.link_setLink_ne k hm⟩

theorem pump (n : Nat) (h : SentPast l r s) {m : Nat} (hm : l ≠ m) : SentPast l r (State.pump n s m) := by
  induction n generalizing s with
  | zero => exact h
  | succ n ih =>
    unfold State.pump
    dsimp only
    split
    · exact h
    · split
      · exact ih ((h.setLink hm _).emit _)
      · exact h

theorem linkSend (h : SentPast l r s) {m : Nat} (hm : l ≠ m) (vc : Nat) (bs : List Byte) (p : Option SentPkt) :
    SentPast l r (s.linkSend m vc bs p) := (h.setLink hm _).pump _ hm

theorem settlePort (h : SentPast l r s) (p : Nat) : SentPast l r (s.settlePort p) := by
  unfold State.settlePort
  split
  · exact h
  · exact h.setDisc _

section Down

variable (hl : (s.link l).isUp = false)

include hl

/-- A link that is up is another than one that is down. -/
theorem ne_of_isUp {m : Nat} (hm : (s.link m).isUp = true) : l ≠ m := by
  rintro rfl
  exact Bool.false_ne_true (hl.symm.trans hm)

theorem fabSend (p : FabPkt) : SentPast l s (s.fabSend p) := by
  unfold State.fabSend
  split
  · exact (refl s).emit _
  · split
    case h_1 m hm => exact ((refl s).emit _).linkSend (ne_of_isUp hl (State.isUp_of_linkFor hm)) ..
    case h_2 => exact refl s

theorem routeSend (n : Nat) (p : RoutePkt) : SentPast l s (s.routeSend n p) := by
  unfold State.routeSend
  split
  · exact (refl s).emit _
  · split
    case h_1 m hm => exact ((refl s).emit _).linkSend (ne_of_isUp hl (State.isUp_of_linkFor hm)) ..
    case h_2 => exact refl s

theorem resendPacket (port : Nat) (p : SentPkt) : SentPast l s (s.resendPacket port p) := by
  cases p with
  | fab p =>
    unfold State.resendPacket
    dsimp only
    split
    · split
      case h_1 m hm => exact ((refl s).emit _).linkSend (ne_of_isUp hl (State.isUp_of_messageLink hm)) ..
      case h_2 => exact refl s
    · exact fabSend hl p
  | route n p => exact routeSend hl n p

theorem reportLink (m : Nat) : SentPast l s (s.reportLink m) := by
  unfold State.reportLink
  dsimp only
  split
  · exact (refl s).setDisc _
  · split
    · exact refl s
    · split
      case h_1 via hvia => exact ((refl s).emit _).linkSend (ne_of_isUp hl (State.isUp_of_linkFor hvia)) ..
      case h_2 => exact refl s

end Down

/-- Packets handed back to a port pass by a link that is down (R375). -/
theorem resendPackets (h : SentPast l r s) (hl : (r.link l).isUp = false) (port : Nat) (ps : List SentPkt) :
    SentPast l r (ps.foldl (fun s p => s.resendPacket port p) s) := by
  induction ps generalizing s with
  | nil => exact h
  | cons p ps ih => exact ih (h.trans (resendPacket (h.link ▸ hl) port p))

end SentPast

/-! ## A link goes down (R374, R375) -/

/-- A link as it is taken down: where it was up, the loss is counted and nothing is left to send or resend. -/
def Link.downed (k : Link) (train : LinkTrain) (now : DWord) : Link :=
  if k.isUp then { k with
    train := train, cls := 0, lanes := 0, downs := k.downs + 1, replay := [], queue := [], resends := 0
    fails := 0, lostAt := some now, heldOut := false }
  else { k with train := train }

section

variable (k : Link) (train : LinkTrain) (now : DWord)

theorem Link.downed_train : (k.downed train now).train = train := by
  unfold Link.downed
  split <;> rfl

theorem Link.downed_downs : (k.downed train now).downs = if k.isUp then k.downs + 1 else k.downs := by
  unfold Link.downed
  split <;> rfl

theorem Link.downed_empty (hup : k.isUp = true) : (k.downed train now).replay = [] ∧ (k.downed train now).queue = [] := by
  rw [Link.downed, if_pos hup]
  exact ⟨rfl, rfl⟩

end

/-- What follows a loss passes by the lost link. -/
theorem State.downLink_sentPast (s : State) (l : Nat) {train : LinkTrain} (ht : train ≠ .up) :
    SentPast l (s.setLink l ((s.link l).downed train s.now)) (s.downLink l train) := by
  cases hup : (s.link l).isUp
  · have hdown : s.downLink l train = s.setLink l ((s.link l).downed train s.now) := by
      simp [State.downLink, Link.downed, hup]
    exact hdown ▸ .refl _
  · have hdowned : (s.link l).downed train s.now = _ := if_pos hup
    have hlost : ((s.setLink l ((s.link l).downed train s.now)).link l).isUp = false := by
      rw [State.link_setLink_self, Link.isUp, Link.downed_train]
      exact decide_eq_false ht
    have hsent := ((SentPast.refl _).settlePort (s.link l).port).resendPackets hlost (s.link l).port (s.link l).unsent
    have hall := hsent.trans (SentPast.reportLink (hsent.link ▸ hlost) l)
    rw [hdowned] at hall ⊢
    unfold State.downLink
    rw [if_neg (by simp [hup])]
    exact hall

/-! ## LNK_CTRL (R359, R369) -/

/-- A link as a write of ENABLE 1 leaves it: one that was held down trains (R369). -/
def Link.enabled (k : Link) (port : Nat) (classes : BitVec 3) : Link := { k with
  enable := true, port := port, classAllow := classes, train := if k.enable then k.train else .training
  fails := if k.enable then k.fails else 0, lostAt := if k.enable then k.lostAt else none }

theorem Link.enabled_of_held {k : Link} (he : k.enable = false) (port : Nat) (classes : BitVec 3) : k.enabled port classes =
    { k with enable := true, port := port, classAllow := classes, train := .training, fails := 0, lostAt := none } := by
  simp [Link.enabled, he]

theorem Link.enabled_of_enabled {k : Link} (he : k.enable = true) {port : Nat} (hp : k.port = port) (classes : BitVec 3) :
    k.enabled port classes = { k with classAllow := classes } := by
  simp [Link.enabled, he, ← hp]

section

variable {s : State} {l : Nat} {v : Word}

/-- STATE outside set-up, BUSY for a new port of an enabled link, else ENABLE as written (R346, R359). -/
theorem State.writeLnkCtrl_eq (hb : s.blocked = none) : s.writeLnkCtrl l v =
    if s.setUpState = false then s.refuseWrite 2 (lnkCtrlOff l)
    else if (s.link l).enable = true ∧ (s.link l).port ≠ v.toNat / 2 ^ 24 % 16 then s.refuseWrite 3 (lnkCtrlOff l)
    else if v.getLsbD 31 then
      s.setLink l ((s.link l).enabled (v.toNat / 2 ^ 24 % 16) (BitVec.ofNat 3 (v.toNat / 2 ^ 16 % 8)))
    else (s.downLink l .off).onLink l fun k =>
      { k with enable := false, port := v.toNat / 2 ^ 24 % 16, classAllow := BitVec.ofNat 3 (v.toNat / 2 ^ 16 % 8) } := by
  have hbusy : ((s.link l).enable && bits v.toNat 27 24 != (s.link l).port) = true ↔
      (s.link l).enable = true ∧ (s.link l).port ≠ v.toNat / 2 ^ 24 % 16 := by
    rw [Bool.and_eq_true, bne_iff_ne, ne_comm]
    rfl
  have hstate : (!s.setUpState) = true ↔ s.setUpState = false := by rw [Bool.not_eq_true']
  unfold State.writeLnkCtrl State.lnkCtrlWrite
  dsimp only
  rw [State.regWrite_of_unblocked hb]
  simp only [hbusy, hstate]
  rfl

variable (hu : s.hostUp = true) (hl : l < s.part.links)

include hu hl

theorem exec_linkEnable (hv : v.getLsbD 31 = true) : exec (.linkEnable l v) s = .next (s.writeLnkCtrl l v) :=
  (act_of_true (by simp only [hu, hl, hv]; rfl) s _ : execLinkEnable l v s = _)

theorem exec_linkDisable (hv : v.getLsbD 31 = false) : exec (.linkDisable l v) s = .next (s.writeLnkCtrl l v) :=
  (act_of_true (by simp only [hu, hl, hv]; rfl) s _ : execLinkDisable l v s = _)

end

/-- Settles O42: the writes by their equation, a link taken down by what follows its loss. -/
theorem linkControlTakesWrites : Obligations.LinkControlTakesWrites := by
  unfold Obligations.LinkControlTakesWrites
  intro s l v hu hl hr hh hlock k port classes no
  have hb : s.blocked = none := State.blocked_eq_none hr hh hlock
  have hset (hs : s.setUpState = true) : ¬ s.setUpState = false := by simp [hs]
  have hfree (h : k.enable = false ∨ k.port = port) : ¬ ((s.link l).enable = true ∧ (s.link l).port ≠ v.toNat / 2 ^ 24 % 16) := by
    rintro ⟨he, hp⟩
    exact h.elim (fun h => Bool.false_ne_true (h.symm.trans he)) hp
  refine ⟨fun hv hs he => ?held, fun hv hs he hp => ?rewritten, fun hv hs he hp => ?busy, fun hv hs => ?state,
    fun hv hs hp => ?down, fun hv hs => ?stateDown⟩
  case held =>
    rw [exec_linkEnable hu hl hv, State.writeLnkCtrl_eq hb, if_neg (hset hs), if_neg (hfree (.inl he)), if_pos hv,
      Link.enabled_of_held he]
    rfl
  case rewritten =>
    rw [exec_linkEnable hu hl hv, State.writeLnkCtrl_eq hb, if_neg (hset hs), if_neg (hfree (.inr hp)), if_pos hv,
      Link.enabled_of_enabled he hp]
    rfl
  case busy =>
    rw [exec_linkEnable hu hl hv, State.writeLnkCtrl_eq hb, if_neg (hset hs), if_pos ⟨he, hp⟩]
    rfl
  case state =>
    rw [exec_linkEnable hu hl hv, State.writeLnkCtrl_eq hb, if_pos hs]
    rfl
  case down =>
    obtain ⟨⟨d, ks, o, hframe⟩, hlink⟩ := s.downLink_sentPast l (train := .off) (by decide)
    have hdown : (s.downLink l .off).link l = k.downed .off s.now := hlink.trans (State.link_setLink_self ..)
    refine ⟨_, exec_linkDisable hu hl hv, ?_⟩
    rw [State.writeLnkCtrl_eq hb, if_neg (hset hs), if_neg (hfree hp), if_neg (ne_true_of_eq_false hv), State.onLink, hdown,
      State.link_setLink_self]
    refine ⟨rfl, k.downed_train .off s.now, rfl, k.downed_downs .off s.now, k.downed_empty .off s.now, ?_, ?_⟩
    · exact (congrArg State.hif hframe :)
    · exact (congrArg State.mem hframe :)
  case stateDown =>
    rw [exec_linkDisable hu hl hv, State.writeLnkCtrl_eq hb, if_pos hs]
    rfl

end Sys2Proof.Machine
end

section
/-! PROOF. The sideband: MCTP control, I3C addresses and the package's own requests (spec 14 R344, spec 20 R496, R502, spec 21 R529,
R530). -/

namespace Sys2Proof.Machine

variable {s : State}

/-! ## I3C addresses (R529) -/

section Addresses

variable (hp : s.powered = true)

include hp

theorem exec_setdasa (hn : s.start.i3cAddr = none) {a : Nat} (ha : a < 128) :
    exec (.setdasa a) s = .next (s.setStart { s.start with i3cAddr := some a }) :=
  (act_of_true (by simp [hp, hn, ha]) s _ : execSetdasa a s = _)

theorem exec_setaasa (hn : s.start.i3cAddr = none) :
    exec .setaasa s = .next (s.setStart { s.start with i3cAddr := some (0x30 + s.start.straps.i3cSa) }) :=
  (act_of_true (by simp [hp, hn]) s _ : execSetaasa s = _)

end Addresses

/-- A target with an address takes no other (notes/assumptions/107.md). -/
theorem exec_setAddress_addressed {b : Nat} (hb : s.start.i3cAddr = some b) :
    (∀ a, exec (.setdasa a) s = .next s) ∧ exec .setaasa s = .next s :=
  ⟨fun a => (act_of_false (by simp [hb]) s _ : execSetdasa a s = _), (act_of_false (by simp [hb]) s _ : execSetaasa s = _)⟩

/-! ## Reads of several words (R344, R530) -/

theorem State.length_readWords (n : Nat) : ∀ (s : State) (off : Nat), (s.readWords n off).1.length = n := by
  induction n with
  | zero => exact fun _ _ => rfl
  | succ n ih => exact fun s off => congrArg (· + 1) (ih (s.barRead off 4).2 (off + 4))

section Served

variable (hu : s.sideUp = true)

include hu

/-! ## MCTP control (R529) -/

theorem exec_setEndpointId {eid : Nat} (h0 : 0 < eid) (h : eid < 0xFF) : exec (.setEndpointId eid) s =
    .next ((s.setStart { s.start with eid := eid }).emit (.mctp 0 [0, BitVec.ofNat 8 eid, 0])) := by
  refine (act_of_true hu s _ : execSetEndpointId eid s = _).trans (congrArg _ ?_)
  rw [decide_eq_false h0.ne', decide_eq_false h.not_ge]
  rfl

theorem exec_setEndpointId_refused {eid : Nat} (h : eid = 0 ∨ 0xFF ≤ eid) :
    exec (.setEndpointId eid) s = .next (s.emit (.mctp 2 [])) := by
  refine (act_of_true hu s _ : execSetEndpointId eid s = _).trans (congrArg _ ?_)
  exact if_pos (by simpa using h)

theorem exec_getEndpointId : exec .getEndpointId s = .next (s.emit (.mctp 0 [BitVec.ofNat 8 s.start.eid, 0, 0])) :=
  (act_of_true hu s _ : execGetEndpointId s = _)

theorem exec_getMctpVersionSupport : exec .getMctpVersionSupport s = .next (s.emit (.mctp 0 Config.mctpVersions)) :=
  (act_of_true hu s _ : execGetMctpVersionSupport s = _)

theorem exec_getMessageTypeSupport : exec .getMessageTypeSupport s = .next (s.emit (.mctp 0 [2, 0x00, 0x7E])) :=
  (act_of_true hu s _ : execGetMessageTypeSupport s = _)

theorem exec_getVendorDefinedMessageSupport :
    exec .getVendorDefinedMessageSupport s = .next (s.emit (.mctp 0 [0xFF, 0x00, 0x1F, 0x4C])) :=
  (act_of_true hu s _ : execGetVendorDefinedMessageSupport s = _)

/-! ## READ (R530) -/

theorem exec_read {n : Nat} {arg : Word} (h1 : 1 ≤ n) (h16 : n ≤ 16) (ha : arg.toNat % 4 = 0) (htop : arg.toNat + 4 * n ≤ 0x1000000) :
    exec (.read n 0 arg) s = .next ((s.readWords n arg.toNat).2.emit (.sideband 0 (s.readWords n arg.toNat).1)) := by
  refine (act_of_true hu s _ : execRead n 0 arg s = _).trans (congrArg _ ?_)
  rw [if_neg (by decide), if_neg (by simpa [h1, h16, ha] using htop)]

theorem exec_read_reserved (n : Nat) {rsvd : BitVec 16} (arg : Word) (hr : rsvd ≠ 0) :
    exec (.read n rsvd arg) s = .next (s.emit (.sideband 0x0102 [])) := by
  refine (act_of_true hu s _ : execRead n rsvd arg s = _).trans (congrArg _ ?_)
  exact if_pos (bne_iff_ne.2 hr)

/-- COUNT outside 1 to 16, an address not a multiple of 4, or words past BAR0. -/
theorem exec_read_outside {n : Nat} {arg : Word} (h : n = 0 ∨ 16 < n ∨ arg.toNat % 4 ≠ 0 ∨ 0x1000000 < arg.toNat + 4 * n) :
    exec (.read n 0 arg) s = .next (s.emit (.sideband 0x0103 [])) := by
  refine (act_of_true hu s _ : execRead n 0 arg s = _).trans (congrArg _ ?_)
  have hbad : (!(decide (1 ≤ n) && decide (n ≤ 16)) || arg.toNat % 4 != 0 || decide (0x1000000 < arg.toNat + 4 * n)) = true := by
    simp only [Bool.or_eq_true, Bool.not_eq_true', Bool.and_eq_false_iff, decide_eq_false_iff_not, bne_iff_ne, decide_eq_true_eq]
    omega
  rw [if_neg (by decide), if_pos hbad]

/-! ## RACK_CAP and FACTORY_TEST (R496, R502, R530) -/

/-- LOCKED comes before the check of reserved fields (notes/assumptions/106.md). -/
theorem exec_rackCap_locked (hl : s.sec.locked = true) (rsvd : BitVec 16) (arg : Word) :
    exec (.rackCap rsvd arg) s = .next (s.emit (.sideband 0x0802 [])) :=
  (act_of_true hu s _ : execRackCap rsvd arg s = _).trans (congrArg _ (if_pos hl))

theorem exec_factoryTest_locked (hl : s.sec.locked = true) (rsvd : BitVec 16) :
    exec (.factoryTest rsvd) s = .next (s.emit (.sideband 0x0802 [])) :=
  (act_of_true hu s _ : execFactoryTest rsvd s = _).trans (congrArg _ (if_pos hl))

variable (hl : s.sec.locked = false)

include hl

theorem exec_rackCap_reserved {rsvd : BitVec 16} (hr : rsvd ≠ 0) (arg : Word) :
    exec (.rackCap rsvd arg) s = .next (s.emit (.sideband 0x0102 [])) := by
  refine (act_of_true hu s _ : execRackCap rsvd arg s = _).trans (congrArg _ ?_)
  rw [if_neg (ne_true_of_eq_false hl), if_pos (by rw [bne_iff_ne.2 hr, Bool.true_or])]

theorem exec_factoryTest_reserved {rsvd : BitVec 16} (hr : rsvd ≠ 0) :
    exec (.factoryTest rsvd) s = .next (s.emit (.sideband 0x0102 [])) := by
  refine (act_of_true hu s _ : execFactoryTest rsvd s = _).trans (congrArg _ ?_)
  rw [if_neg (ne_true_of_eq_false hl), if_pos (bne_iff_ne.2 hr)]

/-- Never done: its status tells whether DEBUG_LOCK reads 1 (R502). -/
theorem exec_factoryTest : exec (.factoryTest 0) s = .next (s.emit (.sideband (if s.debugLock then 0x0803 else 0x0101) [])) := by
  refine (act_of_true hu s _ : execFactoryTest 0 s = _).trans (congrArg _ ?_)
  rw [if_neg (ne_true_of_eq_false hl), if_neg (by decide)]

end Served

/-- Settles O59: each request by its equation. -/
theorem sidebandLinkAnswers : Obligations.SidebandLinkAnswers := by
  unfold Obligations.SidebandLinkAnswers
  refine ⟨fun s hu => ?mctp, fun s hp => ?addresses, fun s hu => ?requests⟩
  case mctp =>
    exact ⟨fun eid => exec_setEndpointId hu, fun eid => exec_setEndpointId_refused hu, exec_getEndpointId hu,
      exec_getMctpVersionSupport hu, exec_getMessageTypeSupport hu, exec_getVendorDefinedMessageSupport hu⟩
  case addresses =>
    exact ⟨fun hn => ⟨fun a => exec_setdasa hp hn, exec_setaasa hp hn⟩, fun b => exec_setAddress_addressed⟩
  case requests =>
    exact ⟨fun arg ha htop => exec_read hu le_rfl (by decide) ha htop,
      fun n arg h1 h16 ha htop => ⟨exec_read hu h1 h16 ha htop, State.length_readWords n s arg.toNat⟩,
      fun n rsvd arg => exec_read_reserved hu n arg, fun n arg => exec_read_outside hu,
      fun hl rsvd arg => ⟨exec_rackCap_locked hu hl rsvd arg, exec_factoryTest_locked hu hl rsvd⟩,
      fun hl => ⟨fun rsvd arg hr => ⟨exec_rackCap_reserved hu hl hr arg, exec_factoryTest_reserved hu hl hr⟩,
        fun hd => (exec_factoryTest hu hl).trans (by rw [hd]; rfl), fun hd => (exec_factoryTest hu hl).trans (by rw [hd]; rfl)⟩⟩

end Sys2Proof.Machine
end

section
/-! PROOF. No command stops, and what only a reset or the opening of the first stage ends (spec 18 R458; spec 20 R487,
R496, R500; notes/assumptions/6.md). -/

namespace Sys2Proof.Machine

/-- A command answers a next state that leaves the commands that wait (notes/assumptions/6.md). -/
theorem exec_pending (c : Instr) (s : State) : ∃ t, exec c s = .next t ∧ t.pending = s.pending := by
  obtain hc | ⟨t, ht, hkeep⟩ := exec_keep (Keep.loud s) c fun _ _ => rfl
  · obtain ⟨t, ht, hleft⟩ := hc.exec_left s
    exact ⟨t, ht, hleft.pending⟩
  · exact ⟨t, ht, hkeep.pending⟩

/-- Settles O3: a waiting command by `exec_pending`, an idle period by its equation. -/
theorem noCommandStops : Obligations.NoCommandStops := by
  unfold Obligations.NoCommandStops
  refine ⟨exec_pending, fun s => ?_⟩
  cases hp : s.pending with
  | nil => exact ⟨_, step_of_nil hp⟩
  | cons c cs =>
    obtain ⟨t, ht, -⟩ := exec_pending c { s with pending := cs }
    exact ⟨t, (step_of_cons hp).trans ht⟩

/-- With the rails up, their raising cannot happen (R516). -/
theorem execPkgPgHigh_up {s : State} (hp : s.start.pkgPg = true) (f : List FuseField) : execPkgPgHigh f s = .next s :=
  act_of_false (by simp [hp]) _ _

/-- A command leaves the part, or advances its ROLLBACK (R487, R500). -/
theorem exec_part (c : Instr) {s t : State} (he : exec c s = .next t) :
    t.part = s.part ∨ ∃ n, t.part = { s.part with rollback := n } ∧ s.part.rollback ≤ n := by
  obtain hc | ⟨u, hu, hkeep⟩ := exec_keep (Keep.loud s) c fun _ _ => rfl
  · obtain ⟨u, hu, hleft⟩ := hc.exec_left s
    obtain rfl : u = t := by simpa using hu.symm.trans he
    exact .inl hleft.part
  · obtain rfl : u = t := by simpa using hu.symm.trans he
    obtain ⟨n, hn, hpart⟩ := hkeep.part
    exact .inr ⟨n, hpart, hn⟩

/-- With the rails up, a command outside the resets leaves a silent log as it is (R458, R496). -/
theorem exec_silent {c : Instr} {s t : State} (hc : ¬ Resets c) (he : exec c s = .next t) (hs : s.err.silent = true)
    (hp : s.start.pkgPg = true) : t.err.silent = true ∧ t.err.log = s.err.log ∧ t.err.total = s.err.total := by
  by_cases hrails : ∃ f, c = .pkgPgHigh f
  · obtain ⟨f, rfl⟩ := hrails
    obtain rfl : s = t := by simpa using (execPkgPgHigh_up hp f).symm.trans he
    exact ⟨hs, rfl, rfl⟩
  · obtain ⟨u, hu, hkeep⟩ := (exec_keep (Keep.refl s) c fun f hf => absurd ⟨f, hf⟩ hrails).resolve_left hc
    obtain rfl : u = t := by simpa using hu.symm.trans he
    exact hkeep.silent hs

/-- Settles O7: the part by `exec_part`; the resets apart, the stop and the lock by `Keep`, the log by `exec_silent`. -/
theorem onlyResetsEndAStop : Obligations.OnlyResetsEndAStop := by
  unfold Obligations.OnlyResetsEndAStop
  intro c s t he
  refine ⟨exec_part c he, ?_⟩
  by_cases hc : Resets c
  · left
    cases hc <;> simp
  · right
    obtain ⟨u, hu, hkeep⟩ := (exec_keep (Keep.loud s) c fun _ _ => rfl).resolve_left hc
    obtain rfl : u = t := by simpa using hu.symm.trans he
    exact ⟨hkeep.fatal, hkeep.locked, exec_silent hc he⟩

end Sys2Proof.Machine
end

section
/-! PROOF. The choice of the standby among the members (spec 15 R383). -/

namespace Sys2Proof.Machine

theorem mem_nodesOf {m : W256} {n : Nat} : n ∈ nodesOf m ↔ m.getLsbD n = true := by
  simp only [nodesOf, List.mem_filter, List.mem_range, and_iff_right_iff_imp]
  exact BitVec.lt_of_getLsbD

theorem nodesOf_pairwise (m : W256) : (nodesOf m).Pairwise (· < ·) := List.pairwise_lt_range.filter _

/-- The better of two candidates: a priority that is strictly higher, or any where there was none yet. -/
def better (prio : Nat → Nat) (b n : Nat) : Nat := if b = 0xFF || prio b < prio n then n else b

/-- Over rising node numbers the fold of `better` keeps the lowest node of the highest priority. -/
theorem foldl_better (prio : Nat → Nat) (l : List Nat) (hl : l.Pairwise (· < ·)) (hff : 0xFF ∉ l) :
    (l = [] ∧ l.foldl (better prio) 0xFF = 0xFF) ∨ (l.foldl (better prio) 0xFF ∈ l ∧
      ∀ m ∈ l, prio m < prio (l.foldl (better prio) 0xFF) ∨
        (prio m = prio (l.foldl (better prio) 0xFF) ∧ l.foldl (better prio) 0xFF ≤ m)) := by
  induction l using List.reverseRecOn with
  | nil => exact .inl ⟨rfl, rfl⟩
  | append_singleton l x ih =>
    right
    obtain ⟨hl, -, hx⟩ := List.pairwise_append.1 hl
    simp only [List.mem_append, List.mem_singleton, not_or] at hff
    rw [List.foldl_append]
    generalize l.foldl (better prio) 0xFF = b at ih
    simp only [List.foldl_cons, List.foldl_nil, better]
    obtain ⟨rfl, rfl⟩ | ⟨hb, hbest⟩ := ih hl hff.1
    · simp
    · have hne : b ≠ 0xFF := fun e => hff.1 (e ▸ hb)
      have hbx : b < x := hx b hb x (by simp)
      split
      · next h =>
        have hlt : prio b < prio x := by simpa [hne] using h
        refine ⟨by simp, fun m hm => ?_⟩
        obtain hm | rfl : m ∈ l ∨ m = x := by simpa using hm
        · have := hbest m hm
          omega
        · exact .inr ⟨rfl, Nat.le_refl _⟩
      · next h =>
        have hle : prio x ≤ prio b := by simpa [hne] using h
        refine ⟨List.mem_append_left _ hb, fun m hm => ?_⟩
        obtain hm | rfl : m ∈ l ∨ m = x := by simpa using hm
        · exact hbest m hm
        · omega

/-- Settles O10: the members that may stand by, in rising order, folded by `better`. -/
theorem standbyIsTheHighestPriority : Obligations.StandbyIsTheHighestPriority := by
  unfold Obligations.StandbyIsTheHighestPriority
  intro s h255 n ok
  refine ⟨?_, rfl, fun _ _ => rfl⟩
  have hmem (m : Nat) : m ∈ (nodesOf s.dom.members).filter (fun n => n != s.dom.node && s.disc.prio.get 0 n != 0) ↔ ok m := by
    simp [ok, mem_nodesOf]
  have hbest := foldl_better (s.disc.prio.get 0) ((nodesOf s.dom.members).filter fun n => n != s.dom.node && s.disc.prio.get 0 n != 0)
    ((nodesOf_pairwise s.dom.members).filter _) fun h =>
      Bool.false_ne_true (h255.symm.trans ((hmem _).1 h).1)
  change _ ∧ n = 0xFF ∨ n ∈ _ ∧ ∀ m ∈ _, _ < s.disc.prio.get 0 n ∨ (_ = s.disc.prio.get 0 n ∧ n ≤ m) at hbest
  obtain ⟨hnil, hn⟩ | ⟨hn, hall⟩ := hbest
  · exact .inl ⟨hn, fun m hm => by simpa [hnil] using (hmem m).2 hm⟩
  · exact .inr ⟨(hmem n).1 hn, fun m hm => hall m ((hmem m).2 hm)⟩

end Sys2Proof.Machine
end

section
/-! PROOF. The log entry that a record takes, its first word, and the error whose depth would reach 3 (spec 18 R443 to R447,
R458). -/

namespace Sys2Proof.Machine

/-! ## The log -/

theorem State.errRingPut_log (s : State) (r : W512) :
    (s.errRingPut r).err.log = s.err.log ∧ (s.errRingPut r).err.total = s.err.total := by
  unfold State.errRingPut
  dsimp only
  split
  · exact ⟨rfl, rfl⟩
  · split <;> exact ⟨rfl, rfl⟩

/-- A record stands in the log at its index modulo 256 (R364). -/
theorem State.putRecord_log (s : State) (r : W512) :
    (s.putRecord r).err.log.find? (s.err.total.toNat % 256) = some r ∧ (s.putRecord r).err.total = s.err.total + 1 := by
  obtain ⟨hlog, htotal⟩ := State.errRingPut_log
    (s.setErr { s.err with log := s.err.log.set (s.err.total.toNat % 256) r, total := s.err.total + 1 }) r
  exact ⟨by rw [State.putRecord, hlog]; exact Tab.find?_set_self .., by rw [State.putRecord, htotal]; rfl⟩

/-- A loud package-fatal error enters no handling: it is one record (R442, R458). -/
theorem State.note_of_fatal {s : State} {e : ErrIn} (hs : s.err.silent = false) (hj : (s.judge e).cls = 3) :
    s.note e = s.putRecord (s.errRecord e (s.judge e) 1) := by
  simp [State.note, State.record, State.enterHandling, hs, hj]

/-! ## The first word of a record (R443) -/

/-- Fields past the first four bytes leave the first word. -/
theorem packAt_word0 (v : Nat) (l : List (Nat × Nat × Nat)) (h : ∀ p ∈ l, 4 ≤ p.1) : packAt ((0, 4, v) :: l) % 2 ^ 32 = v % 2 ^ 32 := by
  have hrest : 2 ^ 32 ∣ packAt l := by
    induction l with
    | nil => exact dvd_zero _
    | cons p l ih =>
      obtain ⟨off, n, w⟩ := p
      have hoff : 4 ≤ off := h (off, n, w) (by simp)
      exact dvd_add (dvd_mul_of_dvd_right (Nat.pow_dvd_pow 2 (by omega)) _) (ih fun p hp => h p (by simp [hp]))
  obtain ⟨k, hk⟩ := hrest
  simp only [packAt, hk]
  omega

theorem toNat_ofNat_mod {w k : Nat} (h : k ≤ w) (n : Nat) : (BitVec.ofNat w n).toNat % 2 ^ k = n % 2 ^ k := by
  rw [BitVec.toNat_ofNat, Nat.mod_mod_of_dvd _ (pow_dvd_pow 2 h)]

theorem State.errRecord_word0 (s : State) (e : ErrIn) (j : Judged) (n : Nat) : (s.errRecord e j n).toNat % 2 ^ 32 =
    (putBits j.cls 30 29 + putBits (b2n j.parent.isSome) 28 28 + putBits (b2n j.escalated) 27 27 + putBits (b2n e.alarm) 26 26 +
      putBits j.depth 25 24 + putBits e.status 15 0) % 2 ^ 32 := by
  rw [State.errRecord, toNat_ofNat_mod (by decide : 32 ≤ 512)]
  exact packAt_word0 _ _ (by simp)

/-- What the record of an escalated package-fatal error shows: CLASS 3, ESCALATED 1, DEPTH 3, and its own STATUS. -/
theorem State.errRecord_fatal (s : State) (e : ErrIn) (h : Handling) (n : Nat) :
    let r := (s.errRecord e ⟨some h, 3, true, 3⟩ n).toNat
    bits r 30 29 = 3 ∧ bit r 27 = true ∧ bits r 25 24 = 3 ∧ bits r 15 0 = e.status % 0x10000 := by
  intro r
  have hword := s.errRecord_word0 e ⟨some h, 3, true, 3⟩ n
  have halarm : b2n e.alarm ≤ 1 := by unfold b2n; split <;> decide
  simp only [putBits, bits, bit, Nat.testBit_eq_decide_div_mod_eq, show b2n true = 1 from rfl, Option.isSome_some, decide_eq_true_eq] at hword ⊢
  change r % _ = _ at hword
  norm_num at hword ⊢
  omega

/-! ## The error itself -/

theorem State.stopPackage_err (s : State) : s.stopPackage.err = { s.err with fatal := true } := by
  have hmiss : (if s.steep.running then s.signalMiss else s).err = s.err := by
    split
    · obtain ⟨a, h, d, b, w, r, f, ks, o, e⟩ := State.barrierSwap_frame s (2 ^ 63 + s.steep.number.toNat)
      rw [State.signalMiss, e]
    · rfl
  unfold State.stopPackage
  generalize (if s.steep.running then s.signalMiss else s) = t at hmiss
  have hleave : (if t.dom.manager = 0xFF then t else t.leave).err = t.err := by
    split
    · rfl
    · obtain ⟨h, d, b, w, r, f, ks, o, e⟩ := State.sendOwn_frame t.drawByte.2 t.dom.manager 61 [t.drawByte.1]
      exact (congrArg State.err e).trans rfl
  rw [← hmiss, ← hleave]
  rfl

/-- The judgement of an error whose parent has DEPTH 2 (R447). -/
theorem State.judge_of_deep {s : State} {e : ErrIn} {h : Handling} (hp : s.parentOf e = some h) (hd : h.depth = 2)
    (hc : e.cls = 1 ∨ e.cls = 2) (hdata : e.isData = false) (hcond : e.isCondition = false) : s.judge e = ⟨some h, 3, true, 3⟩ := by
  have hup : s.escalate e ≠ 0 := by
    unfold State.escalate
    split
    · decide
    · split <;> decide
  have hne : e.cls ≠ 0 := by omega
  by_cases hs : h.shares e = true <;> simp [State.judge, hp, hdata, hcond, hs, hup, hne, hd]

/-- Settles O8: the stop leaves the handling, so the record is judged as the error is; the events keep the stop. -/
theorem depthThreeIsPackageFatal : Obligations.DepthThreeIsPackageFatal := by
  unfold Obligations.DepthThreeIsPackageFatal
  intro s e h hs hf hp hd hc hdata hcond u v
  have herr := s.stopPackage_err
  have hjudge : s.judge e = ⟨some h, 3, true, 3⟩ := State.judge_of_deep hp hd hc hdata hcond
  have hjudge' : s.stopPackage.judge e = ⟨some h, 3, true, 3⟩ := by
    refine State.judge_of_deep ?_ hd hc hdata hcond
    unfold State.parentOf at hp ⊢
    rw [herr]
    exact hp
  have hraise : s.raise e = v.setErr { v.err with silent := true } := by
    simp only [State.raise, hs, hjudge, State.fatal, hf, Bool.false_eq_true, if_false]
    rfl
  have hfatal : v.err.fatal = true := (State.events_keep (State.note_keep (Keep.refl s.stopPackage) e) _ _).fatal (by rw [herr])
  have hnote : u = s.stopPackage.putRecord (s.stopPackage.errRecord e ⟨some h, 3, true, 3⟩ 1) := by
    rw [← hjudge']
    exact State.note_of_fatal (by rw [herr]; exact hs) (by rw [hjudge'])
  obtain ⟨hlog, htotal⟩ := s.stopPackage.putRecord_log (s.stopPackage.errRecord e ⟨some h, 3, true, 3⟩ 1)
  rw [← hnote, herr] at hlog htotal
  exact ⟨hraise ▸ hfatal, hraise ▸ rfl, hraise, _, hlog, htotal, State.errRecord_fatal _ e h 1⟩

end Sys2Proof.Machine
end

section
/-! PROOF. The end of a kettle window: the enforced limit moves, and each die's allowance stays at least 1 and rises by at most
16 (spec 19 R464 to R475). -/

namespace Sys2Proof.Machine

/-! ## Sharing (R469, R475) -/

theorem State.allowance_frame (s : State) (e prev : Nat) (m : WindowMeas) : ∃ f, (s.allowance e prev m).2 = { s with free := f } := by
  unfold State.allowance
  split
  · exact ⟨s.free, rfl⟩
  · split
    · exact ⟨s.free, rfl⟩
    · exact ⟨_, rfl⟩

theorem State.paceNext_frame (s : State) (m : WindowMeas) : ∃ f, (s.paceNext m).2 = { s with free := f } := by
  unfold State.paceNext
  dsimp only
  split
  · exact ⟨_, rfl⟩
  · split
    · exact ⟨s.free, rfl⟩
    · split <;> exact ⟨s.free, rfl⟩

/-- Allowances of four dies, none below 1 and none more than 16 above what it was. -/
structure Shared (old new : List Nat) : Prop where
  length : new.length = 4
  pos : ∀ a ∈ new, 1 ≤ a
  rise : ∀ d, d < 4 → new.getD d 256 ≤ old.getD d 256 + 16

theorem Shared.of_die {old : List Nat} {f : Nat → Nat} (hpos : ∀ d, 1 ≤ f d) (hrise : ∀ d, f d ≤ old.getD d 256 + 16) :
    Shared old ((List.range 4).map f) where
  length := by simp
  pos := fun a ha => by
    obtain ⟨d, -, rfl⟩ := List.mem_map.1 ha
    exact hpos d
  rise := fun d hd => by
    rw [List.getD_eq_getElem?_getD, List.getElem?_map, List.getElem?_range hd]
    exact hrise d

/-- What the sharing of a limit changes. -/
theorem State.shareLimit_shares (s : State) (m : WindowMeas) : ∃ a b k l pace n f, s.shareLimit m = { s with
      pwr := { s.pwr with common := a, brakeAllow := b, brakeLim := k, allowance := l, pace := pace, halvings := n }, free := f } ∧
    Shared s.pwr.allowance l := by
  unfold State.shareLimit
  obtain ⟨f, hf⟩ := s.allowance_frame s.pwr.enforced s.pwr.common m
  obtain ⟨g, hg⟩ := State.allowance_frame { s with free := f } brakeFloor s.pwr.brakeAllow m
  obtain ⟨h, hh⟩ := State.paceNext_frame { s with free := g } m
  generalize s.allowance s.pwr.enforced s.pwr.common m = x at hf
  obtain ⟨a, t⟩ := x
  obtain rfl : t = { s with free := f } := hf
  dsimp only
  generalize State.allowance { s with free := f } brakeFloor s.pwr.brakeAllow m = y at hg
  obtain ⟨b, u⟩ := y
  obtain rfl : u = { s with free := g } := hg
  dsimp only
  generalize State.paceNext { s with free := g } m = z at hh
  obtain ⟨pace, v⟩ := z
  obtain rfl : v = { s with free := h } := hh
  refine ⟨_, _, _, _, _, _, _, rfl, .of_die (fun d => Nat.le_max_left ..) fun d => ?_⟩
  refine Nat.max_le.2 ⟨Nat.le_add_left_of_le (by decide), ?_⟩
  split
  · exact (Nat.min_le_left ..).trans (Nat.min_le_right ..)
  · exact Nat.min_le_right ..

/-! ## The window's end -/

/-- The window is measured, and the limit follows (R467, R473). -/
def State.measured (s : State) (m : WindowMeas) : State :=
  State.relimit ((s.keepWindow m.pIn).setPwr { (s.keepWindow m.pIn).pwr with
    input := m.pIn
    pLast := m.pIn
    temps := m.temps
    beatRate := (List.range 4).map fun d => m.beatRate.getD d 0
    vinCap := if m.vin_mV < 46000 then some (90 * m.vin_mV / 1000) else none })

/-- A brake whose pin waits takes effect at the window's end (R477). -/
def State.brakeTaken (s : State) : State := if s.start.brakePin && !s.pwr.brake then s.brakeOn else s

theorem State.brakeTaken_allowance_le (s : State) (d : Nat) :
    s.brakeTaken.pwr.allowance.getD d 256 ≤ s.pwr.allowance.getD d 256 := by
  unfold State.brakeTaken
  split
  · show (s.pwr.allowance.map fun a => min a s.pwr.brakeAllow).getD d 256 ≤ _
    rw [List.getD_eq_getElem?_getD, List.getD_eq_getElem?_getD, List.getElem?_map]
    cases s.pwr.allowance[d]? with
    | none => exact Nat.le_refl _
    | some a => exact Nat.min_le_left ..
  · exact Nat.le_refl _

theorem State.slew_frame (s : State) (pIn : Nat) : ∃ x o, s.slew pIn = { s with
    pwr := { s.pwr with
      enforced := nextE s.pwr.enforced s.pwr.limit s.lowCap s.pwr.thermalLimit pIn s.pwr.brake
      capLag := decide (s.pwr.limit < nextE s.pwr.enforced s.pwr.limit s.lowCap s.pwr.thermalLimit pIn s.pwr.brake) }
    err := x, out := o } :=
  State.noteIf_frame ..

section

variable {s : State} {m : WindowMeas} (hk : s.kettleOn = true) (ht : s.time.count.toNat % 200 = 0)
  (hw : s.pwr.windowAt ≠ some s.time.count)

include hk ht hw

theorem exec_kettleWindowEnd : exec (.kettleWindowEnd m) s = .next (((s.measured m).brakeTaken.slew m.pIn).shareLimit m) :=
  (act_of_true (by simpa [hk, State.now, ht] using hw) s _ : execKettleWindowEnd m s = _)

/-- The brake only lowers an allowance, and sharing raises it by at most 16 (R469). -/
theorem kettleWindowEnd_rises : ∃ t : State, exec (.kettleWindowEnd m) s = .next t ∧
    ∀ d, d < 4 → t.pwr.allowance.getD d 256 ≤ s.pwr.allowance.getD d 256 + 16 := by
  obtain ⟨x, o, hslew⟩ := (s.measured m).brakeTaken.slew_frame m.pIn
  obtain ⟨a, b, k, l, pace, n, f, hshare, hl⟩ := ((s.measured m).brakeTaken.slew m.pIn).shareLimit_shares m
  refine ⟨_, exec_kettleWindowEnd hk ht hw, fun d hd => ?_⟩
  rw [hslew] at hl
  rw [hshare]
  exact (hl.rise d hd).trans (Nat.add_le_add_right ((s.measured m).brakeTaken_allowance_le d) 16)

end

/-- Settles O9: every window by `kettleWindowEnd_rises`. -/
theorem allowanceRisesBySixteen : Obligations.AllowanceRisesBySixteen := by
  unfold Obligations.AllowanceRisesBySixteen
  exact fun s m hk ht hw => kettleWindowEnd_rises hk ht hw

/-! ## The enforced limit (R361, R473) -/

/-- The lowest of the sources: the caps and the variant maximum, the brake floor while BRAKE is 1, the thermal limit. -/
theorem State.lowest_limitSources_eq (s : State) : (lowestSource s.limitSources).1 =
    min (if s.pwr.brake then min s.lowCap brakeFloor else s.lowCap) s.pwr.thermalLimit := by
  obtain ⟨hmem, hle⟩ := s.lowest_limitSources
  generalize lowestSource s.limitSources = l at hmem hle
  have hmem : l.1 ∈ s.limitSources.map Prod.fst := List.mem_map_of_mem hmem
  have hle : ∀ w ∈ s.limitSources.map Prod.fst, l.1 ≤ w :=
    List.forall_mem_map.2 fun x hx => (hle x hx).elim Nat.le_of_lt fun h => h.1.le
  unfold State.lowCap
  by_cases hb : s.pwr.brake = true <;>
    simp only [State.limitSources, hb, if_true, if_false, Bool.false_eq_true, List.cons_append, List.nil_append, List.map_cons,
      List.map_nil, List.mem_cons, List.not_mem_nil, or_false, forall_eq_or_imp, forall_eq] at hmem hle ⊢
  · obtain ⟨hcap, hrack, hfloor, htherm, hvar⟩ := hle
    omega
  · obtain ⟨hcap, hrack, htherm, hvar⟩ := hle
    omega

/-- The enforced limit moves from a value that the brake floor and the thermal limit already hold. -/
theorem nextE_of_held (e l lcap tl pLast : Nat) (brake : Bool) :
    let held := min (if brake then min e brakeFloor else e) tl
    let drop := max lcap (min held pLast)
    nextE held l lcap tl pLast brake = if lcap < held then (if lcap < drop then max lcap (drop - 8) else drop)
      else if held < l then min l (held + 8) else held := by
  intro held drop
  have hfloor : (if brake then min held brakeFloor else held) = held := by
    cases brake
    · rfl
    · exact Nat.min_eq_left ((Nat.min_le_left ..).trans (Nat.min_le_right ..))
  have htl : ¬ tl < held := Nat.not_lt.2 (Nat.min_le_right ..)
  simp only [nextE, hfloor, htl, if_false]
  rfl

/-- Settles O46: what the window measured, then the limit and E as the slew leaves them; sharing changes neither. -/
theorem windowMovesTheEnforcedLimit : Obligations.WindowMovesTheEnforcedLimit := by
  unfold Obligations.WindowMovesTheEnforcedLimit
  intro s m hk ht hw hpin
  have hbrake : (s.measured m).brakeTaken = s.measured m := if_neg (by
    show ¬ (s.start.brakePin && !s.pwr.brake) = true
    simp [hpin])
  have hexec := exec_kettleWindowEnd (m := m) hk ht hw
  obtain ⟨x, o, hslew⟩ := (s.measured m).slew_frame m.pIn
  obtain ⟨a, b, k, l, pace, n, f, hshare, hl⟩ := ((s.measured m).slew m.pIn).shareLimit_shares m
  rw [hbrake, hshare, hslew] at hexec
  have hmax : (s.measured m).lowCap = min (min s.pwr.cap s.pwr.rackCap)
      (if m.vin_mV < 46000 then min s.part.maxWatts (90 * m.vin_mV / 1000) else s.part.maxWatts) := by
    show min (min s.pwr.cap s.pwr.rackCap) (min s.part.maxWatts
      ((if m.vin_mV < 46000 then some (90 * m.vin_mV / 1000) else none).getD s.part.maxWatts)) = _
    split
    · rfl
    · exact congrArg _ (Nat.min_self _)
  have hlimit := State.lowest_limitSources_eq ((s.keepWindow m.pIn).setPwr { (s.keepWindow m.pIn).pwr with
    input := m.pIn
    pLast := m.pIn
    temps := m.temps
    beatRate := (List.range 4).map fun d => m.beatRate.getD d 0
    vinCap := if m.vin_mV < 46000 then some (90 * m.vin_mV / 1000) else none })
  refine ⟨_, hexec, rfl, rfl, rfl, rfl, rfl, rfl, rfl, rfl, hl.pos, hl.length, ?_⟩
  intro vmax lcap limit held drop e
  have hl' : (s.measured m).pwr.limit = limit := hlimit.trans (by
    simp only [limit, lcap, vmax, ← hmax]
    rfl)
  have he : nextE (s.measured m).pwr.enforced (s.measured m).pwr.limit (s.measured m).lowCap (s.measured m).pwr.thermalLimit m.pIn
      (s.measured m).pwr.brake = e := by
    rw [hl', hmax]
    exact nextE_of_held s.pwr.enforced limit lcap s.pwr.thermalLimit m.pIn s.pwr.brake
  refine ⟨hl', he, ?_⟩
  show decide ((s.measured m).pwr.limit < _) = _
  rw [he, hl']

end Sys2Proof.Machine
end

section
/-! PROOF. What opens the first stage and what START_GATE_MET closes it on (spec 19 R466, R480; spec 21 R514, R516, R521 to
R524). -/

namespace Sys2Proof.Machine

/-! ## The first stage opens -/

/-- The state without its rails, before PKG_PG falls. -/
def State.fallen (s : State) : State :=
  let t := s.fresh.dropLog
  { t with
    pwr := { t.pwr with rackCap := s.pwr.rackCap, chatter := s.pwr.chatter }
    sec := { t.sec with sources := s.sec.sources }
    start := { t.start with firstStage := false } }

theorem State.openStage_eq (s : State) : ∃ o, s.openStage = { s.fallen with out := s.out ++ o } := by
  unfold State.openStage
  dsimp only
  split
  · exact ⟨_, rfl⟩
  · exact ⟨[], by rw [List.append_nil]; rfl⟩

/-- Every rail but VAON is gone with what it held; the caddy's dies, the part and the queue stay (R466, R516). -/
structure Opened (s t : State) : Prop where
  parts : t.start.firstStage = false ∧ t.start.pkgPg = false ∧ t.hif = {} ∧ t.rings = [] ∧ t.eng = {} ∧ t.model = none ∧
    t.mem.hbm = [] ∧ t.sec.locked = false ∧ t.err.log = [] ∧ t.caddy.bankA.data = s.caddy.bankA.data ∧
    t.caddy.bankB.data = s.caddy.bankB.data ∧ t.caddy.wrappedKey = s.caddy.wrappedKey ∧ t.part = s.part ∧ t.pending = s.pending

theorem State.fallen_opened (s : State) (o : List Out) : Opened s { s.fallen with out := o } := by
  constructor
  and_intros <;> rfl

section

variable {s : State} (hv : s.start.vaon = true) (hf : s.start.firstStage = true)

include hv hf

theorem exec_emergencyOffN_opens (he : s.start.eoffPin = false) (chatter : Bool) : ∃ c o, exec (.emergencyOffN chatter) s =
    .next { State.fallen { s with start := { s.start with eoffPin := true, eoffLatch := true }, pwr := { s.pwr with chatter := c } }
      with out := s.out ++ o } := by
  obtain ⟨c, hc⟩ := State.chatter_frame { s with start := { s.start with eoffPin := true, eoffLatch := true } } 2 chatter
  obtain ⟨o, ho⟩ := State.openStage_eq { s with start := { s.start with eoffPin := true, eoffLatch := true }, pwr := { s.pwr with chatter := c } }
  refine ⟨c, o, (act_of_true (by simp [hv, he]) s _ : execEmergencyOffN chatter s = _).trans (congrArg _ (.trans ?_ ho))⟩
  dsimp only
  rw [State.setStart, hc]
  exact if_pos hf

theorem exec_thermalTrip_opens (unit die pos : Nat) : ∃ o, exec (.thermalTrip unit die pos) s =
    .next { State.fallen { s with pwr := { s.pwr with trip := some (unit, die, pos) }, start := { s.start with faultHeld := true } }
      with out := (s.out ++ [.pin "THERMTRIP_N" false]) ++ o } := by
  obtain ⟨o, ho⟩ := State.openStage_eq { s with
    pwr := { s.pwr with trip := some (unit, die, pos) }
    start := { s.start with faultHeld := true }
    out := s.out ++ [.pin "THERMTRIP_N" false] }
  exact ⟨o, (act_of_true (by simp [hv, hf]) s _ : execThermalTrip unit die pos s = _).trans (congrArg _ ho)⟩

theorem exec_firstStageOpen_opens (cause : OpenCause) : ∃ o, exec (.firstStageOpen cause) s =
    .next { (s.openFlag cause).fallen with out := (s.openFlag cause).out ++ o } := by
  obtain ⟨o, ho⟩ := (s.openFlag cause).openStage_eq
  exact ⟨o, (act_of_true (by simp [hv, hf]) s _ : execFirstStageOpen cause s = _).trans (congrArg _ ho)⟩

theorem exec_vaonLoss_opens : ∃ o, exec .vaonLoss s = .next { s.fallen with
    pwr := { s.fallen.pwr with trip := none, railFault := none }
    sec := { s.fallen.sec with owed := false, sources := 0 }
    start := { s.fallen.start with vaon := false, faultHeld := false, vinOpen := false }
    time := {}, out := o } := by
  obtain ⟨o, ho⟩ := s.openStage_eq
  have hexec : exec .vaonLoss s = _ := (act_of_true hv s _ : execVaonLoss s = _)
  rw [hexec]
  simp only [hf, if_true, ho]
  split
  · exact ⟨_, rfl⟩
  · exact ⟨_, rfl⟩

end

/-! ## The start gate -/

/-- The rack holds a start back only where it is sequenced and an input is missing (R521 to R523). -/
theorem State.rack_met {s : State} (h : s.startMode = 2 ∨ (s.startMode = 0 ∧ s.start.straps.seqStart = true) →
    s.start.rackPg.findIdx? (!·) = none) : (!s.sequenced || decide (5 ≤ rackWait s.start.rackPg)) = true := by
  by_cases hs : s.sequenced = true
  · simp [rackWait, h (by simpa [State.sequenced] using hs)]
  · simp [hs]

theorem exec_startGateMet_closes {s : State} (h : s.gateMet true = true) : exec (.startGateMet true) s =
    .next (let t := if s.start.vinOpen then s.resetAll.dropLog else s
      t.setStart { t.start with firstStage := true, vinOpen := false }) :=
  (act_of_true h s _ : execStartGateMet true s = _)

theorem exec_startGateMet_stays {s : State} {v : Bool} (h : s.gateMet v = false) : exec (.startGateMet v) s = .next s :=
  (act_of_false h s _ : execStartGateMet v s = _)

/-- Settles O55: each cause by the state it leaves, the gate by its conditions. -/
theorem firstStageOpensAndCloses : Obligations.FirstStageOpensAndCloses := by
  unfold Obligations.FirstStageOpensAndCloses
  refine ⟨fun s hv hf => ?opens, fun s hv hf => ⟨fun hr hp hl hh hrack => ?closes, ?novin, fun hheld v => ?held⟩⟩
  case opens =>
    intro open_
    refine ⟨fun he chatter => ?_, fun unit die pos => ?_, ?_, ?_, fun r => ?_, ?_⟩
    · obtain ⟨c, o, hexec⟩ := exec_emergencyOffN_opens hv hf he chatter
      exact ⟨_, hexec, ⟨(State.fallen_opened _ _).parts, rfl, rfl, rfl, hv⟩⟩
    · obtain ⟨o, hexec⟩ := exec_thermalTrip_opens hv hf unit die pos
      exact ⟨_, hexec, (State.fallen_opened _ _).parts, rfl, rfl, rfl, by simp⟩
    · obtain ⟨o, hexec⟩ := exec_firstStageOpen_opens hv hf .vinRange
      exact ⟨_, hexec, (State.fallen_opened _ _).parts, rfl, rfl⟩
    · obtain ⟨o, hexec⟩ := exec_firstStageOpen_opens hv hf .busCurrent
      exact ⟨_, hexec, (State.fallen_opened _ _).parts, rfl, rfl⟩
    · obtain ⟨o, hexec⟩ := exec_firstStageOpen_opens hv hf (.railCurrent r)
      exact ⟨_, hexec, (State.fallen_opened _ _).parts, rfl, rfl⟩
    · obtain ⟨o, hexec⟩ := exec_vaonLoss_opens hv hf
      exact ⟨_, hexec, (s.fallen_opened o).parts, rfl, rfl, rfl, rfl, rfl, rfl⟩
  case closes =>
    have hgate : s.gateMet true = true := by
      simp only [State.gateMet, hv, hf, hr, hp, hl, hh, State.rack_met hrack]
      rfl
    have hexec := exec_startGateMet_closes hgate
    refine ⟨fun hvin => ?_, fun hvin => ?_⟩
    · rw [hvin] at hexec
      refine hexec.trans ?_
      show _ = Host.Outcome.next { s with start := { s.start with firstStage := true, vinOpen := s.start.vinOpen } }
      rw [hvin]
      rfl
    · rw [hvin] at hexec
      exact ⟨_, hexec, rfl, rfl, rfl, rfl⟩
  case novin => exact exec_startGateMet_stays (by simp [State.gateMet])
  case held =>
    refine exec_startGateMet_stays ?_
    obtain h | h | h | h := hheld <;> simp [State.gateMet, h]

end Sys2Proof.Machine
end

section
/-! PROOF. PERST_N ends the ring pairs and the host's keys (spec 21 R519). -/

namespace Sys2Proof.Machine

/-- What the end of ring pairs leaves: long operations stay under their handles, and no pair is enabled by it. -/
structure Killed (s t : State) : Prop where
  frame : ∃ a w l r f, t = { s with accepted := a, waiting := w, longOps := l, rings := r, fab := f }
  ops : t.longOps.keys = s.longOps.keys
  off : ∀ n, (s.ring n).enable = false → (t.ring n).enable = false

namespace Killed

variable {r s t : State}

theorem refl (s : State) : Killed s s := ⟨⟨s.accepted, s.waiting, s.longOps, s.rings, s.fab, rfl⟩, rfl, fun _ => id⟩

theorem trans (h : Killed r s) (k : Killed s t) : Killed r t where
  frame := by
    obtain ⟨a, w, l, r, f, rfl⟩ := h.frame
    obtain ⟨a', w', l', r', f', rfl⟩ := k.frame
    exact ⟨a', w', l', r', f', rfl⟩
  ops := k.ops.trans h.ops
  off := fun n => k.off n ∘ h.off n

end Killed

theorem Tab.keys_mapVals {α : Type} (t : Tab α) (f : Nat → α → α) : (t.mapVals f).keys = t.keys := by
  simp [Tab.mapVals, Tab.keys]

/-- A fold that drops waiting descriptors drops no more. -/
theorem foldl_erase_waiting (ws : List Waiting) : ∀ s : State,
    ∃ w, ws.foldl (fun s w => { s with waiting := s.waiting.erase w }) s = { s with waiting := w } := by
  induction ws with
  | nil => exact fun s => ⟨s.waiting, rfl⟩
  | cons w ws ih => exact fun s => ih { s with waiting := s.waiting.erase w }

theorem State.detach_frame (s : State) (n : Nat) : ∃ a w l f, s.detach n =
    { s with accepted := a, waiting := w, longOps := l, fab := f } ∧ l.keys = s.longOps.keys := by
  unfold State.detach
  obtain ⟨w, hw⟩ := foldl_erase_waiting (s.waiting.filter fun w => w.ring = n && w.what.object.isSome) s
  rw [hw]
  exact ⟨_, _, _, _, rfl, by rw [State.orphanOps, Tab.keys_mapVals, Tab.keys_mapVals]⟩

/-- A pair that is enabled is closed with its work detached (R519). -/
theorem State.killRing_killed (s : State) (n : Nat) : Killed s (s.killRing n) ∧ ((s.killRing n).ring n).enable = false := by
  unfold State.killRing
  split
  · obtain ⟨a, w, l, f, hd, hl⟩ := s.detach_frame n
    rw [hd]
    refine ⟨⟨⟨_, _, _, _, _, rfl⟩, hl, fun m hm => ?_⟩, by simp [State.closeRing]⟩
    rcases eq_or_ne m n with rfl | hne
    · simp [State.closeRing]
    · rw [State.ring_onRing_ne _ _ hne, State.closeRing, State.ring_onRing_ne _ _ hne]
      exact hm
  · next h => exact ⟨.refl s, by simpa using h⟩

theorem foldl_killRing (ns : List Nat) : ∀ s : State,
    let t := ns.foldl (fun s n => s.killRing n) s
    Killed s t ∧ ∀ n ∈ ns, (t.ring n).enable = false := by
  induction ns with
  | nil => exact fun s => ⟨.refl s, by simp⟩
  | cons n ns ih =>
    intro s
    obtain ⟨hkill, hn⟩ := s.killRing_killed n
    obtain ⟨hrest, hns⟩ := ih (s.killRing n)
    exact ⟨hkill.trans hrest, List.forall_mem_cons.2 ⟨hrest.off n hn, hns⟩⟩

/-- The state once PERST_N has ended the pairs. -/
def State.perstDown (s : State) : State :=
  s.rings.keys.foldl (fun s n => s.killRing n) { s with start := { s.start with perst := true } }

theorem exec_perstN {s : State} (hv : s.start.vaon = true) (hp : s.start.perst = false) (chatter : Bool) :
    exec (.perstN chatter) s = .next { s.perstDown with
      err := { s.perstDown.err with ringEn := false }
      sec := { s.perstDown.sec with ideKeys := [], ideSecure := false }
      hif := { s.perstDown.hif with bootWin := [] } } :=
  (act_of_true (by simp [hv, hp]) s _ : execPerstN chatter s = _)

/-- Settles O54: the pairs by `foldl_killRing`, which leaves what the other clauses name. -/
theorem perstEndsRings : Obligations.PerstEndsRings := by
  unfold Obligations.PerstEndsRings
  intro s chatter hv hp
  obtain ⟨hkill, hoff⟩ : Killed { s with start := { s.start with perst := true } } s.perstDown ∧
      ∀ n ∈ s.rings.keys, (s.perstDown.ring n).enable = false := foldl_killRing _ _
  have hops : s.perstDown.longOps.keys = s.longOps.keys := hkill.ops
  refine ⟨_, exec_perstN hv hp chatter, ?_⟩
  obtain ⟨a, w, l, r, f, hdown⟩ := hkill.frame
  rw [hdown] at hoff hops ⊢
  exact ⟨rfl, hoff, rfl, rfl, rfl, rfl, rfl, hops, rfl, rfl, rfl, rfl⟩

end Sys2Proof.Machine
end

section
/-! PROOF. Levels of pins, and the test access port (spec 20 R502; spec 21 R511, R514, R515, R519, R523, R532). -/

namespace Sys2Proof.Machine

/-! ## Pins -/

section

variable {s : State} (hv : s.start.vaon = true)

include hv

theorem exec_perstNDeassert (hp : s.start.perst = true) :
    exec .perstNDeassert s = .next { s with start := { s.start with perst := false } } :=
  (act_of_true (by simp [hv, hp]) s _ : execPerstNDeassert s = _)

theorem exec_emergencyOffDeassert (he : s.start.eoffPin = true) :
    exec .emergencyOffDeassert s = .next { s with start := { s.start with eoffPin := false } } :=
  (act_of_true (by simp [hv, he]) s _ : execEmergencyOffDeassert s = _)

theorem exec_rackPgChange {i : Nat} (hi : i < 5) (high : Bool) :
    exec (.rackPgChange i high) s = .next { s with start := { s.start with rackPg := s.start.rackPg.set i high } } :=
  (act_of_true (by simp [hv, hi]) s _ : execRackPgChange i high s = _)

theorem exec_traySenseN (ht : s.start.trayPin = false) (chatter : Bool) :
    exec (.traySenseN chatter) s = .next (State.chatter { s with start := { s.start with trayPin := true } } 3 chatter) :=
  (act_of_true (by simp [hv, ht]) s _ : execTraySenseN chatter s = _)

/-- A tray that is latched lets a start pass the gate that holds at it (R515; notes/assumptions/101.md). -/
theorem exec_traySenseDeassert (ht : s.start.trayPin = true) : exec .traySenseDeassert s = .next { s with start := { s.start with
    trayPin := false
    gatePassed := s.start.gatePassed || (s.hif.mgmtRun && s.caddy.opened) } } := by
  refine (act_of_true (by simp [hv, ht]) s _ : execTraySenseDeassert s = _).trans (congrArg _ ?_)
  simp [State.passGate, State.setStart]

end

/-! ## The test access port -/

/-- The port with an instruction selected and its cells, the bits shifted out. -/
def State.shifted (s : State) (i : Nat) (cells bits : List Bool) : State :=
  { s with start := { s.start with tapReset := false, tapInstr := i, tapCells := cells }, out := s.out ++ [.tdo bits] }

theorem State.idcode_eq (s : State) : s.idcode = s.part.stepMajor % 16 * 0x10000000 + 0x0A48 * 0x1000 + 0x326 * 2 + 1 := by
  simp [State.idcode, putBits]

section

variable {s : State} (hp : s.powered = true)

include hp

theorem exec_trstN : exec .trstN s = .next { s with start := { s.start with tapReset := true, tapInstr := 0 } } :=
  (act_of_true hp s _ : execTrstN s = _)

theorem exec_bypass : exec .bypass s = .next (s.shifted 1 s.start.tapCells [false]) :=
  (act_of_true hp s _ : execBypass s = _)

theorem exec_idcode : exec .idcode s = .next (s.shifted 0 s.start.tapCells ((List.range 32).map
    (s.part.stepMajor % 16 * 0x10000000 + 0x0A48 * 0x1000 + 0x326 * 2 + 1).testBit)) := by
  rw [← s.idcode_eq]
  exact (act_of_true hp s _ : execIdcode s = _)

/-- Where the port offers boundary scan, its instructions take the cells shifted in. -/
theorem scan_open (h : s.scanOpen = true) (sample : Bool) (cells : List Bool) :
    exec (.samplePreload sample cells) s = .next (s.shifted 2 cells (if sample then cells else s.start.tapCells)) ∧
    exec (.extest cells) s = .next (s.shifted 3 cells s.start.tapCells) := by
  have hopen : ¬ (!s.scanOpen) = true := by simp [h]
  exact ⟨(act_of_true hp s _ : execSamplePreload sample cells s = _).trans (congrArg _ (if_neg hopen)),
    (act_of_true hp s _ : execExtest cells s = _).trans (congrArg _ (if_neg hopen))⟩

/-- Elsewhere they act as BYPASS (R502). -/
theorem scan_closed (h : s.scanOpen = false) (sample : Bool) (cells : List Bool) :
    exec (.samplePreload sample cells) s = .next (s.shifted 1 s.start.tapCells [false]) ∧
    exec (.extest cells) s = .next (s.shifted 1 s.start.tapCells [false]) := by
  have hclosed : (!s.scanOpen) = true := by simp [h]
  exact ⟨(act_of_true hp s _ : execSamplePreload sample cells s = _).trans (congrArg _ (if_pos hclosed)),
    (act_of_true hp s _ : execExtest cells s = _).trans (congrArg _ (if_pos hclosed))⟩

end

/-- Settles O58: every pin and every instruction by its equation. -/
theorem pinsAndTestPortAnswer : Obligations.PinsAndTestPortAnswer := by
  unfold Obligations.PinsAndTestPortAnswer
  refine ⟨fun s hv => ⟨exec_perstNDeassert hv, exec_emergencyOffDeassert hv, fun i high hi => exec_rackPgChange hv hi high,
    fun ht => ⟨exec_traySenseN hv ht false, exec_traySenseN hv ht true⟩, exec_traySenseDeassert hv⟩, fun s hp => ?port⟩
  case port =>
    refine ⟨exec_trstN hp, exec_bypass hp, exec_idcode hp, fun cells hl hj => ?_, fun sample cells h => ?_⟩
    · have hopen := scan_open hp (by simp [State.scanOpen, hl, hj])
      exact ⟨(hopen true cells).1, (hopen false cells).1, (hopen true cells).2⟩
    · exact scan_closed hp (by obtain h | h := h <;> simp [State.scanOpen, h]) sample cells

end Sys2Proof.Machine
end

section
/-! PROOF. Alarms and the action that the fuse selects (spec 20 R494 to R498). -/

namespace Sys2Proof.Machine

/-! ## The lock (R496, R498) -/

theorem State.dropBuild_frame (s : State) : ∃ l, s.dropBuild = { s with longOps := l, caddy := { s.caddy with build := none } } := by
  unfold State.dropBuild
  split
  · exact ⟨_, rfl⟩
  · next h =>
    have hbuild : { s.caddy with build := none } = s.caddy := by rw [← h]
    exact ⟨s.longOps, by rw [hbuild]⟩

/-- The lock: no build, no flit, no further record. -/
theorem State.lockNow_frame (s : State) (cls : Nat) : ∃ l x o, s.lockNow cls = { s with
      longOps := l, caddy := { s.caddy with build := none }, links := s.stopLinks.links, err := x, out := o
      sec := { s.sec with locked := true } } ∧ x.silent = true := by
  obtain ⟨l, hl⟩ := s.dropBuild_frame
  obtain ⟨x, o, hn⟩ := State.note_frame s.dropBuild.stopLinks (s.dropBuild.stopLinks.alarmRecord cls)
  refine ⟨l, { x with silent := true }, o, ?_, rfl⟩
  unfold State.lockNow
  dsimp only
  rw [hn, hl]
  rfl

theorem State.stopLinks_off (s : State) : ∀ p ∈ s.stopLinks.links, p.2.train = .off := by
  intro p hp
  obtain ⟨q, -, rfl⟩ := List.mem_map.1 (show p ∈ s.links.map _ from hp)
  rfl

/-! ## The actions (R495, R498) -/

/-- The state with a source raised, before any action. -/
def State.sourced (s : State) (src : AlarmSource) : State :=
  s.setSec { s.sec with sources := s.sec.sources ||| ((1 : BitVec 5) <<< sourceBit src) }

section

variable {s : State} {src : AlarmSource}

theorem State.alarm_locked (hl : s.sec.locked = true) : s.alarm src = s.sourced src := if_pos hl

theorem State.alarm_unpowered (hl : s.sec.locked = false) (hf : s.start.firstStage = false) : s.alarm src =
    let u := (s.sourced src).setSec { (s.sourced src).sec with owed := true, locked := s.alarmAction != 0 }
    if 2 ≤ s.alarmAction then u.eraseCells else u :=
  (if_neg (Bool.eq_false_iff.1 hl)).trans (if_pos (by rw [Bool.not_eq_true']; exact hf))

section

variable (hl : s.sec.locked = false) (hf : s.start.firstStage = true)

include hl hf

/-- With the first stage closed the fuse alone decides. -/
theorem State.alarm_powered : s.alarm src = if s.alarmAction = 0 then (s.sourced src).note ((s.sourced src).alarmRecord 0)
    else if s.alarmAction = 1 then (s.sourced src).lockNow 3 else ((s.sourced src).zeroise.clearSram).lockNow 3 :=
  (if_neg (Bool.eq_false_iff.1 hl)).trans (if_neg (by rw [Bool.not_eq_true', Bool.not_eq_false]; exact hf))

theorem State.alarm_reports (ha : s.alarmAction = 0) : ∃ x o, s.alarm src = { s.sourced src with err := x, out := o } := by
  obtain ⟨x, o, hn⟩ := State.note_frame (s.sourced src) ((s.sourced src).alarmRecord 0)
  exact ⟨x, o, (State.alarm_powered hl hf).trans ((if_pos ha).trans hn)⟩

theorem State.alarm_locks (ha : s.alarmAction = 1) : s.alarm src = (s.sourced src).lockNow 3 := by
  rw [State.alarm_powered hl hf, if_neg (by omega), if_pos ha]

theorem State.alarm_erases (ha : 2 ≤ s.alarmAction) : s.alarm src = ((s.sourced src).zeroise.clearSram).lockNow 3 := by
  rw [State.alarm_powered hl hf, if_neg (by omega), if_neg (by omega)]

end

end

/-! ## An alarm as it is sensed (R511 to R513) -/

/-- A source that asserts: a pin is held, and chatter is counted. -/
def State.sensed (s : State) (src : AlarmSource) (chatters : List Nat) : State := { s with
  sec := { s.sec with asserted := if isPinSource src then s.sec.asserted ||| ((1 : BitVec 5) <<< sourceBit src) else s.sec.asserted }
  pwr := { s.pwr with chatter := chatters } }

theorem exec_secAlarm {s : State} {src : AlarmSource} (hv : s.start.vaon = true)
    (ha : s.sec.asserted.getLsbD (sourceBit src) = false) (chatter : Bool) :
    ∃ c, exec (.secAlarm src chatter) s = .next ((s.sensed src c).alarm src) := by
  have hexec : exec (.secAlarm src chatter) s = _ := (act_of_true (by rw [ha, hv]; simp) s _ : execSecAlarm src chatter s = _)
  by_cases hpin : isPinSource src = true
  · obtain ⟨c, hc⟩ := State.chatter_frame (s.setSec { s.sec with
      asserted := s.sec.asserted ||| ((1 : BitVec 5) <<< sourceBit src) }) 0 chatter
    refine ⟨c, ?_⟩
    simp only [hexec, hpin, if_true, hc, State.sensed]
    rfl
  · exact ⟨s.pwr.chatter, by simp only [hexec, hpin, Bool.false_eq_true, if_false, State.sensed]⟩

/-- Settles O48: the sensed alarm by its lock, by the first stage, and by the fuse. -/
theorem alarmTakesItsAction : Obligations.AlarmTakesItsAction := by
  unfold Obligations.AlarmTakesItsAction
  intro s src chatter hv ha
  obtain ⟨c, hexec⟩ := exec_secAlarm hv ha chatter
  refine ⟨_, hexec, ?_⟩
  have haction : (s.sensed src c).alarmAction = s.alarmAction := rfl
  cases hl : s.sec.locked with
  | true =>
    rw [State.alarm_locked (s := s.sensed src c) hl]
    exact ⟨rfl, rfl, fun _ => ⟨⟨rfl, rfl, rfl⟩, hl, rfl⟩, nofun, nofun⟩
  | false =>
    cases hf : s.start.firstStage with
    | true =>
      obtain h0 | h1 | h2 : s.alarmAction = 0 ∨ s.alarmAction = 1 ∨ 2 ≤ s.alarmAction := by omega
      · obtain ⟨x, o, h⟩ := State.alarm_reports (s := s.sensed src c) (src := src) hl hf h0
        rw [h]
        exact ⟨rfl, rfl, nofun, fun _ _ => ⟨fun _ => ⟨⟨rfl, rfl, rfl⟩, hl, rfl, rfl⟩, by omega, by omega⟩, nofun⟩
      · obtain ⟨l, x, o, h, hx⟩ := ((s.sensed src c).sourced src).lockNow_frame 3
        rw [State.alarm_locks (s := s.sensed src c) hl hf h1, h]
        exact ⟨rfl, rfl, nofun, fun _ _ => ⟨by omega, fun _ => ⟨⟨rfl, rfl, rfl⟩, rfl, hx, State.stopLinks_off _, rfl⟩, by omega⟩, nofun⟩
      · obtain ⟨l, x, o, h, hx⟩ := ((s.sensed src c).sourced src).zeroise.clearSram.lockNow_frame 3
        rw [State.alarm_erases (s := s.sensed src c) hl hf h2, h]
        exact ⟨rfl, rfl, nofun, fun _ _ => ⟨by omega, by omega, fun _ =>
          ⟨⟨rfl, rfl, rfl, rfl⟩, ⟨rfl, hx, State.stopLinks_off _, rfl⟩, rfl, rfl, rfl, rfl, rfl, rfl, rfl⟩⟩, nofun⟩
    | false =>
      rw [State.alarm_unpowered (s := s.sensed src c) hl hf, haction]
      dsimp only
      have hlock : (s.alarmAction != 0) = true ↔ s.alarmAction ≠ 0 := bne_iff_ne
      split
      · exact ⟨rfl, rfl, nofun, nofun, fun _ _ => ⟨rfl, hlock, rfl, fun _ => ⟨rfl, rfl, rfl, rfl⟩, by omega⟩⟩
      · exact ⟨rfl, rfl, nofun, nofun, fun _ _ => ⟨rfl, hlock, rfl, by omega, fun _ => ⟨rfl, rfl, rfl⟩⟩⟩

end Sys2Proof.Machine
end

section
/-! PROOF. The fuse check, alarm inputs that deassert, and the IDE integrity check (spec 20 R487, R494, R506; spec 21 R513). -/

namespace Sys2Proof.Machine

theorem State.lockNow_sec_part (s : State) (cls : Nat) : (s.lockNow cls).sec = { s.sec with locked := true } ∧ (s.lockNow cls).part = s.part := by
  obtain ⟨l, x, o, h, -⟩ := s.lockNow_frame cls
  rw [h]
  exact ⟨rfl, rfl⟩

theorem State.zeroise_clearSram_sec_part (s : State) : s.zeroise.clearSram.part = s.part ∧
    s.zeroise.clearSram.sec = { s.sec with session := none, ideKeys := [], ideSecure := false } := ⟨rfl, rfl⟩

/-- Whatever its action, an alarm sets its source and leaves the readings of fuses and the part. -/
theorem State.alarm_parts (s : State) (src : AlarmSource) : (s.alarm src).sec.restrict = s.sec.restrict ∧
    (s.alarm src).sec.sources = s.sec.sources ||| ((1 : BitVec 5) <<< sourceBit src) ∧ (s.alarm src).part = s.part := by
  cases hl : s.sec.locked with
  | true => rw [State.alarm_locked hl]; exact ⟨rfl, rfl, rfl⟩
  | false =>
    cases hf : s.start.firstStage with
    | true =>
      rw [State.alarm_powered hl hf]
      split
      · obtain ⟨x, o, hn⟩ := State.note_frame (s.sourced src) ((s.sourced src).alarmRecord 0)
        rw [hn]; exact ⟨rfl, rfl, rfl⟩
      · split
        · obtain ⟨hsec, hpart⟩ := (s.sourced src).lockNow_sec_part 3
          rw [hsec, hpart]; exact ⟨rfl, rfl, rfl⟩
        · obtain ⟨hsec, hpart⟩ := (s.sourced src).zeroise.clearSram.lockNow_sec_part 3
          obtain ⟨hpart', hsec'⟩ := (s.sourced src).zeroise_clearSram_sec_part
          rw [hsec, hpart, hsec', hpart']; exact ⟨rfl, rfl, rfl⟩
    | false =>
      rw [State.alarm_unpowered hl hf]
      dsimp only
      split <;> exact ⟨rfl, rfl, rfl⟩

/-- An interval has passed where every time it started from lies that far back. -/
theorem State.elapsed_of_all {s : State} {o : Option DWord} {n : Nat} (h : ∀ t, o = some t → n ≤ (s.time.count - t).toNat) :
    s.elapsed o n = true := by
  cases o with
  | none => rfl
  | some t => exact decide_eq_true (h t rfl)

section

variable {s : State} (hp : s.powered = true) (he : s.elapsed s.sec.fuseAt 25000000 = true)

include hp he

theorem exec_fuseCheck (failed : List FuseField) : exec (.fuseCheck failed) s =
    .next (State.fuseCheck { s with sec := { s.sec with fuseAt := some s.time.count } } failed) :=
  (act_of_true (by simp [hp, he]) s _ : execFuseCheck failed s = _)

/-- A field that fails reads restrictively, and FUSE_INTEGRITY is raised (R487). -/
theorem fuseCheck_fails {f : FuseField} {rest : List FuseField} (hr : s.sec.restrict = []) :
    ∃ t : State, exec (.fuseCheck (f :: rest)) s = .next t ∧ f ∈ t.sec.restrict ∧
      t.sec.sources = s.sec.sources ||| 0x10 ∧ t.part = s.part := by
  obtain ⟨hrestrict, hsources, hpart⟩ := State.alarm_parts { s with sec := { s.sec with
    fuseAt := some s.time.count
    restrict := s.sec.restrict ++ (f :: rest).filter fun f => !s.sec.restrict.contains f } } .fuseIntegrity
  refine ⟨_, exec_fuseCheck hp he _, ?_, hsources, hpart⟩
  refine hrestrict ▸ (?_ : f ∈ s.sec.restrict ++ _)
  simp [hr]

end

/-- Settles O49: the check with and without a failing field, the release and the integrity failure by their equations. -/
theorem fuseAndIntegrityChecks : Obligations.FuseAndIntegrityChecks := by
  unfold Obligations.FuseAndIntegrityChecks
  refine fun s => ⟨fun hp hat => ⟨exec_fuseCheck hp (State.elapsed_of_all hat) [], fun f rest hr =>
    fuseCheck_fails hp (State.elapsed_of_all hat) hr⟩, fun src hv ha => ?release, fun hu hi => ?ide⟩
  case release => exact (act_of_true (by rw [hv, ha]; rfl) s _ : execAlarmInputDeassert src s = _)
  case ide =>
    obtain ⟨x, o, hn⟩ := State.note_frame (s.setSec { s.sec with ideSecure := false }) { status := 0x0806, cls := 0 }
    refine ⟨_, (act_of_true (by simp [hu, hi]) s _ : execIdeIntegrityFailure s = _), ?_⟩
    rw [hn]
    exact ⟨rfl, rfl, rfl, rfl⟩

end Sys2Proof.Machine
end

section
/-! PROOF. Attestation, and the secured session that keys the IDE stream (spec 20 R487, R504 to R506). -/

namespace Sys2Proof.Machine

variable {s : State} {q : SpdmReq}

/-! ## Attestation (R504, R505) -/

/-- The index of a measurement block is 1 to 8. -/
theorem State.measurement_none {i : Nat} (h : 9 ≤ i) : s.measurement i = none := by
  unfold State.measurement
  split <;> first | omega | rfl

section

variable (hr : s.responder = true) (hq : q.session = none) (hs : 3 ≤ s.sec.spdmStep)

include hr hq hs

theorem exec_getDigests : exec (.getDigests q) s = .next (s.emit (.spdm none 0x01 0 3
    (leBytes 32 (Config.shake256 (Config.certChain 0 s.part.secret)).toNat ++
      leBytes 32 (Config.shake256 (Config.certChain 1 s.part.secret)).toNat))) := by
  refine (State.spdm_in_clear hr hq hs : execGetDigests q s = _).trans (congrArg _ ?_)
  rw [State.respond_of_short _ _ _ _ (by simp [digestBytes, length_leBytes]), hq]
  rfl

theorem exec_getCertificate_invalid {slot offset : Nat} (h : slot < 2 → (Config.certChain slot s.part.secret).length ≤ offset) (len : Nat) :
    exec (.getCertificate q slot offset len) s = .next (s.emit (.spdm none 0x7F 0x01 0 [])) := by
  refine (State.spdm_in_clear hr hq hs : execGetCertificate q slot offset len s = _).trans (congrArg _ ?_)
  refine (if_pos ?_).trans (by rw [State.spdmError, hq]; rfl)
  by_cases hslot : slot < 2
  · simp [State.chain, hslot, h hslot]
  · simp [Nat.not_lt.1 hslot]

/-- A part of a chain, and how much of it remains. -/
theorem exec_getCertificate {slot offset : Nat} (hslot : slot < 2) (h : offset < (Config.certChain slot s.part.secret).length) (len : Nat) :
    let part := ((Config.certChain slot s.part.secret).drop offset).take (min len 4088)
    exec (.getCertificate q slot offset len) s = .next (s.emit (.spdm none 0x02 slot 0 (leBytes 2 part.length ++
      leBytes 2 ((Config.certChain slot s.part.secret).length - offset - part.length) ++ part))) := by
  intro part
  have hchain : s.chain slot = Config.certChain slot s.part.secret := if_pos hslot
  have hpart : (((Config.certChain slot s.part.secret).drop offset).take (min len 4088)).length ≤ 4088 :=
    (List.length_take_le ..).trans (Nat.min_le_right ..)
  refine (State.spdm_in_clear hr hq hs : execGetCertificate q slot offset len s = _).trans (congrArg _ ?_)
  dsimp only
  rw [hchain, if_neg (by simp [hslot, h]), State.respond_of_short _ _ _ _ (by
    simp only [List.length_append, length_leBytes]
    omega), hq]

/-- A device secret that failed its fuse check signs nothing (R487). -/
theorem attest_refused (hsec : s.sec.restrict.contains .secret = true) (slot i : Nat) :
    exec (.challenge q slot) s = .next (s.emit (.spdm none 0x7F 0x01 0 [])) ∧
    exec (.getMeasurements q i true) s = .next (s.emit (.spdm none 0x7F 0x01 0 [])) := by
  have herr : s.spdmError q eInvalid 0 = s.emit (.spdm none 0x7F 0x01 0 []) := by rw [State.spdmError, hq]; rfl
  refine ⟨(State.spdm_in_clear hr hq hs : execChallenge q slot s = _).trans (congrArg _ ?_),
    (State.spdm_in_clear hr hq hs : execGetMeasurements q i true s = _).trans (congrArg _ ?_)⟩
  · exact (if_pos (by simp only [State.canAttest, hsec]; simp)).trans herr
  · exact (if_pos (by simp only [State.canAttest, hsec]; simp)).trans herr

theorem exec_challenge (hsec : s.sec.restrict.contains .secret = false) {slot : Nat} (hslot : slot < 2) :
    let b := Config.spdmBody 0x03 q.body ++ leBytes 32 (Config.shake256 (Config.certChain slot s.part.secret)).toNat
    exec (.challenge q slot) s = .next (s.respond q 0x03 slot (2 ^ slot) (b ++ Config.falconSign s.part.secret b)) := by
  intro b
  have hchain : s.chain slot = Config.certChain slot s.part.secret := if_pos hslot
  refine (State.spdm_in_clear hr hq hs : execChallenge q slot s = _).trans (congrArg _ ?_)
  rw [if_neg (by simp only [State.canAttest, hsec]; simp [hslot]), hchain]
  rfl

theorem exec_getMeasurements_count : exec (.getMeasurements q 0 false) s = .next (s.emit (.spdm none 0x60 8 0 [0, 0, 0, 0])) := by
  refine (State.spdm_in_clear hr hq hs : execGetMeasurements q 0 false s = _).trans (congrArg _ ?_)
  have hblocks : s.blocksOf 0 = [] := rfl
  dsimp only
  rw [hblocks, if_neg (by simp), State.respond_of_short _ _ _ _ (by simp [length_leBytes]), hq]
  rfl

theorem exec_getMeasurements_invalid {i : Nat} (h9 : 9 ≤ i) (hff : i ≠ 0xFF) (sign : Bool) :
    exec (.getMeasurements q i sign) s = .next (s.emit (.spdm none 0x7F 0x01 0 [])) := by
  have hi : i ≠ 0 := by omega
  refine (State.spdm_in_clear hr hq hs : execGetMeasurements q i sign s = _).trans (congrArg _ ?_)
  exact (if_pos (by simp [State.blocksOf, hff, hi, State.measurement_none h9])).trans (by rw [State.spdmError, hq]; rfl)

theorem exec_getMeasurements_block {i : Nat} {v : List Byte} (hv : s.measurement i = some v) (hi : i ≠ 0) (hff : i ≠ 0xFF) :
    exec (.getMeasurements q i false) s =
      .next (s.respond q 0x60 0 0 (leBytes 1 1 ++ leBytes 3 (measureBlock i v).length ++ measureBlock i v)) := by
  have hblocks : s.blocksOf i = [measureBlock i v] := by simp [State.blocksOf, hi, hff, hv]
  refine (State.spdm_in_clear hr hq hs : execGetMeasurements q i false s = _).trans (congrArg _ ?_)
  dsimp only
  rw [hblocks, if_neg (by simp)]
  simp [hi]

end

/-- Settles O51: every request by its equation. -/
theorem attestationAnswers : Obligations.AttestationAnswers := by
  unfold Obligations.AttestationAnswers
  intro s q hr hq hs invalid digest
  refine ⟨exec_getDigests hr hq hs, fun slot offset len h => exec_getCertificate_invalid hr hq hs h len,
    fun slot offset len hslot => ?certificate, fun hsec slot i => attest_refused hr hq hs hsec slot i,
    fun hsec slot hslot => exec_challenge hr hq hs hsec hslot, exec_getMeasurements_count hr hq hs,
    fun i h9 hff sign => exec_getMeasurements_invalid hr hq hs h9 hff sign, fun i v hv hi hff => exec_getMeasurements_block hr hq hs hv hi hff⟩
  intro chain part
  split
  · next h => exact exec_getCertificate_invalid hr hq hs (fun _ => h) len
  · next h => exact exec_getCertificate hr hq hs hslot (Nat.lt_of_not_le h) len

/-! ## The secured session (R504, R506) -/

/-- IDE_KM is a request of the secured session (R506). -/
theorem exec_vendorDefinedRequest (s : State) (q : SpdmReq) (keys : List Byte) :
    exec (.vendorDefinedRequest q true keys) s = s.secured q fun s =>
      (s.setSec { s.sec with ideKeys := keys, ideSecure := !keys.isEmpty }).respond q 0x7E 0 0 (bodyOf 0x7E q) := rfl

/-- A request in the session in force, its record opened, is answered in its place. -/
theorem State.spdm_in_session {n : Nat} {done : Bool} (hr : s.responder = true) (hq : q.session = some n) (ha : q.authentic = true)
    (hn : s.sec.session = some (n, done)) {step : Nat} (hs : step ≤ s.sec.spdmStep) (f : State → State) : s.spdm q step f = .next (f s) := by
  simp [State.spdm, act, hr, State.sessionOk, hq, ha, hn, hs.not_gt]

/-- A record that does not open, or a session that is not in force, is answered DecryptError. -/
theorem State.secured_undecrypted {n : Nat} (hr : s.responder = true) (hq : q.session = some n)
    (h : q.authentic = false ∨ s.sec.session = none) (f : State → State) :
    s.secured q f = .next (s.emit (.spdm (some n) 0x7F 0x06 0 [])) := by
  have hno : s.sessionOk q = false := by
    unfold State.sessionOk
    rw [hq]
    cases hn : s.sec.session with
    | none => rfl
    | some k => simp [h.resolve_right (by simp [hn])]
  simp [State.secured, State.spdm, act, hr, hno, State.spdmError, hq, eDecrypt]

section

variable {n : Nat} (hr : s.responder = true) (hs : 3 ≤ s.sec.spdmStep) (hq : q.session = some n)

include hr hs hq

theorem exec_finish (ha : q.authentic = true) (hn : s.sec.session = some (n, false)) : exec (.finish q) s =
    .next (({ s with sec := { s.sec with session := some (n, true) } } : State).respond q 0x65 0 0 (Config.spdmBody 0x65 q.body)) := by
  refine (State.spdm_in_session hr hq ha hn hs _ : execFinish q s = _).trans (congrArg _ ?_)
  rw [hq, hn]
  rfl

/-- Within the session, its handshake done, a request is answered. -/
theorem State.secured_in_session (ha : q.authentic = true) (hn : s.sec.session = some (n, true)) (f : State → State) :
    s.secured q f = .next (f s) := by
  refine (State.spdm_in_session hr hq ha hn hs _).trans (congrArg _ ?_)
  rw [hq, hn]

section

variable (ha : q.authentic = true) (hn : s.sec.session = some (n, true))

include ha hn

theorem exec_keyUpdate : exec (.keyUpdate q) s = .next (s.emit (.spdm (some n) 0x69 q.param1 q.param2 [])) := by
  rw [← hq]
  exact (State.secured_in_session hr hs hq ha hn _ : execKeyUpdate q s = _)

theorem exec_heartbeat : exec (.heartbeat q) s = .next (s.emit (.spdm (some n) 0x68 0 0 [])) := by
  rw [← hq]
  exact (State.secured_in_session hr hs hq ha hn _ : execHeartbeat q s = _)

theorem exec_endSession : exec (.endSession q) s = .next { s with
    sec := { s.sec with session := none, ideKeys := [], ideSecure := false }, out := s.out ++ [.spdm (some n) 0x6C 0 0 []] } := by
  rw [← hq]
  exact (State.secured_in_session hr hs hq ha hn _ : execEndSession q s = _)

theorem exec_vendorDefinedRequest_keys (keys : List Byte) : exec (.vendorDefinedRequest q true keys) s = .next
    (({ s with sec := { s.sec with ideKeys := keys, ideSecure := !keys.isEmpty } } : State).respond q 0x7E 0 0 (Config.spdmBody 0x7E q.body)) :=
  (exec_vendorDefinedRequest s q keys).trans (State.secured_in_session hr hs hq ha hn _)

end

end

/-- Settles O52: the session's requests in it, in clear, and undecrypted. -/
theorem securedSessionKeysTheStream : Obligations.SecuredSessionKeysTheStream := by
  unfold Obligations.SecuredSessionKeysTheStream
  intro s q hr hs answer
  refine ⟨fun hq hn hsec => ?opens, fun n hq ha => ⟨fun hn => exec_finish hr hs hq ha hn, fun hn => ⟨exec_keyUpdate hr hs hq ha hn,
    exec_heartbeat hr hs hq ha hn, exec_endSession hr hs hq ha hn, exec_vendorDefinedRequest_keys hr hs hq ha hn⟩⟩,
    fun hq keys => ?clear, fun n hq h keys => ⟨(exec_vendorDefinedRequest s q keys).trans
      (State.secured_undecrypted hr hq h _), (State.secured_undecrypted hr hq h _ : execHeartbeat q s = _)⟩⟩
  case opens =>
    refine (State.spdm_in_clear hr hq hs : execKeyExchange q s = _).trans (congrArg _ (if_neg ?_))
    simp only [hn, State.canAttest, hsec]
    decide
  case clear =>
    refine (exec_vendorDefinedRequest s q keys).trans ((State.spdm_in_clear hr hq hs).trans (congrArg _ ?_))
    dsimp only
    rw [State.spdmError, hq]
    rfl

end Sys2Proof.Machine
end

section
/-! PROOF. O40: the receiver of a load, by the outcome of the translation of its address (R395 to R397). -/
namespace Sys2Proof.Machine

/-! ## The translation of a load's address -/

/-- A raw address that trusted-sender mode does not open, or that lies above the device space, is refused (R396 step 2). -/
theorem State.translate_raw_refused {s : State} {p : FabPkt} {k : FabAccess} {n : Nat} (hr : p.raw = true)
    (ht : s.dom.trustedEn = false ∨ bits p.addr.toNat 55 48 ≠ 0) : s.translate p k n = (0x0301, 0) := by
  obtain ht | ht := ht <;> simp [State.translate, hr, ht]

/-- The entry of the table of exports that an address names (R395, R434). -/
def exportEntry (s : State) (p : FabPkt) : W256 :=
  if faJob p.addr = 0xFFF then domainEntry else s.dom.exports.get 0 (faJob p.addr)

section
variable {s : State} {p : FabPkt} {n : Nat} (hr : p.raw = false)
include hr

/-- A load is checked for VALID, LENGTH and READ, in that order; trusted-sender mode needs no READ (R396, R397). -/
theorem State.translate_load : s.translate p .load n =
    if !xValid (exportEntry s p) then (0x0301, 0)
    else if xLength (exportEntry s p) < faOffset p.addr + n then (0x0302, 0)
    else if s.dom.trustedEn then (0, xBase (exportEntry s p) + faOffset p.addr)
    else if xRead (exportEntry s p) then (0, xBase (exportEntry s p) + faOffset p.addr) else (0x0302, 0) := by
  rw [State.translate, hr]
  rfl

/-- An entry without VALID refuses a load (R396 step 3). -/
theorem State.translate_load_invalid (hv : xValid (exportEntry s p) = false) : s.translate p .load n = (0x0301, 0) := by
  simp [State.translate_load hr, hv]

variable (hv : xValid (exportEntry s p) = true)
include hv

/-- A load past LENGTH is out of bounds (R396 step 4). -/
theorem State.translate_load_past_length (hl : xLength (exportEntry s p) < faOffset p.addr + n) :
    s.translate p .load n = (0x0302, 0) := by
  simp [State.translate_load hr, hv, hl]

variable (hl : faOffset p.addr + n ≤ xLength (exportEntry s p))
include hl

/-- A load without READ is refused unless the mode is trusted (R396 step 5, R397). -/
theorem State.translate_load_unreadable (ht : s.dom.trustedEn = false) (hx : xRead (exportEntry s p) = false) :
    s.translate p .load n = (0x0302, 0) := by
  simp [State.translate_load hr, hv, hl.not_gt, ht, hx]

/-- A load that passes the checks goes to BASE plus OFFSET (R397). -/
theorem State.translate_load_readable (ht : s.dom.trustedEn = true ∨ xRead (exportEntry s p) = true) :
    s.translate p .load n = (0, xBase (exportEntry s p) + faOffset p.addr) := by
  obtain ht | hx := ht
  · simp [State.translate_load hr, hv, hl.not_gt, ht]
  · simp [State.translate_load hr, hv, hl.not_gt, hx]

end

/-! ## The load -/

/-- A load that the receiver takes acts by the translation of its address. -/
theorem execLoad_of_takes {s : State} {p : FabPkt} (h : s.takes_ p 0x10 = true) : exec (.load p) s = .next (
    match s.translate p .load (p.lenM1 + 1) with
    | (0, a) =>
      match s.checkRead a (p.lenM1 + 1) with
      | some st => s.fabSend (fabResponse p st 0 false [])
      | none =>
        if !s.readable a (p.lenM1 + 1) then s.fabSend (fabResponse p 0x0420 0 false [])
        else s.fabSend (fabResponse p 0 0 (!p.raw && xCache (exportEntry s p)) (s.devRead a (p.lenM1 + 1)))
    | (st, _) => s.fabSend (fabResponse p st 0 false [])) := by
  show execLoad p s = _
  unfold execLoad
  exact act_of_true h s _

/-- A load that the translation refuses is answered with its status. -/
theorem execLoad_of_refused {s : State} {p : FabPkt} {st : Nat} (h : s.takes_ p 0x10 = true)
    (ht : s.translate p .load (p.lenM1 + 1) = (st, 0)) (h0 : st ≠ 0) :
    exec (.load p) s = .next (s.fabSend (fabResponse p st 0 false [])) := by
  rw [execLoad_of_takes h, ht]
  match st, h0 with
  | st + 1, _ => rfl

/-- A load that the device space refuses is answered with that status. -/
theorem execLoad_of_unreachable {s : State} {p : FabPkt} {a st : Nat} (h : s.takes_ p 0x10 = true)
    (ht : s.translate p .load (p.lenM1 + 1) = (0, a)) (hc : s.checkRead a (p.lenM1 + 1) = some st) :
    exec (.load p) s = .next (s.fabSend (fabResponse p st 0 false [])) := by
  simp only [execLoad_of_takes h, ht, hc]

/-- A load that passes every check is answered with its bytes, or MEM_UNCORR where they do not read (R405). -/
theorem execLoad_of_passed {s : State} {p : FabPkt} {a : Nat} (h : s.takes_ p 0x10 = true) (hr : p.raw = false)
    (ht : s.translate p .load (p.lenM1 + 1) = (0, a)) (hc : s.checkRead a (p.lenM1 + 1) = none) :
    exec (.load p) s = .next (s.fabSend (if s.readable a (p.lenM1 + 1)
      then fabResponse p 0 0 (xCache (exportEntry s p)) (s.devRead a (p.lenM1 + 1))
      else fabResponse p 0x0420 0 false [])) := by
  cases hm : s.readable a (p.lenM1 + 1) <;> simp [execLoad_of_takes h, ht, hc, hm, hr]

/-- Settles O40: each check that refuses decides the translation, and the answer follows from it. -/
theorem loadsAreServed : Obligations.LoadsAreServed := by
  unfold Obligations.LoadsAreServed
  intro s p h
  refine ⟨fun hr ht => execLoad_of_refused h (State.translate_raw_refused hr ht) (by decide), fun hr => ⟨fun hv => ?_, fun hv hl => ?_,
    fun hv hl => ⟨fun ht hx => ?_, fun ht st hc => ?_, fun ht hc => ?_⟩⟩⟩
  · exact execLoad_of_refused h (State.translate_load_invalid hr hv) (by decide)
  · exact execLoad_of_refused h (State.translate_load_past_length hr hv hl) (by decide)
  · exact execLoad_of_refused h (State.translate_load_unreadable hr hv hl ht hx) (by decide)
  · exact execLoad_of_unreachable h (State.translate_load_readable hr hv hl ht) hc
  · exact execLoad_of_passed h hr (State.translate_load_readable hr hv hl ht) hc

end Sys2Proof.Machine
end

section
/-! PROOF. O39: retries of fabric requests, the end of replay entries, and responses (R393, R400, R401, R406, R410 to R413). -/
namespace Sys2Proof.Machine

/-! ## Completions and what waits for them -/

/-- A completion writes device memory and leaves the package; a descriptor that waits for the bytes may end (R413). -/
theorem State.complete_frame (s : State) (die engine compl status : Nat) (known applied : Bool) (tag : Word) (result : Nat)
    (mask : Option (List Nat)) : ∃ h d b w r o, s.complete die engine compl status known applied tag result mask =
      { s with mem := { s.mem with hbm := h, dieStore := d, badBursts := b }, waiting := w, rings := r, out := o } := by
  unfold State.complete
  extract_lets bytes m u
  have hstay : ∃ h d b w r o, s =
      { s with mem := { s.mem with hbm := h, dieStore := d, badBursts := b }, waiting := w, rings := r, out := o } :=
    ⟨s.mem.hbm, s.mem.dieStore, s.mem.badBursts, s.waiting, s.rings, s.out, rfl⟩
  have hu : ∃ h d b w r o, u =
      { s with mem := { s.mem with hbm := h, dieStore := d, badBursts := b }, waiting := w, rings := r, out := o } := by
    unfold u
    split_ifs
    · exact hstay
    · exact hstay
    · obtain ⟨h1, d1, b1, w1, r1, o1, e1⟩ := State.store_frame s (compl + 16) m
      rw [e1]
      exact State.store_frame _ compl bytes
  obtain ⟨h, d, b, w, r, o, e⟩ := hu
  rw [e]
  exact ⟨h, d, b, w, r, _, rfl⟩

theorem State.complete_fab (s : State) (die engine compl status : Nat) (known applied : Bool) (tag : Word) (result : Nat)
    (mask : Option (List Nat)) : (s.complete die engine compl status known applied tag result mask).fab = s.fab := by
  obtain ⟨h, d, b, w, r, o, e⟩ := s.complete_frame die engine compl status known applied tag result mask
  rw [e]

/-- Nothing of the fabric agent waits for an acknowledgement or for a slot. -/
structure Fabric.Quiet (f : Fabric) : Prop where
  owed : f.owed = []
  invals : f.invals = []
  xfers : f.xfers = []
  fences : f.fences = []

/-- With nothing that waits, no invalidation, transfer or fence goes on. -/
theorem State.settleFabric_of_quiet {s : State} (h : s.fab.Quiet) : s.settleFabric = s := by
  simp [State.settleFabric, State.settleFences, h.invals, h.xfers, h.fences]

/-- The state with other outstanding requests. -/
def State.withReqs (s : State) (l : List FabReq) : State := { s with fab := { s.fab with reqs := l } }

theorem State.withReqs_quiet (s : State) (h : s.fab.Quiet) (l : List FabReq) : (s.withReqs l).fab.Quiet :=
  ⟨h.owed, h.invals, h.xfers, h.fences⟩

/-- With nothing that waits for a slot, a request that leaves only leaves. -/
theorem State.dropReq_of_quiet {s : State} (h : s.fab.Quiet) (r : FabReq) : s.dropReq r = s.withReqs (s.fab.reqs.erase r) := by
  simp [State.dropReq, State.settleOwed, State.setFab, h.owed, State.withReqs]

/-- A completed operation whose request left, where nothing waits: nothing else goes on. -/
theorem State.settleFabric_withReqs_complete {s : State} (h : s.fab.Quiet) (l : List FabReq) (die engine compl status : Nat)
    (known applied : Bool) (tag : Word) (result : Nat) (mask : Option (List Nat)) :
    ((s.withReqs l).complete die engine compl status known applied tag result mask).settleFabric =
      (s.withReqs l).complete die engine compl status known applied tag result mask :=
  State.settleFabric_of_quiet (by rw [State.complete_fab]; exact s.withReqs_quiet h l)

/-- With no invalidation issued, an answer to one changes nothing. -/
theorem State.invalAnswered_of_none {s : State} (h : s.fab.invals = []) (die engine : Nat) (a : DWord) (n : Nat) (left : Bool) :
    s.invalAnswered die engine a n left = s := by
  simp [State.invalAnswered, h]

/-- The state with other lines in the read cache. -/
def State.withCache (s : State) (c : List (Nat × DWord × List Byte)) : State := { s with fab := { s.fab with cache := c } }

/-- Data handed over and its operation completed, where nothing waits: nothing else goes on. -/
theorem State.settleFabric_cached_complete {s : State} (h : s.fab.Quiet) (c : List (Nat × DWord × List Byte)) (x : Out)
    (die engine compl status : Nat) (known applied : Bool) (tag : Word) (result : Nat) (mask : Option (List Nat)) :
    (((s.withCache c).emit x).complete die engine compl status known applied tag result mask).settleFabric =
      ((s.withCache c).emit x).complete die engine compl status known applied tag result mask :=
  State.settleFabric_of_quiet (by rw [State.complete_fab]; exact ⟨h.owed, h.invals, h.xfers, h.fences⟩)

/-- Lines installed replace the cache alone (R406). -/
theorem foldl_install_frame {f : State → Nat → List Byte} (ks : List Nat) : ∀ s : State, ∃ c,
    ks.foldl (fun s k => s.install k (f s k)) s = s.withCache c := by
  induction ks with
  | nil => exact fun s => ⟨s.fab.cache, rfl⟩
  | cons k ks ih =>
    intro s
    obtain ⟨c, h⟩ := ih (s.install k (f s k))
    exact ⟨c, by rw [List.foldl_cons, h]; rfl⟩

/-! ## Sending a packet -/

/-- A packet for the package itself takes the loopback; another takes the link that reaches its node (R377). -/
theorem State.fabSend_sends (s : State) (p : FabPkt) : (p.dst = s.dom.node → .fabLocal p ∈ (s.fabSend p).out) ∧
    (∀ l, p.dst ≠ s.dom.node → s.linkFor p.dst (fabFlow p) = some l → .fab l p ∈ (s.fabSend p).out) := by
  constructor
  · intro h
    rw [State.fabSend, if_pos h]
    exact List.mem_append_right _ (List.mem_singleton_self _)
  · intro l h hl
    have hsend : s.fabSend p = s.fabOn l p := by rw [State.fabSend, if_neg h, hl]
    rw [hsend]
    exact ((SentOn.refl (s.emit (.fab l p))).linkSend l (fabVc p) (fabBytes p) (some (.fab p))).sent _
      (List.mem_append_right _ (List.mem_singleton_self _))

/-! ## Retries (R401, R410) -/

section

variable {s : State} {tag : Word} {r : FabReq} (hr : s.fab.reqs.find? (fun r => r.pkt.tag = tag) = some r)

include hr

theorem fabricRetry_early (ht : s.since r.sentAt < 5000) : exec (.fabricRetry tag) s = .next s := by
  show execFabricRetry tag s = _
  simp [execFabricRetry, hr, Nat.not_le.mpr ht]

variable (hs : s.live = true) (ht : 5000 ≤ s.since r.sentAt)

include hs ht

theorem fabricRetry_resends (hn : r.retries < 4) : exec (.fabricRetry tag) s = .next
    ((s.withReqs (s.fab.reqs.map fun x => if x = r then
      { r with pkt := { r.pkt with retry := true }, retries := r.retries + 1, sentAt := s.time.count } else x)).fabSend
        { r.pkt with retry := true }) := by
  show execFabricRetry tag s = _
  simp [execFabricRetry, hr, hs, ht, hn, hn.le, State.setFab, State.now, State.withReqs]

theorem fabricRetry_atomic_unknown (hn : r.retries = 4) (hop : r.pkt.op = 0x12) (hq : s.fab.Quiet) :
    exec (.fabricRetry tag) s = .next ((s.withReqs (s.fab.reqs.erase r)).complete r.die
      r.engine r.compl 0x0305 false false tag 0 none) := by
  show execFabricRetry tag s = _
  simp [execFabricRetry, hr, hs, ht, hn, hop, State.dropReq_of_quiet hq, State.settleFabric_withReqs_complete hq]

theorem fabricRetry_holds (hn : r.retries = 4) (hop : r.pkt.op ≠ 0x12) (hi : s.err.handling = []) : ∃ t : State,
    exec (.fabricRetry tag) s = .next t ∧
      t.fab = { s.fab with reqs := s.fab.reqs.map fun x => if x = r then { r with retries := 5 } else x } ∧
      t.mem = s.mem ∧ t.dom = s.dom := by
  obtain ⟨x, o, h⟩ := State.raise_of_idle (s := s.withReqs (s.fab.reqs.map fun x => if x = r then { r with retries := 5 } else x))
    hi (e := { status := 0x0317, cls := 0, unit := 9, die := r.die, pos := 0, addr := r.pkt.addr.toNat }) rfl
  refine ⟨_, ?_, (congrArg State.fab h).trans rfl, (congrArg State.mem h).trans rfl, (congrArg State.dom h).trans rfl⟩
  show execFabricRetry tag s = _
  simp [execFabricRetry, hr, hs, ht, hn, hop, State.withReqs, State.setFab]

end

/-! ## Responses (R400, R406, R411, R413) -/

section

variable {s : State} {p : FabPkt} (hs : s.live = true) (hp : p.rsvd = 0) (hd : p.dst = s.dom.node)

theorem fabricResponse_unasked (hr : s.fab.reqs.find? (fun r => r.pkt.tag = p.tag && r.pkt.op + 0x80 = p.op) = none) :
    exec (.fabricResponse p) s = .next s := by
  show execFabricResponse p s = _
  simp only [execFabricResponse, hr]

variable {r : FabReq} (hr : s.fab.reqs.find? (fun r => r.pkt.tag = p.tag && r.pkt.op + 0x80 = p.op) = some r) (hq : s.fab.Quiet)

include hs hp hd hr hq

theorem fabricResponse_write (hop : r.pkt.op = 0x11 ∨ r.pkt.op = 0x14) : exec (.fabricResponse p) s =
    .next ((s.withReqs (s.fab.reqs.erase r)).complete r.die r.engine r.compl p.status.toNat
      false false r.pkt.tag 0 none) := by
  show execFabricResponse p s = _
  obtain hop | hop := hop <;>
    simp [execFabricResponse, hr, hs, hp, hd, hop, State.dropReq_of_quiet hq, State.settleFabric_withReqs_complete hq]

theorem fabricResponse_atomic (hop : r.pkt.op = 0x12) : exec (.fabricResponse p) s = .next (
    let u := s.withReqs (s.fab.reqs.erase r)
    if p.status = 0x0304 then u.complete r.die r.engine r.compl 0x0305 true true r.pkt.tag 0 none
    else u.complete r.die r.engine r.compl p.status.toNat true (decide (p.status = 0)) r.pkt.tag
      (if p.status = 0 then p.operand.toNat else 0) none) := by
  show execFabricResponse p s = _
  have h304 : p.status.toNat = 0x0304 ↔ p.status = 0x0304 := BitVec.toNat_inj (y := 0x0304)
  have h0 : p.status.toNat = 0 ↔ p.status = 0 := BitVec.toNat_inj (y := 0)
  simp only [execFabricResponse, hr, hs, hp, hd, hop, h304, h0, State.dropReq_of_quiet hq]
  by_cases hst : p.status = 0x0304
  · simp only [hst, if_true]
    simp [State.settleFabric_withReqs_complete hq]
  · simp only [hst, if_false]
    simp [State.settleFabric_withReqs_complete hq]

theorem fabricResponse_invalidate (hop : r.pkt.op = 0x13) : exec (.fabricResponse p) s =
    .next (s.withReqs (s.fab.reqs.erase r)) := by
  show execFabricResponse p s = _
  simp [execFabricResponse, hr, hs, hp, hd, hop, State.dropReq_of_quiet hq,
    State.invalAnswered_of_none (s.withReqs_quiet hq _).invals, State.settleFabric_of_quiet (s.withReqs_quiet hq _)]

theorem fabricResponse_load_failed (hop : r.pkt.op = 0x10) (hst : p.status ≠ 0) : exec (.fabricResponse p) s =
    .next ((s.withReqs (s.fab.reqs.erase r)).complete r.die r.engine r.compl p.status.toNat
      false false r.pkt.tag 0 none) := by
  show execFabricResponse p s = _
  have h0 : p.status.toNat ≠ 0 := fun h => hst (BitVec.toNat_inj (y := 0).1 h)
  simp [execFabricResponse, hr, hs, hp, hd, hop, h0, State.dropReq_of_quiet hq, State.settleFabric_withReqs_complete hq]

/-- A load's data is handed over; its lines enter the cache only where the exporter and the request let them. -/
theorem fabricResponse_load (hop : r.pkt.op = 0x10) (hst : p.status = 0) : ∃ c, exec (.fabricResponse p) s =
    .next ((((s.withReqs (s.fab.reqs.erase r)).withCache c).emit
      (.loadData r.die r.engine r.want (bytesAt p.payload (r.want.toNat - r.pkt.addr.toNat) r.wantLen))).complete
        r.die r.engine r.compl 0 false false r.pkt.tag 0 none) ∧
      (p.cacheable = false ∨ r.pkt.nocache = true ∨ r.pkt.raw = true ∨ r.noInstall = true → c = s.fab.cache) := by
  obtain ⟨c, hc⟩ := foldl_install_frame (f := fun _ k => bytesAt p.payload (k * 128 - r.pkt.addr.toNat) 128)
    (linesOf r.pkt.addr (r.pkt.lenM1 + 1)) (s.withReqs (s.fab.reqs.erase r))
  have hsettle := fun c => State.settleFabric_cached_complete (s.withReqs_quiet hq (s.fab.reqs.erase r)) c
  by_cases hk : p.cacheable = true ∧ r.pkt.nocache = false ∧ r.pkt.raw = false ∧ r.noInstall = false
  · refine ⟨c, ?_, ?_⟩
    · show execFabricResponse p s = _
      simp [execFabricResponse, hr, hs, hp, hd, hop, hst, hk, hc, State.dropReq_of_quiet hq, hsettle]
    · simp [hk]
  · refine ⟨s.fab.cache, ?_, fun _ => rfl⟩
    show execFabricResponse p s = _
    have hsame : (s.withReqs (s.fab.reqs.erase r)).withCache s.fab.cache = s.withReqs (s.fab.reqs.erase r) := rfl
    have hk' : (p.cacheable && !r.pkt.nocache && !r.pkt.raw && !r.noInstall) = false := by
      simpa [and_assoc] using hk
    have hdone := hsettle s.fab.cache
    rw [hsame] at hdone ⊢
    simp [execFabricResponse, hr, hs, hp, hd, hop, hst, hk', State.dropReq_of_quiet hq, hdone]

end

/-- Settles O39: each clause is the equation of the retry, expiry or response that its hypotheses select. -/
theorem retriesAndResponses : Obligations.RetriesAndResponses := by
  unfold Obligations.RetriesAndResponses
  refine ⟨fun s hs => ⟨fun tag r hr => ⟨fun ht => fabricRetry_early hr ht, fun ht => ⟨?resend, ?unknown, ?hold⟩⟩, ?expiry⟩,
    fun s p hs hp hd => ⟨fabricResponse_unasked, fun r hr ho hv hx hf => ?response⟩⟩
  case resend =>
    intro hn r'
    obtain ⟨hself, hlink⟩ := (s.withReqs (s.fab.reqs.map fun x => if x = r then r' else x)).fabSend_sends r'.pkt
    obtain ⟨ks, o, hframe⟩ := (s.withReqs (s.fab.reqs.map fun x => if x = r then r' else x)).fabSend_frame r'.pkt
    exact ⟨_, fabricRetry_resends hr hs ht hn, (congrArg State.fab hframe).trans rfl,
      (congrArg State.mem hframe).trans rfl, (congrArg State.dom hframe).trans rfl,
      hself, hlink⟩
  case unknown => exact fun hn hop ho hv hx hf => fabricRetry_atomic_unknown hr hs ht hn hop ⟨ho, hv, hx, hf⟩
  case hold => exact fun hn hop hi => fabricRetry_holds hr hs ht hn hop hi
  case expiry =>
    intro src die tag r hr
    refine ⟨fun (ht : s.since r.at_ < 50000) => ?_, fun (ht : 50000 ≤ s.since r.at_) => ?_⟩
    · show execReplayEntryExpiry src die tag s = _
      simp [execReplayEntryExpiry, hr, Nat.not_le.mpr ht]
    · show execReplayEntryExpiry src die tag s = _
      simp [execReplayEntryExpiry, hr, ht, hs, State.setFab]
  case response =>
    have hq : s.fab.Quiet := ⟨ho, hv, hx, hf⟩
    exact ⟨fabricResponse_write hs hp hd hr hq, fabricResponse_atomic hs hp hd hr hq, fabricResponse_invalidate hs hp hd hr hq,
      fabricResponse_load_failed hs hp hd hr hq, fabricResponse_load hs hp hd hr hq⟩

end Sys2Proof.Machine
end

section
/-! PROOF. O43 and O44: the end of training, and flits at both ends of an up link (R367 to R375, R380). -/
namespace Sys2Proof.Machine

/-! ## What sending leaves of a link -/

/-- Flits that go out change a link's queue, replay buffer, next SEQ and credits alone (R372, R373). -/
theorem State.pump_link (n : Nat) : ∀ (s : State) (l : Nat), ∃ q r x c,
    (State.pump n s l).link l = { s.link l with queue := q, replay := r, txSeq := x, credits := c } := by
  induction n with
  | zero => exact fun s l => ⟨_, _, _, _, rfl⟩
  | succ n ih =>
    intro s l
    unfold State.pump
    dsimp only
    split
    · exact ⟨_, _, _, _, rfl⟩
    · split
      · obtain ⟨q, r, x, c, h⟩ := ih ((s.setLink l _).emit _) l
        refine ⟨q, r, x, c, h.trans ?_⟩
        rw [show ((s.setLink l _).emit _).link l = _ from State.link_setLink_self s l _]
      · exact ⟨_, _, _, _, rfl⟩

/-- So does a frame that is sent. -/
theorem State.sendFrame_link (s : State) (l : Nat) (f : Frame) : ∃ q r x c,
    (s.sendFrame l f).link l = { s.link l with queue := q, replay := r, txSeq := x, credits := c } := by
  unfold State.sendFrame State.linkSend
  extract_lets cs fs u
  obtain ⟨q, r, x, c, h⟩ := State.pump_link (u.link l).queue.length u l
  exact ⟨q, r, x, c, h.trans (by rw [show u.link l = _ from State.link_setLink_self _ l _]; rfl)⟩

/-! ## The end of training (R367 to R370, R374, R380) -/

/-- The class kept is the first that both ends allow and that passes (R368). -/
theorem trainClass_eq {own : BitVec 3} {r : TrainResult} {c : Nat} (hc : c < 3)
    (hp : (own.getLsbD c && r.peerAllow.getLsbD c && r.passes.getLsbD c) = true)
    (hlow : ∀ i, i < c → (own.getLsbD i && r.peerAllow.getLsbD i && r.passes.getLsbD i) = false) : trainClass own r = c + 1 := by
  have hfind : (List.range 3).find? (fun i => own.getLsbD i && r.peerAllow.getLsbD i && r.passes.getLsbD i) = some c :=
    List.find?_range_eq_some.2 ⟨hp, List.mem_range.2 hc, fun i hi => by simp [hlow i hi]⟩
  rw [trainClass, hfind]

theorem trainClass_eq_zero {own : BitVec 3} {r : TrainResult}
    (h : ∀ i, i < 3 → (own.getLsbD i && r.peerAllow.getLsbD i && r.passes.getLsbD i) = false) : trainClass own r = 0 := by
  have hfind : (List.range 3).find? (fun i => own.getLsbD i && r.peerAllow.getLsbD i && r.passes.getLsbD i) = none :=
    List.find?_eq_none.2 fun i hi => by simp [h i (List.mem_range.1 hi)]
  rw [trainClass, hfind]

/-- A link as it comes up (R370, R371, R373). -/
def Link.trained (k : Link) (cls lanes : Nat) : Link := { k with
  train := .up, cls := cls, lanes := lanes, txSeq := 0, rxSeq := 0, nakSent := false, replay := [], queue := []
  credits := [512, 512, 512, 512], owed := [0, 0, 0, 0], resends := 0, fails := 0, lostAt := none, loop := false
  peerKind := 0, peerNode := 0xFF, peerLink := 0xFF }

/-- A link that comes up on fewer lanes, or again after a loss, is recorded (R370, R374). -/
def State.noteTrained (s : State) (l lanes : Nat) (lost : Bool) : State :=
  if lanes < 4 || lost then s.raise { status := 0x0314, cls := 0, unit := 4, die := linkDie l, pos := l } else s

theorem State.noteTrained_frame {s : State} {l lanes : Nat} {lost : Bool}
    (h : (lanes = 4 ∧ lost = false) ∨ s.err.handling = []) : ∃ x o, s.noteTrained l lanes lost = { s with err := x, out := o } := by
  unfold State.noteTrained
  split
  case isTrue hc =>
    obtain ⟨rfl, rfl⟩ | h := h
    · exact absurd hc (by decide)
    · exact State.raise_of_idle h rfl
  case isFalse => exact ⟨s.err, s.out, rfl⟩

section

variable {s : State} {l : Nat} {r : TrainResult} (hs : s.live = true) (hl : l < s.part.links)
  (ht : (s.link l).train = .training) (hh : s.trayHeld = false) (he : (s.link l).enable = true) (hf : (s.link l).fails < 3)

include hs hl ht hh he hf

theorem linkTrainingComplete_fails (h : trainClass (s.link l).classAllow r = 0 ∨ trainLanes r.lanes = 0 ∨ r.loop = true) :
    exec (.linkTrainingComplete l r) s = .next (s.setLink l { s.link l with
      fails := (s.link l).fails + 1, lostAt := some ((s.link l).lostAt.getD s.now), loop := r.loop }) := by
  show execLinkTrainingComplete l r s = _
  unfold execLinkTrainingComplete
  extract_lets k
  refine (act_of_true (by simp [k, hs, hl, ht, hh, he, hf]) s _).trans (congrArg _ (if_pos ?_))
  simpa [or_assoc] using h

theorem linkTrainingComplete_up (hc : trainClass (s.link l).classAllow r ≠ 0) (hn : trainLanes r.lanes ≠ 0) (hp : r.loop = false) :
    exec (.linkTrainingComplete l r) s = .next (
      let u := (s.setLink l ((s.link l).trained (trainClass (s.link l).classAllow r) (trainLanes r.lanes))).noteTrained l
        (trainLanes r.lanes) (s.link l).lostAt.isSome
      State.hello { u with disc := { u.disc with firstUp := some (u.disc.firstUp.getD u.now) } } l) := by
  show execLinkTrainingComplete l r s = _
  unfold execLinkTrainingComplete
  extract_lets k
  refine (act_of_true (by simp [k, hs, hl, ht, hh, he, hf]) s _).trans (congrArg _ (if_neg ?_))
  simpa [hp] using And.intro hc hn

end

/-- A link that has come up greets its peer: HELLO carries what the link then holds, and the rest stays. -/
theorem State.hello_sends (s : State) (l : Nat) : ∃ q r x c ks o, s.hello l = { s with links := ks, out := o } ∧
    (s.hello l).link l = { s.link l with queue := q, replay := r, txSeq := x, credits := c } ∧
    .frame l ((s.hello l).frame l 1) ∈ (s.hello l).out := by
  obtain ⟨q, r, x, c, h⟩ := s.sendFrame_link l (s.frame l 1)
  obtain ⟨ks, o, hf⟩ := s.sendFrame_frame l (s.frame l 1)
  refine ⟨q, r, x, c, ks, o, hf, h, ?_⟩
  have hframe : (s.hello l).frame l 1 = s.frame l 1 := by
    have hlanes : ((s.hello l).link l).lanes = (s.link l).lanes :=
      (congrArg Link.lanes (show (s.hello l).link l = _ from h)).trans rfl
    unfold State.frame
    rw [hlanes, show s.hello l = _ from hf]
  rw [hframe]
  exact s.sendFrame_sends l _

/-! ## Training that fails for good (R374) -/

/-- With none in handling, a unit-lost error that leaves handling at once is one record. -/
theorem State.note_of_lost {s : State} {e : ErrIn} (hs : s.err.silent = false) (hi : s.err.handling = []) (hc : e.cls = 2)
    (hu : e.until_ = .atOnce) : s.note e = s.putRecord (s.errRecord e (s.judge e) 1) := by
  simp [State.note, State.record, State.enterHandling, hs, State.judge_of_idle hi, hc, hu]

/-- A link that is lost is recorded and mapped out, with nothing left to send or resend on it. -/
theorem State.raise_link_lost {s : State} {e : ErrIn} (hs : s.err.silent = false) (hi : s.err.handling = []) (hc : e.cls = 2)
    (hu : e.unit = 4) (ha : e.until_ = .atOnce) : ((s.raise e).link e.pos).train = .mappedOut ∧
      ((s.raise e).link e.pos).queue = [] ∧ ((s.raise e).link e.pos).replay = [] ∧ (s.raise e).err.total = s.err.total + 1 ∧
      (s.raise e).mem = s.mem := by
  have hraise : s.raise e = (s.note { e with detail := (s.link e.pos).peerNode + 256 * (s.link e.pos).peerLink }).setLink e.pos
      { s.link e.pos with train := .mappedOut, queue := [], replay := [] } := by
    simp [State.raise, hs, State.judge_of_idle hi, hc, State.unitLost, hu]
  obtain ⟨x, o, hnote⟩ := s.note_frame { e with detail := (s.link e.pos).peerNode + 256 * (s.link e.pos).peerLink }
  have hput := State.note_of_lost (e := { e with detail := (s.link e.pos).peerNode + 256 * (s.link e.pos).peerLink }) hs hi hc ha
  rw [hraise]
  refine ⟨?_, ?_, ?_, ?_, ?_⟩
  · rw [State.link_setLink_self]
  · rw [State.link_setLink_self]
  · rw [State.link_setLink_self]
  · exact (congrArg (·.err.total) hput).trans (State.putRecord_log s _).2
  · exact (congrArg State.mem hnote).trans rfl

/-- Settles O43: the two ends of an attempt by the class and lanes that pass, and the loss after three. -/
theorem trainingBringsLinksUp : Obligations.TrainingBringsLinksUp := by
  unfold Obligations.TrainingBringsLinksUp
  intro s l hs hl ht
  refine ⟨fun r hh he hf => ⟨fun h => ?fails, fun c hc hp hlow hn hloop hi => ?up⟩, fun hf hsil hi => ?lost⟩
  case fails =>
    refine linkTrainingComplete_fails hs hl ht hh he hf (h.imp_left trainClass_eq_zero)
  case up =>
    have hcls := trainClass_eq hc hp hlow
    rw [linkTrainingComplete_up hs hl ht hh he hf (by simp [hcls]) hn hloop, hcls]
    obtain ⟨x, o, hnote⟩ := State.noteTrained_frame (s := s.setLink l ((s.link l).trained (c + 1) (trainLanes r.lanes))) (l := l)
      (lanes := trainLanes r.lanes) (lost := (s.link l).lostAt.isSome) (hi.imp_left fun h => ⟨h.1, by simp [h.2]⟩)
    rw [hnote]
    extract_lets u
    obtain ⟨q, b, n, cr, ks, o', hframe, hlink, hsent⟩ :=
      State.hello_sends { u with disc := { u.disc with firstUp := some (u.disc.firstUp.getD u.now) } } l
    have hu : State.link { u with disc := { u.disc with firstUp := some (u.disc.firstUp.getD u.now) } } l =
      (s.link l).trained (c + 1) (trainLanes r.lanes) := State.link_setLink_self s l _
    rw [hu] at hlink
    refine ⟨_, rfl, ?_, ?_, ?_, ?_, ?_, ?_, (congrArg (·.disc.firstUp) hframe).trans rfl, hsent, (congrArg State.mem hframe).trans rfl⟩
    all_goals rw [hlink]; rfl
  case lost =>
    refine ⟨_, ?_, State.raise_link_lost (e := { status := 0x0310, cls := 2, unit := 4, die := linkDie l, pos := l }) hsil hi rfl rfl rfl⟩
    show execLinkRetrainExhausted l s = _
    unfold execLinkRetrainExhausted
    exact act_of_true (by simp [hs, hl, ht, hf]) s _

end Sys2Proof.Machine
end

section
/-! PROOF. O44: flits at both ends of an up link (R371 to R375). -/
namespace Sys2Proof.Machine

/-! ## Acknowledgements and resends (R372) -/

/-- With nothing to resend, an acknowledgement changes nothing. -/
theorem State.takeAck_of_empty {s : State} {l : Nat} (h : (s.link l).replay = []) (ack : Nat) : s.takeAck l ack = s := by
  simp [State.takeAck, h]

/-- What an acknowledgement leaves of a replay buffer. -/
def Link.unacked (k : Link) (ack : Nat) : List FlitTx :=
  match k.replay.findIdx? (·.seq = ack) with
  | some i => k.replay.drop (i + 1)
  | none => k.replay

/-- With nothing queued, an acknowledgement frees the replay buffer and sends nothing. -/
theorem State.takeAck_of_idle {s : State} {l : Nat} (h : (s.link l).queue = []) (ack : Nat) :
    (∃ n, (s.takeAck l ack).link l = { s.link l with replay := (s.link l).unacked ack, resends := n }) ∧
      (s.takeAck l ack).out = s.out := by
  unfold State.takeAck Link.unacked
  dsimp only
  cases (s.link l).replay.findIdx? (·.seq = ack) with
  | none => exact ⟨⟨_, rfl⟩, rfl⟩
  | some i =>
    have hpump (k : Link) (hk : k.queue = []) :
        State.pump ((s.setLink l k).link l).queue.length (s.setLink l k) l = s.setLink l k := by
      rw [State.link_setLink_self, hk]
      rfl
    dsimp only
    rw [hpump { s.link l with replay := (s.link l).replay.drop (i + 1), resends := 0 } h]
    exact ⟨⟨0, State.link_setLink_self ..⟩, rfl⟩

/-- Flits that are sent, in order. -/
theorem foldl_emit_flit (l : Nat) (fs : List FlitTx) (s : State) :
    fs.foldl (fun s f => s.emit (.flit l f.vc f.seq f.payload)) s =
      { s with out := s.out ++ fs.map fun f => .flit l f.vc f.seq f.payload } := by
  induction fs generalizing s with
  | nil => simp
  | cons f fs ih =>
    rw [List.foldl_cons, ih, List.map_cons, List.append_cons]
    rfl

/-- The flits of a link are resent from a position on, and the resend counts (R372, R374). -/
def State.resend (s : State) (l i : Nat) : State := (s.onLink l fun k => { k with resends := k.resends + 1 }).resendFrom l i

theorem State.resend_link (s : State) (l i : Nat) : (s.resend l i).link l = { s.link l with
    resends := (s.link l).resends + 1
    retries := (s.link l).retries + BitVec.ofNat 64 ((s.link l).replay.length - i)
    replay := (s.link l).replay.take i ++ ((s.link l).replay.drop i).map fun f => { f with sentAt := s.time.count } } := by
  unfold State.resend State.resendFrom
  dsimp only
  rw [foldl_emit_flit, ← List.length_drop]
  refine (State.link_setLink_self ..).trans ?_
  rw [show (s.onLink l fun k => { k with resends := k.resends + 1 }).link l = _ from State.link_setLink_self ..]
  rfl

theorem State.resend_out (s : State) (l i : Nat) : (s.resend l i).out =
    s.out ++ ((s.link l).replay.drop i).map fun f => .flit l f.vc f.seq f.payload := by
  unfold State.resend State.resendFrom
  dsimp only
  rw [foldl_emit_flit, show (s.onLink l fun k => { k with resends := k.resends + 1 }).link l = _ from State.link_setLink_self ..]
  rfl

theorem State.resend_mem (s : State) (l i : Nat) : (s.resend l i).mem = s.mem := by
  unfold State.resend State.resendFrom
  dsimp only
  rw [foldl_emit_flit]
  rfl

/-! ## The receiving end (R371 to R373) -/

section

variable {s : State} {l : Nat} (hs : s.live = true) (hl : l < s.part.links) (hup : (s.link l).isUp = true)
  (hr : (s.link l).replay = [])

include hs hl hup

theorem flitReceive_bad {f : Flit} (hf : flitGood f = false) : exec (.flitReceive l f) s = .next (s.nak l) := by
  show execFlitReceive l f s = _
  unfold execFlitReceive
  exact (act_of_true (by simp [hs, hl, hup]) s _).trans (congrArg _ (if_pos (by simp [hf])))

include hr

theorem flitReceive_idle {f : Flit} (hf : flitGood f = true) (ht : f.ftype = 0 ∨ f.ftype = 2) :
    exec (.flitReceive l f) s = .next s := by
  show execFlitReceive l f s = _
  unfold execFlitReceive
  refine (act_of_true (by simp [hs, hl, hup]) s _).trans (congrArg _ ?_)
  simp [hf, ht, State.takeAck_of_empty hr]

/-- A data or discovery flit by its SEQ: the next one is taken, one ahead asks for the next, one behind is discarded. -/
theorem flitReceive_payload {f : Flit} (hf : flitGood f = true) (ht : f.ftype = 1 ∨ f.ftype = 3) :
    exec (.flitReceive l f) s = .next (
      if f.seq = (s.link l).rxSeq then s.setLink l { s.link l with
        rxSeq := ((s.link l).rxSeq + 1) % 4096, nakSent := false
        owed := if f.ftype = 1 then (s.link l).owed.set f.vc ((s.link l).owed.getD f.vc 0 + 1) else (s.link l).owed }
      else if (f.seq + 4096 - (s.link l).rxSeq) % 4096 < 2048 then s.nak l else s) := by
  show execFlitReceive l f s = _
  unfold execFlitReceive
  refine (act_of_true (by simp [hs, hl, hup]) s _).trans (congrArg _ ?_)
  obtain ht | ht := ht <;> simp [hf, ht, State.takeAck_of_empty hr, State.onLink]

end

theorem flitGood_eq_true {f : Flit} (hc : f.clean = true) (hr : f.rsvd = 0) (ht : f.ftype < 4) (hv : f.ftype = 1 ∨ f.vc = 0) :
    flitGood f = true := by
  simp [flitGood, hc, hr, ht, hv]

theorem flitGood_eq_false {f : Flit} (h : f.clean = false ∨ 4 ≤ f.ftype ∨ f.rsvd ≠ 0 ∨ (f.ftype ≠ 1 ∧ f.vc ≠ 0)) :
    flitGood f = false := by
  obtain h | h | h | ⟨ht, hv⟩ := h
  · simp [flitGood, h]
  · simp [flitGood, Nat.not_lt.mpr h]
  · have h : (f.rsvd = 0) = False := eq_false h
    simp only [flitGood, h]
    simp
  · simp [flitGood, ht, hv]

/-! ## The sending end (R372 to R375) -/

/-- A link as an acknowledgement and credits leave it (R372, R373). -/
def Link.credited (k : Link) (credits : List Nat) : Link :=
  { k with credits := k.credits.mapIdx fun i c => min 512 (c + credits.getD i 0 % 2 ^ 16) }

/-- The resend that a NAK asks for, from the flit it names (R372). -/
def State.answerNak (s : State) (l : Nat) : Option Nat → State
  | none => s
  | some q => match (s.link l).replay.findIdx? (·.seq = q) with
    | some i => s.resend l i
    | none => s

/-- A link after the acknowledgement and the credits of a control flit (R372, R373). -/
def State.acked (s : State) (l ack : Nat) (credits : List Nat) : State := (s.takeAck l ack).onLink l (·.credited credits)

theorem State.acked_link {s : State} {l : Nat} (hq : (s.link l).queue = []) (ack : Nat) (credits : List Nat) : ∃ n,
    (s.acked l ack credits).link l =
      { (s.link l).credited credits with replay := (s.link l).unacked ack, resends := n } := by
  obtain ⟨⟨n, hk⟩, -⟩ := State.takeAck_of_idle hq ack
  refine ⟨n, (State.link_setLink_self ..).trans ?_⟩
  rw [hk]
  rfl

theorem State.acked_out {s : State} {l : Nat} (hq : (s.link l).queue = []) (ack : Nat) (credits : List Nat) :
    (s.acked l ack credits).out = s.out := (State.takeAck_of_idle hq ack).2

section

variable {s : State} {l : Nat} (hs : s.live = true) (hl : l < s.part.links) (hup : (s.link l).isUp = true)

include hs hl hup

/-- A control flit with nothing queued: the acknowledgement, the credits, then the resend that a NAK asks for. -/
theorem controlFlit_of_idle {f : Flit} (hf : flitGood f = true) (ht : f.ftype = 2) (hq : (s.link l).queue = []) (nak : Option Nat)
    (credits : List Nat) : exec (.controlFlit l f nak credits) s = .next (
      (s.acked l f.ack credits).answerNak l nak) := by
  have hpump : State.pump ((s.acked l f.ack credits).link l).queue.length (s.acked l f.ack credits) l = s.acked l f.ack credits := by
    obtain ⟨n, hk⟩ := State.acked_link hq f.ack credits
    have hnone : ((s.acked l f.ack credits).link l).queue = [] := (congrArg Link.queue hk).trans hq
    rw [hnone]
    rfl
  show execControlFlit l f nak credits s = _
  unfold execControlFlit
  refine (act_of_true (by simp [hs, hl, hup, hf, ht]) s _).trans (congrArg _ ?_)
  refine Eq.trans ?_ (congrArg (fun u : State => u.answerNak l nak) hpump)
  cases nak <;> rfl

theorem linkAckTimeout_resends {first : FlitTx} {rest : List FlitTx} (hr : (s.link l).replay = first :: rest)
    (ht : 125 ≤ s.since first.sentAt) : exec (.linkAckTimeout l) s =
      .next (s.resend l 0) := by
  show execLinkAckTimeout l s = _
  unfold execLinkAckTimeout
  exact act_of_true (by simp [hs, hl, hup, hr, ht]) s _

theorem linkDown_downs {cause : DownCause} (hc : cause = .resends → 8 ≤ (s.link l).resends) :
    exec (.linkDown l cause) s = .next (s.downLink l .training) := by
  have hcause : (cause != .resends || decide (8 ≤ (s.link l).resends)) = true := by
    by_cases h : cause = .resends
    · simp [hc h]
    · simp [h]
  show execLinkDown l cause s = _
  unfold execLinkDown
  exact act_of_true (by simp only [hs, hl, hup, hcause]; rfl) s _

theorem creditReturn_returns (hc : ∃ c ∈ (s.link l).owed, 0 < c) : exec (.creditReturn l) s =
    .next ((s.setLink l { s.link l with owed := [0, 0, 0, 0] }).emit (.control l (s.link l).ackSeq none (s.link l).owed)) := by
  show execCreditReturn l s = _
  unfold execCreditReturn
  exact act_of_true (by simpa [hs, hl, hup] using hc) s _

end

/-- Settles O44: the receiving end by the SEQ of the flit, the sending end by what its replay buffer holds. -/
theorem flitsTravelInOrder : Obligations.FlitsTravelInOrder := by
  unfold Obligations.FlitsTravelInOrder
  refine ⟨fun s l hs hl hup hr => ⟨fun f hc h0 ht => ?payload, fun f hc h0 hv ht => ?control, fun f hf => ?bad, fun hc => ?credits⟩,
    fun s l hs hl hup => ⟨fun f credits hf ht hq => ⟨?acked, fun q i hi => ?naked⟩, fun first rest hr ht => ?timeout, fun cause hc => ?down⟩⟩
  case payload =>
    have hgood : flitGood f = true := flitGood_eq_true hc h0 (by omega) (by omega)
    rw [flitReceive_payload hs hl hup hr hgood (ht.imp_right And.left)]
    exact ⟨fun h => by rw [if_pos h]; rfl, fun h hbehind => by rw [if_neg h, if_neg (Nat.not_lt.mpr hbehind)],
      fun h hahead => by rw [if_neg h, if_pos hahead]; rfl⟩
  case control =>
    exact flitReceive_idle hs hl hup hr (flitGood_eq_true hc h0 (by omega) (.inr hv)) ht
  case bad => exact flitReceive_bad hs hl hup (flitGood_eq_false hf)
  case credits => exact creditReturn_returns hs hl hup hc
  case acked =>
    obtain ⟨n, hk⟩ := State.acked_link hq f.ack credits
    exact ⟨_, controlFlit_of_idle hs hl hup hf ht hq none credits, (congrArg Link.replay hk :), (congrArg Link.queue hk).trans hq,
      (congrArg Link.credits hk :), State.acked_out hq f.ack credits⟩
  case naked =>
    obtain ⟨n, hk⟩ := State.acked_link hq f.ack credits
    have hreplay : ((s.acked l f.ack credits).link l).replay = (s.link l).unacked f.ack := (congrArg Link.replay hk :)
    have hretries : ((s.acked l f.ack credits).link l).retries = (s.link l).retries := (congrArg Link.retries hk :)
    have hnak : (s.acked l f.ack credits).answerNak l (some q) = (s.acked l f.ack credits).resend l i := by
      have hfind : ((s.acked l f.ack credits).link l).replay.findIdx? (·.seq = q) = some i := by rw [hreplay]; exact hi
      simp only [State.answerNak, hfind]
    refine ⟨_, controlFlit_of_idle hs hl hup hf ht hq (some q) credits, ?_, ?_⟩
    · rw [hnak, State.resend_link, hreplay, hretries]; rfl
    · rw [hnak, State.resend_out, hreplay, State.acked_out hq]; rfl
  case timeout =>
    refine ⟨_, linkAckTimeout_resends hs hl hup hr ht, ?_, ?_, State.resend_out s l 0, State.resend_mem s l 0⟩
    · rw [State.resend_link]
    · rw [State.resend_link]; rfl
  case down =>
    have hpast := s.downLink_sentPast l (train := .training) (by decide)
    obtain ⟨d, ks, o, hframe⟩ := hpast.frame
    have hlink := hpast.link.trans (State.link_setLink_self ..)
    rw [Link.downed, if_pos hup] at hlink
    refine ⟨_, linkDown_downs hs hl hup hc, ?_, ?_, ?_, ?_, ?_, ?_, (congrArg State.mem hframe).trans rfl,
      (congrArg State.eng hframe).trans rfl⟩
    all_goals rw [hlink]
    rfl

end Sys2Proof.Machine
end

section
/-! PROOF. O35: claims, withdrawal, conflict and election of a manager (R381 to R384). -/
namespace Sys2Proof.Machine

/-! ## Frames sent on several links (R379) -/

/-- Sending on links that leaves the sender's own fields of every frame as they were. -/
structure SentFrames (s t : State) : Prop where
  on : SentOn s t
  frame : ∀ l kind, t.frame l kind = s.frame l kind

theorem SentFrames.refl (s : State) : SentFrames s s := ⟨.refl s, fun _ _ => rfl⟩

theorem SentFrames.trans {r s t : State} (h : SentFrames r s) (k : SentFrames s t) : SentFrames r t :=
  ⟨h.on.trans k.on, fun l kind => (k.frame l kind).trans (h.frame l kind)⟩

/-- A frame that is sent leaves every link's lanes. -/
theorem State.sendFrame_lanes (s : State) (l m : Nat) (f : Frame) : ((s.sendFrame l f).link m).lanes = (s.link m).lanes := by
  by_cases h : m = l
  · obtain ⟨q, r, x, c, e⟩ := s.sendFrame_link l f
    rw [h, e]
  · exact congrArg Link.lanes (((SentPast.refl s).emit _).linkSend h ..).link

theorem State.sendFrame_sentFrames (s : State) (l : Nat) (f : Frame) : SentFrames s (s.sendFrame l f) where
  on := (SentOn.refl s).sendFrame l f
  frame := fun m kind => by
    obtain ⟨ks, o, e⟩ := s.sendFrame_frame l f
    have hlanes := s.sendFrame_lanes l m f
    unfold State.frame
    rw [hlanes, e]

/-- A frame goes out on each link of a list, as the sender's fields stood at the start. -/
theorem foldl_sendFrame {g : State → Nat → Frame} {s : State} (hg : ∀ t l, SentFrames s t → g t l = g s l) (ls : List Nat) :
    SentFrames s (ls.foldl (fun s l => s.sendFrame l (g s l)) s) ∧
      ∀ l ∈ ls, .frame l (g s l) ∈ (ls.foldl (fun s l => s.sendFrame l (g s l)) s).out := by
  have hall (ls : List Nat) : ∀ t, SentFrames s t → SentFrames s (ls.foldl (fun s l => s.sendFrame l (g s l)) t) ∧
      (∀ o ∈ t.out, o ∈ (ls.foldl (fun s l => s.sendFrame l (g s l)) t).out) ∧
      ∀ l ∈ ls, .frame l (g s l) ∈ (ls.foldl (fun s l => s.sendFrame l (g s l)) t).out := by
    induction ls with
    | nil => exact fun t ht => ⟨ht, fun _ h => h, fun _ h => absurd h List.not_mem_nil⟩
    | cons a ls ih =>
      intro t ht
      obtain ⟨hs, ho, hl⟩ := ih (t.sendFrame a (g t a)) (ht.trans (t.sendFrame_sentFrames a _))
      refine ⟨hs, fun o h => ho o ((t.sendFrame_sentFrames a (g t a)).on.sent o h), fun l hl' => ?_⟩
      obtain rfl | hl' := List.mem_cons.1 hl'
      · refine ho _ ?_
        rw [← hg t l ht]
        exact t.sendFrame_sends l (g t l)
      · exact hl l hl'
  exact ⟨(hall ls s (.refl s)).1, (hall ls s (.refl s)).2.2⟩

/-! ## Claims (R381 to R383) -/

theorem claimSend_claims {s : State} (hup : s.mgmtUp = true) (hp : s.dom.mgrPrio ≠ 0)
    (hc : s.disc.candidate = true ∨ s.dom.role = .manager) (hf : s.disc.firstUp.isSome = true)
    (ht : ∀ last, s.disc.lastClaim = some last → 25000 ≤ (s.time.count - last).toNat) :
    ∃ t : State, exec .claimSend s = .next t ∧ t.disc = { s.disc with lastClaim := some s.time.count } ∧ t.dom = s.dom ∧
      ∀ l, l < s.part.links → s.domainLink l = true → .frame l { s.frame l 2 with
        elected := decide (s.dom.role = .manager), conflict := s.disc.conflict
        count := if s.dom.role = .manager then (nodesOf s.dom.members).length else 0 } ∈ t.out := by
  have hg := foldl_sendFrame (s := s.setDisc { s.disc with lastClaim := some s.time.count })
    (g := fun s l => { s.frame l 2 with
      elected := decide (s.dom.role = .manager), conflict := s.disc.conflict
      count := if s.dom.role = .manager then (nodesOf s.dom.members).length else 0 })
    (fun t l h => by simp only [h.frame, h.on.dom, h.on.disc]) s.domainLinks
  refine ⟨_, (act_of_true (by simp [hup, hp, hc, hf, State.elapsed_of_all ht]) s _ : execClaimSend s = _), hg.1.on.disc, hg.1.on.dom,
    fun l hl hd => hg.2 l (List.mem_filter.2 ⟨List.mem_range.2 hl, hd⟩)⟩

section

variable {s : State} {l : Nat} {f : Frame} (hs : s.live = true) (hl : l < s.part.links) (hd : s.domainLink l = true)
  (hi : f.intact = true) (hk : f.kind = 2) (hr : s.dom.role ≠ .manager)

/-- With no arm and no steep, a new manager changes the manager, the role and the standby alone. -/
theorem State.adoptManager_eq {s : State} (ha : s.caddy.armed = none) (hn : s.steep.running = false) (node standby : Nat) :
    s.adoptManager node standby = { s with
      disc := { s.disc with standby := standby }
      dom := { s.dom with manager := node, role :=
        if s.dom.node ≠ 0xFF ∧ standby = s.dom.node ∧ s.start.mgmtHeld = false then .standby else .worker } } := by
  simp [State.adoptManager, State.setDisc, State.setDom, ha, hn, and_assoc]

/-- A manager is named: the claims and the conflict end, and the package takes its role (R381 to R383). -/
def State.named (s : State) (node standby : Nat) : State :=
  ((s.setDisc { s.disc with candidate := false, conflict := false, lastHigher := some s.now }).setDom
    { s.dom with conflictFlag := false }).adoptManager node standby

include hs hl hd hi hk hr

theorem claim_elected (he : f.elected = true) : ∃ t, exec (.claim l f) s = .next t ∧ SentOn (s.named f.node f.standby) t := by
  refine ⟨_, (act_of_true (by simp [hs, hl, hd, hi, hk, hr]) s _ : execClaim l f s = _), ?_⟩
  rw [if_pos he]
  dsimp only
  split
  · exact (SentOn.refl _).sendFrame ..
  · exact .refl _

/-- A claim of a candidate, by its priority against the package's own. -/
theorem claim_candidate (he : f.elected = false) : exec (.claim l f) s = .next (
    if s.dom.mgrPrio = 0 ∨ f.mgrPrio < s.dom.mgrPrio then s
    else if s.dom.mgrPrio < f.mgrPrio then { s with
      disc := { s.disc with candidate := false, conflict := false, lastHigher := some s.time.count }
      dom := { s.dom with conflictFlag := false } }
    else if s.disc.candidate = false then { s with disc := { s.disc with lastHigher := some s.time.count } }
    else
      let t : State := { s with
        disc := { s.disc with conflict := true, lastHigher := some s.time.count }, dom := { s.dom with conflictFlag := true } }
      if s.dom.conflictFlag = false then t.raise { status := 0x0311, cls := 0 } else t) := by
  refine (act_of_true (by simp [hs, hl, hd, hi, hk, hr]) s _ : execClaim l f s = _).trans (congrArg _ ?_)
  simp [he, State.setDisc, State.setDom, State.now]

end

/-! ## Election (R381, R384) -/

theorem State.reportLink_disc (s : State) (l : Nat) : ∃ r, (s.reportLink l).disc = { s.disc with reports := r } := by
  unfold State.reportLink
  dsimp only
  split
  · exact ⟨_, rfl⟩
  · split
    · exact ⟨_, rfl⟩
    · split
      · exact ⟨_, ((SentOn.refl s).sendFrame ..).disc⟩
      · exact ⟨_, rfl⟩

theorem State.query_disc (s : State) : ∃ w, s.query.disc = { s.disc with sweep := w } := by
  unfold State.query
  split
  · split
    · exact ⟨_, ((SentOn.refl (s.setDisc _)).sendFrame ..).disc⟩
    · exact ⟨_, rfl⟩
  · exact ⟨_, rfl⟩

/-- A round starts with a new EPOCH and the manager alone (R384). -/
theorem State.startRound_disc (s : State) : ∃ r w, s.startRound.disc = { s.disc with
    epoch := (s.disc.epoch + 1) % 65536, found := [0], reports := r, planes := [], lsValid := false, lastSteep := 0, sweep := w } := by
  have hfold (ls : List Nat) : ∀ u : State, ∃ r, (ls.foldl (fun s l => s.reportLink l) u).disc = { u.disc with reports := r } := by
    induction ls with
    | nil => exact fun u => ⟨_, rfl⟩
    | cons a ls ih =>
      intro u
      obtain ⟨r, h⟩ := u.reportLink_disc a
      obtain ⟨r', h'⟩ := ih (u.reportLink a)
      exact ⟨r', by rw [List.foldl_cons, h', h]⟩
  unfold State.startRound
  extract_lets d s₁ m s₂ s₃
  obtain ⟨r, h⟩ := hfold s₂.domainLinks s₂
  obtain ⟨w, h'⟩ := s₃.query_disc
  exact ⟨r, w, h'.trans (by rw [show s₃.disc = _ from h]; rfl)⟩

section

variable {s : State} {first : DWord} (hup : s.mgmtUp = true) (hp : s.dom.mgrPrio ≠ 0) (hr : s.dom.role ≠ .manager)
  (hf : s.disc.firstUp = some first)

include hf in
theorem electionTimeout_early (ht : s.since first < 2500000) : exec .electionTimeout s = .next s := by
  show execElectionTimeout s = _
  unfold execElectionTimeout
  exact act_of_false (by simp [hf, State.elapsed, Nat.not_le.mpr ht]) s _

include hup hp hr hf

theorem electionTimeout_late (ht : 2500000 ≤ s.since first)
    (hh : ∀ higher, s.disc.lastHigher = some higher → 2500000 ≤ (s.time.count - higher).toNat) :
    exec .electionTimeout s = .next (
      if !s.disc.candidate then { s with disc := { s.disc with candidate := true } }
      else
        let u := if s.disc.inDomain then s.enterBringup else s
        State.startRound { u with disc := { u.disc with elected := true, conflict := false, standby := 0xFF }
                                  dom := { u.dom with conflictFlag := false } }) := by
  have hfirst : s.elapsed (some first) 2500000 = true := decide_eq_true ht
  exact (act_of_true (by simp [hup, hp, hr, hf, State.elapsed_of_all hh, hfirst]) s _ : execElectionTimeout s = _)

end

/-- Settles O35: claims by their kind and priority, elections by the time without a higher claim. -/
theorem electionNamesAManager : Obligations.ElectionNamesAManager := by
  unfold Obligations.ElectionNamesAManager
  refine ⟨fun s => ⟨claimSend_claims, fun l f hs hl hd hi hk hr => ⟨fun he hp => ?lower, fun he hp hlt => ?higher, fun he hp heq hc => ?withdrawn,
    fun he hp heq hc hflag => ?conflict, fun he ha hn => ?elected⟩⟩, fun s first hup hp hr hf =>
    ⟨electionTimeout_early hf, fun ht hh => ⟨fun hc => ?claimsAgain, fun hc hin => ?wins⟩⟩⟩
  case lower => rw [claim_candidate hs hl hd hi hk hr he, if_pos hp]
  case higher => rw [claim_candidate hs hl hd hi hk hr he, if_neg (by omega), if_pos hlt]
  case withdrawn => rw [claim_candidate hs hl hd hi hk hr he, if_neg (by omega), if_neg (by omega), if_pos hc]
  case conflict =>
    rw [claim_candidate hs hl hd hi hk hr he, if_neg (by omega), if_neg (by omega), if_neg (by simp [hc])]
    dsimp only
    by_cases hset : s.dom.conflictFlag = true
    · rw [if_neg (by simp [hset])]
      exact ⟨_, rfl, rfl, rfl, fun _ => rfl⟩
    · obtain ⟨x, o, hraise⟩ := State.raise_of_idle (s := { s with
        disc := { s.disc with conflict := true, lastHigher := some s.time.count }
        dom := { s.dom with conflictFlag := true } }) (hflag.resolve_left hset) (e := { status := 0x0311, cls := 0 }) rfl
      rw [if_pos (by simpa using hset), hraise]
      exact ⟨_, rfl, rfl, rfl, fun h => absurd h hset⟩
  case elected =>
    obtain ⟨t, ht, hsent⟩ := claim_elected hs hl hd hi hk hr he
    rw [State.named, State.adoptManager_eq (by exact ha) (by exact hn)] at hsent
    exact ⟨t, ht, (congrArg (·.manager) hsent.dom :), (congrArg (·.conflictFlag) hsent.dom :), (congrArg (·.candidate) hsent.disc :),
      (congrArg (·.conflict) hsent.disc :), (congrArg (·.standby) hsent.disc :), hsent.mem, (congrArg (·.role) hsent.dom :)⟩
  case claimsAgain => rw [electionTimeout_late hup hp hr hf ht hh, hc]; rfl
  case wins =>
    rw [electionTimeout_late hup hp hr hf ht hh, hc, hin]
    obtain ⟨d, ks, o, hround⟩ := State.startRound_frame { s with
      disc := { s.disc with elected := true, conflict := false, standby := 0xFF }, dom := { s.dom with conflictFlag := false } }
    obtain ⟨r, w, hdisc⟩ := State.startRound_disc { s with
      disc := { s.disc with elected := true, conflict := false, standby := 0xFF }, dom := { s.dom with conflictFlag := false } }
    exact ⟨_, rfl, (congrArg (·.dom.role) hround :), (congrArg (·.dom.node) hround :), (congrArg (·.dom.manager) hround :),
      (congrArg (·.elected) hdisc :), (congrArg (·.epoch) hdisc :), (congrArg (·.found) hdisc :), (congrArg (·.standby) hdisc :),
      (congrArg (·.dom.state) hround :), (congrArg (·.mem) hround :)⟩

end Sys2Proof.Machine
end

section
/-! PROOF. What the fabric agent's own work leaves: completions, sending and the agent's tables change, nothing else (R402, R404,
R408, R412). -/
namespace Sys2Proof.Machine

/-- Work of the fabric agent: it writes completions, ends descriptors that wait for them, keeps its tables and sends. -/
def FabWork (s t : State) : Prop := ∃ h d b w r f ks o, t =
  { s with mem := { s.mem with hbm := h, dieStore := d, badBursts := b }, waiting := w, rings := r, fab := f, links := ks, out := o }

namespace FabWork

variable {r s t : State}

theorem refl (s : State) : FabWork s s :=
  ⟨s.mem.hbm, s.mem.dieStore, s.mem.badBursts, s.waiting, s.rings, s.fab, s.links, s.out, rfl⟩

theorem trans (h : FabWork r s) (k : FabWork s t) : FabWork r t := by
  obtain ⟨h, d, b, w, x, f, ks, o, rfl⟩ := h
  obtain ⟨h', d', b', w', x', f', ks', o', rfl⟩ := k
  exact ⟨h', d', b', w', x', f', ks', o', rfl⟩

theorem foldl {α : Type} {f : State → α → State} (hf : ∀ s a, FabWork s (f s a)) (l : List α) (s : State) :
    FabWork s (l.foldl f s) := by
  induction l generalizing s with
  | nil => exact .refl s
  | cons a l ih => exact (hf s a).trans (ih (f s a))

theorem ite {c : Prop} [Decidable c] (h : FabWork r s) (k : FabWork r t) : FabWork r (if c then s else t) := by
  split <;> assumption

theorem setFab (h : FabWork r s) (f : Fabric) : FabWork r (s.setFab f) :=
  h.trans ⟨s.mem.hbm, s.mem.dieStore, s.mem.badBursts, s.waiting, s.rings, f, s.links, s.out, rfl⟩

theorem dom (h : FabWork s t) : t.dom = s.dom := by
  obtain ⟨h, d, b, w, x, f, ks, o, rfl⟩ := h
  rfl

theorem disc (h : FabWork s t) : t.disc = s.disc := by
  obtain ⟨h, d, b, w, x, f, ks, o, rfl⟩ := h
  rfl

end FabWork

section

variable (s : State)

theorem State.complete_fabWork (die engine compl status : Nat) (known applied : Bool) (tag : Word) (result : Nat)
    (mask : Option (List Nat)) : FabWork s (s.complete die engine compl status known applied tag result mask) := by
  obtain ⟨h, d, b, w, r, o, e⟩ := s.complete_frame die engine compl status known applied tag result mask
  exact ⟨h, d, b, w, r, s.fab, s.links, o, e⟩

theorem State.requestLater_fabWork (die engine : Nat) (p : FabPkt) : FabWork s (s.requestLater die engine p) := by
  obtain ⟨f, ks, o, e⟩ := s.requestLater_frame die engine p
  exact ⟨s.mem.hbm, s.mem.dieStore, s.mem.badBursts, s.waiting, s.rings, f, ks, o, e⟩

theorem State.request_fabWork {s t : State} {die engine : Nat} {write : Bool} {p : FabPkt} {compl : Nat}
    (h : s.request die engine write p compl = some t) : FabWork s t := by
  obtain ⟨f, ks, o, e⟩ := State.request_frame h
  exact ⟨s.mem.hbm, s.mem.dieStore, s.mem.badBursts, s.waiting, s.rings, f, ks, o, e⟩

theorem State.endInval_fabWork (v : Inval) (status : Nat) (nodes : List Nat) : FabWork s (s.endInval v status nodes) :=
  ((FabWork.refl s).setFab _).trans (State.complete_fabWork ..)

theorem State.sendInval_fabWork (v : Inval) : FabWork s (s.sendInval v) := by
  unfold State.sendInval
  extract_lets members gone others s₁ blank s₂ v' s₃
  have h₁ : FabWork s s₁ := FabWork.ite ((FabWork.refl s).setFab _) (.refl s)
  have h₂ : FabWork s s₂ := h₁.trans (FabWork.foldl (fun s n => s.requestLater_fabWork ..) others s₁)
  exact FabWork.ite ((h₂.setFab _).trans (State.endInval_fabWork ..)) (h₂.setFab _)

theorem State.sendXfer_fabWork (x : Xfer) : FabWork s (s.sendXfer x) := by
  unfold State.sendXfer
  dsimp only
  split
  · exact (State.request_fabWork ‹_›).setFab _
  · exact .refl s

theorem State.endFence_fabWork (f : Fence) (unreached : List Nat) : FabWork s (s.endFence f unreached) :=
  FabWork.ite (((FabWork.refl s).setFab _).trans (State.complete_fabWork ..)) (((FabWork.refl s).setFab _).trans (State.complete_fabWork ..))

theorem State.settleFences_fabWork : FabWork s s.settleFences :=
  FabWork.foldl (fun s _ => FabWork.ite (s.endFence_fabWork ..) (.refl s)) _ s

theorem State.settleFabric_fabWork : FabWork s s.settleFabric :=
  ((FabWork.foldl (fun s v => s.sendInval_fabWork v) _ s).trans (FabWork.foldl (fun s x => s.sendXfer_fabWork x) _ _)).trans
    (State.settleFences_fabWork _)

end

/-- A fence that completes leaves the DSEQs. -/
theorem State.endFence_dseq (s : State) (f : Fence) (unreached : List Nat) : (s.endFence f unreached).fab.dseq = s.fab.dseq := by
  unfold State.endFence
  dsimp only
  split <;> rw [State.complete_fab] <;> rfl

theorem State.settleFences_dseq (s : State) : s.settleFences.fab.dseq = s.fab.dseq := by
  have hfold (l : List Fence) : ∀ u : State, (l.foldl (fun s f => if (s.fenceOpen f).isEmpty then s.endFence f (s.fenceGone f) else s)
      u).fab.dseq = u.fab.dseq := by
    induction l with
    | nil => exact fun u => rfl
    | cons f l ih =>
      intro u
      rw [List.foldl_cons, ih]
      split
      · exact u.endFence_dseq ..
      · rfl
  exact hfold _ s

/-- With no invalidation or transfer that waits, settling leaves the DSEQs. -/
theorem State.settleFabric_dseq {s : State} (hv : s.fab.invals = []) (hx : s.fab.xfers = []) :
    s.settleFabric.fab.dseq = s.fab.dseq := by
  have hfences : s.settleFabric = s.settleFences := by simp [State.settleFabric, hv, hx]
  rw [hfences, State.settleFences_dseq]

end Sys2Proof.Machine
end

section
/-! PROOF. O34: HELLO, link reports and member masks (R376, R380, R385, R387, R398). -/
namespace Sys2Proof.Machine

/-! ## HELLO (R376, R380) -/

theorem helloSend_greets {s : State} (hs : s.live = true)
    (ht : ∀ last, s.disc.lastHello = some last → 25000 ≤ (s.time.count - last).toNat) :
    ∃ t : State, exec .helloSend s = .next t ∧ t.disc = { s.disc with lastHello := some s.time.count } ∧ t.mem = s.mem ∧
      ∀ l, l < s.part.links → (s.link l).isUp = true → .frame l (s.frame l 1) ∈ t.out := by
  have hg := foldl_sendFrame (s := s.setDisc { s.disc with lastHello := some s.time.count }) (g := fun s l => s.frame l 1)
    (fun t l h => h.frame l 1) s.upLinks
  exact ⟨_, (act_of_true (by simp [hs, State.elapsed_of_all ht]) s _ : execHelloSend s = _), hg.1.on.disc, hg.1.on.mem,
    fun l hl hu => hg.2 l (List.mem_filter.2 ⟨List.mem_range.2 hl, hu⟩)⟩

theorem helloSend_early {s : State} {last : DWord} (hl : s.disc.lastHello = some last) (ht : s.since last < 25000) :
    exec .helloSend s = .next s :=
  (act_of_false (by simp [hl, State.elapsed, Nat.not_le.mpr ht]) s _ : execHelloSend s = _)

/-- What a report leaves of a link: what is to be sent and resent may change. -/
theorem State.reportLink_link (s : State) (l m : Nat) : ∃ q r x c,
    (s.reportLink l).link m = { s.link m with queue := q, replay := r, txSeq := x, credits := c } := by
  unfold State.reportLink
  dsimp only
  split
  · exact ⟨_, _, _, _, rfl⟩
  · split
    · exact ⟨_, _, _, _, rfl⟩
    · split
      case h_1 via _ =>
        by_cases h : m = via
        · exact h ▸ s.sendFrame_link ..
        · exact ⟨_, _, _, _, (((SentPast.refl s).emit _).linkSend h ..).link⟩
      case h_2 => exact ⟨_, _, _, _, rfl⟩

/-- A link as its peer's HELLO leaves it in a port of the peer's kind (R376, R380). -/
def Link.greeted (k : Link) (f : Frame) : Link := { k with
  peerKind := f.senderKind + 1, peerNode := f.node, peerLink := f.link, plane := f.plane, swPort := f.swPort
  swPorts := if f.senderKind + 1 = 1 then 0 else f.count, heldOut := false }

/-- The kind of port that a peer asks for: an outer-stage switch a message port, any other a domain port (R376). -/
def portWanted (f : Frame) : Nat := if f.senderKind = 2 then 2 else 1

theorem State.portKind_setDisc_set (s : State) (p v : Nat) :
    (s.setDisc { s.disc with portKind := s.disc.portKind.set p v }).portKind p = v := Tab.get_set_self ..

theorem hello_greeted {s : State} {l : Nat} {f : Frame} (hs : s.live = true) (hl : l < s.part.links) (hup : (s.link l).isUp = true)
    (hi : f.intact = true) (hk : f.kind = 1)
    (hport : s.portKind (s.link l).port = 0 ∨ s.portKind (s.link l).port = portWanted f)
    (hplane : f.senderKind ≠ 1 ∨ ∀ m, m ≠ l → (s.link m).isUp = true → (s.link m).plane ≠ f.plane) :
    ∃ u t : State, exec (.hello l f) s = .next t ∧ (t = u ∨ t = u.reportLink l) ∧ u.link l = (s.link l).greeted f ∧
      u.portKind (s.link l).port = portWanted f ∧ u.mem = s.mem ∧ u.dom = s.dom := by
  have hexec : exec (.hello l f) s = _ := (act_of_true (by simp [hs, hl, hup, hi, hk]) s _ : execHello l f s = _)
  rw [hexec]
  extract_lets k kind want k' _ s₁ changed s₂ _ s₃ bad s₄ s₅
  have hwant : want = portWanted f := rfl
  have h₁ : ∃ d, s₁ = { s with disc := d } ∧ d.portKind = s.disc.portKind := by
    unfold s₁
    split
    · exact ⟨_, rfl, rfl⟩
    · exact ⟨_, rfl, rfl⟩
  obtain ⟨d, h₁, hd⟩ := h₁
  have hkind : s₂.portKind k.port = s.portKind k.port := by
    show s₁.disc.portKind.get 0 k.port = _
    rw [h₁, hd]
    rfl
  have h₃ : ∃ d, s₃ = { s₂ with disc := d } ∧ s₃.portKind k.port = want := by
    unfold s₃
    split
    case isTrue h => exact ⟨_, rfl, State.portKind_setDisc_set ..⟩
    case isFalse h => exact ⟨_, rfl, hkind.trans ((hport.resolve_left (hkind ▸ h)).trans hwant.symm)⟩
  obtain ⟨d', h₃, hwanted⟩ := h₃
  have hlink (m : Nat) (hm : m ≠ l) : s₃.link m = s.link m := by
    rw [h₃]
    exact (s₁.link_setLink_ne k' hm).trans (by rw [h₁]; rfl)
  have hself : s₃.link l = k' := by
    rw [h₃]
    exact s₁.link_setLink_self l k'
  -- No other link of the package is on the plane.
  have halone (m : Nat) (h2 : kind = 2) (hm : m ≠ l) (hu : (s₃.link m).isUp = true) : (s₃.link m).plane ≠ f.plane := by
    rw [hlink m hm] at hu ⊢
    exact hplane.resolve_left (fun h => h (by omega)) m hm hu
  have hbad : bad = false := by
    have htaken (h2 : kind = 2) : s₃.planeTaken l f.plane = false := by
      refine List.any_eq_false.2 fun m hm h => ?_
      simp only [Bool.and_eq_true, decide_eq_true_eq] at h
      exact halone m h2 (by omega) (List.mem_filter.1 hm).2 h.1.2
    unfold bad
    rw [hwanted, bne_self_eq_false, Bool.false_or]
    by_cases h2 : kind = 2
    · rw [htaken h2, Bool.and_false]
    · simp [h2]
  have h₄ : s₄ = s₃.setLink l ((s.link l).greeted f) := by
    unfold s₄
    rw [hbad]
    exact congrArg (s₃.setLink l) (by rw [hself]; rfl)
  have h₅ : s₅ = s₄ := by
    unfold s₅
    split
    case isTrue h => rfl
    case isFalse h =>
      have h2 : kind = 2 := by simpa [hbad] using h
      have hnone : (s₄.upLinks.filter fun m =>
          l < m && (s₄.link m).peerKind = 2 && (s₄.link m).plane = f.plane && !(s₄.link m).heldOut) = [] := by
        refine List.filter_eq_nil_iff.2 fun m hm hq => ?_
        simp only [Bool.and_eq_true, decide_eq_true_eq] at hq
        have hm' : s₄.link m = s₃.link m := by rw [h₄, State.link_setLink_ne _ _ (by omega)]
        have hu := (List.mem_filter.1 hm).2
        rw [hm'] at hq hu
        exact halone m h2 (by omega) hu hq.1.2
      rw [hnone]
      rfl
  refine ⟨s₄, _, rfl, ?_, ?_, ?_, ?_, ?_⟩
  · rw [h₅]
    split
    · exact .inr rfl
    · exact .inl rfl
  · rw [h₄, State.link_setLink_self]
  · rw [h₄]
    exact hwanted.trans hwant
  · rw [h₄, State.setLink_mem, h₃]
    exact (congrArg State.mem h₁ :)
  · rw [h₄, State.setLink_dom, h₃]
    exact (congrArg State.dom h₁ :)

/-! ## Link reports (R385) -/

/-- What a package tells of its generations changes them and may order ACTIVATE (R308). -/
theorem State.takeGens_frame (s : State) (n : Nat) (gens : Option GenReport) : ∃ g o,
    s.takeGens n gens = { s with disc := { s.disc with gens := g }, out := o } := by
  unfold State.takeGens
  split
  · exact ⟨_, _, rfl⟩
  · dsimp only
    split <;> exact ⟨_, _, rfl⟩

/-- While a sweep goes on, nobody is admitted (R384, R385). -/
theorem State.admitMembers_of_sweep {s : State} (h : s.disc.sweep.isSome = true) : s.admitMembers = s := by
  rw [State.admitMembers, if_pos h]

theorem linkReport_kept {s : State} {l : Nat} {f : Frame} {w : Sweep} (hup : s.mgmtUp = true) (hr : s.dom.role = .manager)
    (hl : l < s.part.links) (hi : f.intact = true) (hk : f.kind = 7) (h0 : f.senderKind = 0) (hw : s.disc.sweep = some w)
    (gens : Option GenReport) : ∃ t : State, exec (.linkReport l f gens) s = .next t ∧ t.dom = s.dom ∧ t.mem = s.mem ∧
      t.disc.sweep = some w ∧ t.disc.reports = s.disc.reports.filter (fun r => !(r.node = f.node && r.link = f.link)) ++
        (if f.plane = 0xFFFF ∧ f.assignNode = 0xFF then []
         else [{ node := f.node, link := f.link, peer := f.assignNode, plane := f.plane }]) := by
  obtain ⟨g, o, htake⟩ := s.takeGens_frame f.node gens
  have hexec : exec (.linkReport l f gens) s = _ := (act_of_true (by simp [hup, hr, hl, hi, hk]) s _ : execLinkReport l f gens s = _)
  rw [hexec]
  extract_lets u d keep new newer v
  have hu : u = { s with disc := { s.disc with gens := g }, out := o } := (if_pos h0).trans htake
  have hv : v = _ := if_pos h0
  have hsweep : v.disc.sweep = some w := by
    rw [hv]
    show u.disc.sweep = some w
    rw [hu]
    exact hw
  rw [State.admitMembers_of_sweep (by rw [hsweep]; rfl)]
  refine ⟨_, rfl, ?_, ?_, hsweep, ?_⟩
  · rw [hv, hu]; rfl
  · rw [hv, hu]; rfl
  · rw [hv]
    simp [keep, new, d, hu, State.setDisc]

/-! ## Member masks (R385, R398) -/

theorem memberMask_taken {s : State} (hs : s.live = true) (hr : s.dom.role ≠ .manager) (hn : s.dom.node < 255) (mask : W256)
    (planes : List PlaneEntry) (adds : Bool) : exec (.memberMask mask planes adds) s = .next (s.takeMask mask planes adds) :=
  (act_of_true (by simp [hs, hr, Nat.ne_of_lt hn]) s _ : execMemberMask mask planes adds s = _)

/-- Left out of a mask while outside a domain: the plane map is taken, and the case recorded. -/
theorem State.takeMask_left_out {s : State} {mask : W256} (hm : mask.getLsbD s.dom.node = false) (hin : s.disc.inDomain = false)
    (planes : List PlaneEntry) (adds : Bool) : s.takeMask mask planes adds =
      State.raise { s with disc := { s.disc with planes := planes } } { status := 0x0316, cls := 0 } := by
  simp only [State.takeMask, hm, hin, Bool.and_false, Bool.not_false, if_true, Bool.false_eq_true, if_false]
  rfl

/-- A new membership's fabric: members that join start their write sequences anew (R398). -/
def Fabric.startAnew (f : Fabric) (new : List Nat) : Fabric := { f with
  dseq := f.dseq.filter fun p => !new.contains (p.1 % 256)
  outcomes := f.outcomes.filter fun o => !new.contains o.src
  lastMsg := f.lastMsg.filter fun k => !(k.1 = 0 && new.contains k.2.1)
  replay := f.replay.filter fun r => !new.contains r.src }

/-- Nobody left: nothing outstanding is lost, what waits goes on. -/
theorem State.nodesLeft_nil (s : State) : s.nodesLeft [] = s.settleFabric := by
  simp [State.nodesLeft, State.setFab]

/-- A member as a mask leaves it, but for what waits (R385, R398). -/
def State.inMask (s : State) (mask : W256) (planes : List PlaneEntry) (adds : Bool) (last : Option W256) (changed : Bool) : State :=
  { s with
    disc := { s.disc with planes := planes, inDomain := true, lastMembership := last }
    dom := { s.dom with members := mask, membershipChanged := changed }
    fab := if adds then s.fab.startAnew ((nodesOf mask).filter fun n => !s.dom.members.getLsbD n) else s.fab }

theorem State.takeMask_member {s : State} {mask : W256} (hr : s.dom.role ≠ .manager) (hn : s.dom.node < 255)
    (hm : mask.getLsbD s.dom.node = true) (hall : s.dom.members &&& ~~~mask = 0)
    (hin : s.disc.inDomain = false ∨ mask = s.dom.members) (planes : List PlaneEntry) (adds : Bool) :
    ∃ m c, s.takeMask mask planes adds = (s.inMask mask planes adds m c).settleFabric := by
  have hgone : ((nodesOf s.dom.members).filter fun n => !mask.getLsbD n) = [] := by
    refine List.filter_eq_nil_iff.2 fun n h hleft => ?_
    have hmem : s.dom.members.getLsbD n = true := mem_nodesOf.1 h
    have hand : (s.dom.members &&& ~~~mask).getLsbD n = true := by
      rw [BitVec.getLsbD_and, BitVec.getLsbD_not, hmem, hleft, decide_eq_true (BitVec.lt_of_getLsbD hmem)]
      rfl
    rw [hall] at hand
    simp at hand
  have hsame : (mask != s.dom.members && s.disc.inDomain) = false := by
    obtain h | h := hin <;> simp [h]
  have hown : (!(decide (s.dom.node < 256) && mask.getLsbD s.dom.node)) = false := by
    simp [hm, Nat.lt_trans hn (by decide : 255 < 256)]
  unfold State.takeMask
  extract_lets old was _ _ _ _ _ _ gone new changed s₁ flag _ s₂ _ s₃ _ s₄ s₅ s₆
  rw [if_neg (by rw [hown]; decide)]
  have h₁ : s₁ = s := if_neg (by rw [hsame]; decide)
  clear_value s₁
  subst s₁
  have h₄ : ∃ m c, s₄ = s.inMask mask planes adds m c := by
    refine ⟨if s.dom.state = .bringup then none else s.disc.lastMembership, s₂.dom.membershipChanged || flag, ?_⟩
    unfold s₄ s₃ s₂
    cases adds <;> rfl
  obtain ⟨m, c, h₄⟩ := h₄
  have h₅ : s₅ = (s.inMask mask planes adds m c).settleFabric := by
    unfold s₅
    rw [show gone = [] from hgone, h₄, State.nodesLeft_nil]
  have hrole : s₅.dom.role ≠ .manager := by
    rw [h₅, (State.settleFabric_fabWork _).dom]
    exact hr
  have h₆ : s₆ = s₅ := if_neg hrole
  refine ⟨m, c, ?_⟩
  rw [h₆, if_neg (by simp [hrole]), h₅]

/-- Settles O34: HELLO by its sender and receiver, a report and a mask by who takes them. -/
theorem neighboursAndMembers : Obligations.NeighboursAndMembers := by
  unfold Obligations.NeighboursAndMembers
  refine ⟨fun s hs => ⟨fun last hl ht => helloSend_early hl ht, helloSend_greets hs, fun l f hl hup hi hk => ?hello, fun l f hi => ?torn⟩,
    fun s => ⟨fun l f w hup hr hl hi hk h0 hw => linkReport_kept hup hr hl hi hk h0 hw,
      fun mask planes adds hs hr hn => ⟨fun hm hall hin => ?member, fun hm hin hidle => ?leftOut⟩⟩⟩
  case hello =>
    intro want hport hplane
    obtain ⟨u, t, hexec, ht, hlink, hkind, hmem, hdom⟩ := hello_greeted hs hl hup hi hk hport hplane
    refine ⟨t, hexec, ?_⟩
    obtain rfl | rfl := ht
    · rw [hlink]
      exact ⟨rfl, rfl, rfl, rfl, rfl, rfl, hkind, hmem, hdom⟩
    · obtain ⟨q, r, x, c, hreport⟩ := u.reportLink_link l l
      obtain ⟨p, hdisc⟩ := u.reportLink_disc l
      obtain ⟨d, ks, o, hframe⟩ := u.reportLink_frame l
      rw [hreport, hlink]
      refine ⟨rfl, rfl, rfl, rfl, rfl, rfl, ?_, ?_, ?_⟩
      · refine Eq.trans ?_ hkind
        rw [State.portKind, hdisc]
        rfl
      · rw [← hmem, hframe]
      · rw [← hdom, hframe]
  case torn =>
    exact (act_of_false (by simp [hi]) s _ : execHello l f s = _)
  case member =>
    obtain ⟨m, c, htake⟩ := State.takeMask_member hr hn hm hall hin planes adds
    have hwork := State.settleFabric_fabWork (s.inMask mask planes adds m c)
    refine ⟨_, memberMask_taken hs hr hn mask planes adds, ?_⟩
    rw [htake, hwork.dom, hwork.disc]
    refine ⟨rfl, rfl, rfl, rfl, fun ha hv hx n hin hout hn p hp => ?_⟩
    subst ha
    rw [State.settleFabric_dseq (by exact hv) (by exact hx)] at hp
    have hnew : n ∈ (nodesOf mask).filter fun n => !s.dom.members.getLsbD n :=
      List.mem_filter.2 ⟨mem_nodesOf.2 hin, by simp [hout]⟩
    rintro rfl
    have hold := (List.mem_filter.1 hp).2
    rw [Bool.not_eq_true', ← Bool.not_eq_true, List.contains_iff_mem] at hold
    exact hold hnew
  case leftOut =>
    obtain ⟨x, o, hraise⟩ := State.raise_of_idle (s := { s with disc := { s.disc with planes := planes } }) hidle
      (e := { status := 0x0316, cls := 0 }) rfl
    refine ⟨_, memberMask_taken hs hr hn mask planes adds, ?_⟩
    rw [State.takeMask_left_out hm hin, hraise]
    exact ⟨hin, rfl, rfl⟩

end Sys2Proof.Machine
end

section
/-! PROOF. O37: loads, stores and atomics are issued (R390, R393, R398, R406, R407, R409). -/
namespace Sys2Proof.Machine

/-! ## A request that is issued (R393, R398) -/

/-- The DSEQs once a request is issued: a write takes the next of its die and node, never 0 (R398). -/
def Fabric.dseqAfter (f : Fabric) (r : FabReq) : Tab Word :=
  if r.numbered then f.dseq.set (r.die * 256 + r.pkt.dst) (if r.pkt.dseq + 1 = 0 then 1 else r.pkt.dseq + 1) else f.dseq

/-- A request leaves the engine: it is outstanding, and takes a DSEQ where it is a write. -/
structure Issued (s t : State) (r : FabReq) : Prop where
  fab : ∃ i, t.fab = { s.fab with issues := i, reqs := s.fab.reqs ++ [r], dseq := s.fab.dseqAfter r }
  mem : t.mem = s.mem
  dom : t.dom = s.dom

/-- The request that an engine holds for a packet that it sends. -/
def State.requestOf (s : State) (die engine : Nat) (write : Bool) (p : FabPkt) (compl : Nat) (tag : Word) : FabReq :=
  { die := die, engine := engine, numbered := write, sentAt := s.now, compl := compl
    pkt := { p with src := s.dom.node, srcDie := die, tag := tag, dseq := if write then s.nextDseq die p.dst else 0 } }

/-- An engine with a free slot and an open window issues (R393, R398). -/
theorem State.request_issues {s : State} {die engine : Nat} {write : Bool} {p : FabPkt} (hfree : (s.engineReqs die engine).length < 512)
    (hw : write = true → s.windowOpen die p.dst = true) (compl : Nat) : ∃ tag t, s.request die engine write p compl = some t ∧
      Issued s t (s.requestOf die engine write p compl tag) := by
  have hslot := (lowestFree_free (used := (s.engineReqs die engine).map fun r => bits r.pkt.tag.toNat 8 0)
    (by simpa using hfree)).1
  unfold State.request
  extract_lets slots slot key issue ds p' f f'
  rw [if_neg]
  · obtain ⟨ks, o, hsend⟩ := (s.setFab f').fabSend_frame p'
    refine ⟨p'.tag, _, rfl, ⟨f.issues.set key ((issue + 1) % 2 ^ 15), ?_⟩, (congrArg State.mem hsend).trans rfl, (congrArg State.dom hsend).trans rfl⟩
    rw [hsend]
    cases write <;> rfl
  · cases write with
    | false => simpa using hslot
    | true => simpa [hw rfl] using hslot

/-! ## What is not sent (R390, R396, R434) -/

section

variable {s : State} {die engine : Nat} {a : DWord}

/-- The domain job belongs to engine 0 of I/O die 0. -/
theorem State.issueRefusal_domain_job (hj : faJob a = 0xFFF) (he : ¬ (die = 0 ∧ engine = 0)) (n : Nat) (cross : Bool) :
    s.issueRefusal die engine a n false cross = some (0x0301, none) := by
  have hjob : (!false && decide (faJob a = 0xFFF) && !(decide (die = 0) && decide (engine = 0))) = true := by
    simpa [hj, imp_iff_not_or] using he
  rw [State.issueRefusal, if_pos hjob]

theorem State.issueRefusal_across (hj : faJob a ≠ 0xFFF) {n : Nat} (hn : 4096 < faOffset a % 4096 + n) :
    s.issueRefusal die engine a n false true = some (0x0302, none) := by
  simp [State.issueRefusal, hj, hn]

theorem State.issueRefusal_outside (hj : faJob a ≠ 0xFFF) {n : Nat} (hn : faOffset a % 4096 + n ≤ 4096)
    (hm : s.isMember (faNode a) = false) : s.issueRefusal die engine a n false true = some (0x0303, some [faNode a]) := by
  simp [State.issueRefusal, hj, Nat.not_lt.mpr hn, hm]

/-- Inside the membership, within 4 KiB and with the job open to the engine, nothing is refused. -/
theorem State.issueRefusal_none (hj : faJob a ≠ 0xFFF ∨ (die = 0 ∧ engine = 0)) (hm : s.isMember (faNode a) = true) {n : Nat}
    {cross : Bool} (hn : cross = true → faOffset a % 4096 + n ≤ 4096) (raw : Bool) : s.issueRefusal die engine a n raw cross = none := by
  have hjob : ¬ ((!raw && decide (faJob a = 0xFFF) && !(decide (die = 0) && decide (engine = 0))) = true) := by
    obtain h | ⟨h, h'⟩ := hj <;> simp [*]
  have hspan : ¬ ((cross && decide (4096 < faOffset a % 4096 + n)) = true) := by
    cases cross with
    | false => simp
    | true => simpa using hn rfl
  rw [State.issueRefusal, if_neg hjob, if_neg hspan, if_neg (by simp [hm])]

end

/-! ## Loads (R393, R406) -/

/-- A line is held where the cache has it. -/
theorem Fabric.line_isSome (f : Fabric) (k : Nat) : (f.line k).isSome = true ↔ ∃ c ∈ f.cache, c.2.1.toNat / 128 = k := by
  simp [Fabric.line, List.find?_isSome]

/-- The packet of a load: its own bytes where RAW, else the lines that it covers, whole (R406). -/
def loadPkt (a : DWord) (n : Nat) (nocache raw : Bool) : FabPkt :=
  { blankPkt with
    op := 0x10, dst := faNode a, addr := if raw then a else BitVec.ofNat 64 (a.toNat / 128 * 128)
    lenM1 := (if raw then n else (linesOf a n).length * 128) - 1, nocache := nocache, raw := raw }

/-- The last request of a list is given what its load wants. -/
theorem mapIdx_last {l : List FabReq} {r : FabReq} {f : FabReq → FabReq} :
    ((l ++ [r]).mapIdx fun i x => if i + 1 = (l ++ [r]).length then f x else x) = l ++ [f r] := by
  rw [List.mapIdx_append]
  have hhead : (l.mapIdx fun i x => if i + 1 = (l ++ [r]).length then f x else x) = l := by
    refine (List.mapIdx_eq_iff.2 fun i => ?_ : _ = l)
    cases h : l[i]? with
    | none => rfl
    | some x =>
      have hi : i < l.length := (List.getElem?_eq_some_iff.1 h).1
      have hne : i ≠ l.length := by omega
      simp [hne]
  rw [hhead]
  simp

section

variable {s : State} {die engine compl : Nat} {a : DWord} (hs : s.live = true) (hd : die < s.part.ioDies) (he : engine < 64)

include hs hd he

theorem loadIssue_refused {n : Nat} (h0 : 0 < n) (hn : n ≤ 4096) (nocache : Bool) {raw : Bool} {st : Nat} {m : Option (List Nat)}
    (h : s.issueRefusal die engine a n raw true = some (st, m)) : exec (.loadIssue die engine a n nocache raw compl) s =
      .next (s.complete die engine compl st false false 0 0 m) := by
  refine (act_of_true (by simp [hs, hd, he, h0, hn, State.hasEngine]) s _ : execLoadIssue die engine a n nocache raw compl s = _).trans
    (congrArg _ ?_)
  rw [h]
  rfl

theorem loadIssue_served {n : Nat} (h0 : 0 < n) (hn : n ≤ 4096) (h : s.issueRefusal die engine a n false true = none)
    (hheld : ∀ k ∈ linesOf a n, ∃ c ∈ s.fab.cache, c.2.1.toNat / 128 = k) :
    ∃ c, exec (.loadIssue die engine a n false false compl) s = .next (((s.withCache c).emit
      (.loadData die engine a (bytesAt ((linesOf a n).flatMap fun k => (s.fab.line k).getD []) (a.toNat % 128) n))).complete
        die engine compl 0 false false 0 0 none) := by
  obtain ⟨c, hc⟩ := foldl_install_frame (f := fun s k => (s.fab.line k).getD []) (linesOf a n) s
  have hall : ((linesOf a n).all fun k => (s.fab.line k).isSome) = true :=
    List.all_eq_true.2 fun k hk => (Fabric.line_isSome ..).2 (hheld k hk)
  refine ⟨c, (act_of_true (by simp [hs, hd, he, h0, hn, State.hasEngine]) s _ :
    execLoadIssue die engine a n false false compl s = _).trans (congrArg _ ?_)⟩
  simp only [h, hall, hc]
  rfl

/-- A load that is sent is outstanding with what it wants. -/
theorem loadIssue_sent {n : Nat} (h0 : 0 < n) (hn : n ≤ 4096) (nocache : Bool) {raw : Bool}
    (h : s.issueRefusal die engine a n raw true = none) (hfree : (s.engineReqs die engine).length < 512)
    (hmiss : raw = true ∨ ∃ k ∈ linesOf a n, ∀ c ∈ s.fab.cache, c.2.1.toNat / 128 ≠ k) : ∃ tag t,
      exec (.loadIssue die engine a n nocache raw compl) s = .next t ∧
        Issued s t { s.requestOf die engine false (loadPkt a n nocache raw) compl tag with want := a, wantLen := n } := by
  obtain ⟨tag, t, hreq, ⟨i, hfab⟩, hmem, hdom⟩ := s.request_issues (write := false) (p := loadPkt a n nocache raw) hfree (by simp) compl
  have hheld : (!raw && (linesOf a n).all fun k => (s.fab.line k).isSome) = false := by
    obtain h | ⟨k, hk, hc⟩ := hmiss
    · simp [h]
    · have hall : ((linesOf a n).all fun k => (s.fab.line k).isSome) = false :=
        List.all_eq_false.2 ⟨k, hk, fun h => (Fabric.line_isSome ..).1 h |>.elim fun c hcc => hc c hcc.1 hcc.2⟩
      rw [hall, Bool.and_false]
  refine ⟨tag, t.setFab { t.fab with reqs := t.fab.reqs.mapIdx fun i r =>
    if i + 1 = t.fab.reqs.length then { r with want := a, wantLen := n } else r }, ?_, ⟨i, ?_⟩, hmem, hdom⟩
  · refine (act_of_true (by simp [hs, hd, he, h0, hn, State.hasEngine]) s _ :
      execLoadIssue die engine a n nocache raw compl s = _).trans (congrArg _ ?_)
    simp only [h, hheld]
    rw [if_neg (by decide)]
    have hsame : s.request die engine false { blankPkt with
        op := 0x10, dst := faNode a, addr := if raw then a else BitVec.ofNat 64 (a.toNat / 128 * 128)
        lenM1 := (if raw then n else (linesOf a n).length * 128) - 1, nocache := nocache, raw := raw } compl = some t := hreq
    rw [hsame]
  · rw [State.setFab, hfab]
    exact congrArg (fun l => ({ s.fab with issues := i, reqs := l } : Fabric)) mapIdx_last

end

/-! ## Stores and atomics (R398, R407, R409) -/

/-- A write as it is issued: outstanding with the next DSEQ of its die and node, its range dropped from the package's caches. -/
structure WriteIssued (s t : State) (r : FabReq) (a : DWord) (n : Nat) : Prop where
  reqs : t.fab.reqs = s.fab.reqs ++ [r]
  dseq : t.nextDseq r.die r.pkt.dst = if r.pkt.dseq + 1 = 0 then 1 else r.pkt.dseq + 1
  cache : ∀ c ∈ t.fab.cache, c.2.1.toNat / 128 ∉ linesOf a n
  mem : t.mem = s.mem
  dom : t.dom = s.dom

/-- A numbered request that is issued, and its range dropped. -/
theorem Issued.writeIssued {s t : State} {r : FabReq} (h : Issued s t r) (hr : r.numbered = true) (a : DWord) (n : Nat) :
    WriteIssued s (t.setFab (t.fab.dropRange a n)) r a n := by
  obtain ⟨⟨i, hfab⟩, hmem, hdom⟩ := h
  refine ⟨?_, ?_, fun c hc => ?_, hmem, hdom⟩
  · exact (congrArg Fabric.reqs hfab :)
  · show t.fab.dseq.get 1 (r.die * 256 + r.pkt.dst) = _
    rw [hfab]
    show (s.fab.dseqAfter r).get 1 (r.die * 256 + r.pkt.dst) = _
    rw [Fabric.dseqAfter, if_pos hr, Tab.get_set_self]
  · have hkept := (List.mem_filter.1 hc).2
    simpa using hkept

theorem opOfAsub_asubOf (op : AtomicOp) : opOfAsub (asubOf op) = some op := by
  cases op <;> rfl

/-- The packet of a store. -/
def storePkt (a : DWord) (data : List Byte) (raw : Bool) : FabPkt :=
  { blankPkt with op := 0x11, dst := faNode a, addr := a, lenM1 := data.length - 1, raw := raw, payload := data }

/-- The packet of an atomic (R394, R409). -/
def atomicPkt (op : AtomicOp) (wide : Bool) (a operand compare : DWord) (raw : Bool) : FabPkt :=
  { blankPkt with
    op := 0x12, dst := faNode a, addr := a, lenM1 := (if wide then 8 else 4) - 1, raw := raw, asub := asubOf op, asize := wide
    operand := operand, payload := if op = .cas then leBytes 8 compare.toNat else [] }

section

variable {s : State} {die engine compl : Nat} {a : DWord} (hs : s.live = true) (hd : die < s.part.ioDies) (he : engine < 64)
  (hfree : (s.engineReqs die engine).length < 512) (hw : s.windowOpen die (faNode a) = true)

include hs hd he hfree hw

theorem storeIssue_sent {data : List Byte} {raw : Bool} (h0 : 0 < data.length) (hn : data.length ≤ 4096)
    (h : s.issueRefusal die engine a data.length raw true = none) : ∃ tag t, exec (.storeIssue die engine a data raw compl) s = .next t ∧
      WriteIssued s t (s.requestOf die engine true (storePkt a data raw) compl tag) a data.length := by
  obtain ⟨tag, t, hreq, hissued⟩ := s.request_issues (write := true) (p := storePkt a data raw) hfree (fun _ => hw) compl
  refine ⟨tag, _, (act_of_true (by simp [hs, hd, he, h0, hn, State.hasEngine]) s _ :
    execStoreIssue die engine a data raw compl s = _).trans (congrArg _ ?_), hissued.writeIssued rfl a data.length⟩
  simp only [h]
  rw [show s.request die engine true { blankPkt with
    op := 0x11, dst := faNode a, addr := a, lenM1 := data.length - 1, raw := raw, payload := data } compl = some t from hreq]

theorem atomicIssue_sent {op : AtomicOp} {wide : Bool} {operand compare : DWord} {raw : Bool}
    (h : s.issueRefusal die engine a (if wide then 8 else 4) raw false = none) : ∃ tag t,
      exec (.atomicIssue die engine op wide a operand compare raw compl) s = .next t ∧
        WriteIssued s t (s.requestOf die engine true (atomicPkt op wide a operand compare raw) compl tag) a (if wide then 8 else 4) := by
  obtain ⟨tag, t, hreq, hissued⟩ := s.request_issues (write := true) (p := atomicPkt op wide a operand compare raw) hfree
    (fun _ => hw) compl
  have hexec : exec (.atomicIssue die engine op wide a operand compare raw compl) s = .next
      (match s.issueRefusal die engine a (if wide then 8 else 4) raw false with
      | some (st, m) => s.refuseFab die engine compl st m
      | none =>
        match s.request die engine true (atomicPkt op wide a operand compare raw) compl with
        | none => s
        | some t => t.setFab (t.fab.dropRange a (if wide then 8 else 4))) := by
    show execAtomicIssue die engine op wide a operand compare raw compl s = _
    unfold execAtomicIssue
    exact act_of_true (by simp [hs, hd, he, State.hasEngine]) s _
  refine ⟨tag, _, hexec.trans (congrArg _ ?_), hissued.writeIssued rfl a _⟩
  simp only [h, hreq]

end

/-- A window is open where every write that it holds is close behind the next DSEQ (R398). -/
theorem State.windowOpen_of {s : State} {die node : Nat}
    (h : ∀ r ∈ s.unacked die node, (s.nextDseq die node - r.pkt.dseq).toNat < 1024) : s.windowOpen die node = true :=
  List.all_eq_true.2 fun r hr => decide_eq_true (h r hr)

theorem linesOf_ne_nil (a : DWord) {n : Nat} (h : 0 < n) : 1 ≤ (linesOf a n).length := by
  rw [linesOf, List.length_map, List.length_range]
  omega

/-- Settles O37: a request that is refused completes, one that is not is issued with its engine's next tag and DSEQ. -/
theorem requestsAreIssued : Obligations.RequestsAreIssued := by
  unfold Obligations.RequestsAreIssued
  intro s die engine compl a hs hd he
  refine ⟨fun n nocache h0 hn => ⟨fun hj hne => ?job, fun hj hacross => ?across, fun hj hin hm => ?outside⟩, fun hj hm =>
    ⟨fun n nocache raw h0 hin hfree hmiss => ?load, fun n h0 hin hheld => ?held, fun hfree hwin => ?writes⟩⟩
  case job => exact loadIssue_refused hs hd he h0 hn nocache (State.issueRefusal_domain_job hj hne n true)
  case across => exact loadIssue_refused hs hd he h0 hn nocache (State.issueRefusal_across hj hacross)
  case outside => exact loadIssue_refused hs hd he h0 hn nocache (State.issueRefusal_outside hj hin hm)
  case load =>
    obtain ⟨tag, t, hexec, ⟨i, hfab⟩, hmem, hdom⟩ := loadIssue_sent (compl := compl) hs hd he h0 (by omega) nocache
      (State.issueRefusal_none hj hm (fun _ => hin) raw) hfree hmiss
    refine ⟨t, _, hexec, (congrArg Fabric.reqs hfab :), rfl, rfl, rfl, rfl, rfl, rfl, rfl, rfl, rfl, rfl, rfl, rfl, rfl,
      (congrArg Fabric.dseq hfab :), (congrArg Fabric.cache hfab :), hmem, hdom, ?_⟩
    have hlines := linesOf_ne_nil a h0
    have ha := a.isLt
    cases raw with
    | true => exact ⟨rfl, Nat.sub_add_cancel h0⟩
    | false => exact ⟨(BitVec.toNat_ofNat _ 64).trans (Nat.mod_eq_of_lt (by omega)),
        Nat.sub_add_cancel (show 1 ≤ (linesOf a n).length * 128 by omega)⟩
  case held =>
    exact loadIssue_served hs hd he h0 (by omega) (State.issueRefusal_none hj hm (fun _ => hin) false) hheld
  case writes =>
    have hw := State.windowOpen_of hwin
    refine ⟨fun data raw h0 hin => ?_, fun op wide operand compare raw => ?_⟩
    · obtain ⟨tag, t, hexec, hreqs, hdseq, hcache, hmem, hdom⟩ := storeIssue_sent (compl := compl) hs hd he hfree hw h0 (by omega)
        (State.issueRefusal_none hj hm (fun _ => hin) raw)
      exact ⟨t, _, hexec, hreqs, rfl, rfl, rfl, rfl, rfl, Nat.sub_add_cancel h0, rfl, rfl, rfl, hdseq, hcache, hmem, hdom⟩
    · obtain ⟨tag, t, hexec, hreqs, hdseq, hcache, hmem, hdom⟩ := atomicIssue_sent (compl := compl) (op := op) (operand := operand)
        (compare := compare) hs hd he hfree hw (State.issueRefusal_none (n := if wide then 8 else 4) hj hm (by simp) raw)
      exact ⟨t, _, hexec, hreqs, rfl, rfl, rfl, rfl, rfl, opOfAsub_asubOf op, rfl, rfl, rfl, fun h => if_pos h, rfl, hdseq, hcache,
        hmem, hdom⟩

end Sys2Proof.Machine
end

section
/-! PROOF. O38: invalidations, ownership transfers and fences wait for the writes before them (R404, R408, R412). -/
namespace Sys2Proof.Machine

/-! ## Open writes (R404, R408, R412) -/

theorem State.mem_openWrites {s : State} {p : Nat × Word} : (p.1, p.2) ∈ s.openWrites ↔
    (p.1, p.2 + 1) ∈ s.fab.dseq ∧ s.openUpTo (p.1 / 256) (p.1 % 256) p.2 = true := by
  have hback (d : Word) : d + 1 - 1 = d := by simp
  have hforth (d : Word) : d - 1 + 1 = d := by simp
  constructor
  · intro h
    obtain ⟨q, hq, he⟩ := List.mem_map.1 h
    obtain ⟨hmem, hopen⟩ := List.mem_filter.1 hq
    obtain ⟨h1, h2⟩ := Prod.mk.inj he
    rw [← h1, ← h2, hforth]
    exact ⟨hmem, hopen⟩
  · rintro ⟨hmem, hopen⟩
    refine List.mem_map.2 ⟨_, List.mem_filter.2 ⟨hmem, ?_⟩, ?_⟩
    · rw [hback]
      exact hopen
    · rw [hback]

/-- With no write outstanding, none is open. -/
theorem State.openWrites_of_none {s : State} (h : ∀ r ∈ s.fab.reqs, r.numbered = false) : s.openWrites = [] := by
  have hopen (die node : Nat) (d : Word) : s.openUpTo die node d = false :=
    List.any_eq_false.2 fun r hr => by simp [h r hr]
  simp [State.openWrites, hopen]

/-! ## Invalidations (R407, R408) -/

/-- The packet of an invalidation. -/
def invalPkt (a : DWord) (n node : Nat) : FabPkt :=
  { blankPkt with op := 0x13, dst := node, addr := a, operand := BitVec.ofNat 64 n }

/-- Requests of the package's own go out one after another while slots and windows allow; what was outstanding stays, and the
caches do. -/
theorem foldl_requestLater {die engine : Nat} {a : DWord} {n : Nat} (ns : List Nat) (hns : ns.Nodup) : ∀ s : State, s.fab.owed = [] →
    (s.engineReqs die engine).length + ns.length ≤ 512 → (∀ m ∈ ns, ∀ r ∈ s.fab.reqs, r.numbered = true → r.pkt.dst ≠ m) →
    let t := ns.foldl (fun s m => s.requestLater die engine (invalPkt a n m)) s
    (∀ r ∈ s.fab.reqs, r ∈ t.fab.reqs) ∧ (∀ m ∈ ns, ∃ r ∈ t.fab.reqs, r.pkt.op = 0x13 ∧ r.pkt.dst = m ∧ r.pkt.addr = a ∧
      r.pkt.operand = BitVec.ofNat 64 n ∧ r.numbered = true) ∧ t.fab.cache = s.fab.cache ∧ t.mem = s.mem := by
  induction ns with
  | nil => exact fun s _ _ _ => ⟨fun _ h => h, fun _ h => absurd h List.not_mem_nil, rfl, rfl⟩
  | cons m ns ih =>
    intro s ho hlen hdst
    obtain ⟨hm, hns⟩ := List.nodup_cons.1 hns
    rw [List.length_cons] at hlen
    have hw : s.windowOpen die m = true := by
      refine State.windowOpen_of fun r hr => ?_
      obtain ⟨hmem, hq⟩ := List.mem_filter.1 hr
      simp only [Bool.and_eq_true, decide_eq_true_eq] at hq
      exact absurd hq.2 (hdst m List.mem_cons_self r hmem hq.1.1)
    obtain ⟨tag, t, hreq, ⟨i, hfab⟩, hmem, hdom⟩ := s.request_issues (die := die) (engine := engine) (write := true)
      (p := invalPkt a n m) (by omega) (fun _ => hw) 0
    have hlater : s.requestLater die engine (invalPkt a n m) = t := by
      simp [State.requestLater, ho, hreq]
    have hreqs : t.fab.reqs = s.fab.reqs ++ [s.requestOf die engine true (invalPkt a n m) 0 tag] := (congrArg Fabric.reqs hfab :)
    have hengine : (t.engineReqs die engine).length = (s.engineReqs die engine).length + 1 := by
      unfold State.engineReqs
      rw [hreqs, List.filter_append, List.length_append]
      simp [State.requestOf]
    obtain ⟨hkeep, hsent, hcache, hmem'⟩ := ih hns t ((congrArg Fabric.owed hfab).trans ho) (by omega) fun k hk r hr hnum => by
      rw [hreqs] at hr
      obtain hr | hr := List.mem_append.1 hr
      · exact hdst k (List.mem_cons_of_mem _ hk) r hr hnum
      · rw [List.mem_singleton.1 hr]
        rintro rfl
        exact hm hk
    rw [List.foldl_cons, hlater]
    refine ⟨fun r hr => hkeep r (hreqs ▸ List.mem_append_left _ hr), fun k hk => ?_, hcache.trans (congrArg Fabric.cache hfab :),
      hmem'.trans hmem⟩
    obtain rfl | hk := List.mem_cons.1 hk
    · exact ⟨_, hkeep _ (hreqs ▸ List.mem_append_right _ (List.mem_singleton_self _)), rfl, rfl, rfl, rfl, rfl⟩
    · exact hsent k hk

/-- In the package's own lines an invalidation acts at once: the lines go, and what is outstanding stays outstanding. -/
theorem State.applyInvalidate_fab (s : State) (a : DWord) (n : Nat) :
    (∀ c ∈ (s.applyInvalidate a n).fab.cache, c.2.1.toNat / 128 ∉ linesOf a n) ∧ (s.applyInvalidate a n).fab.owed = s.fab.owed ∧
      (∀ r ∈ (s.applyInvalidate a n).fab.reqs, ∃ x ∈ s.fab.reqs, r.numbered = x.numbered) ∧
      (∀ die engine, ((s.applyInvalidate a n).engineReqs die engine).length = (s.engineReqs die engine).length) := by
  refine ⟨fun c hc => by simpa using (List.mem_filter.1 hc).2, rfl, fun r hr => ?_, fun die engine => ?_⟩
  · obtain ⟨x, hx, rfl⟩ := List.mem_map.1 hr
    exact ⟨x, hx, by split <;> rfl⟩
  · unfold State.engineReqs State.applyInvalidate updateIf
    dsimp only [State.setFab]
    rw [List.filter_map, List.length_map]
    refine congrArg List.length (List.filter_congr fun x _ => ?_)
    dsimp only [Function.comp]
    split <;> rfl

/-- An operation that names no address for its completion leaves memory. -/
theorem State.complete_mem (s : State) (die engine status : Nat) (known applied : Bool) (tag : Word) (result : Nat)
    (mask : Option (List Nat)) : (s.complete die engine 0 status known applied tag result mask).mem = s.mem := rfl

theorem State.endInval_fab (s : State) (v : Inval) (status : Nat) (nodes : List Nat) :
    (s.endInval v status nodes).fab = { s.fab with invals := s.fab.invals.erase v } := State.complete_fab ..

theorem State.endInval_mem {v : Inval} (s : State) (h : v.compl = 0) (status : Nat) (nodes : List Nat) :
    (s.endInval v status nodes).mem = s.mem := by
  unfold State.endInval
  rw [h, State.complete_mem]
  rfl

/-- With no write outstanding, an invalidation goes to each other member named, and acts in the package's own lines. -/
theorem State.sendInval_sends {s : State} {v : Inval} {nodes : W256} (hv : v.nodes = nodesOf nodes)
    (hnone : ∀ r ∈ s.fab.reqs, r.numbered = false) (ho : s.fab.owed = []) (hlen : (s.engineReqs v.die v.engine).length ≤ 256) :
    (∀ m, nodes.getLsbD m = true → s.isMember m = true → m ≠ s.dom.node → ∃ r ∈ (s.sendInval v).fab.reqs, r.pkt.op = 0x13 ∧
      r.pkt.dst = m ∧ r.pkt.addr = v.addr ∧ r.pkt.operand = BitVec.ofNat 64 v.len ∧ r.numbered = true) ∧
    (nodes.getLsbD s.dom.node = true → s.isMember s.dom.node = true →
      ∀ c ∈ (s.sendInval v).fab.cache, c.2.1.toNat / 128 ∉ linesOf v.addr v.len) ∧
    (v.compl = 0 → (s.sendInval v).mem = s.mem) := by
  unfold State.sendInval
  extract_lets members gone others s₁ blank s₂ v' _ s₃
  have hothers : others.length ≤ 256 :=
    ((List.length_filter_le ..).trans (List.length_filter_le ..)).trans (by
      rw [hv]
      exact (List.length_filter_le ..).trans (by simp))
  have hnodup : others.Nodup := by
    refine List.Nodup.filter _ (List.Nodup.filter _ ?_)
    rw [hv]
    exact (nodesOf_pairwise nodes).imp Nat.ne_of_lt
  -- The own lines leave what is outstanding, so that every window is open and the engine has its slots.
  have h₁ : s₁.fab.owed = [] ∧ (s₁.engineReqs v.die v.engine).length ≤ 256 ∧ (∀ r ∈ s₁.fab.reqs, r.numbered = false) ∧
      (members.contains s.dom.node = true → ∀ c ∈ s₁.fab.cache, c.2.1.toNat / 128 ∉ linesOf v.addr v.len) ∧ s₁.mem = s.mem := by
    unfold s₁
    split
    case isTrue h =>
      obtain ⟨hcache, howed, hreqs, hengine⟩ := s.applyInvalidate_fab v.addr v.len
      refine ⟨howed.trans ho, (hengine ..).trans_le hlen, fun r hr => ?_, fun _ => hcache, rfl⟩
      obtain ⟨x, hx, hnum⟩ := hreqs r hr
      exact hnum.trans (hnone x hx)
    case isFalse h => exact ⟨ho, hlen, hnone, fun h' => absurd h' h, rfl⟩
  obtain ⟨ho₁, hlen₁, hnone₁, hcache₁, hmem₁⟩ := h₁
  obtain ⟨-, hsent, hcache, hmem⟩ := foldl_requestLater (die := v.die) (engine := v.engine) (a := v.addr) (n := v.len) others hnodup s₁ ho₁ (by omega)
    (fun m _ r hr hnum => absurd hnum (by simp [hnone₁ r hr]))
  have hend : ∃ l, (if others.isEmpty then s₃.endInval v' (if gone.isEmpty then 0 else 0x0303) gone else s₃).fab =
      { s₂.fab with invals := l } := by
    split
    · exact ⟨_, State.endInval_fab ..⟩
    · exact ⟨_, rfl⟩
  obtain ⟨l, hend⟩ := hend
  rw [hend]
  refine ⟨fun m hm hmem hne => ?_, fun hm hself c hc => ?_, fun hc => ?_⟩
  · exact hsent m (List.mem_filter.2 ⟨List.mem_filter.2 ⟨hv ▸ mem_nodesOf.2 hm, hmem⟩, by simpa using hne⟩)
  · refine hcache₁ (List.contains_iff_mem.2 (List.mem_filter.2 ⟨hv ▸ mem_nodesOf.2 hm, hself⟩)) c ?_
    exact hcache ▸ hc
  · have h₃ : s₃.mem = s.mem := hmem.trans hmem₁
    split
    · exact (State.endInval_mem (v := v') s₃ hc ..).trans h₃
    · exact h₃

/-! ## Issue -/

section

variable {s : State} {die engine compl : Nat} (hs : s.live = true) (hd : die < s.part.ioDies) (he : engine < 64)

include hs hd he

/-- An invalidation as it is issued. -/
def State.invalOf (s : State) (die engine : Nat) (a : DWord) (n : Nat) (nodes : W256) (compl : Nat) : Inval :=
  { die := die, engine := engine, addr := a, len := n, nodes := nodesOf nodes, compl := compl, issuedAt := s.time.count
    upto := s.openWrites }

/-- The state with an invalidation issued. -/
def State.withInval (s : State) (v : Inval) : State := { s with fab := { s.fab with invals := s.fab.invals ++ [v] } }

theorem invalidateIssue_eq {a : DWord} {n : Nat} (hn : n % 128 = 0) (h0 : 128 ≤ n) (nodes : W256) :
    exec (.invalidateIssue die engine a n nodes compl) s = .next (
      if s.openWrites.isEmpty then (s.withInval (s.invalOf die engine a n nodes compl)).sendInval (s.invalOf die engine a n nodes compl)
      else s.withInval (s.invalOf die engine a n nodes compl)) :=
  (act_of_true (by simp [hs, hd, he, hn, h0, State.hasEngine]) s _ : execInvalidateIssue die engine a n nodes compl s = _)

theorem ownXferIssue_outside {node : Nat} (hm : s.isMember node = false) (job owner : Nat) :
    exec (.ownXferIssue die engine node job owner compl) s = .next (s.complete die engine compl 0x0303 false false 0 0 (some [node])) := by
  refine (act_of_true (by simp [hs, hd, he, State.hasEngine]) s _ : execOwnXferIssue die engine node job owner compl s = _).trans
    (congrArg _ (if_pos ?_))
  simp [hm]

/-- An ownership transfer as it is issued. -/
def State.xferOf (s : State) (die engine node job owner compl : Nat) : Xfer :=
  { die := die, engine := engine, node := node, job := job, owner := owner, compl := compl
    upto := s.openWrites.filter fun u => u.1 % 256 = node }

/-- The state with an ownership transfer issued. -/
def State.withXfer (s : State) (x : Xfer) : State := { s with fab := { s.fab with xfers := s.fab.xfers ++ [x] } }

theorem ownXferIssue_member {node : Nat} (hm : s.isMember node = true) (job owner : Nat) :
    exec (.ownXferIssue die engine node job owner compl) s = .next (
      if (s.openWrites.filter fun u => u.1 % 256 = node).isEmpty
      then (s.withXfer (s.xferOf die engine node job owner compl)).sendXfer (s.xferOf die engine node job owner compl)
      else s.withXfer (s.xferOf die engine node job owner compl)) := by
  refine (act_of_true (by simp [hs, hd, he, State.hasEngine]) s _ : execOwnXferIssue die engine node job owner compl s = _).trans
    (congrArg _ (if_neg ?_))
  simp [hm]

theorem fence_eq : exec (.fence die engine compl) s = .next (
    if s.openWrites.isEmpty then s.complete die engine compl 0 false false 0 0 none
    else { s with fab := { s.fab with fences := s.fab.fences ++
      [{ die := die, engine := engine, compl := compl, upto := s.openWrites, issuedAt := s.time.count }] } }) :=
  (act_of_true (by simp [hs, hd, he, State.hasEngine]) s _ : execFence die engine compl s = _)

end

/-- The packet of an ownership transfer (R404). -/
def xferPkt (x : Xfer) : FabPkt :=
  { blankPkt with
    op := 0x14, dst := x.node, addr := BitVec.ofNat 64 (x.node * 2 ^ 56 + x.job % 4096 * 2 ^ 44)
    operand := BitVec.ofNat 64 (x.owner % 256) }

/-- A transfer's address names the job. -/
theorem faJob_xferPkt {x : Xfer} (hj : x.job < 4096) : faJob (xferPkt x).addr = x.job := by
  show bits (BitVec.ofNat 64 (x.node * 2 ^ 56 + x.job % 4096 * 2 ^ 44)).toNat 55 44 = x.job
  rw [BitVec.toNat_ofNat, bits]
  omega

/-- A transfer leaves once its engine has a slot and its window is open. -/
theorem State.sendXfer_sends {s : State} {x : Xfer} (hfree : (s.engineReqs x.die x.engine).length < 512)
    (hw : s.windowOpen x.die x.node = true) : ∃ tag, (s.sendXfer x).fab.reqs =
      s.fab.reqs ++ [s.requestOf x.die x.engine true (xferPkt x) x.compl tag] ∧ (s.sendXfer x).mem = s.mem ∧ (s.sendXfer x).dom = s.dom := by
  obtain ⟨tag, t, hreq, ⟨i, hfab⟩, hmem, hdom⟩ := s.request_issues (write := true) (p := xferPkt x) hfree (fun _ => hw) x.compl
  have hsend : s.sendXfer x = t.setFab { t.fab with xfers := t.fab.xfers.erase x } := by
    unfold State.sendXfer
    dsimp only
    rw [show s.request x.die x.engine true { blankPkt with
      op := 0x14, dst := x.node, addr := BitVec.ofNat 64 (x.node * 2 ^ 56 + x.job % 4096 * 2 ^ 44)
      operand := BitVec.ofNat 64 (x.owner % 256) } x.compl = some t from hreq]
  rw [hsend]
  exact ⟨tag, (congrArg Fabric.reqs hfab :), hmem, hdom⟩

/-! ## Waits that end after 10 ms (R408, R412) -/

theorem invalidateWaitTimeout_eq {s : State} (hs : s.live = true) {i : Nat} {v : Inval} (hi : s.fab.invals[i]? = some v)
    (hv : v.sent = false) : exec (.invalidateWaitTimeout i) s = .next (
      if 250000 ≤ s.since v.issuedAt then ({ s with fab := { s.fab with invals := s.fab.invals.erase v } } : State).complete v.die v.engine
        v.compl 0x0306 false false 0 0 (some (s.unackedOf v.upto)) else s) := by
  show execInvalidateWaitTimeout i s = _
  simp only [execInvalidateWaitTimeout, hi, hs, hv]
  simp [State.endInval, State.setFab]

theorem fenceTimeout_eq {s : State} (hs : s.live = true) {i : Nat} {f : Fence} (hi : s.fab.fences[i]? = some f) :
    exec (.fenceTimeout i) s = .next (
      if 250000 ≤ s.since f.issuedAt then s.endFence f (s.fenceOpen f ++ s.fenceGone f) else s) := by
  show execFenceTimeout i s = _
  simp only [execFenceTimeout, hi, hs]
  simp

/-- A fence with destinations unreached completes with them. -/
theorem State.endFence_unreached (s : State) (f : Fence) {ns : List Nat} (h : ns ≠ []) : s.endFence f ns =
    ({ s with fab := { s.fab with fences := s.fab.fences.erase f } } : State).complete f.die f.engine f.compl 0x0306 false false 0 0
      (some ns) := by
  unfold State.endFence
  rw [if_neg (by simpa using h)]
  rfl

/-- Settles O38: each operation waits for the open writes that it records, and goes at once where there are none. -/
theorem orderedOperationsWait : Obligations.OrderedOperationsWait := by
  unfold Obligations.OrderedOperationsWait
  refine fun s hs => ⟨fun die engine compl hd he => ⟨fun a n nodes hn h0 => ⟨fun hopen => ?held, fun hnone ho hlen => ?sent⟩,
    fun node job owner => ⟨fun hm => ownXferIssue_outside hs hd he hm job owner, fun hm hopen => ?xferHeld,
      fun hm hopen hfree hwin howner hjob => ?xferSent⟩, fun hnone => ?fenceNow, fun hopen => ?fenceHeld⟩,
    fun p => State.mem_openWrites, fun i v hi hv => ⟨fun (ht : s.since v.issuedAt < 250000) => ?invalEarly,
      fun (ht : 250000 ≤ s.since v.issuedAt) => ?invalLate⟩,
    fun i f hi => ⟨fun (ht : s.since f.issuedAt < 250000) => ?fenceEarly, fun (ht : 250000 ≤ s.since f.issuedAt) hne => ?fenceLate⟩⟩
  case held =>
    rw [invalidateIssue_eq hs hd he hn h0, if_neg (by simpa using hopen)]
    rfl
  case sent =>
    have hopen := s.openWrites_of_none hnone
    obtain ⟨hgo, hcache, hmem⟩ := State.sendInval_sends (s := s.withInval (s.invalOf die engine a n nodes compl))
      (v := s.invalOf die engine a n nodes compl) rfl hnone ho hlen
    refine ⟨_, invalidateIssue_eq hs hd he hn h0 nodes, ?_⟩
    rw [hopen]
    exact ⟨fun m _ hm hmem hne => hgo m hm hmem hne, fun _ => hcache, (State.sendInval_fabWork ..).dom, hmem⟩
  case xferHeld =>
    rw [ownXferIssue_member hs hd he hm, if_neg (by simpa using hopen)]
    rfl
  case xferSent =>
    obtain ⟨tag, hreqs, hmem, hdom⟩ := State.sendXfer_sends (s := s.withXfer (s.xferOf die engine node job owner compl))
      (x := s.xferOf die engine node job owner compl) hfree (State.windowOpen_of hwin)
    rw [ownXferIssue_member hs hd he hm, hopen]
    refine ⟨_, _, rfl, hreqs, rfl, rfl, ?_, faJob_xferPkt hjob, rfl, rfl, hmem, hdom⟩
    exact (BitVec.toNat_ofNat _ 64).trans (by show owner % 256 % 2 ^ 64 = owner; omega)
  case fenceNow =>
    rw [fence_eq hs hd he, s.openWrites_of_none hnone]
    rfl
  case fenceHeld => rw [fence_eq hs hd he, if_neg (by simpa using hopen)]
  case invalEarly => rw [invalidateWaitTimeout_eq hs hi hv, if_neg (Nat.not_le.mpr ht)]
  case invalLate => rw [invalidateWaitTimeout_eq hs hi hv, if_pos ht]
  case fenceEarly => rw [fenceTimeout_eq hs hi, if_neg (Nat.not_le.mpr ht)]
  case fenceLate => rw [fenceTimeout_eq hs hi, if_pos ht, State.endFence_unreached s f hne]

end Sys2Proof.Machine
end

section
/-! PROOF. What the manager's own work leaves of its package: records of corrected errors, losses of members, the close of a steep (spec
17 R424, R427, spec 18 R442, R459, R461). -/
namespace Sys2Proof.Machine

/-! ## Corrected errors with none in handling (R442, R445) -/

theorem State.putRecord_handling (s : State) (r : W512) : (s.putRecord r).err.handling = s.err.handling := by
  unfold State.putRecord State.errRingPut
  dsimp only
  split
  · rfl
  · split <;> rfl

/-- A corrected error enters no handling. -/
theorem State.note_handling {s : State} (h : s.err.handling = []) {e : ErrIn} (hc : e.cls = 0) : (s.note e).err.handling = [] := by
  unfold State.note State.record
  dsimp only
  rw [State.judge_of_idle h, hc]
  split
  · exact h
  · split
    · split
      · split
        · exact h
        · exact (State.putRecord_handling ..).trans h
      · exact (State.putRecord_handling ..).trans h
    · refine (State.putRecord_handling ..).trans ?_
      simpa [State.enterHandling] using h

/-- Work that records corrected errors: the error state and what is sent change, and nothing enters handling. -/
structure Reported (s t : State) : Prop where
  frame : ∃ x o, t = { s with err := x, out := o }
  idle : s.err.handling = [] → t.err.handling = []

namespace Reported

variable {r s t : State}

theorem refl (s : State) : Reported s s := ⟨⟨s.err, s.out, rfl⟩, id⟩

theorem trans (h : Reported r s) (k : Reported s t) : Reported r t where
  frame := by
    obtain ⟨x, o, rfl⟩ := h.frame
    obtain ⟨y, p, rfl⟩ := k.frame
    exact ⟨y, p, rfl⟩
  idle := k.idle ∘ h.idle

end Reported

/-- With none in handling, a corrected error is recorded. -/
theorem State.raise_reported {s : State} (h : s.err.handling = []) {e : ErrIn} (hc : e.cls = 0) : Reported s (s.raise e) := by
  refine ⟨State.raise_of_idle h hc, fun _ => ?_⟩
  unfold State.raise
  split
  · exact h
  · rw [State.judge_of_idle h, hc]
    exact State.note_handling h hc

/-! ## A member that is lost (R459) -/

/-- In a domain that runs steeps, a member is recorded as lost and counted among the lost of the steep. -/
theorem State.memberLost_counts {s : State} (hi : s.err.handling = []) (hn : s.noSteeps = false) {n : Nat} (hm : s.isMember n = true)
    (hl : n ∉ s.dom.lost) (hself : n ≠ s.dom.node) (cause : Nat) : ∃ x o,
      s.memberLost n cause = { s with err := x, out := o, dom := { s.dom with lost := s.dom.lost ++ [n] } } ∧ x.handling = [] := by
  have hraise := State.raise_reported hi (e := { status := 0x0303, cls := 0, detail := n + 256 * cause }) rfl
  obtain ⟨x, o, he⟩ := hraise.frame
  have hx : x.handling = [] := by simpa [he] using hraise.idle hi
  have hadd : addNew s.dom.lost n = s.dom.lost ++ [n] := by simp [addNew, hl]
  have hn' : State.noSteeps { s with err := x, out := o, dom := { s.dom with lost := s.dom.lost ++ [n] } } = false := hn
  refine ⟨x, o, ?_, hx⟩
  unfold State.memberLost
  rw [if_neg (by simp [hm, hl, hself]), he]
  dsimp only [State.setDom]
  rw [hadd, hn']
  rfl

/-- Whoever is named, the loss of a member changes the lost of the steep and records. -/
theorem State.memberLost_frame {s : State} (hi : s.err.handling = []) (hn : s.noSteeps = false) (n cause : Nat) : ∃ x o l,
    s.memberLost n cause = { s with err := x, out := o, dom := { s.dom with lost := l } } ∧ x.handling = [] := by
  by_cases h : s.isMember n = true ∧ n ∉ s.dom.lost ∧ n ≠ s.dom.node
  · obtain ⟨x, o, he, hx⟩ := State.memberLost_counts hi hn h.1 h.2.1 h.2.2 cause
    exact ⟨x, o, _, he, hx⟩
  · refine ⟨s.err, s.out, s.dom.lost, ?_, hi⟩
    unfold State.memberLost
    rw [if_pos]
    by_contra hc
    exact h (by simpa [not_or, and_assoc] using hc)

theorem foldl_memberLost_frame (cause : Nat) (ns : List Nat) : ∀ {s : State}, s.err.handling = [] → s.noSteeps = false → ∃ x o l,
    ns.foldl (fun s n => s.memberLost n cause) s = { s with err := x, out := o, dom := { s.dom with lost := l } } ∧ x.handling = [] := by
  induction ns with
  | nil => exact fun {s} hi _ => ⟨s.err, s.out, s.dom.lost, rfl, hi⟩
  | cons n ns ih =>
    intro s hi hn
    obtain ⟨x, o, l, he, hx⟩ := State.memberLost_frame hi hn n cause
    obtain ⟨x', o', l', he', hx'⟩ := @ih { s with err := x, out := o, dom := { s.dom with lost := l } } hx hn
    exact ⟨x', o', l', by rw [List.foldl_cons, he, he'], hx'⟩

/-! ## Revisions (R173) -/

theorem State.refusals_reported {s : State} (hi : s.err.handling = []) (refused : List (Nat × Nat)) :
    Reported s (s.refusals refused) := by
  unfold State.refusals
  generalize refused.filter (fun p => s.isMember p.1) = l
  induction l generalizing s with
  | nil => exact .refl s
  | cons p l ih =>
    have h := State.raise_reported hi (e := { status := 0x0541, cls := 0, unit := 8, die := 0, pos := 1, detail := p.2 }) rfl
    exact h.trans (ih (h.idle hi))

/-- The manager's own refusal of a promoting revision, where every expert has a shadow. -/
theorem State.refuseOwn_reported {s : State} (hi : s.err.handling = []) (own : Option (Bool × Nat)) (b : Bool) :
    Reported s (match own with | some d => if b then s else s.refuseRev d.2 | none => s) := by
  cases own with
  | none => exact .refl s
  | some d =>
    cases b with
    | true => exact .refl s
    | false => exact State.raise_reported hi rfl

theorem State.sendRev_frame (s : State) (t : HomeTable) (ns : List Nat) : ∃ o,
    s.sendRev t ns = { s with rte := { s.rte with next := some t }, out := o } :=
  ⟨_, foldl_emit _ _ (s.setRte { s.rte with next := some t })⟩

/-! ## The release of a close (R424, R427, R461) -/

theorem State.closing_frame {s : State} (hi : s.err.handling = []) (refused : List (Nat × Nat)) : ∃ x o r,
    (s.closing refused).1 = { s with err := x, out := o, rte := r } := by
  unfold State.closing
  extract_lets lost rest req t own fails s₁ s₂ st s₃ repeats stays t' joins
  split
  · have h₁ : Reported s s₁ := State.refuseOwn_reported hi own (s.unshadowed lost)
    have h₂ := h₁.trans (s₁.refusals_reported (h₁.idle hi) refused)
    obtain ⟨x, o, h₂⟩ := h₂.frame
    have h₂ : s₂ = _ := h₂
    show ∃ x o r, s₃ = _
    unfold s₃
    split
    · exact ⟨x, o, s.rte, h₂⟩
    · obtain ⟨o', hsend⟩ := s₂.sendRev_frame t rest
      exact ⟨x, o', _, by rw [hsend, h₂]⟩
  · split
    · split <;> exact ⟨s.err, s.out, s.rte, rfl⟩
    · exact ⟨s.err, s.out, s.rte, rfl⟩

/-- With nobody lost, the release names the state that was asked for and answers the request. -/
theorem State.closing_unlost {s : State} (h : ∀ n ∈ s.memberList, n ∉ s.dom.lost) (refused : List (Nat × Nat)) :
    (s.closing refused).2.state = s.requested.1 ∧ (s.closing refused).2.reply = s.requested.2 := by
  have hlost : s.memberList.filter s.dom.lost.contains = [] :=
    List.filter_eq_nil_iff.2 fun n hn hc => h n hn (List.contains_iff_mem.1 hc)
  unfold State.closing
  extract_lets lost rest req t own fails s₁ s₂ st s₃ repeats stays t' joins
  rw [if_neg (by simp [lost, hlost])]
  split
  · split <;> exact ⟨rfl, rfl⟩
  · exact ⟨rfl, rfl⟩

/-- A release is kept until the standby has its record; its record goes out. -/
theorem State.replicate_frame (s : State) (o : OutRel) : ∃ h d b w r f ks x, s.replicate o =
    { s with mem := { s.mem with hbm := h, dieStore := d, badBursts := b }, waiting := w, rings := r, fab := f, links := ks, out := x,
             dom := { s.dom with outRelease := some { o with waiting := s.disc.standby != 0xFF } } } := by
  unfold State.replicate
  dsimp only
  split
  · exact ⟨s.mem.hbm, s.mem.dieStore, s.mem.badBursts, s.waiting, s.rings, s.fab, s.links, s.out, rfl⟩
  · exact State.sendOwn_frame (s.setDom { s.dom with outRelease := some { o with waiting := s.disc.standby != 0xFF } })
      s.disc.standby 62 ((s.setDom { s.dom with outRelease := some { o with waiting := s.disc.standby != 0xFF } }).repBytes o)

theorem State.replicate_dom (s : State) (o : OutRel) : (s.replicate o).dom =
    { s.dom with outRelease := some { o with waiting := s.disc.standby != 0xFF } } := by
  obtain ⟨h, d, b, w, r, f, ks, x, e⟩ := s.replicate_frame o
  rw [e]

end Sys2Proof.Machine
end

section
/-! PROOF. O32: the step barrier closes with a release; arrivals and leaves are timed (R405, R423, R424, R427, R459, R460). -/
namespace Sys2Proof.Machine

/-! ## The close (R424, R459) -/

/-- The misses of a steep counted, and the third successive one taken as a loss (R459). -/
def State.missesCounted (s : State) : State :=
  ((s.countMisses.dom.missRuns.filter fun p => 3 ≤ p.2).map Prod.fst).foldl (fun s n => s.memberLost n 4) s.countMisses

theorem State.missesCounted_frame {s : State} (hi : s.err.handling = []) (hn : s.noSteeps = false) : ∃ x o m l,
    s.missesCounted = { s with err := x, out := o, dom := { s.dom with missRuns := m, lost := l } } ∧ x.handling = [] := by
  obtain ⟨x, o, l, h, hx⟩ := foldl_memberLost_frame 4 ((s.countMisses.dom.missRuns.filter fun p => 3 ≤ p.2).map Prod.fst)
    (s := s.countMisses) hi hn
  exact ⟨x, o, _, l, h, hx⟩

/-- Where nobody missed, there is nothing to count. -/
theorem State.missesCounted_of_none {s : State} (h : ∀ n ∈ s.memberList, s.missedAt n = false) :
    s.missesCounted = { s with dom := { s.dom with missRuns := [] } } := by
  have hnone : s.memberList.filter s.missedAt = [] := List.filter_eq_nil_iff.2 fun n hn => by simp [h n hn]
  have hcount : s.countMisses = { s with dom := { s.dom with missRuns := [] } } := by
    simp [State.countMisses, hnone, State.setDom]
  rw [State.missesCounted, hcount]
  rfl

theorem steepClose_waits {s : State} (h : s.closable = false ∨ s.released = true) (refused : List (Nat × Nat)) :
    exec (.steepClose refused) s = .next s :=
  (act_of_false (by obtain h | h := h <;> simp [h]) s _ : execSteepClose refused s = _)

/-- A steep that closes: the release for the next number, by what the count and the close say. -/
theorem steepClose_closes {s : State} (hup : s.mgmtUp = true) (hr : s.dom.role = .manager) (hrun : s.steep.running = true)
    (hout : s.dom.outRelease = none) (hc : s.closable = true) (hnew : s.released = false) (hi : s.err.handling = [])
    (hn : s.noSteeps = false) (refused : List (Nat × Nat)) : ∃ (t : State) (o : OutRel), exec (.steepClose refused) s = .next t ∧
      t.dom.outRelease = some o ∧ o.rel.closed = s.steep.number ∧ o.rel.next = s.steep.number + 1 ∧ o.rel.open_ = false ∧
      o.rel.adopt = false ∧ o.rel.repeat_ = ((s.memberList.any fun n => s.dom.missed.contains n || s.missedAt n) ||
        s.missesCounted.memberList.any s.missesCounted.dom.lost.contains) ∧
      o.rel.state = (s.missesCounted.closing refused).2.state ∧ o.reply = (s.missesCounted.closing refused).2.reply := by
  have hexec : exec (.steepClose refused) s = _ :=
    (act_of_true (by simp [State.manages, hup, hr, hrun, hout, hc, hnew]) s _ : execSteepClose refused s = _)
  rw [hexec]
  extract_lets missed s₁ s₂ verdict r s₃ c mask changed rel drop _ s₄ s₅
  have hnum : s₃.steep = s.steep := by
    obtain ⟨x, o, m, l, hcount, hx⟩ := State.missesCounted_frame hi hn
    obtain ⟨x', o', q, hclose⟩ := State.closing_frame (s := s.missesCounted) (by rw [hcount]; exact hx) refused
    exact (congrArg State.steep hclose).trans (congrArg State.steep hcount :)
  refine ⟨_, _, rfl, congrArg Domain.outRelease (State.replicate_dom ..), ?_, ?_, rfl, rfl, rfl, rfl, rfl⟩
  · exact congrArg Steep.number hnum
  · exact congrArg (fun st : Steep => st.number + 1) hnum

/-! ## The release (R405, R427) -/

theorem State.foldl_objSet_dom (v : Nat) (ns : List Nat) (s : State) :
    (ns.foldl (fun s n => s.objSet (0xFE00 + n) v) s).dom = s.dom ∧ (ns.foldl (fun s n => s.objSet (0xFE00 + n) v) s).steep = s.steep := by
  obtain ⟨h, d, b, w, r, o, e⟩ := foldl_stores_frame (fun s n => s.objSet_frame (0xFE00 + n) v) ns s
  rw [e]
  exact ⟨rfl, rfl⟩

theorem releasePost_posts {s : State} {o : OutRel} (hup : s.mgmtUp = true) (hr : s.dom.role = .manager) (ho : s.dom.outRelease = some o)
    (hw : o.waiting = false) (hm : o.members = s.dom.members) : ∃ t : State, exec .releasePost s = .next t ∧ t.dom.outRelease = none ∧
      t.dom.lastRelease = some o.rel ∧ t.dom.members = s.dom.members ∧ t.dom.role = .manager ∧ t.steep = s.steep := by
  show ∃ t : State, execReleasePost s = .next t ∧ _
  unfold execReleasePost
  rw [ho]
  dsimp -zeta only
  rw [if_neg (by simp [State.manages, hup, hr, hw])]
  extract_lets before _ s₁ s₂ _ s₃ new s₄ s₅ _
  have hsame : s₂ = s₁ := if_pos hm
  have h₃ : s₃.dom.outRelease = none ∧ s₃.dom.lastRelease = some o.rel ∧ s₃.dom.members = s.dom.members ∧
      s₃.dom.role = .manager ∧ s₃.steep = s.steep := by
    refine ⟨?_, ?_, ?_, ?_, (congrArg State.steep hsame :)⟩
    · exact (congrArg (·.dom.outRelease) hsame :)
    · exact (congrArg (·.dom.lastRelease) hsame :)
    · exact (congrArg (·.dom.members) hsame :)
    · exact (congrArg (·.dom.role) hsame).trans hr
  obtain ⟨hslots, hslots'⟩ := State.foldl_objSet_dom o.rel.closed.toNat new s₃
  obtain ⟨hown, hown', -⟩ := State.foldl_sendOwn_domain 63 (relBytes o.rel) s₄.memberList s₄
  have h₅ : s₅.dom = s₃.dom ∧ s₅.steep = s₃.steep := ⟨hown.trans hslots, hown'.trans hslots'⟩
  obtain ⟨hout, hlast, hmem, hrole, hsteep⟩ := h₃
  rw [← h₅.1] at hout hlast hmem hrole
  rw [← h₅.2] at hsteep
  refine ⟨_, rfl, ?_⟩
  cases o.reply with
  | none => exact ⟨hout, hlast, hmem, hrole, hsteep⟩
  | some q =>
    by_cases ha : o.rel.adopt = true
    · simp only [ha, if_true]
      exact ⟨hout, hlast, hmem, hrole, hsteep⟩
    · simp only [ha]
      obtain ⟨h, d, b, w, r, f, ks, x, e⟩ := s₅.replyTo_frame q 1
      rw [if_neg (by decide), e]
      exact ⟨hout, hlast, hmem, hrole, hsteep⟩

/-! ## Arrivals and leaves (R423, R459, R460) -/

section

variable {s : State} (hup : s.mgmtUp = true) (hr : s.dom.role = .manager)

theorem barrierArrivalTimeout_early {first : DWord} {node : Nat} (hf : s.dom.firstArrival = some first)
    (h : s.since first < 50000000 ∨ s.arrived node = true) : exec (.barrierArrivalTimeout node) s = .next s := by
  show execBarrierArrivalTimeout node s = _
  simp only [execBarrierArrivalTimeout, hf]
  rw [if_neg]
  obtain h | h := h
  · simp [Nat.not_le.mpr h]
  · simp [h]

include hup hr

theorem barrierArrivalTimeout_late {first : DWord} {node : Nat} (hf : s.dom.firstArrival = some first) (hrun : s.steep.running = true)
    (ht : 50000000 ≤ s.since first) (ha : s.arrived node = false) :
    exec (.barrierArrivalTimeout node) s = .next (s.memberLost node 3) := by
  show execBarrierArrivalTimeout node s = _
  simp only [execBarrierArrivalTimeout, hf]
  rw [if_pos (by simp [State.manages, hup, hr, hrun, ht, ha])]

theorem leaveNotice_taken {n : List Byte × Nat} (hn : s.notice 61 = some n) :
    exec .leaveNotice s = .next ((s.take 61).memberLost n.2 1) := by
  show execLeaveNotice s = _
  simp only [execLeaveNotice, hn]
  rw [if_pos (by simp [State.manages, hup, hr])]

end

/-- Settles O32: a close by its count and its verdict, a release by what it sends, losses by what names them. -/
theorem barrierCloses : Obligations.BarrierCloses := by
  unfold Obligations.BarrierCloses
  intro s hup hr
  refine ⟨fun hrun hout refused => ⟨fun h => steepClose_waits h refused, fun hc hnew hi hn => ?closes⟩,
    fun o ho => ⟨fun hw => ?waits, fun hw hm => releasePost_posts hup hr ho hw hm⟩,
    fun hn => ⟨fun first node hf hrun => ⟨fun h => barrierArrivalTimeout_early hf h, fun ht ha hm hl hself hi => ?late⟩,
      fun n hnote hm hl hself hi => ?leaves⟩⟩
  case closes =>
    obtain ⟨t, o, hexec, hkept, hclosed, hnext, hopen, hadopt, hrep, hstate, hreply⟩ :=
      steepClose_closes hup hr hrun hout hc hnew hi hn refused
    refine ⟨t, o, hexec, hkept, hclosed, hnext, hopen, hadopt, fun ⟨n, hmem, hmiss⟩ => ?_, fun hnone => ?_⟩
    · rw [hrep, Bool.or_eq_true]
      exact .inl (List.any_eq_true.2 ⟨n, hmem, by simpa using hmiss⟩)
    · have hcount := State.missesCounted_of_none fun n hn => (hnone n hn).2.1
      obtain ⟨hst, hrep'⟩ := State.closing_unlost (s := s.missesCounted)
        (by rw [hcount]; exact fun n hn => (hnone n hn).2.2) refused
      have hmissed : (s.memberList.any fun n => s.dom.missed.contains n || s.missedAt n) = false :=
        List.any_eq_false.2 fun n hn => by simp [(hnone n hn).1, (hnone n hn).2.1]
      have hlost : s.missesCounted.memberList.any s.missesCounted.dom.lost.contains = false := by
        rw [hcount]
        exact List.any_eq_false.2 fun n hn h => (hnone n hn).2.2 (List.contains_iff_mem.1 h)
      have hreq : s.missesCounted.requested = s.requested := by rw [hcount]; rfl
      exact ⟨by rw [hrep, hmissed, hlost]; rfl, by rw [hstate, hst, hreq], by rw [hreply, hrep', hreq]⟩
  case waits =>
    show execReleasePost s = _
    simp only [execReleasePost, ho]
    rw [if_pos (by simp [hw])]
  case late =>
    obtain ⟨x, o, he, -⟩ := State.memberLost_counts hi hn hm hl hself 3
    exact ⟨_, barrierArrivalTimeout_late hup hr hf hrun ht ha, by rw [he]⟩
  case leaves =>
    obtain ⟨hb, d, b, w, r, o, htake⟩ := State.take_frame s 61
    obtain ⟨x, o', he, -⟩ := State.memberLost_counts (s := s.take 61) (n := n.2) (by rw [htake]; exact hi) (by rw [htake]; exact hn)
      (by rw [htake]; exact hm) (by rw [htake]; exact hl) (by rw [htake]; exact hself) 1
    refine ⟨_, leaveNotice_taken hup hr hnote, ?_⟩
    rw [he, htake]

end Sys2Proof.Machine
end

section
/-! PROOF. O31: domain requests are taken and act by the state of the domain (R418 to R422). -/
namespace Sys2Proof.Machine

/-! ## A request at the head of mailbox 60 (R421) -/

section

variable {s : State} (hup : s.mgmtUp = true) (hr : s.dom.role = .manager) (code : Nat) (f : DomReq → Nat → State → State)

theorem State.reqPending_take (s : State) (m : Nat) : (s.take m).reqPending = s.reqPending := by
  unfold State.reqPending
  rw [(State.take_domain s m).1]

include hup hr

theorem State.domainReq_none (h : s.notice 60 = none) : s.domainReq code f = s := by
  simp [State.domainReq, State.manages, hup, hr, h]

variable {n : List Byte × Nat} (hn : s.notice 60 = some n)

include hn

theorem State.domainReq_malformed (h : parseReq n.1 = none) : s.domainReq code f = (s.take 60).raise { status := 0x0318, cls := 0 } := by
  simp [State.domainReq, State.manages, hup, hr, hn, h]

variable {q : DomReq} {a : Nat} (hq : parseReq n.1 = some (q, a))

include hq

theorem State.domainReq_other (h : q.code ≠ code) : s.domainReq code f = s := by
  simp [State.domainReq, State.manages, hup, hr, hn, hq, h]

theorem State.domainReq_pending (h : q.code = code) (hp : s.reqPending = true) :
    s.domainReq code f = (s.take 60).replyTo q 0x200000000 := by
  simp [State.domainReq, State.manages, hup, hr, hn, hq, h, State.reqPending_take, hp]

theorem State.domainReq_taken (h : q.code = code) (hp : s.reqPending = false) : s.domainReq code f = f q a (s.take 60) := by
  simp [State.domainReq, State.manages, hup, hr, hn, hq, h, State.reqPending_take, hp]

end

/-! ## Opening releases (R420) -/

/-- A message that is taken leaves what an opening release names. -/
theorem State.openRec_take (s : State) (m : Nat) (st : DomState) (adopt : Bool) (v : Word) :
    (s.take m).openRec st adopt v = s.openRec st adopt v := by
  obtain ⟨h, d, b, w, r, o, e⟩ := State.take_frame s m
  rw [e]
  rfl

/-- An opening release goes out, and waits for the standby. -/
theorem State.openDomain_take_dom (s : State) (q : DomReq) (st : DomState) : ((s.take 60).openDomain q st).dom = { s.dom with
    outRelease := some { rel := s.openRec st false s.rte.table.rev, members := s.dom.members, reply := some q
                         waiting := s.disc.standby != 0xFF } } := by
  obtain ⟨h, d, b, w, r, o, e⟩ := State.take_frame s 60
  unfold State.openDomain
  rw [State.replicate_dom, State.openRec_take, e]

/-! ## A request that is taken (R418 to R422) -/

section

variable {s : State} {n : List Byte × Nat} {q : DomReq} {a : Nat} (hup : s.mgmtUp = true) (hr : s.dom.role = .manager)
  (hn : s.notice 60 = some n) (hq : parseReq n.1 = some (q, a)) (hp : s.reqPending = false)

include hup hr hn hq hp

/-- ENTER_TEST by the state of the domain (R419). -/
theorem enterTest_taken (hc : q.code = 1) (ready : Bool) :
    (s.dom.state = .bringup → exec (.enterTest ready) s = .next (if s.disc.inDomain && (s.take 60).canOpen ready
      then (s.take 60).openDomain q .test else (s.take 60).failReq q)) ∧
    (s.dom.state = .service → exec (.enterTest ready) s = .next ((s.take 60).setDom { s.dom with request := some q })) ∧
    (s.dom.state = .test ∨ s.dom.state = .recovery → exec (.enterTest ready) s = .next ((s.take 60).failReq q)) := by
  have hexec : exec (.enterTest ready) s = .next _ := congrArg Host.Outcome.next (State.domainReq_taken hup hr 1 _ hn hq hc hp)
  obtain ⟨hdom, hdisc, -⟩ := State.take_domain s 60
  rw [hexec, hdom, hdisc]
  exact ⟨fun h => by rw [h], fun h => by rw [h], fun h => by obtain h | h := h <;> rw [h]⟩

/-- ENTER_SERVICE by the state of the domain (R419). -/
theorem enterService_taken (hc : q.code = 2) (ready : Bool) :
    (s.dom.state = .test → exec (.enterService ready) s = .next (if s.model.isSome && ready
      then (s.take 60).setDom { s.dom with request := some q } else (s.take 60).failReq q)) ∧
    (s.dom.state = .service → exec (.enterService ready) s = .next ((s.take 60).failReq q)) ∧
    (s.dom.state = .bringup ∨ s.dom.state = .recovery → exec (.enterService ready) s = .next (
      if s.disc.inDomain && (s.model.isSome && ready) && decide (sortBy (· ≤ ·) s.rte.table.members = s.memberList) &&
        (s.take 60).canOpen ready then (s.take 60).openDomain q .service else (s.take 60).failReq q)) := by
  have hexec : exec (.enterService ready) s = .next _ := congrArg Host.Outcome.next (State.domainReq_taken hup hr 2 _ hn hq hc hp)
  obtain ⟨h, d, b, w, r, o, htake⟩ := State.take_frame s 60
  have hmodel : (s.take 60).model = s.model := by rw [htake]
  have hrte : (s.take 60).rte = s.rte := by rw [htake]
  have hlist : (s.take 60).memberList = s.memberList := by rw [htake]; rfl
  obtain ⟨hdom, hdisc, -⟩ := State.take_domain s 60
  rw [hexec]
  dsimp only
  rw [hdom, hdisc, hmodel, hrte, hlist]
  exact ⟨fun h => by rw [h], fun h => by rw [h], fun h => by obtain h | h := h <;> rw [h]⟩

/-- RETURN_TO_BRINGUP: at once where no steeps run, else with the next release (R419). -/
theorem returnToBringup_taken (hc : q.code = 3) : exec .returnToBringup s = .next (
    if s.noSteeps then ((s.take 60).enterBringup.startRound).replyTo q 1 else (s.take 60).setDom { s.dom with request := some q }) := by
  have hexec : exec .returnToBringup s = .next _ := congrArg Host.Outcome.next (State.domainReq_taken hup hr 3 _ hn hq hc hp)
  obtain ⟨hdom, hdisc, -⟩ := State.take_domain s 60
  have hno : (s.take 60).noSteeps = s.noSteeps := by rw [State.noSteeps, hdom, hdisc]; rfl
  rw [hexec, hno, hdom]

/-- The revision that an adoption prepares (R422). -/
def State.prepared (s : State) (es : List HomeEntry) : HomeTable :=
  { rev := s.rte.table.rev + 1, members := s.memberList, entries := es }

theorem adoptHomeTable_fails (hc : q.code = 4) (refused : List (Nat × Nat)) (h : s.noSteeps = false ∨ s.disc.inDomain = false ∨
    (s.take 60).readHomeTable a = none) : exec (.adoptHomeTable refused) s = .next ((s.take 60).failReq q) := by
  have hexec : exec (.adoptHomeTable refused) s = .next _ := congrArg Host.Outcome.next (State.domainReq_taken hup hr 4 _ hn hq hc hp)
  obtain ⟨hdom, hdisc, -⟩ := State.take_domain s 60
  have hno : (s.take 60).noSteeps = s.noSteeps := by rw [State.noSteeps, hdom, hdisc]; rfl
  rw [hexec, hno, hdisc]
  by_cases hrun : (!s.noSteeps || !s.disc.inDomain) = true
  · rw [if_pos hrun]
  · have hread : (s.take 60).readHomeTable a = none := by
      obtain h | h | h := h
      · simp [h] at hrun
      · simp [h] at hrun
      · exact h
    rw [if_neg hrun, hread]

/-- The state with the prepared revision sent to the members and kept for the release that names it (R173). -/
def State.revSent (s : State) (es : List HomeEntry) : State := (s.take 60).sendRev (s.prepared es) s.memberList

omit hup hr hn hq hp in
theorem State.revSent_frame (es : List HomeEntry) : ∃ h d b w r o, s.revSent es =
    { s with mem := { s.mem with hbm := h, dieStore := d, badBursts := b }, waiting := w, rings := r, out := o,
             rte := { s.rte with next := some (s.prepared es) } } := by
  obtain ⟨h, d, b, w, r, o, htake⟩ := State.take_frame s 60
  obtain ⟨o', hsend⟩ := (s.take 60).sendRev_frame (s.prepared es) s.memberList
  exact ⟨h, d, b, w, r, o', by rw [State.revSent, hsend, htake]⟩

/-- An adoption that the manager's own check passes: sent to the members, and replicated unless one refuses. -/
theorem adoptHomeTable_sent (hc : q.code = 4) (refused : List (Nat × Nat)) (hno : s.noSteeps = true) (hin : s.disc.inDomain = true)
    {es : List HomeEntry} (hread : (s.take 60).readHomeTable a = some es)
    (hok : (s.take 60).checkRevision ⟨s.rte.table.rev + 1, s.memberList, es⟩ = none) :
    exec (.adoptHomeTable refused) s = .next (
      if refused.any fun p => (s.revSent es).isMember p.1
      then (((s.revSent es).setRte { (s.revSent es).rte with next := none }).refusals refused).failReq q
      else (s.revSent es).replicate { rel := (s.revSent es).openRec (s.revSent es).dom.state true (s.rte.table.rev + 1)
                                      members := (s.revSent es).dom.members, reply := some q, waiting := true }) := by
  have hexec : exec (.adoptHomeTable refused) s = .next _ := congrArg Host.Outcome.next (State.domainReq_taken hup hr 4 _ hn hq hc hp)
  obtain ⟨h, d, b, w, r, o, htake⟩ := State.take_frame s 60
  have hrte : (s.take 60).rte = s.rte := by rw [htake]
  have hlist : (s.take 60).memberList = s.memberList := by rw [htake]; rfl
  obtain ⟨hdom, hdisc, -⟩ := State.take_domain s 60
  have hno' : (s.take 60).noSteeps = true := by rw [State.noSteeps, hdom, hdisc]; exact hno
  rw [hexec, hno', hdisc, hin, if_neg (by decide), hread]
  dsimp only
  rw [hrte, hlist, hok]
  rfl

end

section

variable {s : State} {n : List Byte × Nat} {q : DomReq} {a : Nat} (hup : s.mgmtUp = true) (hr : s.dom.role = .manager)
  (hn : s.notice 60 = some n) (hq : parseReq n.1 = some (q, a)) (hp : s.reqPending = false) (hc : q.code = 4)
  {refused : List (Nat × Nat)} (hno : s.noSteeps = true) (hin : s.disc.inDomain = true) {es : List HomeEntry}
  (hread : (s.take 60).readHomeTable a = some es)
  (hok : (s.take 60).checkRevision ⟨s.rte.table.rev + 1, s.memberList, es⟩ = none)

include hup hr hn hq hp hc hno hin hread hok

/-- An adoption that no member refuses: its record waits for the standby, and the revision for its record. -/
theorem adoptHomeTable_replicates (h : ∀ r ∈ refused, s.isMember r.1 = false) : ∃ (t : State) (o : OutRel),
    exec (.adoptHomeTable refused) s = .next t ∧ t.dom = { s.dom with outRelease := some o } ∧ o.rel.adopt = true ∧ o.rel.open_ = false ∧
      o.rel.state = s.dom.state ∧ o.rel.htRev = s.rte.table.rev + 1 ∧ o.reply = some q ∧ t.rte.next = some (s.prepared es) := by
  obtain ⟨hb, d, b, w, r, o, hsent⟩ := s.revSent_frame es
  have hany : (refused.any fun p => (s.revSent es).isMember p.1) = false := by
    rw [hsent]
    exact List.any_eq_false.2 fun p hp => Bool.eq_false_iff.1 (h p hp)
  have hdom : (s.revSent es).dom = s.dom := by rw [hsent]
  have hnext : (s.revSent es).rte.next = some (s.prepared es) := by rw [hsent]
  have hexec := adoptHomeTable_sent hup hr hn hq hp hc refused hno hin hread hok
  rw [hany, if_neg (by decide), hdom] at hexec
  obtain ⟨hb', d', b', w', r', f, ks, o', hrep⟩ := (s.revSent es).replicate_frame
    { rel := (s.revSent es).openRec s.dom.state true (s.rte.table.rev + 1), members := s.dom.members, reply := some q, waiting := true }
  refine ⟨_, { rel := (s.revSent es).openRec s.dom.state true (s.rte.table.rev + 1), members := s.dom.members, reply := some q
               waiting := (s.revSent es).disc.standby != 0xFF }, hexec, ?_, rfl, rfl, rfl, rfl, rfl, (congrArg (·.rte.next) hrep).trans hnext⟩
  rw [State.replicate_dom, hdom]

/-- An adoption that a member refuses is reported, answered and forgotten. -/
theorem adoptHomeTable_refused (h : ∃ r ∈ refused, s.isMember r.1 = true) (hi : s.err.handling = []) : ∃ t : State,
    exec (.adoptHomeTable refused) s = .next t ∧ t.dom = s.dom ∧ t.rte.next = none := by
  obtain ⟨hb, d, b, w, r, o, hsent⟩ := s.revSent_frame es
  have hany : (refused.any fun p => (s.revSent es).isMember p.1) = true := by
    rw [hsent]
    exact List.any_eq_true.2 h
  obtain ⟨x, o', hrefuse⟩ := (((s.revSent es).setRte { (s.revSent es).rte with next := none }).refusals_reported
    (by rw [hsent]; exact hi) refused).frame
  obtain ⟨hb', d', b', w', r', f, ks, o'', hreply⟩ := State.replyTo_frame
    (((s.revSent es).setRte { (s.revSent es).rte with next := none }).refusals refused) q 0x100000000
  have hexec := adoptHomeTable_sent hup hr hn hq hp hc refused hno hin hread hok
  rw [hany, if_pos rfl] at hexec
  have hdom : (s.revSent es).dom = s.dom := by rw [hsent]
  refine ⟨_, hexec, ?_, ?_⟩
  · exact (congrArg State.dom hreply).trans ((congrArg State.dom hrefuse).trans hdom)
  · exact (congrArg (·.rte.next) hreply).trans (congrArg (·.rte.next) hrefuse :)

end

/-- Where no steeps run, BRINGUP leaves nothing running and the EPOCH as it was. -/
theorem State.enterBringup_stops {s : State} (hn : s.noSteeps = true) :
    s.enterBringup.steep.running = false ∧ s.enterBringup.disc.epoch = s.disc.epoch := by
  obtain ⟨e, m, hfree⟩ := State.freeClosed_frame s.abandon
  obtain ⟨-, hsteep, hdisc⟩ := State.abortSwap_domain s.abandon.freeClosed
  have h₁ : s.enterBringup.steep = s.abandon.freeClosed.abortSwap.steep := by
    unfold State.enterBringup
    rw [if_pos hn]
    rfl
  have h₂ : s.enterBringup.disc.epoch = s.abandon.freeClosed.abortSwap.disc.epoch := by
    unfold State.enterBringup
    rw [if_pos hn]
    rfl
  rw [h₁, h₂, hsteep, hdisc, hfree]
  exact ⟨rfl, rfl⟩

/-- BRINGUP entered at once: a round starts with the next EPOCH, and the request is answered (R384, R388). -/
theorem State.enterBringup_round {s : State} (hn : s.noSteeps = true) (q : DomReq) (v : Nat) :
    (s.enterBringup.startRound.replyTo q v).dom.state = .bringup ∧ (s.enterBringup.startRound.replyTo q v).steep.running = false ∧
      (s.enterBringup.startRound.replyTo q v).disc.epoch = (s.disc.epoch + 1) % 65536 := by
  obtain ⟨hsteep, hepoch⟩ := State.enterBringup_stops hn
  obtain ⟨d, ks, o, hround⟩ := s.enterBringup.startRound_frame
  obtain ⟨r, w, hdisc⟩ := s.enterBringup.startRound_disc
  obtain ⟨h, d', b, w', r', f, ks', o', hreply⟩ := s.enterBringup.startRound.replyTo_frame q v
  rw [hreply]
  refine ⟨?_, ?_, ?_⟩
  · exact (congrArg (·.dom.state) hround).trans (State.enterBringup_dom hn).1
  · exact (congrArg (·.steep.running) hround).trans hsteep
  · rw [← hepoch]
    exact (congrArg Disc.epoch hdisc :)

/-- Settles O31: what is taken, and what it does, by the state of the domain. -/
theorem domainRequestsAct : Obligations.DomainRequestsAct := by
  unfold Obligations.DomainRequestsAct
  refine ⟨fun s ready refused hup hr p hp => ?taken, fun s n q a hup hr hn hq hreq hout hadopt => ?act⟩
  case taken =>
    have hdomain : ∃ f, exec p.1 s = .next (s.domainReq p.2 f) := by
      simp only [List.mem_cons, List.not_mem_nil, or_false] at hp
      obtain rfl | rfl | rfl | rfl := hp <;> exact ⟨_, rfl⟩
    obtain ⟨f, hexec⟩ := hdomain
    rw [hexec]
    refine ⟨fun h => by rw [State.domainReq_none hup hr _ f h], fun n hn => ⟨fun h => by rw [State.domainReq_malformed hup hr _ f hn h],
      fun q a hq => ⟨fun h => by rw [State.domainReq_other hup hr _ f hn hq h],
        fun h hpend => by rw [State.domainReq_pending hup hr _ f hn hq h hpend]⟩⟩⟩
  case act =>
    have hp : s.reqPending = false := by simp [State.reqPending, hreq, hout, hadopt]
    have hopens (st : DomState) := s.openDomain_take_dom q st
    intro fails waits opens
    refine ⟨fun hc ready => ?test, fun hc ready => ?service, fun hc => ?bringup, fun hc refused => ?adopt⟩
    case test =>
      obtain ⟨hbringup, hservice, hother⟩ := enterTest_taken hup hr hn hq hp hc ready
      refine ⟨fun h hin hopen => ?_, fun h hno => ?_, hservice, hother⟩
      · rw [if_pos (by simp [hin, hopen])] at hbringup
        exact ⟨_, _, hbringup h, hopens .test, rfl, rfl, rfl, rfl, rfl, rfl, rfl, rfl, rfl, rfl, rfl⟩
      · rw [if_neg (by obtain hno | hno := hno <;> simp [hno])] at hbringup
        exact hbringup h
    case service =>
      obtain ⟨htest, hservice, hother⟩ := enterService_taken hup hr hn hq hp hc ready
      refine ⟨fun h hm hready => ?_, fun h => ?_, fun h hin hm hopen hfits => ?_⟩
      · rw [if_pos (by simp [hm, hready])] at htest
        exact htest h
      · have hload : s.dom.state ≠ .service → (s.model.isSome && ready) = false := by
          obtain h | h | h := h
          · simp [h]
          · simp [h]
          · exact fun hne => absurd h hne
        cases hst : s.dom.state with
        | service => exact hservice hst
        | test =>
          rw [if_neg (by simp [hload (by simp [hst])])] at htest
          exact htest hst
        | bringup =>
          rw [if_neg (by simp [hload (by simp [hst])])] at hother
          exact hother (.inl hst)
        | recovery =>
          rw [if_neg (by simp [hload (by simp [hst])])] at hother
          exact hother (.inr hst)
      · obtain ⟨-, -, hother⟩ := enterService_taken hup hr hn hq hp hc true
        rw [if_pos (by simp [hin, hm, hopen, hfits])] at hother
        exact ⟨_, _, hother h, hopens .service, rfl, rfl, rfl, rfl, rfl, rfl, rfl, rfl, rfl, rfl, rfl⟩
    case bringup =>
      have hexec := returnToBringup_taken hup hr hn hq hp hc
      refine ⟨fun hno => ?_, fun hno => ?_⟩
      · rw [if_neg (by simp [hno])] at hexec
        exact hexec
      · rw [if_pos hno] at hexec
        obtain ⟨hdom, hdisc, -⟩ := State.take_domain s 60
        have hround := State.enterBringup_round (s := s.take 60) (by rw [State.noSteeps, hdom, hdisc]; exact hno) q 1
        rw [hdisc] at hround
        exact ⟨_, hexec, hround⟩
    case adopt =>
      refine ⟨fun h => adoptHomeTable_fails hup hr hn hq hp hc refused (h.imp_right .inl), fun hno hin =>
        ⟨fun h => adoptHomeTable_fails hup hr hn hq hp hc refused (.inr (.inr h)), fun es hread hok => ⟨fun hnone => ?_, fun hsome hi => ?_⟩⟩⟩
      · obtain ⟨t, o, h⟩ := adoptHomeTable_replicates hup hr hn hq hp hc hno hin hread hok hnone
        exact ⟨t, o, h⟩
      · exact adoptHomeTable_refused hup hr hn hq hp hc hno hin hread hok hsome hi

end Sys2Proof.Machine
end

section
/-! PROOF. O25: synchronisation objects, waits and messages (R415, R432, R433, R437). -/
namespace Sys2Proof.Machine

/-! ## Little-endian numbers in memory (R9) -/

theorem ofLe_leBytes (n v : Nat) : ofLe (leBytes n v) = v % 256 ^ n := by
  induction n generalizing v with
  | zero => simp [leBytes, ofLe, Nat.mod_one]
  | succ n ih =>
    have hlow : (BitVec.ofNat 8 v).toNat = v % 256 := BitVec.toNat_ofNat v 8
    rw [leBytes, ofLe, ih, hlow, Nat.pow_succ', Nat.mod_mul]

/-- What is stored reads back. -/
theorem Memory.read_write (m : Memory) (a : Nat) (bs : List Byte) : (m.write a bs).read a bs.length = bs := by
  refine List.ext_getElem (by simp [Memory.read]) fun i hi hb => ?_
  simp only [Memory.read, List.getElem_map, List.getElem_range]
  rw [Memory.byte_write_in m a i bs hb, List.getD_eq_getElem _ _ hb]

theorem Memory.num_write (m : Memory) (a n v : Nat) : Memory.num (m.write a (leBytes n v)) a n = v % 256 ^ n := by
  have hread := Memory.read_write m a (leBytes n v)
  rw [length_leBytes] at hread
  rw [Memory.num, hread, ofLe_leBytes]

/-! ## Synchronisation objects (R286, R431, R432) -/

/-- The objects lie in a stack's own window, of which no class channel is dropped. -/
theorem State.not_onDropped_objects (s : State) {a : Nat} (hlo : syncBase ≤ a) (hhi : a < syncBase + 0x80000) : s.onDropped a = false := by
  have hlo : 0x010100000000 ≤ a := hlo
  have hhi : a < 0x010100000000 + 0x80000 := hhi
  have hw : windowOf a = some (.local_ ((a - 0x010000000000) / 0x100000000)) := by
    rw [windowOf, if_neg (by omega), if_pos (by omega)]
  simp [State.onDropped, hw]

theorem State.keepDropped_objects (s : State) (a : Nat) (bs : List Byte) (hlo : syncBase ≤ a) (hhi : a + bs.length ≤ syncBase + 0x80000) :
    s.keepDropped a bs = bs := by
  induction bs generalizing a with
  | nil => rfl
  | cons b bs ih =>
    rw [List.length_cons] at hhi
    rw [State.keepDropped, s.not_onDropped_objects hlo (by omega), ih (a + 1) (by omega) (by omega)]
    rfl

theorem State.objSet_hbm (s : State) {i : Nat} (hi : i < 0x10000) (v : Nat) :
    (s.objSet i v).mem.hbm = Memory.write s.mem.hbm (objAddr i) (leBytes 8 v) := by
  have hkeep : s.keepDropped (objAddr i) (leBytes 8 v) = leBytes 8 v :=
    s.keepDropped_objects _ _ (Nat.le_add_right _ _) (by rw [length_leBytes, objAddr]; omega)
  rw [State.objSet, State.store_hbm, State.devWrite]
  simp only [hkeep, ite_self]

theorem State.objGet_objSet (s : State) {i : Nat} (hi : i < 0x10000) (v : Nat) : (s.objSet i v).objGet i = v % 2 ^ 64 := by
  rw [State.objGet, s.objSet_hbm hi]
  exact Memory.num_write ..

theorem State.objSet_eng (s : State) (i v : Nat) : (s.objSet i v).eng = s.eng := by
  obtain ⟨h, d, b, w, r, o, e⟩ := State.objSet_frame s i v
  rw [e]

theorem dField_lt (d : W512) (off n : Nat) : dField d off n < 2 ^ (8 * n) := Nat.mod_lt _ (Nat.two_pow_pos _)

/-! ## What still waits after closes have completed (R336) -/

/-- A fold of steps that each leave a waiting descriptor leaves it. -/
theorem foldl_mem_waiting {α : Type} {f : State → α → State} {w : Waiting} (l : List α)
    (hf : ∀ (s : State) a, w ∈ s.waiting → w ∈ (f s a).waiting) : ∀ s : State, w ∈ s.waiting → w ∈ (l.foldl f s).waiting := by
  induction l with
  | nil => exact fun s h => h
  | cons a l ih => exact fun s h => ih (f s a) (hf s a h)

theorem State.finish_waiting (s : State) (n : Nat) (d : W512) (status : Nat) (res : List (Nat × Nat × Nat)) :
    (s.finish n d status res).waiting = s.waiting := by
  obtain ⟨r, o, h⟩ := State.finish_frame s n d status res
  rw [h]

/-- Only closes complete. -/
theorem State.mem_waiting_settleCloses {s : State} {w : Waiting} (hw : w ∈ s.waiting) (hc : w.what.closed = none) :
    w ∈ s.settleCloses.waiting := by
  refine foldl_mem_waiting s.waiting (fun t v ht => ?_) s hw
  split
  case h_1 q k heq =>
    split
    · exact ht
    · have hne : w ≠ v := by
        rintro rfl
        rw [hc] at heq
        cases heq
      rw [State.endClose, State.finish_waiting]
      exact (List.mem_erase_of_ne hne).2 ht
  case h_2 => exact ht

/-! ## Messages on their way (R415) -/

theorem State.settleCloses_fab (s : State) : s.settleCloses.fab = s.fab := by
  obtain ⟨w, r, o, e⟩ := State.settleCloses_frame s
  rw [e]

/-- A message that ends is no longer kept; at most its descriptor ends with it. -/
theorem State.endMessage_frame (s : State) (m : MsgOut) (status : Nat) : ∃ w r o, s.endMessage m status =
    { s with fab := { s.fab with msgOut := s.fab.msgOut.erase m }, waiting := w, rings := r, out := o } := by
  unfold State.endMessage
  dsimp only
  split
  · exact ⟨s.waiting, s.rings, s.out, rfl⟩
  · rename_i r _
    split
    · rename_i w _
      obtain ⟨r', o, e⟩ := State.finish_frame (State.unwait (s.setFab { s.fab with msgOut := s.fab.msgOut.erase m }) w) r w.desc status []
      exact ⟨_, r', o, e⟩
    · exact ⟨s.waiting, s.rings, s.out, rfl⟩

/-- A message of the package's own has no descriptor. -/
theorem State.endMessage_own (s : State) {m : MsgOut} (status : Nat) (h : m.ring = none) :
    s.endMessage m status = { s with fab := { s.fab with msgOut := s.fab.msgOut.erase m } } := by
  rw [State.endMessage, h]
  rfl

/-- The fabric agent once a message has taken the next number of its destination and is kept. -/
def State.keepMessage (s : State) (ring : Option Nat) (port : Nat) (dest : DWord) (bytes : List Byte) : Fabric :=
  { s.fab with
    msgNumber := s.fab.msgNumber.set (msgKey port dest) (s.fab.msgNumber.get 1 (msgKey port dest) + 1)
    msgOut := s.fab.msgOut ++ [{
      ring := ring, port := port, dest := dest, number := s.fab.msgNumber.get 1 (msgKey port dest), bytes := bytes, sentAt := s.time.count }] }

theorem State.sendMessage_keeps (s : State) (ring : Option Nat) (port : Nat) (dest : DWord) (bytes : List Byte) :
    ∃ ks o, s.sendMessage ring port dest bytes = { s with fab := s.keepMessage ring port dest bytes, links := ks, out := o } :=
  State.sendFragments_frame _ port dest _ bytes

/-- A MSG_SEND whose buffer reads and whose destination a link reaches waits for the message it sends. -/
theorem State.sendMsg_sends (s : State) (n : Nat) {d : W512} (hr : s.readable (dField d 24 8) (dField d 32 4) = true) {port : Nat}
    (hport : port = bits (dField d 8 4) 3 0) {dest : DWord} (hdest : dest = BitVec.ofNat 64 (dField d 16 8))
    (hroute : s.messageRoute port dest = true) : ∃ ks o, s.sendMsg n d = { s with
      waiting := s.waiting ++ [⟨n, d, .message (s.fab.msgNumber.get 1 (msgKey port dest)) port dest⟩]
      fab := s.keepMessage (some n) port dest (s.devRead (dField d 24 8) (dField d 32 4)), links := ks, out := o } := by
  subst hport hdest
  rw [State.sendMsg]
  simp only [hr, hroute, Bool.not_true, Bool.false_eq_true, if_false]
  exact State.sendMessage_keeps _ ..

/-! ## The descriptors of the family (R332, R415, R432, R433) -/

/-- Only a control of a long operation has to follow an earlier one (R324). -/
theorem State.controlBefore_of_not_control (s : State) (n : Nat) {d : W512} (hop : 0x33 < dOpcode d) : s.controlBefore ⟨n, d⟩ = false := by
  simp [State.controlBefore, hop.not_ge]

section

variable {s : State} {n : Nat} {d : W512} (hl : s.live = true)
  (hfind : s.accepted.find? (fun a => a.ring = n) = some ⟨n, d⟩)
  (hcheck : ({ s with accepted := [] } : State).checkDesc n d = none)

include hl hfind hcheck

/-- An add changes its object alone and answers the sum. -/
theorem syncAdd_adds (hop : dOpcode d = 0x38) : ∃ t : State, exec (.syncAdd n) s =
      .next ((t.finish n d 0 [(16, 8, (s.objGet (dField d 8 2) + dField d 16 8) % 2 ^ 64)]).settleCloses) ∧
    t.objGet (dField d 8 2) = (s.objGet (dField d 8 2) + dField d 16 8) % 2 ^ 64 ∧
    (∀ b, b < objAddr (dField d 8 2) ∨ objAddr (dField d 8 2) + 8 ≤ b → Memory.byte t.mem.hbm b = Memory.byte s.mem.hbm b) ∧
    t.eng = s.eng := by
  have hc : exec (.syncAdd n) s = execSyncAdd n s := rfl
  unfold execSyncAdd at hc
  have hrow := row_acts_turn hl hfind (s.controlBefore_of_not_control n (by omega)) hcheck hc hop rfl
  exact ⟨(s.actedOn n d).objAdd (dField d 8 2) (dField d 16 8), hrow,
    (State.objGet_objSet _ (dField_lt d 8 2) _).trans (Nat.mod_mod _ _),
    fun _ hb => State.store_byte_out _ _ _ (by rwa [length_leBytes]),
    State.objSet_eng ..⟩

/-- The wait of a SYNC_WAIT. -/
def syncWaiting (s : State) (n : Nat) (d : W512) : Waiting :=
  ⟨n, d, .sync (dField d 8 2) (BitVec.ofNat 64 (dField d 16 8)) s.time.count (dField d 24 4)⟩

omit hl hfind hcheck in
/-- The threshold of a wait is the descriptor's. -/
theorem waiterMet_syncWaiting (s t : State) (n : Nat) (d : W512) :
    t.waiterMet (syncWaiting s n d) = decide (dField d 16 8 ≤ t.objGet (dField d 8 2)) := by
  have hthr : (BitVec.ofNat 64 (dField d 16 8)).toNat = dField d 16 8 := Nat.mod_eq_of_lt (dField_lt d 16 8)
  simp [State.waiterMet, syncWaiting, hthr]

theorem syncWait_acts (hop : dOpcode d = 0x39) : exec (.syncWait n) s =
    .next (if dField d 16 8 ≤ s.objGet (dField d 8 2) then
        (({ s.actedOn n d with waiting := s.waiting ++ [syncWaiting s n d] } : State).endWait (syncWaiting s n d) 0).settleCloses
      else ({ s.actedOn n d with waiting := s.waiting ++ [syncWaiting s n d] } : State).settleCloses) := by
  have hc : exec (.syncWait n) s = execSyncWait n s := rfl
  unfold execSyncWait at hc
  have hrow := row_acts_turn hl hfind (s.controlBefore_of_not_control n (by omega)) hcheck hc hop rfl
  refine hrow.trans (congrArg Host.Outcome.next ?_)
  have hmet : ({ s.actedOn n d with waiting := s.waiting ++ [syncWaiting s n d] } : State).waiterMet (syncWaiting s n d) =
    decide (dField d 16 8 ≤ s.objGet (dField d 8 2)) := waiterMet_syncWaiting ..
  by_cases hle : dField d 16 8 ≤ s.objGet (dField d 8 2)
  · rw [if_pos hle]
    exact congrArg State.settleCloses (if_pos (hmet.trans (decide_eq_true hle)))
  · rw [if_neg hle]
    exact congrArg State.settleCloses (if_neg (by rw [decide_eq_false hle] at hmet; exact Bool.eq_false_iff.1 hmet))

/-- A wait below its threshold stays. -/
theorem syncWait_waits (hop : dOpcode d = 0x39) (hlt : s.objGet (dField d 8 2) < dField d 16 8) :
    ∃ t : State, exec (.syncWait n) s = .next t ∧ syncWaiting s n d ∈ t.waiting ∧ t.mem = s.mem ∧ t.eng = s.eng := by
  have hexec := syncWait_acts hl hfind hcheck hop
  rw [if_neg hlt.not_ge] at hexec
  refine ⟨_, hexec, State.mem_waiting_settleCloses (List.mem_append_right _ (List.mem_singleton_self _)) rfl, ?_⟩
  obtain ⟨w, r, o, e⟩ := State.settleCloses_frame ({ s.actedOn n d with waiting := s.waiting ++ [syncWaiting s n d] } : State)
  rw [e]
  exact ⟨rfl, rfl⟩

theorem msgSend_acts (hop : dOpcode d = 0x3A) : exec (.msgSend n) s = .next (((s.actedOn n d).sendMsg n d).settleCloses) := by
  have hc : exec (.msgSend n) s = execMsgSend n s := rfl
  unfold execMsgSend at hc
  have hrow := row_acts_turn hl hfind (s.controlBefore_of_not_control n (by omega)) hcheck hc hop rfl
  exact hrow

/-- The buffer does not read. -/
theorem msgSend_unreadable (hop : dOpcode d = 0x3A) (hr : s.readable (dField d 24 8) (dField d 32 4) = false) :
    exec (.msgSend n) s = .next (((s.actedOn n d).finish n d 0x0420 []).settleCloses) := by
  have hr' : (s.actedOn n d).readable (dField d 24 8) (dField d 32 4) = false := hr
  rw [msgSend_acts hl hfind hcheck hop, State.sendMsg]
  simp [hr']

variable (hr : s.readable (dField d 24 8) (dField d 32 4) = true)

include hr

/-- No link reaches the destination. -/
theorem msgSend_unrouted (hop : dOpcode d = 0x3A)
    (hroute : s.messageRoute (bits (dField d 8 4) 3 0) (BitVec.ofNat 64 (dField d 16 8)) = false) :
    exec (.msgSend n) s = .next (((s.actedOn n d).finish n d 0x0308 []).settleCloses) := by
  have hr' : (s.actedOn n d).readable (dField d 24 8) (dField d 32 4) = true := hr
  have hroute' : (s.actedOn n d).messageRoute (bits (dField d 8 4) 3 0) (BitVec.ofNat 64 (dField d 16 8)) = false := hroute
  rw [msgSend_acts hl hfind hcheck hop, State.sendMsg]
  simp [hr', hroute']

/-- A message goes out and is kept for its acknowledgement, its descriptor waiting. -/
theorem msgSend_sends (hop : dOpcode d = 0x3A) {port : Nat} (hport : port = bits (dField d 8 4) 3 0) {dest : DWord}
    (hdest : dest = BitVec.ofNat 64 (dField d 16 8)) (hroute : s.messageRoute port dest = true) :
    ∃ t : State, exec (.msgSend n) s = .next t ∧ t.mem = s.mem ∧
      t.fab = s.keepMessage (some n) port dest (s.devRead (dField d 24 8) (dField d 32 4)) ∧
      ⟨n, d, .message (s.fab.msgNumber.get 1 (msgKey port dest)) port dest⟩ ∈ t.waiting := by
  obtain ⟨ks, o, e⟩ := (s.actedOn n d).sendMsg_sends n hr hport hdest hroute
  have hexec := msgSend_acts hl hfind hcheck hop
  rw [e] at hexec
  exact ⟨_, hexec, (Answered.refl _).settleCloses.mem, State.settleCloses_fab _,
    State.mem_waiting_settleCloses (List.mem_append_right _ (List.mem_singleton_self _)) rfl⟩

end

/-! ## Time-outs and resends (R415, R433) -/

section

variable {s : State} (hl : s.live = true) {i : Nat}

include hl

theorem syncTimeout_acts {w : Waiting} (hw : s.waiting[i]? = some w) :
    exec (.syncTimeout i) s = .next (if s.waitOver w then s.endWait w 0x0560 else s) := by
  show execSyncTimeout i s = _
  simp [execSyncTimeout, hw, hl]

variable {m : MsgOut} (hm : s.fab.msgOut[i]? = some m)

include hm

omit hl in
theorem messageRetry_early (h : s.since m.sentAt < 5000) : exec (.messageRetry i) s = .next s := by
  show execMessageRetry i s = _
  simp [execMessageRetry, hm, h]

/-- A message is resent, its retry counted. -/
theorem messageRetry_resends (h : 5000 ≤ s.since m.sentAt) (hk : m.retries < 4) :
    ∃ t : State, exec (.messageRetry i) s = .next t ∧ t.mem = s.mem ∧
      t.fab = { s.fab with msgOut := s.fab.msgOut.set i { m with retries := m.retries + 1, sentAt := s.time.count } } := by
  have hexec : exec (.messageRetry i) s = .next ((s.setFab { s.fab with
      msgOut := s.fab.msgOut.set i { m with retries := m.retries + 1, sentAt := s.time.count } }).sendFragments m.port m.dest m.number m.bytes) := by
    show execMessageRetry i s = _
    simp [execMessageRetry, hm, hl, h, hk, State.now]
  refine ⟨_, hexec, ?_⟩
  obtain ⟨ks, o, e⟩ := State.sendFragments_frame (s.setFab { s.fab with
    msgOut := s.fab.msgOut.set i { m with retries := m.retries + 1, sentAt := s.time.count } }) m.port m.dest m.number m.bytes
  rw [e]
  exact ⟨rfl, rfl⟩

/-- A message of a ring is given up. -/
theorem messageRetry_ends (h : 5000 ≤ s.since m.sentAt) (hk : 4 ≤ m.retries) (hr : m.ring.isSome = true) :
    exec (.messageRetry i) s = .next (s.endMessage m 0x0308) := by
  have hnone : m.ring.isNone = false := by simpa using hr
  show execMessageRetry i s = _
  simp [execMessageRetry, hm, hl, h, hk.not_gt, hnone]

end

/-! ## Acknowledgements (R415, R422, R427) -/

section

variable {s : State} (hl : s.live = true) {p : FabPkt} {m : MsgOut} (hm : s.ackedMessage p = some m) (hop : p.op = 0x98) (hrsvd : p.rsvd = 0)

include hl hm hop hrsvd

theorem messageAck_acts : exec (.messageAck p) s = .next (
    if m.ring.isNone && bits m.dest.toNat 5 0 = 62 then
      { s.endMessage m 0 with dom := { (s.endMessage m 0).dom with
          outRelease := (s.endMessage m 0).dom.outRelease.map fun o => { o with waiting := false } } }
    else if m.ring.isNone && bits m.dest.toNat 5 0 = 63 then (s.endMessage m 0).adoptTaken (bits m.dest.toNat 31 24)
    else s.endMessage m 0) := by
  show execMessageAck p s = _
  simp only [execMessageAck, hm, hl, hop, hrsvd, decide_true, Bool.and_self, if_true]

end

/-! ## Messages received (R415, R437) -/

theorem State.ackSend_frame (s : State) (p : FabPkt) (outer : Bool) : ∃ ks o, s.ackSend p outer = { s with links := ks, out := o } := by
  unfold State.ackSend
  dsimp only
  split
  · exact ⟨s.links, _, rfl⟩
  · split
    · exact State.fabOn_frame ..
    · exact ⟨s.links, s.out, rfl⟩

/-- A packet that carries a whole message of a member in one fragment. -/
structure WholeMessage (s : State) (p : FabPkt) : Prop where
  op : p.op = 0x18
  rsvd : p.rsvd = 0
  dst : p.dst = s.dom.node
  domain : bits p.operand.toNat 63 48 = 0
  member : s.isMember p.src = true
  index : bits p.operand.toNat 26 18 = 0
  payload : p.payload.length = bits p.operand.toNat 47 27 + 1
  short : bits p.operand.toNat 47 27 + 1 ≤ 4096

/-- The operand's fields of such a packet (R415). -/
theorem wholeMessage_of_operand {s : State} {p : FabPkt} (hop : p.op = 0x18) (hrsvd : p.rsvd = 0) (hdst : p.dst = s.dom.node)
    (hdom : p.operand.toNat < 2 ^ 48) (hsrc : s.isMember p.src = true) (hlen : p.operand.toNat / 2 ^ 27 + 1 ≤ 4096)
    (hidx : p.operand.toNat / 2 ^ 18 % 512 = 0) (hpay : p.payload.length = p.operand.toNat / 2 ^ 27 + 1) : WholeMessage s p := by
  have hlow : bits p.operand.toNat 47 27 = p.operand.toNat / 2 ^ 27 := Nat.mod_eq_of_lt (by omega)
  have hhigh : bits p.operand.toNat 63 48 = 0 := by rw [bits, Nat.div_eq_of_lt hdom, Nat.zero_mod]
  exact ⟨hop, hrsvd, hdst, hhigh, hsrc, hidx, by rw [hlow, hpay], by rwa [hlow]⟩

theorem WholeMessage.fragments {s : State} {p : FabPkt} (h : WholeMessage s p) : ceilDiv (bits p.operand.toNat 47 27 + 1) 4096 = 1 := by
  have hshort := h.short
  rw [ceilDiv, if_neg (by decide)]
  omega

theorem WholeMessage.length_min {s : State} {p : FabPkt} (h : WholeMessage s p) :
    p.payload.length = min 4096 (bits p.operand.toNat 47 27 + 1) := by
  rw [h.payload, min_eq_right h.short]

/-- A key of the messages posted names the message that a packet of this domain carries. -/
def messageKey (p : FabPkt) (k : Nat × Nat × Nat × DWord × Word) : Bool :=
  k.1 = 0 && k.2.1 = p.src && k.2.2.1 = p.srcDie && k.2.2.2.1 = p.addr && k.2.2.2.2 = p.dseq

theorem any_messageKey (p : FabPkt) (l : List (Nat × Nat × Nat × DWord × Word)) : l.any (messageKey p) = true ↔
    ∃ k ∈ l, (k.1 = 0 ∧ k.2.1 = p.src ∧ k.2.2.1 = p.srcDie ∧ k.2.2.2.1 = p.addr) ∧ k.2.2.2.2 = p.dseq := by
  simp [messageKey, and_assoc]

theorem State.post_fab {s t : State} {m : Nat} {msg : List Byte} {node die dom : Nat} (h : s.post m msg node die dom = some t) :
    t.fab = s.fab := by
  obtain ⟨hb, d, b, w, r, o, rfl⟩ := State.post_frame h
  rfl

section

variable {s : State} (hl : s.live = true) {p : FabPkt} (h : WholeMessage s p)

include hl h

/-- A copy of a message posted before is only acknowledged. -/
theorem message_copy (hcopy : s.fab.lastMsg.any (messageKey p) = true) : exec (.message p) s = .next (s.ackSend (messageAck p) false) := by
  unfold messageKey at hcopy
  show execMessage p s = _
  unfold execMessage
  refine (act_of_true ?_ s _).trans (congrArg _ ?_)
  · simp [hl, h.op, h.rsvd, h.dst, h.member, h.fragments, h.index, h.length_min]
  · rw [h.domain, if_pos hcopy]
    simp [h.fragments, h.index]

/-- Another message of one fragment is posted, and acknowledged once it is. -/
theorem message_whole (hnew : s.fab.lastMsg.any (messageKey p) = false) (hin : s.fab.msgIn = []) : exec (.message p) s = .next
    ((s.post (p.addr.toNat % 64) p.payload p.src p.srcDie 0).elim s fun t =>
      (t.setFab { t.fab with lastMsg := t.fab.lastMsg ++ [(0, p.src, p.srcDie, p.addr, p.dseq)] }).ackSend (messageAck p) false) := by
  unfold messageKey at hnew
  have hbox : bits p.addr.toNat 5 0 = p.addr.toNat % 64 := bits_from_zero ..
  have hsame : s.setFab { s.fab with msgIn := [] } = s := by rw [← hin]; rfl
  show execMessage p s = _
  unfold execMessage
  refine (act_of_true ?_ s _).trans (congrArg _ ?_)
  · simp [hl, h.op, h.rsvd, h.dst, h.member, h.fragments, h.index, h.length_min]
  · rw [h.domain, if_neg (Bool.eq_false_iff.1 hnew)]
    simp only [hin, List.find?_nil, List.length_singleton, h.fragments, Nat.lt_irrefl, if_false, List.filter_nil, hsame, hbox,
      List.flatMap_singleton]
    cases s.post (p.addr.toNat % 64) p.payload p.src p.srcDie 0 <;> rfl

end

/-- Settles O25: each row acts on the oldest accepted descriptor of its ring, a time-out or resend on the entry of its index, an
acknowledgement on the message that it names, and a whole message is posted through `State.post`. -/
theorem objectsAndMessagesWork : Obligations.ObjectsAndMessagesWork := by
  intro s hl
  refine ⟨fun n d hfind hcheck => ⟨fun hop => syncAdd_adds hl hfind hcheck hop,
    fun hop => ⟨fun hlt => syncWait_waits hl hfind hcheck hop hlt, fun hle => ?met⟩,
    fun hop => ⟨fun hr => msgSend_unreadable hl hfind hcheck hop hr, fun hr hroute => msgSend_unrouted hl hfind hcheck hr hop hroute,
      fun hr hroute => ?sends⟩⟩, fun i w obj thr t0 us hw hwhat => ?timeout,
    fun i m hm => ⟨messageRetry_early hm, messageRetry_resends hl hm, fun hlate hk hr => ?ends⟩,
    fun p m hm hop hrsvd => ⟨fun hkind => ?ack, fun hring hdest => ?adopt⟩,
    fun p hop hrsvd hdst hdom hsrc hlen hidx hpay => ?message⟩
  case met =>
    have hexec := syncWait_acts hl hfind hcheck hop
    rw [if_pos hle] at hexec
    exact hexec
  case sends =>
    obtain ⟨t, hexec, hmem, hfab, hwait⟩ := msgSend_sends hl hfind hcheck hr hop rfl rfl hroute
    refine ⟨t, hexec, hmem, ?_, ?_, hwait⟩
    · rw [hfab]
      exact Tab.get_set_self ..
    · rw [hfab]
      rfl
  case timeout =>
    have hover : s.waitOver w = (us != 0 && us * 25 ≤ s.since t0) := by rw [State.waitOver, hwhat]
    rw [syncTimeout_acts hl hw, hover]
    refine ⟨fun hearly => congrArg _ (if_neg ?_), fun hus hlate => congrArg _ (if_pos ?_)⟩
    · have hearly : us = 0 ∨ s.since t0 < us * 25 := hearly
      simp
      omega
    · have hlate : us * 25 ≤ s.since t0 := hlate
      simp [hus, hlate]
  case ends =>
    obtain ⟨w, r, o, e⟩ := s.endMessage_frame m 0x0308
    exact ⟨_, messageRetry_ends hl hm hlate hk hr, by rw [e], by rw [e]⟩
  case ack =>
    obtain ⟨w, r, o, e⟩ := s.endMessage_frame m 0
    have hadopt : ¬ (m.ring.isNone && decide (bits m.dest.toNat 5 0 = 63)) = true := by
      rcases hkind with hring | hdest
      · simp [Option.isNone_eq_false_iff.2 hring]
      · simp [hdest]
    by_cases hrel : (m.ring.isNone && decide (bits m.dest.toNat 5 0 = 62)) = true
    · refine ⟨_, (messageAck_acts hl hm hop hrsvd).trans (congrArg _ (if_pos hrel)), ?_⟩
      rw [e]
      exact ⟨rfl, rfl, fun _ _ => rfl⟩
    · refine ⟨_, (messageAck_acts hl hm hop hrsvd).trans (congrArg _ ((if_neg hrel).trans (if_neg hadopt))), by rw [e], by rw [e],
        fun hring hdest => absurd ?_ hrel⟩
      simp [hring, hdest]
  case adopt =>
    have hnot : ¬ bits m.dest.toNat 5 0 = 62 := by omega
    rw [messageAck_acts hl hm hop hrsvd, s.endMessage_own 0 hring]
    simp [hring, hdest]
  case message =>
    have hw : WholeMessage s p := wholeMessage_of_operand hop hrsvd hdst hdom hsrc hlen hidx hpay
    refine ⟨fun hcopy => message_copy hl hw ((any_messageKey p _).2 hcopy), fun hnew hin => ?_⟩
    have hexec := message_whole hl hw (Bool.eq_false_iff.2 fun hany => ?_) hin
    · refine ⟨fun t hpost => ?_, fun hpost => ⟨s, by rw [hexec, hpost]; rfl, rfl, rfl⟩⟩
      rw [hpost, Option.elim_some] at hexec
      obtain ⟨ks, o, e⟩ := State.ackSend_frame
        (t.setFab { t.fab with lastMsg := t.fab.lastMsg ++ [(0, p.src, p.srcDie, p.addr, p.dseq)] }) (messageAck p) false
      rw [e] at hexec
      refine ⟨_, hexec, rfl, List.mem_append_right _ (List.mem_singleton_self _), ?_⟩
      exact (congrArg Fabric.msgIn (State.post_fab hpost)).trans hin
    · obtain ⟨k, hk, hsame⟩ := (any_messageKey p _).1 hany
      exact hnew k hk hsame

end Sys2Proof.Machine
end
